-- ==== Sys2Proof/Word.lean ====
section
/-! DEFINITION. The word types of the device and the plain helpers over bits and bytes that every other file uses. -/

namespace Sys2Proof

/-- One byte. -/
abbrev Byte := BitVec 8
/-- A 32-bit word: length registers, signal counters, PM entries, ring positions. -/
abbrev W32 := BitVec 32
/-- A 64-bit word: registers and payloads. -/
abbrev W64 := BitVec 64
/-- A 40-bit physical address (R20). -/
abbrev Addr := BitVec 40
/-- A 64 B command record or tensor descriptor (R157, R159). -/
abbrev Line := BitVec 512
/-- A table of values by number, listing only the entries that differ from the default of their number, numbers rising. -/
abbrev Sparse (α : Type) := List (Nat × α)

/-- Field of `w` bits whose lowest bit is bit `lo`, as a number. -/
def fld {n : Nat} (r : BitVec n) (lo w : Nat) : Nat := (r.toNat >>> lo) % 2 ^ w

/-- One bit of a word. -/
def bit {n : Nat} (r : BitVec n) (i : Nat) : Bool := fld r i 1 == 1

/-- The number that bytes spell, byte 0 least significant (little-endian, 00_scope notation). -/
def leNat : List Byte → Nat
  | [] => 0
  | b :: bs => b.toNat + 256 * leNat bs

/-- The `n` bytes of a number, byte 0 least significant. -/
def leBytes : Nat → Nat → List Byte
  | 0, _ => []
  | n + 1, v => BitVec.ofNat 8 v :: leBytes n (v / 256)

/-- 1 for true, 0 for false. -/
def b2n (b : Bool) : Nat := if b then 1 else 0

/-- Ceiling of a division (0 when the divisor is 0). -/
def ceilDiv (a b : Nat) : Nat := (a + b - 1) / b

/-- A two's complement reading of the low `w` bits. -/
def sext (w v : Nat) : Int :=
  let u := v % 2 ^ w
  if u < 2 ^ (w - 1) then (u : Int) else (u : Int) - 2 ^ w

/-- The low `w` bits of an integer, as a number. -/
def lowBits (w : Nat) (v : Int) : Nat := (v % (2 ^ w : Int)).toNat

/-- Pack fields, each (low bit, width, value), into one number. -/
def pack (fs : List (Nat × Nat × Nat)) : Nat :=
  fs.foldl (fun acc f => acc + (f.2.2 % 2 ^ f.2.1) * 2 ^ f.1) 0

end Sys2Proof
end

