-- ==== Sys2Proof/Syntax.lean ====
section
/-! DEFINITION. The commands: one constructor per row of the opcode table, and the plain data that their operands carry. -/

namespace Sys2Proof

/-- What a row or a tile belongs to: the instruction, by work context, ring and ring position, and its work tile, or for MSTREAM its pass (R490). -/
structure UnitTag where
  wc : Nat := 0
  ring : Nat := 0
  pos : W32 := 0#32
  tile : Nat := 0
  deriving DecidableEq, Repr

/-- Where the feeder takes a row's elements from. -/
inductive RowSrc where
  /-- The codes that the entry carries. -/
  | codes (xs : List Nat)
  /-- AM, or WM in input-stationary mode (R42): k elements from offset `off`, `step` bytes apart (R122, R136). -/
  | mem (wm : Bool) (off step k : Nat)
  /-- A half of the window register from entry `e` on, the slice of one pixel; `last` on the last row that reads that fill (R192). -/
  | wreg (half : Fin 2) (e : Fin 1024) (last : Bool)
  deriving DecidableEq, Repr

/-- An entry of a feeder queue as the sequencer forms it (02, Feeders, beats and the valid bit). -/
structure FeedRow where
  /-- Marker: 0 a data row, 1 SWAP, 2 checksum row, 3 a piccolo issue cycle. -/
  mark : Nat := 0
  /-- Valid bit (R28). -/
  valid : Bool := true
  /-- The row's elements, K order; a piccolo cycle has 8. -/
  src : RowSrc := .codes []
  /-- Format of the streamed elements (Table 5.4). -/
  fmt : Nat := 2
  /-- Listed outlier positions of the row, and the encoding of real zero that replaces them (R69, R104). -/
  listed : List Nat := []
  zero : Nat := 0
  /-- PM entry it lands in; for a piccolo cycle, the token. -/
  entry : Nat := 0
  /-- It belongs to the first K-block and writes in place (R87). -/
  first : Bool := false
  /-- It belongs to the last K-block: its landing completes its PM entry. -/
  last : Bool := false
  /-- Piccolo: the first cycle of a block, which the shadow registers hold (R45). -/
  block : Bool := false
  /-- SWAP: the arrays that share the tile and take it in the same cycle (R38). -/
  share : BitVec 4 := 0#4
  /-- The unit it belongs to. -/
  unit : UnitTag := {}
  /-- Its data was read poisoned (R129). -/
  poison : Bool := false
  deriving DecidableEq, Repr

/-- The scales of an N-block as the weight loader reads them with its first K-block tile (R95): offset of the scale tensor in WM, log2 of G_s or 31, first output channel, channels. -/
structure ScaleLoad where
  off : Nat := 0
  gs : Nat := 0
  ch : Nat := 0
  n : Nat := 0
  deriving DecidableEq, Repr

/-- How a step of the weight loader reads (R34, R42, R45). -/
structure LoadForm where
  /-- Read from WM, or, for the activation tile of input-stationary mode, from AM (R42). -/
  wm : Bool := true
  /-- Bytes from one column to the next; piccolo: bytes from one K row to the next. -/
  step : Nat := 1
  pitch : Nat := 0
  /-- Columns that are loaded; the weight loader writes zero into the others (R203). -/
  lo : Nat := 0
  hi : Nat := 32
  /-- Offsets in WM of the codebook of the tile, or piccolo of each row group (R77). -/
  books : List Nat := []
  /-- The tile holds activations (R41). -/
  act : Bool := false
  /-- A piccolo block (R45). -/
  block : Bool := false
  scale : Option ScaleLoad := none
  unit : UnitTag := {}
  deriving DecidableEq, Repr

/-- One step of the weight loader (R34, R42, R45): where the row, or the piccolo block, is read and which arrays take it. -/
structure RowLoad extends LoadForm where
  /-- Arrays that take it: those that share the tile (R38). -/
  arrays : BitVec 4 := 1#4
  /-- Row of the array, 0 to 31. -/
  k : Nat := 0
  fmt : Nat := 2
  /-- Offset of the first element. -/
  off : Nat := 0
  deriving DecidableEq, Repr

/-- A disturbance of an array's output: the column (32 the checksum column), the row group in which it enters, in piccolo form the row, and the bits that flip. -/
structure Upset where
  col : Nat := 0
  group : Nat := 0
  row : Nat := 0
  bits : W32 := 0#32
  deriving DecidableEq, Repr

/-- A frame on the CAN bus (Table 13.10, R437). -/
structure CanFrame where
  /-- Identifier; 11 bits when `ide` is false. -/
  id : BitVec 29 := 0#29
  ide : Bool := false
  fdf : Bool := true
  brs : Bool := false
  esi : Bool := false
  rtr : Bool := false
  /-- Data bytes, at most 64. -/
  data : List Byte := []
  deriving DecidableEq, Repr

/-- An instruction of the test access port (R536). -/
inductive TapOp where
  | bypass
  | idcode
  | sample
  | extest
  /-- Any other instruction, with the debug scope that opens it. -/
  | debug (scope : Fin 4)
  deriving DecidableEq, Repr

/-- The commands that the block takes: the rows of the opcode table, in its order. A row that names an event of the hardware carries as operands what the outside, or the physics, decides. -/
inductive Instr where
  /-- PORST_N_FALL (R546): Cold reset is asserted: every island is held in reset, every ball goes to its reset state and the straps are read continuously. Operands: mask, the fuses that a programming in progress has blown when it is cut off (R522). -/
  | porstNFall (mask : BitVec 64)
  /-- PORST_N_RISE (R546): The straps and node-ID GPIOs are sampled and the boot chain starts from the boot ROM. Operands: BOOT_MODE and node-ID straps, level of TESTMODE. -/
  | porstNRise (mode : Fin 4) (node : BitVec 6) (test : Bool)
  /-- SYSRST_N_ASSERT (R547): Warm reset resets every island except the always-on timer logic; it has no effect while PORST_N is low or after a thermal trip. Operands: width of the low level in ns; mask as for PORST_N_FALL. -/
  | sysrstNAssert (ns : BitVec 32) (mask : BitVec 64)
  /-- SYSRST_N_RISE (R547): The boot chain runs again from the boot ROM and LPDDR5 is retrained, without resampling the straps. -/
  | sysrstNRise
  /-- WATCHDOG_RESET (R547): A watchdog reset acts as SYSRST_N does and records its own RESET_CAUSE. Operands: mask as for PORST_N_FALL. -/
  | watchdogReset (mask : BitVec 64)
  /-- SOFTWARE_RESET (R547): A software reset acts as SYSRST_N does and records its own RESET_CAUSE. Operands: mask as for PORST_N_FALL. -/
  | softwareReset (mask : BitVec 64)
  /-- TAP_RESET (R549): TRST_N low resets the IEEE 1149.1 TAP. -/
  | tapReset
  /-- TAP_INSTRUCTION (R536): A JTAG instruction is loaded; any instruction that is not public, and not opened by a debug token, reads as BYPASS. Operands: the instruction loaded. -/
  | tapInstruction (t : TapOp)
  /-- TU_KNOWN_ANSWER_TESTS (R525): The TU known-answer tests of its engines and TRNG complete; on failure the boot ROM enters UART recovery. Operands: whether every test passed. -/
  | tuKnownAnswerTests (ok : Bool)
  /-- BOOT_DIRECTORY_READ (R514): The boot directory of a medium is read and checked, falling back to the backup directory. Operands: medium (0 xSPI, 1 eMMC); the 512 B of its directory and of its backup. -/
  | bootDirectoryRead (m : Fin 2) (main backup : List Byte)
  /-- BOOT_IMAGE_VERIFY (R518): A boot container read from a medium is tested in order and then passed or refused. Operands: bytes of the container; bad: 0 read well, 1 the read of its header failed, 2 of its payload. -/
  | bootImageVerify (bs : List Byte) (bad : Fin 3)
  /-- UART_RECOVERY_CONTAINER (R516): A container received over the UART in recovery is checked, and on a pass it runs from RAM. Operands: bytes of the container; bad as for BOOT_IMAGE_VERIFY. -/
  | uartRecoveryContainer (bs : List Byte) (bad : Fin 3)
  /-- TRAINING_COMPLETE (R525): LPDDR5 training completes and sets DRAM_SIZE and DATA_RATE. Operands: whether it passed; size in bytes, rate in MT/s, packages and ranks found. -/
  | trainingComplete (ok : Bool) (size : BitVec 36) (rate : BitVec 16) (packages ranks : Byte)
  /-- MGC_FIRMWARE_START (R526): MGC firmware starts once the APC first stage has passed, and BOOT_STAGE becomes 1. Operands: version of the firmware. -/
  | mgcFirmwareStart (version : W32)
  /-- AC0_RELEASE (R526): MGC firmware releases AC0 at the first-stage ENTRY, no earlier than the end of training. -/
  | ac0Release
  /-- CAN_JOIN (R530): MGC firmware joins the CAN FD bus, starts heartbeats and sends the logged boot events. -/
  | canJoin
  /-- STORE_RESTORE (R326): The persistent store copies are verified and the records of the valid copy of higher generation are applied. -/
  | storeRestore
  /-- SELF_TEST_START (R529): The array self-test starts at the later of restore completion and RELEASE. -/
  | selfTestStart
  /-- SELF_TEST_COMPLETE (R500): The memory march and array tests complete and the failing arrays or cores are disabled. Operands: arrays that failed, bit 4n + a; cores whose memories failed. -/
  | selfTestComplete (fail : BitVec 64) (badMem : BitVec 16)
  /-- VERIFY_LOADER (R528): The TU tests the OS-loader container and records measurement 2 on a pass. -/
  | verifyLoader
  /-- VERIFY (R528): The TU tests a software container and adds a measurement on a pass. -/
  | verify
  /-- EXTEND (R528): The TU adds a 72 B extend record as a measurement, without testing its content. -/
  | extend
  /-- RELEASE_BOOT_PHASE (R528): The TU interface RELEASE ends the boot phase and sets BOOT_STAGE 4. -/
  | releaseBootPhase
  /-- TU_OPERATION_DONE (R527): A TU operation ends: TU_STATUS is written, DONE is set and the interrupt follows. -/
  | tuOperationDone
  /-- REVOKE (R520): A write of REVOKE blows the REVOKED fuse of a key slot, subject to the refusal conditions. -/
  | revoke
  /-- ROLLBACK_ADVANCE (R521): A write of ROLLBACK_ADVANCE blows rollback fuses up to the value written, subject to the limits. -/
  | rollbackAdvance
  /-- FUSE_LOCK (R523): A write of FUSE_LOCK locks REVOKE and ROLLBACK_ADVANCE until the next reset. -/
  | fuseLock
  /-- FUSE_PROGRAM_DONE (R522): Fuse programming completes and the fuse entries are served again. -/
  | fuseProgramDone
  /-- ATTEST_NONCE (R534): A write of a nonce starts an attestation report. -/
  | attestNonce
  /-- ATTEST_SIGNED (R534): The attestation report is signed by both identity keys and ATTEST_STATE becomes 2. -/
  | attestSigned
  /-- DEBUG_TOKEN (R538): A write of a debug token is answered OK and its test begins. -/
  | debugToken
  /-- DEBUG_TOKEN_TESTED (R538): The token test ends: scopes open or a refusal is counted, and a fresh DEBUG_NONCE is drawn. -/
  | debugTokenTested
  /-- MAILBOX_POST (R314): A mailbox slot written with STATE Posted is taken and its request queued. Operands: slot. -/
  | mailboxPost (n : Fin 8)
  /-- OD_READ (R300): The MGC serves a READ request atomically and writes the value and the result. -/
  | odRead
  /-- OD_WRITE (R299): The MGC serves a WRITE request, checking existence, access right, type and length, and range. -/
  | odWrite
  /-- OD_DESCRIBE (R315): The MGC returns the type, access, length and owner of an entry. -/
  | odDescribe
  /-- CAN_REQUEST_FRAME (R321): An OD request frame arrives on CAN FD and enters the receive FIFO, or is answered Busy when the FIFO is full. Operands: payload of the frame. -/
  | canRequestFrame (bs : List Byte)
  /-- WRITE_SEG (R318): A write segment is acknowledged, and the last segment writes and range-checks the entry. -/
  | writeSeg
  /-- READ_SEG (R319): A read segment returns its part of the value that was captured at the READ. -/
  | readSeg
  /-- ABANDON (R320): ABANDON with the open TXN ends the segmented transfer without a response. -/
  | abandon
  /-- SEG_TIMEOUT (R320): No segment arrives within SEG_TIMEOUT_MS, so the transfer ends with 0x090B. -/
  | segTimeout
  /-- HEARTBEAT (R322): The MGC sends a heartbeat frame every HEARTBEAT_MS. -/
  | heartbeat
  /-- CAN_EVENT_FRAME (R323): A copied event record of a forwarded class is sent as an event frame, within the per-breath limit. -/
  | canEventFrame
  /-- REQUEST_RUNNING (R305): A REQUESTED write of Running validates the function's whole parameter set and answers. -/
  | requestRunning
  /-- REQUEST_STOPPED (R306): A REQUESTED write of Stopped moves ACTUAL to Stopping. -/
  | requestStopped
  /-- FUNCTION_RUNNING (R303): The function's block runs with the validated set and ACTUAL becomes Running. Operands: function. -/
  | functionRunning (f : Fin 34)
  /-- START_FAILED (R305): The block fails to start, so ACTUAL returns to Stopped with ABORT_CODE 0x090F. Operands: function. -/
  | startFailed (f : Fin 34)
  /-- FUNCTION_STOPPED (R306): The function's stop condition is met and ACTUAL becomes Stopped. Operands: function. -/
  | functionStopped (f : Fin 34)
  /-- STOP_TIMEOUT (R306): STOP_TIMEOUT passes before the stop condition, so the function becomes Faulted and event 0x0921 is posted. Operands: function. -/
  | stopTimeout (f : Fin 34)
  /-- FUNCTION_FAULTED (R307): A block reports a fault, so ACTUAL becomes Faulted and event 0x0920 is posted. Operands: function, cause code of the block. -/
  | functionFaulted (f : Fin 34) (cause : BitVec 16)
  /-- STORE (R325): STORE_CMD 1 snapshots the listed entries and starts writing the older flash copy. -/
  | store
  /-- STORE_ERASE (R325): STORE_CMD 2 erases both store copies. -/
  | storeErase
  /-- STORE_COMPLETE (R325): The store write and read-back complete and STORE_STATE shows the outcome. Operands: whether the read-back verified. -/
  | storeComplete (ok : Bool)
  /-- ENABLE (R266): The CP fills and checks a work-context entry, writes the reset values and zeroes the ring tails. -/
  | enable (w : BitVec 12)
  /-- DISABLE (R266): The CP writes the entry back and sets STATE Disabled. -/
  | disable (w : BitVec 12)
  /-- CANCEL (R292): The CP increments the epoch, records the ring tails, zeroes the signals and sends the new epoch to every unit. -/
  | cancel (w : BitVec 12)
  /-- SUBMIT (R556): The CP checks a placement, admits it as a whole and writes PLACEMENT. Operands: work context, ARG. -/
  | submit (w : BitVec 12) (arg : Addr)
  /-- RELEASE (R266): After the stage rings drain, the placement's counters and bitmaps are freed and PLACEMENT becomes 0. -/
  | release (w : BitVec 12)
  /-- RESUME (R280): RESUME clears the RING_HALTED bits named in ARG. Operands: work context, mask of rings. -/
  | resume (w : BitVec 12) (mask : BitVec 8)
  /-- CTX_BASE_WRITE (R266): A write of CTX_BASE takes effect only while every work context is Disabled. -/
  | ctxBaseWrite (v : W64)
  /-- EVT_CTRL_WRITE (R289): A write of EVT_CTRL is judged by the prior ENABLE value and either applied or discarded whole. -/
  | evtCtrlWrite (v : W64)
  /-- EVT_HEAD_WRITE (R291): A write of EVT_HEAD is accepted within range and frees event-ring records, or is ignored and counted. -/
  | evtHeadWrite (v : W64)
  /-- DOORBELL_WRITE (R274): A doorbell TAIL is accepted or refused with event 0x0820. Operands: ring, value written, whether it is an aligned 8 B write. -/
  | doorbellWrite (r : BitVec 15) (v : W64) (whole : Bool)
  /-- COMPLETION_HEAD_WRITE (R284): A completion-ring head write frees slots, or is ignored with event 0x0821. Operands: work context, value written. -/
  | completionHeadWrite (w : BitVec 12) (v : W64)
  /-- CONTEXT_FILL (R271): A 256 B work-context entry is read into the context cache. -/
  | contextFill (w : BitVec 12)
  /-- CONTEXT_WRITE_THROUGH (R264): Changed RW fields are written through to the DRAM entry, combined within 1 µs. -/
  | contextWriteThrough (w : BitVec 12)
  /-- RECORD_FETCH (R276): The CP fetches ring records in position order and admits them. Operands: work context, ring 0 to 7 of it. -/
  | recordFetch (w : BitVec 12) (i : Fin 8)
  /-- DISPATCH (R279): The CP dispatches the next record by class and round-robin to a core or the MPE. -/
  | dispatch
  /-- RING_STARVED (R281): A class 2 or 3 ring waits past the starvation threshold and event 0x0823 is posted. Operands: ring. -/
  | ringStarved (r : BitVec 15)
  /-- EPOCH_RECEIVE (R293): A core, stream engine, hub or the MPE receives a new epoch and stops, retires and revokes the work context's work. Operands: node (0 to 15 cores, 16 the MPE, 17 to 24 stream engines, 25 to 28 hubs), work context. -/
  | epochReceive (node : Fin 29) (w : BitVec 12)
  /-- CANCEL_COMPLETE (R294): Once every dispatched record has retired and the counts are zero, the CANCEL completion is written. -/
  | cancelComplete (w : BitVec 12)
  /-- EVENT_RING_WRITE (R290): The CP writes a waiting event-port record into the device event ring. -/
  | eventRingWrite
  /-- MMUL (R170): Tile-form matrix multiply, walked N-block, then K-block, then rows. -/
  | mmul (n : Fin 16)
  /-- MSTREAM (R169): Stream-form matrix multiply over rows without limit, in checked passes. -/
  | mstream (n : Fin 16)
  /-- MTHIN (R163): Piccolo-form product for M of 1 to 8. -/
  | mthin (n : Fin 16)
  /-- CONV (R195): Direct convolution by the tap-stationary walk. -/
  | conv (n : Fin 16)
  /-- TCONV (R209): Transposed convolution by phase decomposition. -/
  | tconv (n : Fin 16)
  /-- MPCONV (R214): Mouthpiece-engine convolution record queued on the MPE. -/
  | mpconv
  /-- VEC_ADD (R555): Element-wise A + B. -/
  | vecAdd (n : Fin 16)
  /-- VEC_SUBTRACT (R555): Element-wise A − B. -/
  | vecSubtract (n : Fin 16)
  /-- VEC_MULTIPLY (R555): Element-wise product. -/
  | vecMultiply (n : Fin 16)
  /-- VEC_MAXIMUM (R561): Element-wise maximum, NaN propagating. -/
  | vecMaximum (n : Fin 16)
  /-- VEC_MINIMUM (R561): Element-wise minimum, NaN propagating. -/
  | vecMinimum (n : Fin 16)
  /-- VEC_ADD_IMM (R555): Add the FP32 immediate to each element. -/
  | vecAddImm (n : Fin 16)
  /-- VEC_MULTIPLY_BY_IMM (R555): Multiply each element by the FP32 immediate. -/
  | vecMultiplyByImm (n : Fin 16)
  /-- VEC_NEGATE (R555): Element-wise negation. -/
  | vecNegate (n : Fin 16)
  /-- VEC_ABSOLUTE_VALUE (R555): Element-wise absolute value. -/
  | vecAbsoluteValue (n : Fin 16)
  /-- VEC_RECIPROCAL_SQUARE_ROOT (R555): Element-wise reciprocal square root. -/
  | vecReciprocalSquareRoot (n : Fin 16)
  /-- VEC_EXPONENTIAL (R555): Element-wise exponential. -/
  | vecExponential (n : Fin 16)
  /-- VEC_SOFTMAX (R555): Softmax along AXIS. -/
  | vecSoftmax (n : Fin 16)
  /-- VEC_LAYER_NORMALISATION (R555): Layer normalisation along AXIS. -/
  | vecLayerNormalisation (n : Fin 16)
  /-- VEC_RMS_NORMALISATION (R555): Root-mean-square normalisation along AXIS. -/
  | vecRmsNormalisation (n : Fin 16)
  /-- VEC_TOP_K (R562): Top-k values to DESC_O and their indices to DESC_B along AXIS. -/
  | vecTopK (n : Fin 16)
  /-- VEC_SELECT (R563): Select the elements where A > IMM, with the count written to LEN_OUT. -/
  | vecSelect (n : Fin 16)
  /-- VEC_ACTIVATION_TABLE (R555): Activation table PARAM with linear interpolation. -/
  | vecActivationTable (n : Fin 16)
  /-- VEC_COPY_CONVERT (R555): Copy with format conversion. -/
  | vecCopyConvert (n : Fin 16)
  /-- REDUCE_SUM (R164): Sum reduction in index or arrival order. -/
  | reduceSum (n : Fin 16)
  /-- REDUCE_MAXIMUM (R561): Maximum reduction. -/
  | reduceMaximum (n : Fin 16)
  /-- REDUCE_MINIMUM (R561): Minimum reduction. -/
  | reduceMinimum (n : Fin 16)
  /-- REDUCE_ARGUMENT_OF_MAXIMUM (R561): Argument-of-maximum reduction, with the first NaN ranked highest. -/
  | reduceArgumentOfMaximum (n : Fin 16)
  /-- QROW (R101): Quantises each whole row with a generated exponent. -/
  | qrow (n : Fin 16)
  /-- FETCH (R237): The FE copies a PHYS tensor into AM, WM or a remote window. -/
  | fetch (n : Fin 16)
  /-- SPILL (R237): The FE copies an AM or WM tensor to a PHYS address or a remote window. -/
  | spill (n : Fin 16)
  /-- XFER_SEND (R226): The producer core sends a tensor as one frame on a stream channel. -/
  | xferSend (n : Fin 16)
  /-- XFER_RECV_OPEN (R554): Opens a window with a stream channel as its writer. -/
  | xferRecvOpen (n : Fin 16)
  /-- XFER_RECV_END (R151): Ends a window. -/
  | xferRecvEnd (n : Fin 16)
  /-- XFER_END_STREAM (R227): The producer ends the stream after every earlier frame. -/
  | xferEndStream (n : Fin 16)
  /-- XFER_OPEN_AGENT (R554): Opens a window for a core FE, the IPL or the MPE as writer. -/
  | xferOpenAgent (n : Fin 16)
  /-- FUSE (R248): A FUSE chain header opens the core's incoming fused hand-over windows. -/
  | fuse (n : Fin 16)
  /-- BARRIER_CORE (R251): A scope-0 barrier retires when every earlier instruction has retired and its writes are acknowledged. -/
  | barrierCore (n : Fin 16)
  /-- BARRIER_WORK_CONTEXT (R252): A scope-1 barrier: every copy waits and the CP releases all of them together. -/
  | barrierWorkContext (n : Fin 16)
  /-- SIGNAL (R165): After the earlier instructions retire, VALUE is added to a signal counter. -/
  | signal (n : Fin 16)
  /-- WAIT (R165): Issues when the signal counter minus VALUE is zero or more. -/
  | wait (n : Fin 16)
  /-- SETLEN (R177): The CP writes a length register from an immediate value or from a memory word, on every copy. -/
  | setlen (n : Fin 16)
  /-- NOP (R158): No operation. -/
  | nop (n : Fin 16)
  /-- INSTRUCTION_RETIRE (R141): An instruction retires: its destination ranges are released and its completion is written. Operands: core, or 16 for the MPE; position in its queue. -/
  | instructionRetire (n : Fin 17) (i : Fin 256)
  /-- SOURCE_RELEASE (R141): The last read of an instruction leaves the banks and its source ranges are released. Operands: core, position in its queue. -/
  | sourceRelease (n : Fin 16) (i : Fin 256)
  /-- ISSUE_CYCLE (R27): The feeder takes at most one queue entry, or one beat of an entry, per issue cycle. Operands: core; the entries that the sequencer pushes in this cycle, if any, for M0 and M1, and for M2 and M3. -/
  | issueCycle (n : Fin 16) (p q : Option FeedRow × Option FeedRow)
  /-- GROUP_CHANGEOVER (R36): A row group changes from one weight register to the other when the SWAP reaches it. Operands: core, array, row group. -/
  | groupChangeover (n : Fin 16) (a g : Fin 4)
  /-- SHADOW_ROW_LOAD (R34): The weight loader writes one shadow row and its checksum sums. Operands: core, arrays that take the row, row, format, offset of the first element, how it is read. -/
  | shadowRowLoad (n : Fin 16) (a : BitVec 4) (k fmt off : Nat) (r : LoadForm)
  /-- ROW_LANDS (R29): A row's contribution is read, checked and added into PM at t + 6 or t + 8. Operands: core, array, disturbance of the array output if any. -/
  | rowLands (n : Fin 16) (a : Fin 4) (u : Option Upset)
  /-- RAMP_DOWN_START (R53): A gap reaches DRONE_LIMIT and ramp-down begins. -/
  | rampDownStart (n : Fin 16) (a : Fin 4)
  /-- RAMP_DOWN_STEP (R53): A ramp-down step of RAMP_DOWN/4 cycles ends and the drone density falls. -/
  | rampDownStep (n : Fin 16) (a : Fin 4)
  /-- RAMP_UP_STEP (R54): A ramp-up step ends and the permitted row density rises by a quarter. -/
  | rampUpStep (n : Fin 16) (a : Fin 4)
  /-- DUTY_WINDOW (R50): An aligned 16-cycle window begins and the current duty limit applies. -/
  | dutyWindow (n : Fin 16) (a : Fin 4)
  /-- REGION_RELEASE (R61): Once the checks and outlier sums are done, the PM region is released to the drain. Operands: core, position of the instruction, work tile. -/
  | regionRelease (n : Fin 16) (i : Fin 256) (t : BitVec 16)
  /-- DRAIN_ENTRY (R97): The VU drains and rescales a PM entry and narrows it to the destination. Operands: core, position of the instruction, work tile, row, disturbance met in the checks if any. -/
  | drainEntry (n : Fin 16) (i : Fin 256) (t : BitVec 16) (m : W32) (u : Option Upset)
  /-- OUTLIER_SUM (R105): The VU forms the FP32 outlier sums of a row. Operands: core, position of the instruction, work tile and row. -/
  | outlierSum (n : Fin 16) (i : Fin 256) (t : BitVec 16 × W32)
  /-- CALIB_WINDOW_CLOSE (R108): A saturation slot's window closes at its 2^CALIB_WINDOW-th value. Operands: core, saturation slot. -/
  | calibWindowClose (n k : Fin 16)
  /-- TILE_REQUEST (R180): The hub serves a tile request atomically with t, Exhausted or Stale. -/
  | tileRequest (n : Fin 16)
  /-- TILE_GRANT_RECEIVE (R181): A core receives a tile reply and works, finishes or retires Cancelled. -/
  | tileGrantReceive (n : Fin 16)
  /-- TILE_CLAIM (R182): The hub tests and sets a tile's bitmap bit, and DONE increases on success. -/
  | tileClaim (n : Fin 16)
  /-- WREG_FILL (R192): The conv front fills one half of the window register. Operands: core, position of the instruction, work tile, tap row and column, K-block. -/
  | wregFill (n : Fin 16) (i : Fin 256) (t : W32) (ky kx : Fin 16) (kb : BitVec 12)
  /-- CORE_MEMORY_READ (R126): A core-memory read passes the correction stage and returns its data. Operands: core, memory (0 WM, 1 AM, 2 PM, 3 descriptor store), word, upset of the word (0 none, 1 one bit, 2 two bits). -/
  | coreMemoryRead (n : Fin 16) (mem : Fin 4) (w : BitVec 17) (u : Fin 3)
  /-- SCRUB_WRITE (R127): The scrubber rewrites a corrected word in an idle slot 6. Operands: core, memory as for CORE_MEMORY_READ. -/
  | scrubWrite (n : Fin 16) (mem : Fin 4)
  /-- PATROL_READ (R127): The scrubber reads the next word every SCRUB_INTERVAL cycles. Operands: core, memory and upset as for CORE_MEMORY_READ. -/
  | patrolRead (n : Fin 16) (mem : Fin 4) (u : Fin 3)
  /-- NARROW_WRITE (R132): A 4 to 16 B write merges into a gather-buffer entry. Operands: core, position of the instruction, WM or AM, offset, byte enables, bytes, poison. -/
  | narrowWrite (n : Fin 16) (i : Fin 256) (wm : Bool) (off : BitVec 20) (mask : BitVec 16) (bs : List Byte) (p : Bool)
  /-- GATHER_FLUSH (R133): A gather entry flushes, with a read-merge-write for a partial mask. Operands: core, WM or AM, entry counted from the oldest. -/
  | gatherFlush (n : Fin 16) (wm : Bool) (k : Fin 4)
  /-- GATHER_TIMEOUT (R133): 64 cycles pass since an entry's last write and the entry flushes. Operands: core, WM or AM, entry counted from the oldest. -/
  | gatherTimeout (n : Fin 16) (wm : Bool) (k : Fin 4)
  /-- GRANULE_ARRIVE (R146): A granule arriving at a landing buffer is checked against the window and written. Operands: core, WM or AM, offset, unit of the stream, writer, epoch, bytes each with its poison, END and HOLLOW marks. -/
  | granuleArrive (n : Fin 16) (wm : Bool) (off : BitVec 20) (u : W32) (writer : BitVec 16) (epoch : BitVec 8) (bs : List (Byte × Bool)) (last hollow : Bool)
  /-- WINDOW_DRAIN_TIMEOUT (R151): WINDOW_DRAIN_CYCLES pass without a granule and a closing or revoked window closes. Operands: node (0 to 15 cores, 16 the MPE, 17 + n the back end of image context n), window. -/
  | windowDrainTimeout (node : Fin 33) (i : Fin 20)
  /-- CREDIT_RETURN (R149): The core returns the freed credits of a window, at most every 16 cycles. Operands: node and window as for WINDOW_DRAIN_TIMEOUT. -/
  | creditReturn (node : Fin 33) (i : Fin 20)
  /-- SB_PARTIAL_WRITE (R153): A write of fewer than 64 B to the SB is merged inside its slice. Operands: agent (none: the APC), address, bytes, poison, upsets of the two halves of the granule. -/
  | sbPartialWrite (g : Option (Fin 8)) (a : Addr) (bs : List Byte) (p : Bool) (u0 u1 : Fin 3)
  /-- CHANNEL_DESCRIPTOR_WRITE (R224): An 8 B write to a channel descriptor is applied only while the channel is idle. Operands: channel, word, value, whether it is an aligned 8 B write. -/
  | channelDescriptorWrite (ch : BitVec 9) (k : Fin 8) (v : W64) (whole : Bool)
  /-- CHANNEL_ACTIVE (R225): A channel becomes active when every window receiver has opened, and it reads its epoch. -/
  | channelActive (ch : BitVec 9)
  /-- UNIT_SEND (R229): A stream engine sends a unit by class priority and round-robin. -/
  | unitSend (e : Fin 8)
  /-- STALL_TIMEOUT (R232): The stall timer reaches its timeout and the receivers lacking credit are detached. -/
  | stallTimeout (ch : BitVec 9)
  /-- HOLLOW_UNIT_SEND (R233): A hollow unit owed to a detached receiver is sent when it grants credit. Operands: channel, receiver. -/
  | hollowUnitSend (ch : BitVec 9) (r : Fin 4)
  /-- STREAM_END_SEND (R227): A STREAM_END granule carrying SENT is sent after the owed hollow units. Operands: channel, receiver. -/
  | streamEndSend (ch : BitVec 9) (r : Fin 4)
  /-- CHANNEL_CANCEL_DONE (R258): A cancelling channel returns to idle once every sent granule is acknowledged. -/
  | channelCancelDone (ch : BitVec 9)
  /-- FE_TRANSFER (R239): The FE sets up and moves one contiguous transfer of at most 64 KiB. -/
  | feTransfer (n : Fin 16)
  /-- FE_GRANULE_RETURN (R256): A read granule returns to the landing buffer, and is landed or discarded when its epoch is stale. -/
  | feGranuleReturn (n : Fin 16)
  /-- LOAD_TURN_GRANT (R244): The CP grants a load turn in rotation to the next requesting core. -/
  | loadTurnGrant (w : BitVec 12)
  /-- MPE_RECORD_RESIDENT (R216): An MPCONV record's buffer allocation fits, so it becomes resident and opens its window. -/
  | mpeRecordResident
  /-- MPE_LINE (R213): The MPE computes one output line of a resident record. Operands: disturbances of the first computation and of the retry. -/
  | mpeLine (u1 u2 : Option Upset)
  /-- IDLE_BURSTS (R331): An HS burst start on an unterminated port is counted only. -/
  | idleBursts (p : Fin 4)
  /-- HS_BURST (R334): The equaliser adapts and the sync word is sought on every lane. Operands: port, whether the sync word was found on every lane. -/
  | hsBurst (p : Fin 4) (sync : Bool)
  /-- DESKEW_SEQUENCE (R333): A deskew sequence trains the lane skew. Operands: port, initial or periodic. -/
  | deskewSequence (p : Fin 4) (initial : Bool)
  /-- PACKET_HEADER (R336): A packet header's ECC is checked and a single-bit error corrected. Operands: port, virtual channel, data type, word count, ECC outcome (0 clean, 1 corrected, 2 uncorrectable). -/
  | packetHeader (p : Fin 4) (vc : Fin 16) (dt : BitVec 6) (word : BitVec 16) (ecc : Fin 3)
  /-- FRAME_START_PACKET (R340): A frame-start packet is numbered and opens or drops a frame. -/
  | frameStartPacket (p : Fin 4)
  /-- FRAME_END_PACKET (R342): A frame-end packet closes the frame. -/
  | frameEndPacket (p : Fin 4)
  /-- FRAME_TIMEOUT (R342): FRAME_TIMEOUT_MS passes without a frame end, so the frame closes with NO_FE. -/
  | frameTimeout (n : Fin 16)
  /-- IMAGE_LINE_PACKET (R341): An image-data long packet becomes the frame's next line after the CRC and length checks. Operands: port, payload, whether the CRC is right. -/
  | imageLinePacket (p : Fin 4) (payload : List Byte) (crcOk : Bool)
  /-- EMBEDDED_DATA_PACKET (R348): An embedded-data packet is written into the frame's slot. Operands: port, payload. -/
  | embeddedDataPacket (p : Fin 4) (payload : List Byte)
  /-- EMBEDDED_STAMP_WRITE (R348): The stamp is written into the slot after every embedded byte is acknowledged. -/
  | embeddedStampWrite (n : Fin 16)
  /-- I3C_WRITE (R352): Sensor-control CMD KIND 0: write. -/
  | i3cWrite (p : Fin 4) (addr : BitVec 7) (wlen : BitVec 8)
  /-- I3C_READ (R352): Sensor-control CMD KIND 1: read. -/
  | i3cRead (p : Fin 4) (addr : BitVec 7) (rlen : BitVec 8)
  /-- I3C_WRITE_THEN_READ (R352): Sensor-control CMD KIND 2: write then read with a repeated start. -/
  | i3cWriteThenRead (p : Fin 4) (addr : BitVec 7) (wlen rlen : BitVec 8)
  /-- I3C_CCC (R352): Sensor-control CMD KIND 3: direct or broadcast CCC. -/
  | i3cCcc (p : Fin 4) (ccc : Byte) (addr : BitVec 7) (wlen rlen : BitVec 8) (direct : Bool)
  /-- I3C_COMMAND_DONE (R352): A software command completes: RX_BUF, then RESULT, then DONE. Operands: port, RESULT code, bytes transferred, bytes read. -/
  | i3cCommandDone (p : Fin 4) (code : Fin 5) (bytes : BitVec 9) (rx : List Byte)
  /-- IBI (R354): An in-band interrupt is acknowledged and its payload taken into IBI_INFO. Operands: port, dynamic address of the target, payload byte. -/
  | ibi (p : Fin 4) (addr : BitVec 7) (payload : Option Byte)
  /-- TRIGGER_PULSE_START (R355): CAMTRIG pulse begins TRIG_OFFSET_US after a selected breath boundary. -/
  | triggerPulseStart (p : Fin 4)
  /-- TRIGGER_PULSE_END (R355): CAMTRIG pulse ends after TRIG_WIDTH_US. -/
  | triggerPulseEnd (p : Fin 4)
  /-- RAW_FRONT_LINE (R358): The raw front processes a line and stores it in the line memories. -/
  | rawFrontLine
  /-- SHADOW_WRITE (R368): A shadow-set write is applied, or held until a latch copy completes. Operands: image context, offset in its shadow set, bytes. -/
  | shadowWrite (n : Fin 16) (off : BitVec 14) (bs : List Byte)
  /-- LATCH_COPY_DONE (R368): The 288-cycle latch copy completes and the held writes and the first line proceed. -/
  | latchCopyDone (n : Fin 16)
  /-- PAIR_SEGMENT_SEND (R379): The IPL sends a stripe's pair segment to the MPE window and frees the line bits. -/
  | pairSegmentSend (n : Fin 16)
  /-- BACK_END_LINE (R380): The back end takes a line once its units have landed and frees them. -/
  | backEndLine (n : Fin 16)
  /-- BE_TIMEOUT (R381): The back-end window receives no unit for BE_TIMEOUT_MS. -/
  | beTimeout (n : Fin 16)
  /-- DEMOSAIC_LINE (R382): The fallback demosaic produces a line of linear RGB. -/
  | demosaicLine (n : Fin 16)
  /-- FORMATTER_LINE (R386): A formatter crops, scales, converts and writes an output line. Operands: image context, formatter. -/
  | formatterLine (n : Fin 16) (f : Fin 3)
  /-- FORMATTER_HEADER (R391): After the lines are acknowledged, the output header is written and the signal posted. Operands: image context, formatter. -/
  | formatterHeader (n : Fin 16) (f : Fin 3)
  /-- FRAME_FINISHED (R394): Every formatter header is written and every line has left the line memories. -/
  | frameFinished (n : Fin 16)
  /-- STATS_RECORD (R405): A tap's zones, histograms and header are written and its signal posted. Operands: image context, tap. -/
  | statsRecord (n : Fin 16) (tap : Fin 2)
  /-- LEDGER_ARM (R407): A word-0 write of STATE 1 arms a ledger entry. Operands: port, entry, TAG. -/
  | ledgerArm (p : Fin 4) (e : Fin 16) (tag : Byte)
  /-- LEDGER_DISARM (R407): A write of STATE 0 disarms an Armed entry. Operands: port, entry, TAG. -/
  | ledgerDisarm (p : Fin 4) (e : Fin 16) (tag : Byte)
  /-- LEDGER_ISSUE (R408): At the issue moment the entry becomes Issuing and its transfer starts. Operands: port, entry. -/
  | ledgerIssue (p : Fin 4) (e : Fin 16)
  /-- LEDGER_TRANSFER_STOP (R411): The ledger transfer's STOP makes the entry Done, Late or Failed. Operands: port, RESULT code. -/
  | ledgerTransferStop (p : Fin 4) (code : Fin 6)
  /-- PDM_SAMPLE (R420): The decimators produce one sample per microphone. Operands: the 16 kHz outputs rather than the 48 kHz ones; the outputs by microphone. -/
  | pdmSample (slow : Bool) (v : List (BitVec 24))
  /-- TDM_FRAME_SYNC (R421): A TDM frame-sync edge is timestamped in breath time. Operands: port, slots as received. -/
  | tdmFrameSync (t : Fin 2) (v : List W32)
  /-- AUDIO_BLOCK_WRITE (R427): A block's samples, then its header, then its signal are written. Operands: group; samples per channel dropped in the staging, from first on. -/
  | audioBlockWrite (g : Fin 8) (first lost : BitVec 16)
  /-- QUEUE_TAIL_WRITE (R430): A TAIL write hands descriptors to the port DMA. Operands: port, queue, value. -/
  | queueTailWrite (p : Fin 4) (q : Fin 32) (v : W64)
  /-- QCTRL_WRITE (R431): A QCTRL write; clearing ENABLE aborts the buffer in use and clears HALTED. Operands: port, queue, value. -/
  | qctrlWrite (p : Fin 4) (q : Fin 32) (v : W64)
  /-- DESCRIPTOR_COMPLETE (R431): The data, then the descriptor write-back, then HEAD, then the interrupt. Operands: port, queue; for a USB OUT endpoint the bytes of the transfer that the buffer takes, whether the transfer ends, whether a CRC failed. -/
  | descriptorComplete (p : Fin 4) (q : Fin 32) (bs : List Byte) (eop bad : Bool)
  /-- USB_VBUS_CHANGE (R433): USB_VBUS validity changes and the terminations connect or disconnect. -/
  | usbVbusChange (valid : Bool)
  /-- USB_BUS_RESET (R433): A bus reset aborts buffers in use and clears the endpoint configurations. -/
  | usbBusReset
  /-- USB_SOF (R433): An SOF or timestamp packet updates SOF_TIME. -/
  | usbSof
  /-- ETH_FRAME_RECEIVE (R434): A received Ethernet frame is routed to its queue or dropped, and timestamped. Operands: MAC, frame without its FCS, whether the FCS is wrong. -/
  | ethFrameReceive (e : Fin 2) (f : List Byte) (fcsBad : Bool)
  /-- PTP_TICK (R436): The PTP clock advances by PTP_INCR every 8 ns. -/
  | ptpTick
  /-- PTP_STEP (R436): A write of PTP_STEP adds an offset to the PTP clock at once. -/
  | ptpStep (v : W64)
  /-- PTP_CAPTURE (R436): A write of 1 copies the clock into PTP_SNAP. -/
  | ptpCapture (v : W64)
  /-- PTP_PPS (R445): GPIO0 pulses for 1 ms at each whole PTP second. -/
  | ptpPps
  /-- CAN_FRAME_RECEIVE (R438): A received CAN frame goes to the MGC FIFO, to queue 1, or is filtered out. -/
  | canFrameReceive (f : CanFrame)
  /-- CAN_ARBITRATION (R439): The held MGC or APC frame with the lower identifier is offered, and a loser is retried. Operands: whether the frame offered won. -/
  | canArbitration (won : Bool)
  /-- CAN_BUS_OFF (R440): The controller enters bus-off and posts event 0x0D04. Operands: transmit error count. -/
  | canBusOff (tec : Byte)
  /-- CAN_BUS_RECOVERY (R440): The controller rejoins after 128 × 11 recessive bits or an AUTO_RECOVER write. -/
  | canBusRecovery
  /-- UART_DATA_READ (R444): A read of the UART data register removes a byte. Operands: bytes that have arrived since the last read. -/
  | uartDataRead (arrived : List Byte)
  /-- GPIO_EDGE (R445): A selected GPIO edge sets IRQ_STATUS. Operands: pin, level it goes to. -/
  | gpioEdge (i : Fin 32) (level : Bool)
  /-- APC_CACHE_UNCORRECTABLE (R448): An uncorrectable cache error faults the access, poisons the line and raises PLIC source 23. -/
  | apcCacheUncorrectable (a : Addr)
  /-- PLIC_CLAIM (R450): A PLIC claim clears the pending bit of an edge source. Operands: context. -/
  | plicClaim (c : Fin 12)
  /-- REGION_ENTRY_WRITE (R463): An 8 B write to a region entry is applied atomically, or discarded under the lock and enable rules. Operands: region, word, value, whether the MGC writes, whether it is an aligned 8 B write. -/
  | regionEntryWrite (r : Fin 16) (k : Fin 4) (v : W64) (fromMgc whole : Bool)
  /-- DRAM_ACCESS (R462): An engine access is checked per granule against the regions and served coherently. Operands: agent (none: the APC), address, bytes to read, write rather than read, bytes to write, poison, link error met (0 none, 1 corrected, 2 or 3 uncorrectable in the low or high half). -/
  | dramAccess (g : Option (Fin 8)) (a : Addr) (n : BitVec 16) (write : Bool) (bs : List Byte) (p : Bool) (err : Fin 4)
  /-- UNMAPPED_ACCESS (R21): An access to an unmapped address returns zero or is discarded, and event 0x0110 is posted. Operands: agent (none: the APC), address, write rather than read, whether it is an aligned 8 B access. -/
  | unmappedAccess (g : Option (Fin 8)) (a : Addr) (write whole : Bool)
  /-- REFRESH (R458): The DMC refreshes a bank at its temperature-scaled interval. -/
  | refresh (c : Fin 8)
  /-- RETRAIN_DUE (R459): RETRAIN_INTERVAL_MS or a temperature change makes a channel's retraining due. -/
  | retrainDue (c : Fin 8)
  /-- RETRAIN_CHANNEL_DONE (R459): A channel's retraining ends, and on failure it keeps its settings and posts event 0x0E04. Operands: whether it passed, its length in ns, corrected write errors that the DRAM reports. -/
  | retrainChannelDone (ok : Bool) (ns : BitVec 32) (k : BitVec 32)
  /-- FREQUENCY_STEP (R472): An island changes frequency at a cycle boundary, ordering it with the voltage change. Operands: island (0 to 15 cores, 16 the APC). -/
  | frequencyStep (i : Fin 17)
  /-- CLOCK_STOP (R473): A fully idle core island with every array gated for 1,024 cycles stops its clock. -/
  | clockStop (n : Fin 16)
  /-- CLOCK_RESTART (R473): A dispatch, granule or counter reply restarts a stopped core island. -/
  | clockRestart (n : Fin 16)
  /-- AVS_UPDATE (R474): Every 10 µs the island voltage steps by the least monitor slack. Operands: core, least slack of the last 10 us as a signed number of ps. -/
  | avsUpdate (n : Fin 16) (slack : BitVec 16)
  /-- AVS_RECOVERY (R475): After 10 ms without shortfall the frequency rises a step. -/
  | avsRecovery (n : Fin 16)
  /-- DROOP_STRETCH (R476): The droop detector stretches the next clock period. Operands: core, slack of the replica as a signed number of ps. -/
  | droopStretch (n : Fin 16) (slack : BitVec 16)
  /-- MONITOR_READ (R477): The MGC reads each mapped rail of the current monitor. Operands: rail, whether the read was good, voltage in mV, current count, RESULT code of a failed read. -/
  | monitorRead (k : Fin 8) (ok : Bool) (mv count : BitVec 16) (code : Fin 5)
  /-- BELLOWS_WINDOW (R478): At each 100 µs window end the bellows sets T and writes the core limits. -/
  | bellowsWindow
  /-- THERMAL_SAMPLE (R483): The MGC reads every junction sensor once per millisecond and adjusts the thermal limits. Operands: readings of sensors 0 to 19, signed, in tenths of a degree. -/
  | thermalSample (ts : List (BitVec 16))
  /-- BREATH_BOUNDARY (R485): A breath boundary falls and the breath number increments. -/
  | breathBoundary
  /-- SYNC_REFERENCE_EVENT (R487): A due reference event moves the next boundary or changes the lock state. Operands: none: an edge of SYNC_IN; else the image context whose frame-start packet arrives. -/
  | syncReferenceEvent (icn : Option (Fin 16))
  /-- REGISTER_WRITE (R9): A write to a register or field that has no behaviour of its own stores its value. Operands: address, log2 of the size in bytes, value. -/
  | registerWrite (a : Addr) (k : Fin 4) (v : W64)
  /-- ETH_LINK_CHANGE (R434): An Ethernet MAC's link goes up or down or changes speed; LINK is updated, a lost link aborts the buffers in use, and PLIC source 16 or 17 is raised. Operands: MAC, LINK. -/
  | ethLinkChange (e : Fin 2) (link : Fin 5)
  /-- USB_LINK_SPEED_CHANGE (R433): The USB link changes speed or power state, or is lost; LINK_SPEED is updated, buffers in use abort on loss, and PLIC source 15 is raised. Operands: LINK_SPEED. -/
  | usbLinkSpeedChange (v : Fin 4)
  /-- CAN_ERROR_STATE_CHANGE (R437): The CAN FD controller moves between error-active and error-passive; CAN_STATE is updated and PLIC source 18 is raised. -/
  | canErrorStateChange (passive : Bool)
  /-- MDIO_DONE (R434): An MDIO clause 22 or clause 45 transaction of an Ethernet MAC completes and raises its MDIO-done interrupt. -/
  | mdioDone (e : Fin 2)
  deriving DecidableEq, Repr

end Sys2Proof
end

