-- ==== Sys2Proof/Config.lean ====
section
/-! DEFINITION. What an implementation fixes and what the spec leaves open: constants without a body, so that no proof can see a value. -/

namespace Sys2Proof

/-- Free value 1 (log 5): the SEQ field of an event record that the MGC copies at the event port, before the ring gives it one (R290, R323). -/
opaque Config.canEventSeq : Nat → BitVec 24
/-- Free value 2 (log 6): whether a SYSRST_N low level of 100 ns to 1 µs resets the device (R547 gives neither). -/
opaque Config.shortPulseResets : Nat → Bool
/-- Free value 3 (log 7): a DRAM byte read under another ENCRYPT or KEY_SLOT setting than it was written under (R467): old setting, new setting, address, plaintext. -/
opaque Config.unrelated : Nat → Nat → Nat → Byte → Byte
/-- SHA-512 of FIPS 180-4, a function of its message (R517). -/
opaque Config.sha512 : List Byte → List Byte
/-- PureEdDSA verification of RFC 8032: public key, message, signature (R517). -/
opaque Config.ed25519 : List Byte → List Byte → List Byte → Bool
/-- ML-DSA-65 verification of FIPS 204: public key, message, signature (R517). -/
opaque Config.mldsa65 : List Byte → List Byte → List Byte → Bool
/-- KMAC256 of NIST SP 800-185 with an output of 256 bits: key, data, customisation string (R532). -/
opaque Config.kmac256 : BitVec 256 → List Byte → List Byte → BitVec 256
/-- Ed25519 signature of RFC 8032: private key, message (R532, R534). -/
opaque Config.edSign : BitVec 256 → List Byte → List Byte
/-- ML-DSA-65 signature of FIPS 204 by the key generated from a seed: seed, message (R532, R534). -/
opaque Config.mldsaSign : BitVec 256 → List Byte → List Byte
/-- Public keys of an Ed25519 private key, 32 B, and of an ML-DSA-65 seed, 1,952 B (R532, R533). -/
opaque Config.edPub : BitVec 256 → List Byte
opaque Config.mldsaPub : BitVec 256 → List Byte
/-- Free value 4 (log 8): bytes drawn from the TRNG, by draw number (R525, R538). -/
opaque Config.trng : Nat → Nat → Byte
/-- Free value 5 (log 9): softmax of a line, by element (Table 5.7 names it and states no formula). -/
opaque Config.softmax : List W32 → Nat → W32
/-- Free value 6 (log 9): layer normalisation of a line, by element. -/
opaque Config.layerNorm : List W32 → Nat → W32
/-- Free value 7 (log 9): root-mean-square normalisation of a line, by element. -/
opaque Config.rmsNorm : List W32 → Nat → W32
/-- Free value 8 (log 9): activation table PARAM at an FP32 operand; the spec gives neither the entries nor the range. -/
opaque Config.activation : Nat → W32 → W32
/-- Free value 9 (log 10): reciprocal square root of a zero or negative operand. -/
opaque Config.rsqrtEdge : W32 → W32
/-- Free value 10 (log 11): pixels of an inserted bad line (R336). -/
opaque Config.badPixel : Nat → Nat → Nat
/-- Free value 11 (log 12): bytes that an instruction writes into an open window's region, until the window closes (R560), and the destination of a cancelled SPILL (R256). -/
opaque Config.undefByte : Nat → Nat → Byte
/-- Free value 12 (log 13): output of a microphone's 20 Hz high-pass filter: last input, last output, input (R420 gives its order and corner only). -/
opaque Config.highPass : BitVec 24 → BitVec 24 → BitVec 24 → BitVec 24
/-- Free value 14 (log 14): packing of an LFSR operand into a drone cycle is not given; the LFSR's next word (R52 gives width only). -/
opaque Config.lfsrNext : BitVec 64 → BitVec 64
/-- Free value 23 (log 14): the operand bits that a drone cycle lets toggle for a mean activity in eighths (R52 gives the fraction, not the bits). -/
opaque Config.droneMask : Nat → BitVec 64
/-- Free value 16 (log 16): an island's fused voltage for a frequency in MHz, in mV: island 0 to 15 a core's, 16 the APC's (R472). -/
opaque Config.fusedVolt : Nat → Nat → Nat
/-- Free value 17 (log 17): energy coefficients fused at test: the model-mode estimate of package power in mW from the activity counters (R481). -/
opaque Config.energyModel : List Nat → Nat
/-- Free value 18 (log 27): SOURCE of event 0x0110 when a hart's access raises it, by address (Table 8.8 has no code for harts). -/
opaque Config.hartSource : Nat → BitVec 8
/-- Free value 22 (log 27): writer number that event 0x0403 names for a hart's write to WM or AM (the WRITER format of Table 4.8 has no kind for harts). -/
opaque Config.hartWriter : Nat → BitVec 16
/-- Free value 19 (log 22): start, in 512 B units, of the window that a fused hand-over opens: entry and size (Table 7.7 gives no base). -/
opaque Config.fusedBase : Nat → Nat → Nat

/-- Free value 20 (log 25): a REDUCE of a line of no elements, by FUNC. -/
opaque Config.emptyReduce : Nat → W32
/-- Free value 21 (log 32): byte of the settings of a frame that opens under HOLD before any set has been latched: image context and offset (R368 names no set). -/
opaque Config.unlatched : Nat → Nat → Byte

end Sys2Proof
end

