-- ==== Sys2Proof/Machine/Numerics.lean ====
section
/-! DEFINITION. Number formats of chapter 3: exact dyadic values, the one rounding of the device (R88), saturation (R89), narrowing, and the FP32 arithmetic of PM and the VU. -/

namespace Sys2Proof.Machine

open Sys2Proof

/-- A value on a floating data path: NaN, an infinity, a signed zero, or the non-zero dyadic m × 2^e. -/
inductive Val where
  | nan
  | inf (neg : Bool)
  | zero (neg : Bool)
  | num (m : Int) (e : Int)
  deriving DecidableEq, Repr

/-- The element formats of Table 5.4. -/
inductive Fmt where
  | int4 | cb4 | int8 | uint8 | int16 | e4m3 | e5m2 | fp16 | bf16 | int32 | fp32
  deriving DecidableEq, Repr

/-- FORMAT code of Table 5.4; codes 0xB to 0xF are reserved. -/
def fmtOf : Nat → Option Fmt
  | 0 => some .int4 | 1 => some .cb4 | 2 => some .int8 | 3 => some .uint8 | 4 => some .int16
  | 5 => some .e4m3 | 6 => some .e5m2 | 7 => some .fp16 | 8 => some .bf16 | 9 => some .int32
  | 10 => some .fp32 | _ => none

/-- Width of one element in bits (Tables 3.1, 3.2). -/
def fmtBits : Fmt → Nat
  | .int4 => 4 | .cb4 => 4 | .int8 => 8 | .uint8 => 8 | .int16 => 16 | .e4m3 => 8 | .e5m2 => 8
  | .fp16 => 16 | .bf16 => 16 | .int32 => 32 | .fp32 => 32

/-- Formats encoded as integers (R67). -/
def fmtIsInt : Fmt → Bool
  | .int4 | .int8 | .uint8 | .int16 | .int32 => true
  | _ => false

/-- Floor of log2 of a non-zero integer's magnitude. -/
def ilog2 (m : Int) : Int := (Nat.log2 m.natAbs : Int)

/-- 2^k for an integer exponent at or above 0. -/
def pow2 (k : Int) : Int := 2 ^ k.toNat

/-- A dyadic m × 2^e as a value; a zero mantissa gives +0 (R74). -/
def mkVal (m e : Int) : Val := if m = 0 then .zero false else .num m e

/-- Round m × 2^e to a multiple of 2^q, to nearest with ties away from zero (R88); the result counts units of 2^q. -/
def roundAway (m e q : Int) : Int :=
  if q ≤ e then m * pow2 (e - q)
  else
    let sh := (q - e).toNat
    let a := (m.natAbs + 2 ^ (sh - 1)) / 2 ^ sh
    if m < 0 then -(a : Int) else (a : Int)

/-- Drop the bits below 2^q by arithmetic shift, toward minus infinity (R83); the result counts units of 2^q. -/
def floorTo (m e q : Int) : Int :=
  if q ≤ e then m * pow2 (e - q) else m / pow2 (q - e)

/-- Comparison of two dyadics: m1 × 2^e1 ≤ m2 × 2^e2. -/
def dyLe (m1 e1 m2 e2 : Int) : Bool :=
  let e := min e1 e2
  decide (m1 * pow2 (e1 - e) ≤ m2 * pow2 (e2 - e))

/-- Field widths of a floating format: exponent bits, fraction bits, bias, largest finite value (mantissa and exponent). -/
structure FloatFmt where
  eb : Nat
  fb : Nat
  bias : Int
  maxM : Int
  maxE : Int
  hasInf : Bool
  deriving DecidableEq, Repr

/-- The floating formats of Table 3.2. -/
def floatFmt : Fmt → Option FloatFmt
  | .e4m3 => some ⟨4, 3, 7, 7, 6, false⟩
  | .e5m2 => some ⟨5, 2, 15, 7, 13, true⟩
  | .fp16 => some ⟨5, 10, 15, 2047, 5, true⟩
  | .bf16 => some ⟨8, 7, 127, 255, 120, true⟩
  | .fp32 => some ⟨8, 23, 127, 16777215, 104, true⟩
  | .cb4 => some ⟨5, 10, 15, 2047, 5, true⟩
  | _ => none

/-- The value a floating encoding stands for: subnormals exact (R71), FP32 subnormals zero of the same sign (R72). -/
def decodeFloat (f : FloatFmt) (raw : Nat) : Val :=
  let fr := raw % 2 ^ f.fb
  let ex := (raw / 2 ^ f.fb) % 2 ^ f.eb
  let neg := (raw / 2 ^ (f.fb + f.eb)) % 2 == 1
  let sgn : Int := if neg then -1 else 1
  if f.hasInf && ex == 2 ^ f.eb - 1 then (if fr == 0 then .inf neg else .nan)
  else if !f.hasInf && ex == 2 ^ f.eb - 1 && fr == 2 ^ f.fb - 1 then .nan
  else if ex == 0 then
    if fr == 0 || f.fb == 23 then .zero neg else .num (sgn * fr) (1 - f.bias - f.fb)
  else .num (sgn * ((2 ^ f.fb + fr : Nat) : Int)) ((ex : Int) - f.bias - f.fb)

/-- Encoding of the value n × 2^q of a format whose rounding has been done; n is non-zero and fits. -/
def encodeRounded (f : FloatFmt) (n q : Int) : Nat :=
  let neg := decide (n < 0)
  let a := n.natAbs
  let sg := b2n neg * 2 ^ (f.fb + f.eb)
  let top := ilog2 n + q
  let emin := 1 - f.bias
  if top < emin then sg + (a * 2 ^ (q - (emin - f.fb)).toNat)
  else
    let sh := top - f.fb - q
    let man := if 0 ≤ sh then a / 2 ^ sh.toNat else a * 2 ^ (-sh).toNat
    sg + (top + f.bias).toNat * 2 ^ f.fb + man % 2 ^ f.fb

/-- Canonical NaN of a floating format (Table 3.2). -/
def canonNan (f : FloatFmt) : Nat :=
  if f.hasInf then (2 ^ f.eb - 1) * 2 ^ f.fb + 2 ^ (f.fb - 1) else 2 ^ (f.eb + f.fb) - 1

/-- Result of a narrowing: the encoding, whether it saturated (R89), whether it met a NaN (R90). -/
structure Narrowed where
  raw : Nat
  clipped : Bool
  invalid : Bool
  deriving DecidableEq, Repr

/-- Round a dyadic into a floating format without an upper bound on the exponent: units n of 2^q (R88, R89, R91). -/
def roundFloat (f : FloatFmt) (m e : Int) : Int × Int :=
  let top := ilog2 m + e
  let q := if f.fb == 23 then top - f.fb else max (top - f.fb) (1 - f.bias - f.fb)
  (roundAway m e q, q)

/-- Narrow a value to a floating format (R88 to R91); FP32 results below 2^-126 become zero (R72). -/
def encodeFloat (f : FloatFmt) (v : Val) : Narrowed :=
  let sgn (b : Bool) := b2n b * 2 ^ (f.fb + f.eb)
  match v with
  | .nan => ⟨canonNan f, false, true⟩
  | .inf b => ⟨sgn b + encodeRounded f f.maxM f.maxE, true, false⟩
  | .zero b => ⟨sgn b, false, false⟩
  | .num m e =>
    let (n, q) := roundFloat f m e
    if n = 0 then ⟨sgn (decide (m < 0)), false, false⟩
    else if f.fb == 23 && decide (ilog2 n + q < 1 - f.bias) then ⟨sgn (decide (m < 0)), false, false⟩
    else if dyLe n.natAbs q f.maxM f.maxE then ⟨encodeRounded f n q, false, false⟩
    else ⟨sgn (decide (m < 0)) + encodeRounded f f.maxM f.maxE, true, false⟩

/-- The FP32 format. -/
def f32 : FloatFmt := ⟨8, 23, 127, 16777215, 104, true⟩
/-- The FP16 format. -/
def f16 : FloatFmt := ⟨5, 10, 15, 2047, 5, true⟩
/-- The BF16 format. -/
def bf16 : FloatFmt := ⟨8, 7, 127, 255, 120, true⟩

/-- FP32 bits of a value, rounded under R88 and R72, saturated under R89. -/
def toF32 (v : Val) : W32 := BitVec.ofNat 32 (encodeFloat f32 v).raw
/-- The value of FP32 bits. -/
def ofF32 (w : W32) : Val := decodeFloat f32 w.toNat

/-- A value rounded to FP32 (R88, R72, R89), with the saturation mark of R84; an infinity stays one. -/
def r32f (v : Val) : Val × Bool :=
  match v with
  | .num _ _ => let n := encodeFloat f32 v; (decodeFloat f32 n.raw, n.clipped)
  | v => (v, false)
/-- A value rounded to FP32. -/
def r32 (v : Val) : Val := (r32f v).1

/-- Exact negation. -/
def vneg : Val → Val
  | .nan => .nan
  | .inf b => .inf (!b)
  | .zero b => .zero (!b)
  | .num m e => .num (-m) e

/-- Exact sum; the sum of +0 and -0 is +0 (R74). -/
def vadd : Val → Val → Val
  | .nan, _ => .nan
  | _, .nan => .nan
  | .inf a, .inf b => if a == b then .inf a else .nan
  | .inf a, _ => .inf a
  | _, .inf b => .inf b
  | .zero a, .zero b => .zero (a && b)
  | .zero _, v => v
  | v, .zero _ => v
  | .num m e, .num n f => let q := min e f; mkVal (m * pow2 (e - q) + n * pow2 (f - q)) q

/-- Sign of a value. -/
def isNegVal : Val → Bool
  | .nan => false
  | .inf b => b
  | .zero b => b
  | .num m _ => decide (m < 0)

/-- Exact product; an infinity or a NaN operand gives NaN (R73), a zero operand a signed zero (R74). -/
def vmul (a b : Val) : Val :=
  match a, b with
  | .num m e, .num n f => .num (m * n) (e + f)
  | .nan, _ => .nan
  | .inf _, _ => .nan
  | _, .nan => .nan
  | _, .inf _ => .nan
  | a, b => .zero (isNegVal a != isNegVal b)

/-- Exact product by 2^k. -/
def vscale (v : Val) (k : Int) : Val :=
  match v with
  | .num m e => .num m (e + k)
  | v => v

/-- Order of two values that are not NaN. -/
def vle : Val → Val → Bool
  | .nan, _ => false
  | _, .nan => false
  | .inf true, _ => true
  | _, .inf false => true
  | .inf false, _ => false
  | _, .inf true => false
  | .zero _, .zero _ => true
  | .zero _, .num n _ => decide (0 < n)
  | .num m _, .zero _ => decide (m < 0)
  | .num m e, .num n f => dyLe m e n f

/-- Strict order of two values that are not NaN. -/
def vlt (a b : Val) : Bool := vle a b && !vle b a

/-- FP32 sum, rounded once (R88). -/
def fadd (a b : Val) : Val := r32 (vadd a b)
/-- FP32 product, rounded once (R88). -/
def fmul (a b : Val) : Val := r32 (vmul a b)
/-- FP32 difference, rounded once (R88). -/
def fsub (a b : Val) : Val := r32 (vadd a (vneg b))

/-- Exact quotient of two dyadics rounded to FP32: 60 bits of quotient and a sticky bit decide R88. -/
def fdiv (a b : Val) : Val :=
  match a, b with
  | .num m e, .num n f =>
    let k : Int := 60 + ilog2 n - ilog2 m
    let num : Nat := m.natAbs * 2 ^ (max k 0).toNat
    let den : Nat := n.natAbs * 2 ^ (max (-k) 0).toNat
    let q := num / den
    let st := if num % den == 0 then 0 else 1
    let sg : Int := if decide (m < 0) != decide (n < 0) then -1 else 1
    r32 (mkVal (sg * ((2 * q + st : Nat) : Int)) (e - f - k - 1))
  | .zero s, .num n _ => .zero (s != decide (n < 0))
  | _, _ => .nan

/-- The quotient of two naturals as a value to be rounded once: 64 bits below the unit and a sticky bit. -/
def ratVal (a b : Nat) : Val :=
  let q := a * 2 ^ 64 / b
  mkVal ((2 * q + (if a * 2 ^ 64 % b = 0 then 0 else 1) : Nat) : Int) (-65)

/-- Round a quotient of naturals to the nearest integer, ties away from zero (R88). -/
def roundDiv (a b : Nat) : Nat := (2 * a + b) / (2 * b)

/-- An integer as an exact value. -/
def ofInt (i : Int) : Val := mkVal i 0

/-- Round a value to the nearest integer, ties away from zero (R88); NaN gives 0. -/
def roundInt (v : Val) : Int :=
  match v with
  | .num m e => roundAway m e 0
  | _ => 0

/-- Floor of a finite value. -/
def floorInt (v : Val) : Int :=
  match v with
  | .num m e => floorTo m e 0
  | _ => 0

/-- The encoding of real zero of a format (R69): the zero point in UINT8, 0 otherwise. -/
def realZero (f : Fmt) (z : Nat) : Nat := if f = .uint8 then z else 0

/-- Range of an integer format (Table 3.1). -/
def intRange : Fmt → Int × Int
  | .int4 => (-8, 7)
  | .int8 => (-128, 127)
  | .uint8 => (0, 255)
  | .int16 => (-32768, 32767)
  | .int32 => (-2147483648, 2147483647)
  | _ => (0, 15)

/-- The stored integer q of an integer element. -/
def intOf (f : Fmt) (raw : Nat) : Int :=
  match f with
  | .uint8 => ((raw % 256 : Nat) : Int)
  | .cb4 => ((raw % 16 : Nat) : Int)
  | f => sext (fmtBits f) raw

/-- The stored value of an element as the arrays take it: q for integers, the encoded value for floats (chapter 3, Scales and zero points). -/
def elemVal (f : Fmt) (raw : Nat) : Val :=
  match f with
  | .int4 | .int8 | .uint8 | .int16 | .int32 => ofInt (intOf f raw)
  | .cb4 => decodeFloat f16 raw
  | .e4m3 => decodeFloat ⟨4, 3, 7, 7, 6, false⟩ raw
  | .e5m2 => decodeFloat ⟨5, 2, 15, 7, 13, true⟩ raw
  | .fp16 => decodeFloat f16 raw
  | .bf16 => decodeFloat bf16 raw
  | .fp32 => decodeFloat f32 raw

/-- An infinity or a NaN is an invalid operand (R73). -/
def invalidVal : Val → Bool
  | .nan => true
  | .inf _ => true
  | _ => false

/-- Narrow v × 2^-e to a format (R88 to R91, R99); a NaN narrows to real zero in an integer format and counts as invalid (R90). -/
def narrow (f : Fmt) (z : Nat) (e : Int) (v : Val) : Narrowed :=
  let w := vscale v (-e)
  match floatFmt f with
  | some ff => if f = .cb4 then ⟨0, false, false⟩ else encodeFloat ff w
  | none =>
    let (lo, hi) := intRange f
    let off : Int := if f = .uint8 then (z : Int) else 0
    match w with
    | .nan => ⟨realZero f z, false, true⟩
    | .inf b => ⟨lowBits (fmtBits f) (if b then lo else hi), true, false⟩
    | w =>
      let n := off + roundInt w
      if n < lo then ⟨lowBits (fmtBits f) lo, true, false⟩
      else if hi < n then ⟨lowBits (fmtBits f) hi, true, false⟩
      else ⟨lowBits (fmtBits f) n, false, false⟩

/-- Absolute value. -/
def vabs (v : Val) : Val := if isNegVal v then vneg v else v

/-- Whether exponent e satisfies Table 3.5 for the value v. -/
def expFits (f : Fmt) (z : Nat) (e : Int) (v : Val) : Bool :=
  match v with
  | .nan => true
  | v =>
    match f with
    | .int8 => vle (vabs v) (.num 127 e)
    | .int16 => vle (vabs v) (.num 32767 e)
    | .uint8 => (z == 255 || vle v (mkVal (255 - (z : Int)) e)) && (z == 0 || vle (vneg v) (mkVal (z : Int) e))
    | .e4m3 => vle (vabs v) (.num 448 e)
    | .e5m2 => vle (vabs v) (.num 57344 e)
    | .fp16 => vle (vabs v) (.num 65504 e)
    | _ => true

/-- The generated exponent of a row (R99): the smallest of -128 to 127 that satisfies Table 3.5; -128 for a row all NaN or zero; 127 when none does. -/
def genExp (f : Fmt) (z : Nat) (row : List Val) : Int :=
  let cands := (List.range 256).map fun (k : Nat) => (k : Int) - 128
  (cands.find? fun e => row.all (expFits f z e)).getD 127

/-- Truncate a value toward zero to its leading h significand bits (R80). -/
def headOf (h : Nat) (v : Val) : Val :=
  match v with
  | .num m e =>
    let sh := Nat.log2 m.natAbs + 1 - h
    let a := m.natAbs / 2 ^ sh * 2 ^ sh
    mkVal (if m < 0 then -(a : Int) else (a : Int)) e
  | v => v

/-- Integer square root by bits: the largest r of `k` bits with r × r ≤ n. -/
def isqrtBits : Nat → Nat → Nat → Nat
  | 0, _, r => r
  | k + 1, n, r => let c := r + 2 ^ k; isqrtBits k n (if c * c ≤ n then c else r)

/-- Reciprocal square root of a positive value, rounded once to FP32 (R555); other operands under R73 and log 10. -/
def frsqrt (v : Val) : Val :=
  match v with
  | .nan => .nan
  | .inf _ => .nan
  | .zero _ => ofF32 (Config.rsqrtEdge (toF32 v))
  | .num m e =>
    if m < 0 then ofF32 (Config.rsqrtEdge (toF32 v))
    else
      let odd := e % 2
      let m' : Nat := m.natAbs * 2 ^ odd.toNat
      let e' := (e - odd) / 2
      let k := Nat.log2 m' + 130
      let k := k + k % 2
      let r := isqrtBits 70 (2 ^ k / m') 0
      let st := if r * r * m' == 2 ^ k then 0 else 1
      r32 (mkVal ((2 * r + st : Nat) : Int) (-e' - (k / 2 : Nat) - 1))

/-- ln 2 in units of 2^-180. -/
def ln2Fix : Nat := 1062244963371879310175186301324412638028404515790072203

/-- Terms of the Taylor series of exp at r (units of 2^-180), from term `k` down. -/
def expSeries : Nat → Int → Int
  | 0, _ => 2 ^ 180
  | k + 1, r => 2 ^ 180 + (r * expSeries k r) / ((((41 - (k + 1)) : Nat) : Int) * 2 ^ 180)

/-- Exponential, rounded once to FP32 (R555): range reduction by ln 2 and 40 series terms in 180-bit fixed point. -/
def fexp (v : Val) : Val :=
  match v with
  | .nan => .nan
  | .inf _ => .nan
  | .zero _ => .num 1 0
  | .num m e =>
    if 8 ≤ ilog2 m + e then (if m < 0 then .zero false else .num f32.maxM f32.maxE)
    else
      let x : Int := floorTo m e (-180)
      let k := x / (ln2Fix : Int)
      let r := x - k * ln2Fix
      r32 (mkVal (2 * expSeries 40 r + 1) (k - 181))

end Sys2Proof.Machine
end

