-- ==== Sys2Proof/Machine/OdTable.lean ====
section
/-! DEFINITION. The object dictionary's entries: one row per entry of the OD tables of chapters 2 to 17, with type, access right, default and range (R296 to R299). -/

namespace Sys2Proof.Machine

/-- Types of OD entries (Table 9.1). -/
inductive OdTy where
  | bool | u8 | u16 | u32 | u64 | i16 | i32 | str | dom
  deriving DecidableEq, Repr

/-- Access rights of OD entries (Table 9.2). -/
inductive OdAcc where
  | const | ro | rw | rws | wo
  deriving DecidableEq, Repr

/-- One row of an OD table: the entries at index base + stride × k for k below count, subindex sub.
A numeric value is in range when it lies from lo to hi and is a multiple of step, or is one of extra; a string or domain has lo to hi bytes. -/
structure OdRow where
  base : Nat
  stride : Nat
  count : Nat
  sub : Nat
  ty : OdTy
  acc : OdAcc
  dflt : Nat
  lo : Nat
  hi : Nat
  step : Nat := 1
  extra : List Nat := []
  deriving DecidableEq, Repr

/-- Rows of the OD tables, part 0, by index. -/
def odRows0 : List OdRow :=
  [⟨0x1000, 1, 1, 0x1, .str, .const, 0, 0, 16, 1, []⟩ /- VENDOR -/,
   ⟨0x1000, 1, 1, 0x2, .str, .const, 0, 0, 16, 1, []⟩ /- PART -/,
   ⟨0x1000, 1, 1, 0x3, .u8, .const, 0, 0, 255, 1, []⟩ /- GRADE -/,
   ⟨0x1000, 1, 1, 0x4, .u8, .const, 0, 0, 255, 1, []⟩ /- SILICON_REV -/,
   ⟨0x1000, 1, 1, 0x5, .u64, .const, 0, 0, 18446744073709551615, 1, []⟩ /- SERIAL -/,
   ⟨0x1000, 1, 1, 0x6, .u16, .const, 256, 0, 65535, 1, []⟩ /- OD_VERSION -/,
   ⟨0x1000, 1, 1, 0x7, .u32, .ro, 0, 0, 4294967295, 1, []⟩ /- MGC_FW_VERSION -/,
   ⟨0x1010, 1, 1, 0x1, .u8, .ro, 0, 0, 255, 1, []⟩ /- DEVICE_STATE -/,
   ⟨0x1010, 1, 1, 0x2, .u64, .ro, 0, 0, 18446744073709551615, 1, []⟩ /- UPTIME_MS -/,
   ⟨0x1010, 1, 1, 0x3, .u8, .ro, 0, 0, 255, 1, []⟩ /- RESET_CAUSE -/,
   ⟨0x1010, 1, 1, 0x4, .u8, .ro, 0, 0, 255, 1, []⟩ /- FAULTED_FUNCTIONS -/,
   ⟨0x1010, 1, 1, 0x5, .u16, .ro, 0, 0, 65535, 1, []⟩ /- READY_TIME_MS -/,
   ⟨0x1020, 1, 1, 0x1, .u8, .const, 34, 0, 255, 1, []⟩ /- FUNCTION_COUNT -/,
   ⟨0x1020, 1, 1, 0x2, .u16, .rw, 1000, 10, 60000, 1, []⟩ /- STOP_TIMEOUT -/,
   ⟨0x1100, 1, 34, 0x1, .str, .const, 0, 0, 16, 1, []⟩ /- NAME -/,
   ⟨0x1100, 1, 34, 0x2, .u8, .rw, 0, 0, 0, 1, [2]⟩ /- REQUESTED -/,
   ⟨0x1100, 1, 34, 0x3, .u8, .ro, 0, 0, 255, 1, []⟩ /- ACTUAL -/,
   ⟨0x1100, 1, 34, 0x4, .u16, .ro, 0, 0, 65535, 1, []⟩ /- ABORT_CODE -/,
   ⟨0x1100, 1, 34, 0x5, .u16, .ro, 0, 0, 65535, 1, []⟩ /- ABORT_INDEX -/,
   ⟨0x1100, 1, 34, 0x6, .u8, .ro, 0, 0, 255, 1, []⟩ /- ABORT_SUB -/,
   ⟨0x1100, 1, 34, 0x7, .u32, .ro, 0, 0, 4294967295, 1, []⟩ /- STARTS -/,
   ⟨0x1100, 1, 34, 0x8, .u32, .ro, 0, 0, 4294967295, 1, []⟩ /- FAULTS -/,
   ⟨0x1200, 1, 1, 0x1, .u8, .rw, 7, 0, 7, 1, []⟩ /- CAN_EVENT_CLASSES -/,
   ⟨0x1200, 1, 1, 0x2, .u8, .rw, 4, 0, 64, 1, []⟩ /- CAN_EVENT_LIMIT -/,
   ⟨0x1200, 1, 1, 0x3, .u32, .ro, 0, 0, 4294967295, 1, []⟩ /- CAN_EVENTS_SENT -/,
   ⟨0x1200, 1, 1, 0x4, .u32, .ro, 0, 0, 4294967295, 1, []⟩ /- CAN_EVENTS_DROPPED -/,
   ⟨0x1300, 1, 1, 0x1, .u8, .rw, 0, 0, 63, 1, []⟩ /- NODE_ID -/,
   ⟨0x1300, 1, 1, 0x2, .u8, .ro, 0, 0, 255, 1, []⟩ /- NODE_ID_STRAPS -/,
   ⟨0x1300, 1, 1, 0x3, .u8, .ro, 0, 0, 255, 1, []⟩ /- NODE_ID_ACTIVE -/,
   ⟨0x1300, 1, 1, 0x4, .u16, .rw, 100, 10, 10000, 1, []⟩ /- HEARTBEAT_MS -/,
   ⟨0x1300, 1, 1, 0x5, .u16, .rw, 500, 50, 5000, 1, []⟩ /- SEG_TIMEOUT_MS -/,
   ⟨0x1300, 1, 1, 0x6, .u32, .ro, 0, 0, 4294967295, 1, []⟩ /- CAN_REQUESTS -/,
   ⟨0x1300, 1, 1, 0x7, .u32, .ro, 0, 0, 4294967295, 1, []⟩ /- BUSY_REPLIES -/,
   ⟨0x1300, 1, 1, 0x8, .u32, .ro, 0, 0, 4294967295, 1, []⟩ /- RX_OVERRUNS -/,
   ⟨0x1300, 1, 1, 0x9, .u32, .ro, 0, 0, 4294967295, 1, []⟩ /- MAILBOX_REQUESTS -/,
   ⟨0x1300, 1, 1, 0xA, .u32, .ro, 0, 0, 4294967295, 1, []⟩ /- MAILBOX_DISCARDS -/,
   ⟨0x1400, 1, 1, 0x1, .u8, .wo, 0, 1, 2, 1, []⟩ /- STORE_CMD -/,
   ⟨0x1400, 1, 1, 0x2, .u8, .ro, 0, 0, 255, 1, []⟩ /- STORE_STATE -/,
   ⟨0x1400, 1, 1, 0x3, .u32, .ro, 0, 0, 4294967295, 1, []⟩ /- STORE_GENERATION -/,
   ⟨0x1400, 1, 1, 0x4, .u32, .ro, 0, 0, 4294967295, 1, []⟩ /- STORES -/]

/-- Rows of the OD tables, part 1, by index. -/
def odRows1 : List OdRow :=
  [⟨0x1400, 1, 1, 0x5, .u32, .ro, 0, 0, 4294967295, 1, []⟩ /- STORE_BASE -/,
   ⟨0x1400, 1, 1, 0x6, .u16, .ro, 0, 0, 65535, 1, []⟩ /- RESTORED -/,
   ⟨0x1400, 1, 1, 0x7, .u16, .ro, 0, 0, 65535, 1, []⟩ /- SKIPPED -/,
   ⟨0x1410, 1, 1, 0x1, .dom, .rw, 0, 0, 1024, 1, []⟩ /- PERSIST_LIST -/,
   ⟨0x2000, 1, 1, 0x1, .u16, .rw, 25000, 8000, 25000, 1, []⟩ /- CAP_MW -/,
   ⟨0x2000, 1, 1, 0x2, .u16, .rw, 500, 100, 2000, 1, []⟩ /- BELLOWS_HYST_MW -/,
   ⟨0x2000, 1, 1, 0x3, .u16, .ro, 0, 0, 65535, 1, []⟩ /- PACKAGE_MW -/,
   ⟨0x2000, 1, 1, 0x4, .u8, .ro, 36, 0, 255, 1, []⟩ /- THROTTLE -/,
   ⟨0x2000, 1, 1, 0x5, .u8, .ro, 0, 0, 255, 1, []⟩ /- TELEMETRY_MODE -/,
   ⟨0x2000, 1, 1, 0x6, .u32, .ro, 0, 0, 4294967295, 1, []⟩ /- CAP_UNATTAINABLE -/,
   ⟨0x2000, 1, 1, 0x7, .bool, .ro, 0, 0, 1, 1, []⟩ /- FLOORS_SUSPENDED -/,
   ⟨0x2001, 1, 1, 0x1, .u8, .rw, 64, 8, 119, 1, []⟩ /- MON_ADDR -/,
   ⟨0x2001, 1, 1, 0x2, .u8, .rw, 0, 0, 1, 1, []⟩ /- MON_BUS_MODE -/,
   ⟨0x2001, 1, 1, 0x3, .dom, .rw, 0, 64, 64, 1, []⟩ /- MON_MAP -/,
   ⟨0x2001, 1, 1, 0x4, .u32, .ro, 0, 0, 4294967295, 1, []⟩ /- MON_ERRORS -/,
   ⟨0x2002, 1, 1, 0x1, .u16, .rw, 1800, 600, 1800, 50, []⟩ /- CORE_FMAX_MHZ -/,
   ⟨0x2002, 1, 1, 0x2, .u16, .rw, 2000, 400, 2000, 50, []⟩ /- APC_MHZ -/,
   ⟨0x2002, 1, 1, 0x3, .u16, .rw, 40, 20, 200, 1, []⟩ /- AVS_TARGET_PS -/,
   ⟨0x2002, 1, 1, 0x4, .u16, .rw, 15, 5, 100, 1, []⟩ /- DROOP_MARGIN_PS -/,
   ⟨0x2010, 1, 16, 0x1, .u16, .rw, 0, 600, 1800, 50, [0]⟩ /- CORE_FLOOR_MHZ -/,
   ⟨0x2010, 1, 16, 0x2, .u16, .ro, 600, 0, 65535, 1, []⟩ /- FREQ_MHZ -/,
   ⟨0x2010, 1, 16, 0x3, .u16, .ro, 0, 0, 65535, 1, []⟩ /- VOLT_MV -/,
   ⟨0x2010, 1, 16, 0x4, .i16, .ro, 0, 0, 65535, 1, []⟩ /- TEMP -/,
   ⟨0x2010, 1, 16, 0x5, .u64, .ro, 0, 0, 18446744073709551615, 1, []⟩ /- DROOP_CYCLES -/,
   ⟨0x2010, 1, 16, 0x6, .u32, .ro, 0, 0, 4294967295, 1, []⟩ /- AVS_LIMITS -/,
   ⟨0x2030, 1, 1, 0x1, .u8, .rw, 95, 70, 100, 1, []⟩ /- THROTTLE_C -/,
   ⟨0x2030, 1, 1, 0x2, .u8, .const, 105, 0, 255, 1, []⟩ /- CRITICAL_C -/,
   ⟨0x2030, 1, 1, 0x3, .u8, .const, 115, 0, 255, 1, []⟩ /- TRIP_C -/,
   ⟨0x2030, 1, 1, 0x4, .i16, .ro, 0, 0, 65535, 1, []⟩ /- HOTTEST -/,
   ⟨0x2030, 1, 1, 0x5, .u8, .ro, 0, 0, 255, 1, []⟩ /- HOTTEST_SENSOR -/,
   ⟨0x2030, 1, 1, 0x6, .u32, .ro, 0, 0, 4294967295, 1, []⟩ /- THROTTLE_EVENTS -/,
   ⟨0x2100, 1, 1, 0x1, .u64, .rw, 128849018881, 0, 18446744073709551615, 1, []⟩ /- BREATH_RATE -/,
   ⟨0x2100, 1, 1, 0x2, .u8, .rw, 0, 0, 2, 1, []⟩ /- BREATH_SOURCE -/,
   ⟨0x2100, 1, 1, 0x3, .u8, .rw, 0, 0, 15, 1, []⟩ /- BREATH_IC -/,
   ⟨0x2100, 1, 1, 0x4, .i32, .rw, 0, 0, 4294967295, 1, []⟩ /- SYNC_OFFSET_NS -/,
   ⟨0x2100, 1, 1, 0x5, .u8, .rw, 1, 1, 16, 1, []⟩ /- SYNC_DIVIDER -/,
   ⟨0x2100, 1, 1, 0x6, .u32, .rw, 250000, 1000, 250000, 1, []⟩ /- SLEW_NS -/,
   ⟨0x2100, 1, 1, 0x7, .u8, .rw, 4, 1, 64, 1, []⟩ /- LOSS_BREATHS -/,
   ⟨0x2101, 1, 1, 0x1, .u64, .ro, 0, 0, 18446744073709551615, 1, []⟩ /- BREATH_NUMBER -/,
   ⟨0x2101, 1, 1, 0x2, .u8, .ro, 0, 0, 255, 1, []⟩ /- LOCK_STATE -/]

/-- Rows of the OD tables, part 2, by index. -/
def odRows2 : List OdRow :=
  [⟨0x2101, 1, 1, 0x3, .i32, .ro, 0, 0, 4294967295, 1, []⟩ /- LAST_ERROR_NS -/,
   ⟨0x2101, 1, 1, 0x4, .u32, .ro, 0, 0, 4294967295, 1, []⟩ /- RESYNCS -/,
   ⟨0x2101, 1, 1, 0x5, .u32, .ro, 0, 0, 4294967295, 1, []⟩ /- LOSSES -/,
   ⟨0x2200, 1, 1, 0x1, .bool, .rws, 1, 0, 1, 1, []⟩ /- DRONE_ENABLE -/,
   ⟨0x2200, 1, 1, 0x2, .u16, .rws, 64, 0, 255, 1, []⟩ /- DRONE_LIMIT -/,
   ⟨0x2200, 1, 1, 0x3, .u16, .rws, 256, 64, 1024, 4, []⟩ /- RAMP_DOWN -/,
   ⟨0x2200, 1, 1, 0x4, .u16, .rws, 256, 64, 1024, 4, []⟩ /- RAMP_UP -/,
   ⟨0x2210, 1, 16, 0x1, .u8, .ro, 0, 0, 255, 1, []⟩ /- ARRAYS_ENABLED -/,
   ⟨0x2210, 1, 16, 0x2, .u32, .ro, 0, 0, 4294967295, 1, []⟩ /- REPAIR_MAP -/,
   ⟨0x2210, 1, 16, 0x3, .u8, .ro, 0, 0, 255, 1, []⟩ /- SHAPE_LIMIT -/,
   ⟨0x2210, 1, 16, 0x4, .u64, .ro, 0, 0, 18446744073709551615, 1, []⟩ /- ROWS_ISSUED -/,
   ⟨0x2210, 1, 16, 0x5, .u64, .ro, 0, 0, 18446744073709551615, 1, []⟩ /- BUBBLES -/,
   ⟨0x2210, 1, 16, 0x6, .u64, .ro, 0, 0, 18446744073709551615, 1, []⟩ /- DRONES -/,
   ⟨0x2210, 1, 16, 0x7, .u32, .ro, 0, 0, 4294967295, 1, []⟩ /- CHECK_MISMATCH -/,
   ⟨0x2210, 1, 16, 0x8, .u32, .ro, 0, 0, 4294967295, 1, []⟩ /- UNCHECKED_ROWS -/,
   ⟨0x2210, 1, 16, 0x9, .u32, .ro, 0, 0, 4294967295, 1, []⟩ /- REFOLDS -/,
   ⟨0x2220, 1, 1, 0x1, .u16, .rws, 64, 1, 65535, 1, []⟩ /- CALIB_THRESHOLD -/,
   ⟨0x2220, 1, 1, 0x2, .u8, .rws, 20, 16, 30, 1, []⟩ /- CALIB_WINDOW -/,
   ⟨0x2220, 1, 1, 0x3, .bool, .rws, 1, 0, 1, 1, []⟩ /- CALIB_EVENT_ENABLE -/,
   ⟨0x2230, 1, 16, 0x1, .u64, .ro, 0, 0, 18446744073709551615, 1, []⟩ /- VALUES_NARROWED -/,
   ⟨0x2230, 1, 16, 0x2, .u64, .ro, 0, 0, 18446744073709551615, 1, []⟩ /- VALUES_CLIPPED -/,
   ⟨0x2230, 1, 16, 0x3, .u32, .ro, 0, 0, 4294967295, 1, []⟩ /- INVALID_OPERANDS -/,
   ⟨0x2230, 1, 16, 0x4, .u32, .ro, 0, 0, 4294967295, 1, []⟩ /- ACC_SATURATED -/,
   ⟨0x2230, 1, 16, 0x5, .u32, .ro, 0, 0, 4294967295, 1, []⟩ /- CALIB_EVENTS -/,
   ⟨0x2230, 1, 16, 0x6, .u64, .ro, 0, 0, 18446744073709551615, 1, []⟩ /- OUTLIER_ROWS -/,
   ⟨0x2240, 1, 1, 0x1, .bool, .rws, 1, 0, 1, 1, []⟩ /- SCRUB_ENABLE -/,
   ⟨0x2240, 1, 1, 0x2, .u16, .rws, 1024, 64, 65535, 1, []⟩ /- SCRUB_INTERVAL -/,
   ⟨0x2240, 1, 1, 0x3, .bool, .rws, 1, 0, 1, 1, []⟩ /- CE_EVENT_ENABLE -/,
   ⟨0x2240, 1, 1, 0x4, .u16, .rws, 4096, 256, 65535, 1, []⟩ /- WINDOW_DRAIN_CYCLES -/,
   ⟨0x2250, 1, 16, 0x1, .u32, .ro, 0, 0, 4294967295, 1, []⟩ /- ECC_CORRECTED_WM -/,
   ⟨0x2250, 1, 16, 0x2, .u32, .ro, 0, 0, 4294967295, 1, []⟩ /- ECC_CORRECTED_AM -/,
   ⟨0x2250, 1, 16, 0x3, .u32, .ro, 0, 0, 4294967295, 1, []⟩ /- ECC_CORRECTED_PM -/,
   ⟨0x2250, 1, 16, 0x4, .u32, .ro, 0, 0, 4294967295, 1, []⟩ /- ECC_CORRECTED_DS -/,
   ⟨0x2250, 1, 16, 0x5, .u32, .ro, 0, 0, 4294967295, 1, []⟩ /- ECC_UNCORRECTABLE -/,
   ⟨0x2250, 1, 16, 0x6, .u32, .ro, 0, 0, 4294967295, 1, []⟩ /- SCRUB_WRITES -/,
   ⟨0x2250, 1, 16, 0x7, .u32, .ro, 0, 0, 4294967295, 1, []⟩ /- SCRUB_DROPPED -/,
   ⟨0x2250, 1, 16, 0x8, .u32, .ro, 0, 0, 4294967295, 1, []⟩ /- WINDOW_VIOLATIONS -/,
   ⟨0x2250, 1, 16, 0x9, .u32, .ro, 0, 0, 4294967295, 1, []⟩ /- WINDOW_STALE -/,
   ⟨0x2250, 1, 16, 0xA, .u32, .ro, 0, 0, 4294967295, 1, []⟩ /- PARTIAL_FLUSHES -/,
   ⟨0x2250, 1, 16, 0xB, .u64, .ro, 0, 0, 18446744073709551615, 1, []⟩ /- ISSUE_WAIT_CYCLES -/]

/-- Rows of the OD tables, part 3, by index. -/
def odRows3 : List OdRow :=
  [⟨0x2250, 1, 16, 0x10, .dom, .ro, 0, 320, 320, 1, []⟩ /- WINDOW_TABLE -/,
   ⟨0x2260, 1, 4, 0x1, .u32, .ro, 0, 0, 4294967295, 1, []⟩ /- SB_CORRECTED -/,
   ⟨0x2260, 1, 4, 0x2, .u32, .ro, 0, 0, 4294967295, 1, []⟩ /- SB_UNCORRECTABLE -/,
   ⟨0x2260, 1, 4, 0x3, .u32, .ro, 0, 0, 4294967295, 1, []⟩ /- SB_PARTIAL_WRITES -/,
   ⟨0x2270, 1, 4, 0x1, .u64, .ro, 0, 0, 18446744073709551615, 1, []⟩ /- TILE_GRANTS -/,
   ⟨0x2270, 1, 4, 0x2, .u32, .ro, 0, 0, 4294967295, 1, []⟩ /- TILE_STALE -/,
   ⟨0x2270, 1, 4, 0x3, .u32, .ro, 0, 0, 4294967295, 1, []⟩ /- TILE_DUPLICATES -/,
   ⟨0x2270, 1, 4, 0x4, .u8, .ro, 0, 0, 255, 1, []⟩ /- COUNTERS_BOUND -/,
   ⟨0x2270, 1, 4, 0x5, .dom, .ro, 0, 1024, 1024, 1, []⟩ /- COUNTER_TABLE -/,
   ⟨0x2280, 1, 16, 0x1, .u64, .ro, 0, 0, 18446744073709551615, 1, []⟩ /- TILES_SKIPPED -/,
   ⟨0x2280, 1, 16, 0x2, .u32, .ro, 0, 0, 4294967295, 1, []⟩ /- LENGTH_CLAMPS -/,
   ⟨0x2290, 1, 16, 0x1, .u64, .ro, 0, 0, 18446744073709551615, 1, []⟩ /- CONV_ROWS -/,
   ⟨0x2290, 1, 16, 0x2, .u64, .ro, 0, 0, 18446744073709551615, 1, []⟩ /- TAPS_SKIPPED -/,
   ⟨0x2290, 1, 16, 0x3, .u64, .ro, 0, 0, 18446744073709551615, 1, []⟩ /- WREG_WAIT_CYCLES -/,
   ⟨0x2290, 1, 16, 0x4, .u64, .ro, 0, 0, 18446744073709551615, 1, []⟩ /- DW_PIXELS -/,
   ⟨0x22A0, 1, 1, 0x1, .u32, .ro, 0, 0, 4294967295, 1, []⟩ /- DEGENERATE_WINDOWS -/,
   ⟨0x22A0, 1, 1, 0x2, .u64, .ro, 0, 0, 18446744073709551615, 1, []⟩ /- MPE_LINES -/,
   ⟨0x22A0, 1, 1, 0x3, .u64, .ro, 0, 0, 18446744073709551615, 1, []⟩ /- MPE_BUSY_CYCLES -/,
   ⟨0x22A0, 1, 1, 0x4, .u32, .ro, 0, 0, 4294967295, 1, []⟩ /- MPE_CHECK_RETRIES -/,
   ⟨0x22A0, 1, 1, 0x5, .u32, .ro, 0, 0, 4294967295, 1, []⟩ /- MPE_CHECK_FAILURES -/,
   ⟨0x22A0, 1, 1, 0x6, .u8, .ro, 0, 0, 255, 1, []⟩ /- MPE_RESIDENT -/,
   ⟨0x22A0, 1, 1, 0x7, .u16, .ro, 0, 0, 65535, 1, []⟩ /- MPE_UNITS_USED -/,
   ⟨0x22B0, 1, 1, 0x1, .u16, .rws, 2000, 100, 65535, 1, []⟩ /- STALL_TIMEOUT_DEFAULT -/,
   ⟨0x22C0, 1, 8, 0x1, .u64, .ro, 0, 0, 18446744073709551615, 1, []⟩ /- UNITS_SENT -/,
   ⟨0x22C0, 1, 8, 0x2, .u64, .ro, 0, 0, 18446744073709551615, 1, []⟩ /- HOLLOW_UNITS -/,
   ⟨0x22C0, 1, 8, 0x3, .u32, .ro, 0, 0, 4294967295, 1, []⟩ /- DETACHES -/,
   ⟨0x22C0, 1, 8, 0x4, .u64, .ro, 0, 0, 18446744073709551615, 1, []⟩ /- STALL_CYCLES -/,
   ⟨0x22C0, 1, 8, 0x5, .dom, .ro, 0, 4096, 4096, 1, []⟩ /- CHANNEL_TABLE -/,
   ⟨0x22D0, 1, 16, 0x1, .u64, .ro, 0, 0, 18446744073709551615, 1, []⟩ /- TRANSFERS -/,
   ⟨0x22D0, 1, 16, 0x2, .u64, .ro, 0, 0, 18446744073709551615, 1, []⟩ /- BYTES_FETCHED -/,
   ⟨0x22D0, 1, 16, 0x3, .u64, .ro, 0, 0, 18446744073709551615, 1, []⟩ /- BYTES_SPILLED -/,
   ⟨0x22D0, 1, 16, 0x4, .u64, .ro, 0, 0, 18446744073709551615, 1, []⟩ /- LOAD_PHASE_CYCLES -/,
   ⟨0x22D0, 1, 16, 0x5, .u64, .ro, 0, 0, 18446744073709551615, 1, []⟩ /- LOAD_TURN_WAIT_CYCLES -/,
   ⟨0x22D0, 1, 16, 0x6, .u32, .ro, 0, 0, 4294967295, 1, []⟩ /- FETCH_DISCARDED -/,
   ⟨0x2300, 1, 16, 0x1, .u8, .ro, 0, 0, 255, 1, []⟩ /- RETIRED -/,
   ⟨0x2300, 1, 16, 0x2, .u32, .ro, 0, 0, 4294967295, 1, []⟩ /- RETRIES -/,
   ⟨0x2300, 1, 16, 0x3, .u32, .ro, 0, 0, 4294967295, 1, []⟩ /- RETRY_PASSED -/,
   ⟨0x2300, 1, 16, 0x4, .u16, .ro, 0, 0, 65535, 1, []⟩ /- ARRAY_CAUSE -/,
   ⟨0x2300, 1, 16, 0x5, .u8, .ro, 0, 0, 255, 1, []⟩ /- DISABLE_CAUSE -/,
   ⟨0x2300, 1, 16, 0x6, .u64, .ro, 0, 0, 18446744073709551615, 1, []⟩ /- SUNK_GRANULES -/]

/-- Rows of the OD tables, part 4, by index. -/
def odRows4 : List OdRow :=
  [⟨0x2310, 1, 1, 0x1, .dom, .rw, 0, 64, 64, 1, []⟩ /- HEALTH_RECORD -/,
   ⟨0x2310, 1, 1, 0x2, .u64, .ro, 0, 0, 18446744073709551615, 1, []⟩ /- ARRAY_DISABLE_MAP -/,
   ⟨0x2310, 1, 1, 0x3, .u8, .ro, 0, 0, 255, 1, []⟩ /- CORES_ENABLED -/,
   ⟨0x2310, 1, 1, 0x4, .u64, .ro, 0, 0, 18446744073709551615, 1, []⟩ /- SELFTEST_FAILED -/,
   ⟨0x2400, 1, 1, 0x1, .u64, .ro, 0, 0, 18446744073709551615, 1, []⟩ /- DRAM_SIZE -/,
   ⟨0x2400, 1, 1, 0x2, .u16, .ro, 0, 0, 65535, 1, []⟩ /- DATA_RATE -/,
   ⟨0x2400, 1, 1, 0x3, .u8, .ro, 0, 0, 255, 1, []⟩ /- PACKAGES -/,
   ⟨0x2400, 1, 1, 0x4, .u8, .ro, 0, 0, 255, 1, []⟩ /- RANKS -/,
   ⟨0x2401, 1, 1, 0x1, .u16, .rw, 1000, 100, 10000, 1, []⟩ /- RETRAIN_INTERVAL_MS -/,
   ⟨0x2401, 1, 1, 0x2, .u8, .rw, 10, 2, 40, 1, []⟩ /- RETRAIN_TEMP_C -/,
   ⟨0x2401, 1, 1, 0x3, .u32, .ro, 0, 0, 4294967295, 1, []⟩ /- RETRAINS -/,
   ⟨0x2401, 1, 1, 0x4, .u32, .ro, 0, 0, 4294967295, 1, []⟩ /- RETRAIN_MAX_NS -/,
   ⟨0x2401, 1, 1, 0x5, .bool, .rw, 1, 0, 1, 1, []⟩ /- LINK_CE_EVENT -/,
   ⟨0x2410, 1, 8, 0x1, .u32, .ro, 0, 0, 4294967295, 1, []⟩ /- LINK_CORRECTED -/,
   ⟨0x2410, 1, 8, 0x2, .u32, .ro, 0, 0, 4294967295, 1, []⟩ /- LINK_UNCORRECTABLE -/,
   ⟨0x2410, 1, 8, 0x3, .u64, .ro, 0, 0, 18446744073709551615, 1, []⟩ /- BYTES_READ -/,
   ⟨0x2410, 1, 8, 0x4, .u64, .ro, 0, 0, 18446744073709551615, 1, []⟩ /- BYTES_WRITTEN -/,
   ⟨0x2420, 1, 1, 0x1, .u32, .ro, 0, 0, 4294967295, 1, []⟩ /- REGION_VIOLATIONS -/,
   ⟨0x2420, 1, 1, 0x2, .dom, .ro, 0, 512, 512, 1, []⟩ /- REGION_TABLE -/,
   ⟨0x2600, 1, 1, 0x1, .u32, .rw, 100000, 1000, 10000000, 1, []⟩ /- STARVE_THRESHOLD -/,
   ⟨0x2600, 1, 1, 0x2, .bool, .rw, 1, 0, 1, 1, []⟩ /- STARVE_EVENT_ENABLE -/,
   ⟨0x2601, 1, 1, 0x1, .u16, .const, 4096, 0, 65535, 1, []⟩ /- WORK_CONTEXTS -/,
   ⟨0x2601, 1, 1, 0x2, .u16, .const, 3072, 0, 65535, 1, []⟩ /- CONTEXT_CACHE -/,
   ⟨0x2601, 1, 1, 0x3, .u16, .const, 32768, 0, 65535, 1, []⟩ /- RINGS -/,
   ⟨0x2601, 1, 1, 0x4, .u16, .const, 3072, 0, 65535, 1, []⟩ /- INFLIGHT_MAX -/,
   ⟨0x2601, 1, 1, 0x5, .u8, .const, 64, 0, 255, 1, []⟩ /- CMD_QUEUE -/,
   ⟨0x2601, 1, 1, 0x6, .u16, .const, 256, 0, 65535, 1, []⟩ /- TILE_COUNTERS -/,
   ⟨0x2602, 1, 1, 0x1, .u64, .ro, 0, 0, 18446744073709551615, 1, []⟩ /- RECORDS_DISPATCHED -/,
   ⟨0x2602, 1, 1, 0x2, .u32, .ro, 0, 0, 4294967295, 1, []⟩ /- REFUSALS -/,
   ⟨0x2602, 1, 1, 0x3, .u32, .ro, 0, 0, 4294967295, 1, []⟩ /- DOORBELLS_REFUSED -/,
   ⟨0x2602, 1, 1, 0x4, .u32, .ro, 0, 0, 4294967295, 1, []⟩ /- CONTEXT_FILLS -/,
   ⟨0x2602, 1, 1, 0x5, .u32, .ro, 0, 0, 4294967295, 1, []⟩ /- FILL_WAITS -/,
   ⟨0x2602, 1, 1, 0x6, .u32, .ro, 0, 0, 4294967295, 1, []⟩ /- COMMANDS_DISCARDED -/,
   ⟨0x2602, 1, 1, 0x7, .u32, .ro, 0, 0, 4294967295, 1, []⟩ /- EVT_HEAD_REFUSED -/,
   ⟨0x2610, 1, 1, 0x1, .dom, .ro, 0, 2048, 2048, 1, []⟩ /- WC_STATES -/,
   ⟨0x2610, 1, 1, 0x2, .u16, .ro, 0, 0, 65535, 1, []⟩ /- WC_ENABLED -/,
   ⟨0x2620, 1, 4, 0x1, .u64, .ro, 0, 0, 18446744073709551615, 1, []⟩ /- CLASS_DISPATCHED -/,
   ⟨0x3000, 256, 4, 0x1, .u8, .rws, 4, 1, 4, 1, []⟩ /- LANES -/,
   ⟨0x3000, 256, 4, 0x2, .u16, .rws, 4500, 80, 4500, 1, []⟩ /- LANE_RATE_MAX -/,
   ⟨0x3000, 256, 4, 0x3, .u16, .rws, 12816, 0, 65535, 1, []⟩ /- LANE_MAP -/]

/-- Rows of the OD tables, part 5, by index. -/
def odRows5 : List OdRow :=
  [⟨0x3000, 256, 4, 0x4, .u8, .rws, 0, 0, 31, 1, []⟩ /- LANE_POLARITY -/,
   ⟨0x3000, 256, 4, 0x5, .u16, .rws, 100, 10, 2000, 1, []⟩ /- FRAME_TIMEOUT_MS -/,
   ⟨0x3000, 256, 4, 0x6, .bool, .rw, 0, 0, 1, 1, []⟩ /- CAMRST_RELEASE -/,
   ⟨0x3001, 256, 4, 0x1, .u8, .rws, 0, 0, 1, 1, []⟩ /- BUS_MODE -/,
   ⟨0x3001, 256, 4, 0x2, .u8, .rws, 1, 0, 2, 1, []⟩ /- I2C_SPEED -/,
   ⟨0x3001, 256, 4, 0x3, .u16, .rws, 12500, 1000, 12500, 1, []⟩ /- I3C_SCL_KHZ -/,
   ⟨0x3001, 256, 4, 0x4, .u8, .rws, 16, 8, 119, 1, []⟩ /- SENSOR_ADDR -/,
   ⟨0x3001, 256, 4, 0x5, .u8, .rws, 0, 8, 125, 1, [0]⟩ /- DYN_ADDR -/,
   ⟨0x3001, 256, 4, 0x6, .u16, .rws, 1000, 100, 60000, 1, []⟩ /- XFER_TIMEOUT_US -/,
   ⟨0x3002, 256, 4, 0x1, .bool, .rw, 0, 0, 1, 1, []⟩ /- TRIG_ENABLE -/,
   ⟨0x3002, 256, 4, 0x2, .u32, .rw, 0, 0, 999999, 1, []⟩ /- TRIG_OFFSET_US -/,
   ⟨0x3002, 256, 4, 0x3, .u16, .rw, 100, 1, 10000, 1, []⟩ /- TRIG_WIDTH_US -/,
   ⟨0x3002, 256, 4, 0x4, .u8, .rw, 0, 0, 1, 1, []⟩ /- TRIG_POLARITY -/,
   ⟨0x3002, 256, 4, 0x5, .u8, .rw, 1, 1, 16, 1, []⟩ /- TRIG_DIVIDER -/,
   ⟨0x3003, 256, 4, 0x1, .u64, .ro, 0, 0, 18446744073709551615, 1, []⟩ /- PACKETS -/,
   ⟨0x3003, 256, 4, 0x2, .u32, .ro, 0, 0, 4294967295, 1, []⟩ /- HDR_CORRECTED -/,
   ⟨0x3003, 256, 4, 0x3, .u32, .ro, 0, 0, 4294967295, 1, []⟩ /- HDR_UNCORRECTABLE -/,
   ⟨0x3003, 256, 4, 0x4, .u32, .ro, 0, 0, 4294967295, 1, []⟩ /- CRC_ERRORS -/,
   ⟨0x3003, 256, 4, 0x5, .u32, .ro, 0, 0, 4294967295, 1, []⟩ /- LENGTH_ERRORS -/,
   ⟨0x3003, 256, 4, 0x6, .u32, .ro, 0, 0, 4294967295, 1, []⟩ /- UNROUTED -/,
   ⟨0x3003, 256, 4, 0x7, .u32, .ro, 0, 0, 4294967295, 1, []⟩ /- IDLE_BURSTS -/,
   ⟨0x3003, 256, 4, 0x8, .u32, .ro, 0, 0, 4294967295, 1, []⟩ /- LINK_ERRORS -/,
   ⟨0x3003, 256, 4, 0x9, .u32, .ro, 0, 0, 4294967295, 1, []⟩ /- XFER_ERRORS -/,
   ⟨0x3003, 256, 4, 0xA, .u32, .ro, 0, 0, 4294967295, 1, []⟩ /- LEDGER_DELAYS -/,
   ⟨0x3003, 256, 4, 0xB, .u32, .ro, 0, 0, 4294967295, 1, []⟩ /- TRIG_PULSES -/,
   ⟨0x3003, 256, 4, 0xC, .u32, .ro, 0, 0, 4294967295, 1, []⟩ /- TRIG_SKIPPED -/,
   ⟨0x4000, 64, 16, 0x1, .u8, .rws, 0, 0, 1, 1, []⟩ /- MODE -/,
   ⟨0x4000, 64, 16, 0x2, .u8, .rws, 0, 0, 255, 1, []⟩ /- CFA_PHASE -/,
   ⟨0x4000, 64, 16, 0x3, .u8, .rws, 16, 4, 64, 1, []⟩ /- LM_RAW_LINES -/,
   ⟨0x4000, 64, 16, 0x4, .u8, .rws, 4, 2, 8, 1, []⟩ /- BE_LINES -/,
   ⟨0x4000, 64, 16, 0x5, .u16, .rws, 100, 10, 2000, 1, []⟩ /- BE_TIMEOUT_MS -/,
   ⟨0x4000, 64, 16, 0x6, .u8, .rws, 1, 0, 255, 1, []⟩ /- YUV_IN -/,
   ⟨0x4001, 64, 16, 0x1, .u8, .rws, 0, 0, 3, 1, []⟩ /- PORT -/,
   ⟨0x4001, 64, 16, 0x2, .u8, .rws, 0, 0, 15, 1, []⟩ /- VC -/,
   ⟨0x4001, 64, 16, 0x3, .u8, .rws, 44, 0, 255, 1, []⟩ /- DATA_TYPE -/,
   ⟨0x4001, 64, 16, 0x4, .u16, .rws, 1920, 64, 8192, 1, []⟩ /- WIDTH -/,
   ⟨0x4001, 64, 16, 0x5, .u16, .rws, 1080, 2, 8192, 1, []⟩ /- HEIGHT -/,
   ⟨0x4001, 64, 16, 0x6, .u16, .rws, 0, 0, 4095, 1, []⟩ /- LEN_WC -/,
   ⟨0x4001, 64, 16, 0x7, .u8, .rws, 0, 0, 255, 1, []⟩ /- LEN_REG -/,
   ⟨0x4001, 64, 16, 0x8, .u8, .rws, 0, 0, 255, 1, []⟩ /- FRAME_SIGNAL -/]

/-- Rows of the OD tables, part 6, by index. -/
def odRows6 : List OdRow :=
  [⟨0x4001, 64, 16, 0x9, .bool, .rws, 0, 0, 1, 1, []⟩ /- EMB_ENABLE -/,
   ⟨0x4001, 64, 16, 0xA, .u64, .rws, 0, 0, 18446744073709551615, 64, []⟩ /- EMB_BASE -/,
   ⟨0x4001, 64, 16, 0xB, .u32, .rws, 4096, 128, 1048576, 64, []⟩ /- EMB_SLOT_BYTES -/,
   ⟨0x4001, 64, 16, 0xC, .u8, .rws, 4, 2, 16, 1, []⟩ /- EMB_SLOTS -/,
   ⟨0x4001, 64, 16, 0xD, .u32, .ro, 0, 0, 4294967295, 1, []⟩ /- FRAMES -/,
   ⟨0x4001, 64, 16, 0xE, .u32, .ro, 0, 0, 4294967295, 1, []⟩ /- SHORT_FRAMES -/,
   ⟨0x4001, 64, 16, 0xF, .u32, .ro, 0, 0, 4294967295, 1, []⟩ /- LONG_FRAMES -/,
   ⟨0x4001, 64, 16, 0x10, .u32, .ro, 0, 0, 4294967295, 1, []⟩ /- OVERFLOW_FRAMES -/,
   ⟨0x4001, 64, 16, 0x11, .u32, .ro, 0, 0, 4294967295, 1, []⟩ /- BAD_LINES -/,
   ⟨0x4001, 64, 16, 0x12, .u32, .ro, 0, 0, 4294967295, 1, []⟩ /- EXTRA_LINES -/,
   ⟨0x4001, 64, 16, 0x13, .u32, .ro, 0, 0, 4294967295, 1, []⟩ /- LEN_SKIPPED -/,
   ⟨0x4001, 64, 16, 0x14, .u32, .ro, 0, 0, 4294967295, 1, []⟩ /- EMB_OVERRUNS -/,
   ⟨0x4001, 64, 16, 0x15, .dom, .ro, 0, 32, 32, 1, []⟩ /- LAST_STAMP -/,
   ⟨0x4002, 64, 16, 0x1, .u64, .rws, 0, 0, 18446744073709551615, 4, []⟩ /- DEFECT_TABLE -/,
   ⟨0x4002, 64, 16, 0x2, .u16, .rws, 0, 0, 4096, 1, []⟩ /- DEFECT_COUNT -/,
   ⟨0x4003, 64, 16, 0x1, .u16, .rws, 512, 128, 2048, 32, []⟩ /- STRIPE_WIDTH -/,
   ⟨0x4003, 64, 16, 0x2, .u8, .rws, 64, 0, 64, 2, []⟩ /- HALO -/,
   ⟨0x4003, 64, 16, 0x3, .u8, .ro, 0, 0, 255, 1, []⟩ /- STRIPES -/,
   ⟨0x4004, 64, 16, 0x1, .bool, .rws, 0, 0, 1, 1, []⟩ /- ENABLE -/,
   ⟨0x4004, 64, 16, 0x2, .u8, .rws, 0, 0, 255, 1, []⟩ /- FORMAT -/,
   ⟨0x4004, 64, 16, 0x3, .u16, .rws, 1920, 16, 4096, 1, []⟩ /- OUT_W -/,
   ⟨0x4004, 64, 16, 0x4, .u16, .rws, 1080, 2, 4096, 1, []⟩ /- OUT_H -/,
   ⟨0x4004, 64, 16, 0x5, .u32, .rws, 0, 0, 4294967295, 1, []⟩ /- STRIDE -/,
   ⟨0x4004, 64, 16, 0x6, .u16, .rws, 65535, 0, 511, 1, [65535]⟩ /- CHANNEL -/,
   ⟨0x4004, 64, 16, 0x7, .u64, .rws, 0, 0, 18446744073709551615, 1, []⟩ /- BUF_BASE -/,
   ⟨0x4004, 64, 16, 0x8, .u8, .rws, 3, 2, 16, 1, []⟩ /- BUF_COUNT -/,
   ⟨0x4004, 64, 16, 0x9, .u32, .ro, 0, 0, 4294967295, 1, []⟩ /- BUF_BYTES -/,
   ⟨0x4004, 64, 16, 0xA, .u32, .rws, 0, 0, 4294967295, 1, []⟩ /- OUT_SIGNAL -/,
   ⟨0x4004, 64, 16, 0xB, .u8, .rws, 1, 0, 255, 1, []⟩ /- CSC -/,
   ⟨0x4004, 64, 16, 0xC, .u8, .rws, 255, 0, 255, 1, []⟩ /- ALPHA -/,
   ⟨0x4004, 64, 16, 0xD, .u16, .rws, 1280, 16, 4096, 1, []⟩ /- SCALED_W -/,
   ⟨0x4004, 64, 16, 0xE, .u16, .rws, 720, 2, 4096, 1, []⟩ /- SCALED_H -/,
   ⟨0x4004, 64, 16, 0xF, .u16, .rws, 0, 0, 65535, 1, []⟩ /- LB_X -/,
   ⟨0x4004, 64, 16, 0x10, .u16, .rws, 0, 0, 65535, 1, []⟩ /- LB_Y -/,
   ⟨0x4004, 64, 16, 0x20, .u32, .ro, 0, 0, 4294967295, 1, []⟩ /- FRAMES_WRITTEN -/,
   ⟨0x4004, 64, 16, 0x21, .u32, .ro, 0, 0, 4294967295, 1, []⟩ /- FRAMES_INCOMPLETE -/,
   ⟨0x4004, 64, 16, 0x22, .u32, .ro, 0, 0, 4294967295, 1, []⟩ /- CROP_REFUSED -/,
   ⟨0x4005, 64, 16, 0x1, .bool, .rws, 0, 0, 1, 1, []⟩ /- ENABLE -/,
   ⟨0x4005, 64, 16, 0x2, .u8, .rws, 0, 0, 255, 1, []⟩ /- FORMAT -/,
   ⟨0x4005, 64, 16, 0x3, .u16, .rws, 1920, 16, 4096, 1, []⟩ /- OUT_W -/]

/-- Rows of the OD tables, part 7, by index. -/
def odRows7 : List OdRow :=
  [⟨0x4005, 64, 16, 0x4, .u16, .rws, 1080, 2, 4096, 1, []⟩ /- OUT_H -/,
   ⟨0x4005, 64, 16, 0x5, .u32, .rws, 0, 0, 4294967295, 1, []⟩ /- STRIDE -/,
   ⟨0x4005, 64, 16, 0x6, .u16, .rws, 65535, 0, 511, 1, [65535]⟩ /- CHANNEL -/,
   ⟨0x4005, 64, 16, 0x7, .u64, .rws, 0, 0, 18446744073709551615, 1, []⟩ /- BUF_BASE -/,
   ⟨0x4005, 64, 16, 0x8, .u8, .rws, 3, 2, 16, 1, []⟩ /- BUF_COUNT -/,
   ⟨0x4005, 64, 16, 0x9, .u32, .ro, 0, 0, 4294967295, 1, []⟩ /- BUF_BYTES -/,
   ⟨0x4005, 64, 16, 0xA, .u32, .rws, 0, 0, 4294967295, 1, []⟩ /- OUT_SIGNAL -/,
   ⟨0x4005, 64, 16, 0xB, .u8, .rws, 1, 0, 255, 1, []⟩ /- CSC -/,
   ⟨0x4005, 64, 16, 0xC, .u8, .rws, 255, 0, 255, 1, []⟩ /- ALPHA -/,
   ⟨0x4005, 64, 16, 0xD, .u16, .rws, 1280, 16, 4096, 1, []⟩ /- SCALED_W -/,
   ⟨0x4005, 64, 16, 0xE, .u16, .rws, 720, 2, 4096, 1, []⟩ /- SCALED_H -/,
   ⟨0x4005, 64, 16, 0xF, .u16, .rws, 0, 0, 65535, 1, []⟩ /- LB_X -/,
   ⟨0x4005, 64, 16, 0x10, .u16, .rws, 0, 0, 65535, 1, []⟩ /- LB_Y -/,
   ⟨0x4005, 64, 16, 0x20, .u32, .ro, 0, 0, 4294967295, 1, []⟩ /- FRAMES_WRITTEN -/,
   ⟨0x4005, 64, 16, 0x21, .u32, .ro, 0, 0, 4294967295, 1, []⟩ /- FRAMES_INCOMPLETE -/,
   ⟨0x4005, 64, 16, 0x22, .u32, .ro, 0, 0, 4294967295, 1, []⟩ /- CROP_REFUSED -/,
   ⟨0x4006, 64, 16, 0x1, .bool, .rws, 0, 0, 1, 1, []⟩ /- ENABLE -/,
   ⟨0x4006, 64, 16, 0x2, .u8, .rws, 0, 0, 255, 1, []⟩ /- FORMAT -/,
   ⟨0x4006, 64, 16, 0x3, .u16, .rws, 1920, 16, 4096, 1, []⟩ /- OUT_W -/,
   ⟨0x4006, 64, 16, 0x4, .u16, .rws, 1080, 2, 4096, 1, []⟩ /- OUT_H -/,
   ⟨0x4006, 64, 16, 0x5, .u32, .rws, 0, 0, 4294967295, 1, []⟩ /- STRIDE -/,
   ⟨0x4006, 64, 16, 0x6, .u16, .rws, 65535, 0, 511, 1, [65535]⟩ /- CHANNEL -/,
   ⟨0x4006, 64, 16, 0x7, .u64, .rws, 0, 0, 18446744073709551615, 1, []⟩ /- BUF_BASE -/,
   ⟨0x4006, 64, 16, 0x8, .u8, .rws, 3, 2, 16, 1, []⟩ /- BUF_COUNT -/,
   ⟨0x4006, 64, 16, 0x9, .u32, .ro, 0, 0, 4294967295, 1, []⟩ /- BUF_BYTES -/,
   ⟨0x4006, 64, 16, 0xA, .u32, .rws, 0, 0, 4294967295, 1, []⟩ /- OUT_SIGNAL -/,
   ⟨0x4006, 64, 16, 0xB, .u8, .rws, 1, 0, 255, 1, []⟩ /- CSC -/,
   ⟨0x4006, 64, 16, 0xC, .u8, .rws, 255, 0, 255, 1, []⟩ /- ALPHA -/,
   ⟨0x4006, 64, 16, 0xD, .u16, .rws, 1280, 16, 4096, 1, []⟩ /- SCALED_W -/,
   ⟨0x4006, 64, 16, 0xE, .u16, .rws, 720, 2, 4096, 1, []⟩ /- SCALED_H -/,
   ⟨0x4006, 64, 16, 0xF, .u16, .rws, 0, 0, 65535, 1, []⟩ /- LB_X -/,
   ⟨0x4006, 64, 16, 0x10, .u16, .rws, 0, 0, 65535, 1, []⟩ /- LB_Y -/,
   ⟨0x4006, 64, 16, 0x20, .u32, .ro, 0, 0, 4294967295, 1, []⟩ /- FRAMES_WRITTEN -/,
   ⟨0x4006, 64, 16, 0x21, .u32, .ro, 0, 0, 4294967295, 1, []⟩ /- FRAMES_INCOMPLETE -/,
   ⟨0x4006, 64, 16, 0x22, .u32, .ro, 0, 0, 4294967295, 1, []⟩ /- CROP_REFUSED -/,
   ⟨0x4010, 64, 16, 0x1, .dom, .rw, 0, 256, 256, 1, []⟩ /- SHADOW_SCALARS -/,
   ⟨0x4020, 64, 16, 0x1, .u32, .ro, 0, 0, 4294967295, 1, []⟩ /- FRAMES_NEURAL -/,
   ⟨0x4020, 64, 16, 0x2, .u32, .ro, 0, 0, 4294967295, 1, []⟩ /- FRAMES_FALLBACK -/,
   ⟨0x4020, 64, 16, 0x3, .u32, .ro, 0, 0, 4294967295, 1, []⟩ /- NEURAL_LOST -/,
   ⟨0x4020, 64, 16, 0x4, .u32, .ro, 0, 0, 4294967295, 1, []⟩ /- LINES_CONCEALED -/]

/-- Rows of the OD tables, part 8, by index. -/
def odRows8 : List OdRow :=
  [⟨0x4020, 64, 16, 0x5, .u64, .ro, 0, 0, 18446744073709551615, 1, []⟩ /- DEFECTS_STATIC -/,
   ⟨0x4020, 64, 16, 0x6, .u64, .ro, 0, 0, 18446744073709551615, 1, []⟩ /- DEFECTS_DYNAMIC -/,
   ⟨0x4020, 64, 16, 0x7, .u32, .ro, 0, 0, 4294967295, 1, []⟩ /- LATCHES -/,
   ⟨0x4020, 64, 16, 0x8, .u16, .ro, 0, 0, 65535, 1, []⟩ /- LM_BLOCKS -/,
   ⟨0x4020, 64, 16, 0x9, .u16, .ro, 0, 0, 65535, 1, []⟩ /- LM_BLOCKS_PEAK -/,
   ⟨0x403E, 64, 16, 0x1, .bool, .rws, 1, 0, 1, 1, []⟩ /- GOV_ENABLE -/,
   ⟨0x403E, 64, 16, 0x2, .u8, .rws, 2, 1, 8, 1, []⟩ /- GOV_FRAMES -/,
   ⟨0x403E, 64, 16, 0x3, .u8, .rws, 224, 64, 255, 1, []⟩ /- GOV_FILL -/,
   ⟨0x403E, 64, 16, 0x4, .u32, .ro, 0, 0, 4294967295, 1, []⟩ /- FRAMES_ADMITTED -/,
   ⟨0x403E, 64, 16, 0x5, .u32, .ro, 0, 0, 4294967295, 1, []⟩ /- FRAMES_DROPPED -/,
   ⟨0x4800, 1, 16, 0x1, .u64, .rws, 0, 0, 18446744073709551615, 1, []⟩ /- STATS_BASE -/,
   ⟨0x4800, 1, 16, 0x2, .u8, .rws, 4, 2, 16, 1, []⟩ /- STATS_SLOTS -/,
   ⟨0x4800, 1, 16, 0x3, .u32, .rws, 0, 0, 4294967295, 1, []⟩ /- SIGNAL_A -/,
   ⟨0x4800, 1, 16, 0x4, .u32, .rws, 0, 0, 4294967295, 1, []⟩ /- SIGNAL_B -/,
   ⟨0x4800, 1, 16, 0x5, .u32, .ro, 0, 0, 4294967295, 1, []⟩ /- RECORDS_A -/,
   ⟨0x4800, 1, 16, 0x6, .u32, .ro, 0, 0, 4294967295, 1, []⟩ /- RECORDS_B -/,
   ⟨0x4800, 1, 16, 0x7, .u32, .ro, 0, 0, 4294967295, 1, []⟩ /- GRIDS_REFUSED -/,
   ⟨0x4840, 1, 4, 0x1, .u8, .rws, 0, 0, 15, 1, []⟩ /- LEDGER_IC -/,
   ⟨0x4840, 1, 4, 0x2, .u32, .rws, 10000, 1000, 1000000, 1, []⟩ /- LINE_TIME_NS -/,
   ⟨0x4840, 1, 4, 0x3, .u32, .ro, 0, 0, 4294967295, 1, []⟩ /- LEDGER_ISSUED -/,
   ⟨0x4840, 1, 4, 0x4, .u32, .ro, 0, 0, 4294967295, 1, []⟩ /- LEDGER_LATE -/,
   ⟨0x4840, 1, 4, 0x5, .u32, .ro, 0, 0, 4294967295, 1, []⟩ /- LEDGER_MISSED -/,
   ⟨0x4840, 1, 4, 0x6, .u32, .ro, 0, 0, 4294967295, 1, []⟩ /- LEDGER_FAILED -/,
   ⟨0x4840, 1, 4, 0x7, .dom, .ro, 0, 2048, 2048, 1, []⟩ /- LEDGER_TABLE -/,
   ⟨0x4840, 1, 4, 0x8, .u64, .ro, 0, 0, 18446744073709551615, 1, []⟩ /- IN_FORCE -/,
   ⟨0x5000, 1, 1, 0x1, .bool, .ro, 0, 0, 1, 1, []⟩ /- PLL_LOCKED -/,
   ⟨0x5001, 1, 2, 0x1, .u8, .rws, 0, 0, 1, 1, []⟩ /- ROLE -/,
   ⟨0x5001, 1, 2, 0x2, .u8, .rws, 2, 1, 16, 1, []⟩ /- SLOTS -/,
   ⟨0x5001, 1, 2, 0x3, .u8, .rws, 32, 24, 24, 1, [16, 32]⟩ /- SLOT_BITS -/,
   ⟨0x5001, 1, 2, 0x4, .u8, .rws, 1, 0, 1, 1, []⟩ /- SYNC_MODE -/,
   ⟨0x5001, 1, 2, 0x5, .u8, .rws, 1, 0, 1, 1, []⟩ /- DATA_DELAY -/,
   ⟨0x5001, 1, 2, 0x6, .u8, .rws, 0, 0, 1, 1, []⟩ /- RATE -/,
   ⟨0x5001, 1, 2, 0x7, .bool, .rws, 0, 0, 1, 1, []⟩ /- TX_ENABLE -/,
   ⟨0x5001, 1, 2, 0x8, .u64, .rws, 0, 0, 18446744073709551615, 4096, []⟩ /- TX_BASE -/,
   ⟨0x5001, 1, 2, 0x9, .u8, .rws, 4, 2, 16, 1, []⟩ /- TX_SLOTS -/,
   ⟨0x5001, 1, 2, 0xA, .u32, .rws, 106496, 0, 4294967295, 4096, []⟩ /- TX_SLOT_BYTES -/,
   ⟨0x5001, 1, 2, 0xB, .u32, .ro, 0, 0, 4294967295, 1, []⟩ /- TX_UNDERRUNS -/,
   ⟨0x5001, 1, 2, 0xC, .i32, .ro, 0, 0, 4294967295, 1, []⟩ /- RATE_PPM -/,
   ⟨0x5010, 1, 8, 0x1, .u32, .rws, 0, 0, 4294967295, 1, []⟩ /- MICS -/,
   ⟨0x5010, 1, 8, 0x2, .u16, .rws, 0, 0, 65535, 1, []⟩ /- TDM0_SLOTS -/]

/-- Rows of the OD tables, part 9, by index. -/
def odRows9 : List OdRow :=
  [⟨0x5010, 1, 8, 0x3, .u16, .rws, 0, 0, 65535, 1, []⟩ /- TDM1_SLOTS -/,
   ⟨0x5010, 1, 8, 0x4, .u8, .rws, 0, 0, 1, 1, []⟩ /- RATE -/,
   ⟨0x5010, 1, 8, 0x5, .u8, .rws, 0, 0, 1, 1, []⟩ /- FORMAT -/,
   ⟨0x5010, 1, 8, 0x6, .bool, .rws, 1, 0, 1, 1, []⟩ /- HPF_ENABLE -/,
   ⟨0x5010, 1, 8, 0x7, .u64, .rws, 0, 0, 18446744073709551615, 1, []⟩ /- RING_BASE -/,
   ⟨0x5010, 1, 8, 0x8, .u8, .rws, 4, 2, 16, 1, []⟩ /- RING_SLOTS -/,
   ⟨0x5010, 1, 8, 0x9, .u32, .rws, 106496, 0, 4294967295, 1, []⟩ /- SLOT_BYTES -/,
   ⟨0x5010, 1, 8, 0xA, .u32, .rws, 0, 0, 4294967295, 1, []⟩ /- BLOCK_SIGNAL -/,
   ⟨0x5010, 1, 8, 0x10, .u64, .ro, 0, 0, 18446744073709551615, 1, []⟩ /- BLOCKS -/,
   ⟨0x5010, 1, 8, 0x11, .u64, .ro, 0, 0, 18446744073709551615, 1, []⟩ /- SAMPLES_DROPPED -/,
   ⟨0x5010, 1, 8, 0x12, .u64, .ro, 0, 0, 18446744073709551615, 1, []⟩ /- CLIPPED -/,
   ⟨0x5010, 1, 8, 0x13, .u32, .ro, 0, 0, 4294967295, 1, []⟩ /- SLIPS -/,
   ⟨0x5800, 1, 1, 0x1, .u8, .rws, 0, 0, 1, 1, []⟩ /- SPEED_MAX -/,
   ⟨0x5800, 1, 1, 0x2, .bool, .rws, 0, 0, 1, 1, []⟩ /- SELF_POWERED -/,
   ⟨0x5800, 1, 1, 0x3, .bool, .rws, 1, 0, 1, 1, []⟩ /- U1U2_ENABLE -/,
   ⟨0x5800, 1, 1, 0x4, .u8, .ro, 0, 0, 255, 1, []⟩ /- LINK_SPEED -/,
   ⟨0x5800, 1, 1, 0x5, .u32, .ro, 0, 0, 4294967295, 1, []⟩ /- BUS_RESETS -/,
   ⟨0x5900, 256, 2, 0x1, .u8, .rws, 0, 0, 1, 1, []⟩ /- MODE -/,
   ⟨0x5900, 256, 2, 0x2, .u16, .rws, 1518, 1518, 9018, 1, []⟩ /- MAX_FRAME -/,
   ⟨0x5900, 256, 2, 0x3, .u32, .rws, 0, 0, 4294967295, 1, []⟩ /- PCP_QUEUE -/,
   ⟨0x5900, 256, 2, 0x4, .u16, .rws, 0, 0, 65535, 1, []⟩ /- TX_DELAY_NS -/,
   ⟨0x5900, 256, 2, 0x5, .u16, .rws, 0, 0, 65535, 1, []⟩ /- RX_DELAY_NS -/,
   ⟨0x5900, 256, 2, 0x6, .bool, .rw, 0, 0, 1, 1, []⟩ /- PHY_RELEASE -/,
   ⟨0x5900, 256, 2, 0x7, .u8, .ro, 0, 0, 255, 1, []⟩ /- LINK -/,
   ⟨0x5900, 256, 2, 0x8, .u32, .ro, 0, 0, 4294967295, 1, []⟩ /- FCS_ERRORS -/,
   ⟨0x5900, 256, 2, 0x9, .u32, .ro, 0, 0, 4294967295, 1, []⟩ /- RX_NO_BUFFER -/,
   ⟨0x5B00, 1, 1, 0x1, .u16, .rws, 500, 125, 1000, 1, []⟩ /- NOMINAL_KBIT -/,
   ⟨0x5B00, 1, 1, 0x2, .u16, .rws, 2000, 0, 65535, 1, []⟩ /- DATA_KBIT -/,
   ⟨0x5B00, 1, 1, 0x3, .u16, .rws, 800, 500, 900, 1, []⟩ /- NOMINAL_SP -/,
   ⟨0x5B00, 1, 1, 0x4, .u16, .rws, 750, 500, 900, 1, []⟩ /- DATA_SP -/,
   ⟨0x5B00, 1, 1, 0x5, .bool, .rw, 1, 0, 1, 1, []⟩ /- AUTO_RECOVER -/,
   ⟨0x5B00, 1, 1, 0x6, .dom, .rws, 0, 128, 128, 1, []⟩ /- FILTERS -/,
   ⟨0x5B00, 1, 1, 0x7, .u8, .ro, 0, 0, 255, 1, []⟩ /- CAN_STATE -/,
   ⟨0x5B00, 1, 1, 0x8, .u32, .ro, 0, 0, 4294967295, 1, []⟩ /- BUS_OFFS -/,
   ⟨0x5B00, 1, 1, 0x9, .u32, .ro, 0, 0, 4294967295, 1, []⟩ /- RX_FILTERED -/,
   ⟨0x5B80, 1, 1, 0x1, .u32, .rws, 115200, 300, 4000000, 1, []⟩ /- BAUD -/,
   ⟨0x5B80, 1, 1, 0x2, .u8, .rws, 0, 0, 255, 1, []⟩ /- UART_FORMAT -/,
   ⟨0x6000, 1, 1, 0x1, .u8, .ro, 0, 0, 255, 1, []⟩ /- LIFECYCLE -/,
   ⟨0x6000, 1, 1, 0x2, .u8, .ro, 0, 0, 255, 1, []⟩ /- BOOT_MODE -/,
   ⟨0x6000, 1, 1, 0x3, .u8, .ro, 0, 0, 255, 1, []⟩ /- BOOT_SOURCE -/]

/-- Rows of the OD tables, part 10, by index. -/
def odRows10 : List OdRow :=
  [⟨0x6000, 1, 1, 0x4, .u8, .ro, 0, 0, 255, 1, []⟩ /- BOOT_STAGE -/,
   ⟨0x6001, 1, 1, 0x1, .u32, .ro, 0, 0, 4294967295, 1, []⟩ /- SLOT_STATE -/,
   ⟨0x6001, 1, 1, 0x2, .u8, .ro, 0, 0, 255, 1, []⟩ /- ROLLBACK -/,
   ⟨0x6001, 1, 1, 0x3, .u8, .wo, 0, 0, 3, 1, []⟩ /- REVOKE -/,
   ⟨0x6001, 1, 1, 0x4, .u8, .wo, 0, 1, 64, 1, []⟩ /- ROLLBACK_ADVANCE -/,
   ⟨0x6001, 1, 1, 0x5, .bool, .wo, 0, 1, 1, 1, []⟩ /- FUSE_LOCK -/,
   ⟨0x6010, 1, 1, 0x1, .u8, .ro, 0, 0, 255, 1, []⟩ /- MEAS_COUNT -/,
   ⟨0x6010, 1, 1, 0x2, .dom, .ro, 0, 960, 960, 1, []⟩ /- MEASUREMENTS -/,
   ⟨0x6020, 1, 1, 0x1, .dom, .ro, 0, 32, 32, 1, []⟩ /- ID_ED25519_PUB -/,
   ⟨0x6020, 1, 1, 0x2, .dom, .ro, 0, 1952, 1952, 1, []⟩ /- ID_MLDSA_PUB -/,
   ⟨0x6021, 1, 1, 0x1, .dom, .wo, 0, 32, 32, 1, []⟩ /- ATTEST_NONCE -/,
   ⟨0x6021, 1, 1, 0x2, .u8, .ro, 0, 0, 255, 1, []⟩ /- ATTEST_STATE -/,
   ⟨0x6021, 1, 1, 0x3, .dom, .ro, 0, 4461, 4461, 1, []⟩ /- ATTEST_REPORT -/,
   ⟨0x6030, 1, 1, 0x1, .dom, .ro, 0, 16, 16, 1, []⟩ /- DEBUG_NONCE -/,
   ⟨0x6030, 1, 1, 0x2, .dom, .wo, 0, 5485, 5485, 1, []⟩ /- DEBUG_TOKEN -/,
   ⟨0x6030, 1, 1, 0x3, .u8, .ro, 0, 0, 255, 1, []⟩ /- DEBUG_STATE -/,
   ⟨0x6030, 1, 1, 0x4, .u8, .ro, 0, 0, 255, 1, []⟩ /- DEBUG_SCOPES -/,
   ⟨0x6030, 1, 1, 0x5, .u8, .ro, 0, 0, 255, 1, []⟩ /- DEBUG_REFUSALS -/]

/-- Every row of the dictionary. -/
def odTable : List OdRow :=
  odRows0 ++ odRows1 ++ odRows2 ++ odRows3 ++ odRows4 ++ odRows5 ++ odRows6 ++ odRows7 ++ odRows8 ++ odRows9 ++ odRows10

/-- Size of a fixed-size type in bytes; 0 for strings and domains. -/
def odSize : OdTy → Nat
  | .bool | .u8 => 1
  | .u16 | .i16 => 2
  | .u32 | .i32 => 4
  | .u64 => 8
  | _ => 0

/-- Whether a row holds index i, subindex sub. -/
def odRowHas (r : OdRow) (i sub : Nat) : Bool :=
  r.sub == sub && decide (r.base ≤ i) && (i - r.base) % r.stride == 0 && decide ((i - r.base) / r.stride < r.count)

/-- The row of entry i.sub, if the dictionary has it. -/
def odRow (i sub : Nat) : Option OdRow := odTable.find? fun r => odRowHas r i sub

/-- Key under which State holds entry i.sub. -/
def odKey (i sub : Nat) : Nat := i * 256 + sub

/-- Default of entry i.sub (R298): the table's value; PORT, VC and LEDGER_IC depend on the index. -/
def odDefault (key : Nat) : Nat :=
  let i := key / 256
  let sub := key % 256
  if 0x4000 ≤ i && i < 0x4400 && i % 0x40 == 1 && sub == 1 then (i - 0x4000) / 0x40 / 4
  else if 0x4000 ≤ i && i < 0x4400 && i % 0x40 == 1 && sub == 2 then (i - 0x4000) / 0x40 % 4
  else if 0x4840 ≤ i && i < 0x4844 && sub == 1 then 4 * (i - 0x4840)
  else match odRow i sub with
    | some r => r.dflt
    | none => 0

/-- Whether a number is in range for a row. -/
def odInRange (r : OdRow) (v : Nat) : Bool :=
  (decide (r.lo ≤ v) && decide (v ≤ r.hi) && v % r.step == 0) || r.extra.contains v

end Sys2Proof.Machine
end

