-- ==== Sys2Proof/Machine/Sparse.lean ====
section
/-! DEFINITION. Tables in canonical form: keys rising, no entry that equals what an unlisted key reads as. -/

namespace Sys2Proof.Machine

open Sys2Proof

/-- Value under key `k`; an unlisted key reads `dflt k`. -/
def sget {α : Type} (dflt : Nat → α) : Sparse α → Nat → α
  | [], k => dflt k
  | (j, v) :: t, k => if k = j then v else if k < j then dflt k else sget dflt t k

/-- Put `v` under key `k`, replacing what stood there. -/
def sput {α : Type} : Sparse α → Nat → α → Sparse α
  | [], k, v => [(k, v)]
  | (j, w) :: t, k, v => if k = j then (k, v) :: t else if k < j then (k, v) :: (j, w) :: t else (j, w) :: sput t k v

/-- Canonical form of a table: keys above `lo`, rising, no default value listed. -/
def swfFrom {α : Type} [DecidableEq α] (dflt : Nat → α) : Nat → Sparse α → Bool
  | _, [] => true
  | lo, (j, v) :: t => decide (lo ≤ j) && decide (v ≠ dflt j) && swfFrom dflt (j + 1) t

/-- Canonical form of a table. -/
def swf {α : Type} [DecidableEq α] (dflt : Nat → α) (t : Sparse α) : Bool := swfFrom dflt 0 t

/-- Remove key `k`. Where the rest of the table is not canonical, the unlisted value is written out instead, so that in every table a read gives what was written last. -/
def sdel {α : Type} [DecidableEq α] (dflt : Nat → α) : Sparse α → Nat → Sparse α
  | [], _ => []
  | (j, v) :: t, k =>
    if k = j then (if swfFrom dflt (k + 1) t then t else (k, dflt k) :: t) else if k < j then (j, v) :: t else (j, v) :: sdel dflt t k

/-- Write `v` under key `k`: a value equal to the unlisted one removes the entry. -/
def sset {α : Type} [DecidableEq α] (dflt : Nat → α) (t : Sparse α) (k : Nat) (v : α) : Sparse α :=
  if v = dflt k then sdel dflt t k else sput t k v

/-- Change the value under key `k` by `f`. -/
def supd {α : Type} [DecidableEq α] (dflt : Nat → α) (t : Sparse α) (k : Nat) (f : α → α) : Sparse α :=
  sset dflt t k (f (sget dflt t k))

/-- Insert a number into a rising list of numbers. -/
def insNat (k : Nat) : List Nat → List Nat
  | [] => [k]
  | j :: t => if k = j then j :: t else if k < j then k :: j :: t else j :: insNat k t

/-- Remove a number from a list. -/
def delNat (k : Nat) (l : List Nat) : List Nat := l.filter (· ≠ k)

/-- First position whose element meets `p`, with the element. -/
def findIdxElem {α : Type} (p : α → Bool) : List α → Nat → Option (Nat × α)
  | [], _ => none
  | x :: t, i => if p x then some (i, x) else findIdxElem p t (i + 1)

/-- Positions and elements of a list. -/
def withPos {α : Type} (l : List α) : List (Nat × α) := (List.range l.length).zip l

/-- Cut a list into `k` groups of `n`. -/
def chunks {α : Type} (n : Nat) : Nat → List α → List (List α)
  | 0, _ => []
  | k + 1, l => l.take n :: chunks n k (l.drop n)

/-- Change the element at position `i`. -/
def modifyAt {α : Type} (l : List α) (i : Nat) (f : α → α) : List α :=
  match l, i with
  | [], _ => []
  | x :: t, 0 => f x :: t
  | x :: t, i + 1 => x :: modifyAt t i f

/-- Remove the element at position `i`. -/
def removeAt {α : Type} : List α → Nat → List α
  | [], _ => []
  | _ :: t, 0 => t
  | x :: t, i + 1 => x :: removeAt t i

end Sys2Proof.Machine
end

