-- ==== Sys2Proof/Machine/State.lean ====
section
/-! DEFINITION. The state of the block as plain data: every register, memory, queue, counter, mode and pin that the spec gives the device, the queue of waiting commands, and the reasons a step can stop. A field's default value is its value after reset. -/

namespace Sys2Proof.Machine

open Sys2Proof

/-! ### Events, memory and the memory controller -/

/-- An event record at the CP's event port (Table 8.8); the ring gives it its SEQ when it is written. -/
structure EvtRec where
  /-- CODE, Table 16.6. -/
  code : Nat := 0
  /-- CLASS: 0 data, 1 control, 2 management. -/
  cls : Nat := 0
  /-- WORK_CONTEXT, when WC_VALID. -/
  wc : Option Nat := none
  /-- SOURCE, Table 8.8. -/
  source : Nat := 0
  /-- PAYLOAD. -/
  payload : Nat := 0
  deriving DecidableEq, Repr

/-- The byte memories of the physical address map (R20): DRAM, SB, and each core's WM, AM and descriptor store, at their physical addresses. -/
structure Mem where
  /-- Bytes that differ from 0, addresses rising (Table 1.5; what an unlisted byte reads: log 4). -/
  ram : List Host.Cell := []
  /-- 32 B words of WM, AM, descriptor store and SB whose poison bit is set: addresses ÷ 32, rising (R125). -/
  poison : List Nat := []
  /-- Words holding a latent corrected (1) or uncorrectable (2) error that no read has met yet, by address ÷ 32 (R126, R128). -/
  latent : Sparse Nat := []
  /-- SB words corrected since the slice's last 0x0401 record, by slice (R131). -/
  sbCe : Sparse Nat := []
  /-- Per DRAM granule, address ÷ 64: 1 + the key slot it was last written under, 0 for plaintext (R465, R467). -/
  encTag : Sparse Nat := []
  deriving DecidableEq, Repr

/-- The memory controller (chapter 14). -/
structure Dmc where
  /-- Region entries of Table 14.7, by number 0 to 15. -/
  regions : Sparse (BitVec 256) := []
  /-- Some region has been enabled since reset; until then agent 6 reaches all DRAM and SB (R24, R524). -/
  everEnabled : Bool := false
  /-- DMC_STATUS.TRAINED (Table 14.8). -/
  trained : Bool := false
  /-- DMC_STATUS [15:8]: channels now retraining. -/
  retraining : BitVec 8 := 0#8
  /-- DMC_STATUS.KEY_LOADED. -/
  keyLoaded : BitVec 8 := 0#8
  /-- Key slots 0 to 7, once loaded (R466, R525). -/
  keys : List (BitVec 512) := []
  /-- VIOL_ADDR. -/
  violAddr : Addr := 0#40
  /-- VIOL_INFO. -/
  violInfo : W64 := 0#64
  /-- Link errors corrected since the last 0x0E02 record, and the channels they came from (R457). -/
  ceSince : Nat := 0
  ceMask : BitVec 8 := 0#8
  /-- Reads whose transfer will meet a link error: 1 single-bit, 2 multi-bit, by granule address ÷ 64 (R457). -/
  linkErr : Sparse Nat := []
  /-- Channels whose retraining is due, waiting for a breath boundary (R459). -/
  due : BitVec 8 := 0#8
  /-- Channels of the present pass that are still to be retrained, the one now closed among them (R459). -/
  sched : BitVec 8 := 0#8
  /-- Refreshes performed per channel: the refresh order goes on from there, bank by bank (R458). -/
  refreshes : Sparse Nat := []
  deriving DecidableEq, Repr

/-! ### Command processor -/

/-- One ring of a work context: the CP's on-chip ring state (R274) and the records it has fetched. -/
structure Ring where
  /-- TAIL last accepted. -/
  tail : W32 := 0#32
  /-- RING_HEAD: records dispatched, refused or skipped (R276). -/
  head : W32 := 0#32
  /-- Admitted units waiting for dispatch, in position order: each the records of one unit (one record, or a FUSE header and its chain), each with whether it was read poisoned. -/
  ready : List (List (Line × Bool)) := []
  /-- Records of the front unit already dispatched, the rest waiting for a tile counter that one of them holds (R179). -/
  part : Nat := 0
  /-- A refused unit behind them: its record count, code, detail and first record, to be reported when its turn comes (R280). -/
  refused : Option (Nat × Nat × Nat × Line) := none
  /-- Records still to be fetched that were admitted with the placement (R184, R185). -/
  pre : Nat := 0
  /-- Device time in ns since which a record has waited without a dispatch (R281). -/
  since : Nat := 0
  /-- Event 0x0823 has been posted since the last dispatch (R281). -/
  starved : Bool := false
  deriving DecidableEq, Repr

/-- A stage of an admitted placement (Table 7.7). -/
structure Stage where
  cores : BitVec 16 := 0#16
  ring : Nat := 0
  handover : Nat := 0
  nxt : Nat := 0
  group : Nat := 0
  window : Nat := 0
  wmode : Nat := 0
  wsize : Nat := 0
  deriving DecidableEq, Repr

/-- A cancel in progress (R292, R294). -/
structure Cancel where
  /-- Ring TAILs recorded when the cancel was accepted, ring 0 first. -/
  tails : List W32 := []
  /-- Records skipped so far. -/
  skipped : Nat := 0
  /-- Later CANCELs whose completions follow the first (R294). -/
  extra : Nat := 0
  deriving DecidableEq, Repr

/-- A work context as the CP holds it (Table 8.1, R264). -/
structure Wc where
  /-- The entry is in the context cache (R271). -/
  cached : Bool := false
  /-- The RO fields as the last fill read them: the whole 2,048-bit entry. -/
  ro : BitVec 2048 := 0#2048
  /-- STATE: 0 Disabled, 1 Enabled, 2 Cancelling, 3 Faulted. -/
  state : BitVec 4 := 0#4
  /-- EPOCH (R292). -/
  epoch : BitVec 8 := 0#8
  /-- RING_HALTED (R280). -/
  halted : BitVec 8 := 0#8
  /-- PLACEMENT: address of the admitted placement's header; 0 none. -/
  placement : Addr := 0#40
  /-- INFLIGHT: records dispatched and not yet retired (R282). -/
  inflight : Nat := 0
  /-- CORES_RESIDENT (R174). -/
  resident : BitVec 16 := 0#16
  /-- RECORDS_RETIRED. -/
  retired : W32 := 0#32
  /-- COMPL_TAIL: SEQ of the next completion. -/
  complTail : W32 := 1#32
  /-- COMPL_HEAD: last head accepted (R284). -/
  complHead : W32 := 1#32
  /-- Completion slots reserved by fetched and dispatched records (R278). -/
  reserved : Nat := 0
  /-- RW fields changed since the last write to DRAM (R264). -/
  dirty : Bool := false
  /-- Stamp of the last use, for eviction (R272). -/
  lastUse : Nat := 0
  /-- The 64 signal counters (R165). -/
  signals : Sparse W32 := []
  /-- Stage table of the admitted placement (R268). -/
  stages : List Stage := []
  /-- Counter groups bound at admission: group to hub × 64 + counter (R246). -/
  groups : List (Nat × Nat) := []
  /-- Windows that the admitted placement's records and hand-overs open: core, entry, block mode (R199). -/
  winModes : List (Nat × Nat × Bool) := []
  /-- A RELEASE waits for the stage rings' records (Table 8.4). -/
  releasePending : Bool := false
  /-- The cancel in progress. -/
  cancel : Option Cancel := none
  /-- Core granted a load turn last (R244). -/
  lastTurn : Nat := 15
  /-- Cores holding a load turn (R243). -/
  turns : BitVec 16 := 0#16
  /-- Cores asking for a load turn (R243). -/
  asks : BitVec 16 := 0#16
  deriving DecidableEq, Repr

/-- A record whose copies run on several cores: a shared instruction, a chain record of a stage of several cores, or a scope-1 BARRIER (R183, R248, R252). -/
structure Shared where
  wc : Nat := 0
  /-- Shared instruction: hub × 64 + counter (R179). -/
  ctr : Option Nat := none
  ring : Nat := 0
  pos : W32 := 0#32
  word : Line := 0#512
  epoch : BitVec 8 := 0#8
  /-- Member copies not yet retired. -/
  left : Nat := 0
  /-- Conditions of the copies retired so far, as bits of the completion word [100:96]. -/
  flags : Nat := 0
  /-- Some copy retired Cancelled. -/
  cancelled : Bool := false
  deriving DecidableEq, Repr

/-- A scope-1 BARRIER in progress: which cores' copies have waited (R252). -/
structure BarWait where
  wc : Nat := 0
  ring : Nat := 0
  pos : W32 := 0#32
  waited : BitVec 16 := 0#16
  deriving DecidableEq, Repr

/-- The command processor (chapter 8). -/
structure Cp where
  /-- Command queue, oldest first, at most 64 (Table 8.2, R266). -/
  cmds : List W64 := []
  /-- EVT_CTRL (Table 8.6). -/
  evtCtrl : W64 := 0#64
  /-- EVT_TAIL: SEQ of the next event record. -/
  evtTail : BitVec 24 := 1#24
  /-- EVT_HEAD: last head accepted (R291). -/
  evtHead : BitVec 24 := 1#24
  /-- EVT_LOST, saturating at 2^32 - 1. -/
  evtLost : Nat := 0
  /-- Records lost since the last Events lost record (R290). -/
  lostSince : Nat := 0
  /-- CTX_BASE. -/
  ctxBase : Addr := 0#40
  /-- Records waiting in the event port, oldest first, at most 64 (R290). -/
  port : List EvtRec := []
  /-- Work contexts 0 to 4,095. -/
  wcs : Sparse Wc := []
  /-- Ring state, ring 8w + i (R274). -/
  rings : Sparse Ring := []
  /-- Ring dispatched last in each class (R279). -/
  rr : Sparse Nat := []
  /-- Stamp counter of the context cache's least-recently-used order (R272). -/
  useClock : Nat := 0
  /-- Records in flight with copies on several cores (R183). -/
  shared : List Shared := []
  /-- Copies of scope-1 BARRIERs that have waited (R252). -/
  barriers : List BarWait := []
  deriving DecidableEq, Repr

/-- A shared tile counter (Table 5.11) with its completion bitmap. -/
structure TileCtr where
  gen : BitVec 16 := 0#16
  /-- STATE: 0 free, 1 armed, 2 exhausted, 3 done. -/
  state : Nat := 0
  wc : Nat := 0
  total : Nat := 0
  next : Nat := 0
  done : Nat := 0
  members : BitVec 16 := 0#16
  /-- BITMAP: granule index of the bitmap within the hub's slice. -/
  bitmap : Nat := 0
  /-- Bound to an admitted placement (R246). -/
  bound : Bool := false
  deriving DecidableEq, Repr
/-! ### Compute cores -/

/-- One PM entry (R87, R125). -/
structure PmEntry where
  /-- The 32 data bits: INT32 or FP32. -/
  bits : W32 := 0#32
  /-- Saturation flag (R87). -/
  sat : Bool := false
  /-- Poison bit (R125). -/
  poison : Bool := false
  deriving DecidableEq, Repr

/-- A range of a core memory that an instruction reads or writes: memory (0 WM, 1 AM, 2 PM), first and last 32 B word (PM: entry) (R139). -/
structure Range where
  mem : Nat := 0
  lo : Nat := 0
  hi : Nat := 0
  deriving DecidableEq, Repr

/-- Units of a window that an instruction names (R148): entry, units needed since open, units named as finished. -/
structure UnitUse where
  win : Nat := 0
  need : Nat := 0
  free : Nat := 0
  deriving DecidableEq, Repr

/-- A hub's reply to a tile request (R180). -/
inductive TileReply where
  | grant (t : Nat)
  | exhausted
  | stale
  deriving DecidableEq, Repr

/-- One macro-instruction in a core's queue or in flight on the core. -/
structure Op where
  /-- Work context, epoch, ring and ring position of its record (R283, R293). -/
  wc : Nat := 0
  epoch : BitVec 8 := 0#8
  ring : Nat := 0
  pos : W32 := 0#32
  /-- The 64 B record (R157). -/
  word : Line := 0#512
  /-- Queue slot of the descriptor store (Table 4.2). -/
  slot : Nat := 0
  /-- Copied descriptors: index, pool slot, the 64 B (R159). -/
  descs : List (Nat × Nat × Line) := []
  /-- Copied outlier lists: descriptor index, list slot, the channel numbers (R159, R102). -/
  lists : List (Nat × Nat × List Nat) := []
  /-- Shared instruction: hub × 64 + counter, and the GEN sent with the record (R179). -/
  ctr : Option (Nat × BitVec 16) := none
  /-- FUSE header: windows it opens, each entry, writer, mode, size (R248). -/
  opens : List (Nat × Nat × Nat × Nat) := []
  /-- Last record of a FUSE chain on this core: windows that close when it retires (R248). -/
  closes : List Nat := []
  /-- It has issued (R140). -/
  issued : Bool := false
  /-- Its own effect is complete; it may retire. -/
  done : Bool := false
  /-- Its source ranges are released (R141). -/
  released : Bool := false
  /-- Actual lengths latched at issue, of its operands' dimensions (R175): descriptor index and the four lengths. -/
  lens : List (Nat × List Nat) := []
  /-- Ranges recorded in the scoreboard (R139). -/
  src : List Range := []
  dst : List Range := []
  /-- Window units it reads (R148). -/
  units : List UnitUse := []
  /-- Shared instruction: tiles granted and not yet claimed; Exhausted received (R181). -/
  tiles : List Nat := []
  exhausted : Bool := false
  /-- The hub's reply on its way to the core (R180). -/
  reply : Option TileReply := none
  /-- Last tile granted, and tiles claimed so far (R182, R199). -/
  lastGrant : Nat := 0
  taken : Nat := 0
  /-- Conditions for its completion's flags (Table 8.5): Saturated, Length clamped, Refold, Incomplete, Poisoned. -/
  sat : Bool := false
  clamped : Bool := false
  refold : Bool := false
  incomplete : Bool := false
  poisoned : Bool := false
  /-- It retires Cancelled (R181, R293). -/
  cancelled : Bool := false
  /-- Convolution: output rows complete, and window units already freed (R199). -/
  row : Nat := 0
  freed : Nat := 0
  /-- Arrays that were enabled on its core when it was dispatched (R495). -/
  arrays : Nat := 4
  /-- Count to write to LEN_OUT at retirement (R563). -/
  lenOut : Option Nat := none
  /-- Result buffers whose sequence words retirement writes: physical addresses of the granules (R286). -/
  seqWords : List Nat := []
  deriving DecidableEq, Repr

/-- A unit waiting to be sent into a remote window, for want of a credit (R145). -/
structure OutUnit where
  /-- Core whose window it goes to. -/
  core : Nat := 0
  win : Nat := 0
  /-- Unit number since the window opened. -/
  unit : Nat := 0
  /-- Its bytes, each with its poison (R129). -/
  data : List (Byte × Bool) := []
  hollow : Bool := false
  /-- The instruction that sends it, and its epoch. -/
  wc : Nat := 0
  ring : Nat := 0
  pos : W32 := 0#32
  epoch : BitVec 8 := 0#8
  deriving DecidableEq, Repr

/-- A transfer that the FE has still to make, or the rest of one (R238). -/
structure Xfer where
  /-- The instruction: work context, epoch, ring and ring position. -/
  wc : Nat := 0
  epoch : BitVec 8 := 0#8
  ring : Nat := 0
  pos : W32 := 0#32
  /-- Byte offset in the source and in the destination. -/
  src : Nat := 0
  dst : Nat := 0
  len : Nat := 0
  deriving DecidableEq, Repr

/-- A granule read by the FE that has not come back to its landing buffer (R240, R256). -/
structure Gran where
  wc : Nat := 0
  epoch : BitVec 8 := 0#8
  ring : Nat := 0
  pos : W32 := 0#32
  /-- Byte offset in the destination of the bytes it carries. -/
  dst : Nat := 0
  data : List (Byte × Bool) := []
  deriving DecidableEq, Repr

/-- What an instruction has made for a remote window: the bytes not yet sent, by offset in the tensor's units, how many of its units have been sent, and whether the rest are sent hollow (R145, R161, R236). -/
structure RemoteOut where
  wc : Nat := 0
  ring : Nat := 0
  pos : W32 := 0#32
  held : Sparse (Byte × Bool) := []
  sent : Nat := 0
  hollow : Bool := false
  deriving DecidableEq, Repr

/-- A window table entry (Table 4.8) with the state the core keeps beside it. -/
structure Win where
  /-- STATE: 0 closed, 1 open, 2 closing, 3 revoked. -/
  state : Nat := 0
  /-- MEM: false AM, true WM. -/
  wm : Bool := false
  /-- MODE: false ring, true block. -/
  block : Bool := false
  epoch : BitVec 8 := 0#8
  wc : Nat := 0
  /-- WRITER: kind [15:12], instance [11:0]. -/
  writer : BitVec 16 := 0#16
  fill : BitVec 12 := 0#12
  free : BitVec 12 := 0#12
  granted : BitVec 12 := 0#12
  /-- SIZE: units minus 1. -/
  size : Nat := 0
  /-- BASE in 512 B units. -/
  base : Nat := 0
  /-- Hollow bits of units that landed hollow and are not freed (R235). -/
  hollow : List Nat := []
  /-- Unit count declared at the writer's STREAM_END (R151, R227). -/
  declared : Option Nat := none
  /-- Units freed and not yet returned as credits (R149). -/
  pendingCredits : Nat := 0
  /-- Units freed since open, in full: a unit's place in the window goes by its full number (Table 4.8, R144). -/
  freed : Nat := 0
  /-- Bytes of its region, by offset in the memory, that an instruction has written and that stay undefined until it closes (R560). -/
  spoilt : List Nat := []
  deriving DecidableEq, Repr

/-- One gather-buffer entry (R132, R133). -/
structure Gather where
  /-- Word: address ÷ 32. -/
  word : Nat := 0
  /-- Byte mask, bit i for byte i. -/
  mask : Nat := 0
  bytes : List Byte := []
  /-- Some narrow write into it carried poisoned data (R129). -/
  poison : Bool := false
  /-- Instruction that last wrote it: work context, ring and ring position. -/
  wc : Nat := 0
  ring : Nat := 0
  pos : W32 := 0#32
  deriving DecidableEq, Repr

/-- A row in flight through the array: what its beats will land, one after another (R29 to R31). -/
structure PipeRow where
  row : FeedRow := {}
  /-- Issue cycle of its first beat; the others follow it. -/
  taken : Nat := 0
  /-- Floating path (R30). -/
  float : Bool := false
  /-- Column outputs of each beat: exact integers, or FP32 bits on the floating path. -/
  outs : List (List Int) := []
  /-- Checksum-column output of each beat, in piccolo form one for each row group: exact integers, or FP32 bits. -/
  chk : List (List Int) := []
  /-- E of R111 over the products and rounded values of the row, and over those of each column, the checksum column last. -/
  mag : Int := -1000
  mags : List Int := []
  /-- Overflow marks of the column outputs of each beat (R84). -/
  ovf : List (List Bool) := []
  /-- The row or its weights were poisoned (R129). -/
  poison : Bool := false
  /-- Beats landed so far. -/
  landed : Nat := 0
  /-- Number of its weight-tile pass on the array (R63). -/
  pass : Nat := 0
  /-- The check mode has the row checked (R62 to R64). -/
  due : Bool := false
  deriving DecidableEq, Repr

/-- The weight registers of one physical row: the codes of its K row, or for 4-bit weights of its two K rows, by column, and the sums in its checksum cell (R26, R34): INT32, or FP32 bits. -/
structure CellRow where
  codes : List (List Nat) := []
  sums : List W32 := []
  deriving DecidableEq, Repr

/-- One plane of an array's weight registers, active or shadow (R26). -/
structure Tile where
  /-- Format of the values held (Table 5.4). -/
  fmt : Nat := 2
  /-- Data rows 0 to 31. -/
  rows : Sparse CellRow := []
  /-- The spare row (R55). -/
  spare : CellRow := {}
  /-- Codebook of CB4 weights, 16 FP16 codes; in piccolo form one for each row group (R75, R77). -/
  books : List (List Nat) := []
  /-- Rows loaded so far; a complete tile has 32. -/
  loaded : Nat := 0
  /-- The tile holds activations: input-stationary mode (R41). -/
  act : Bool := false
  /-- Some loaded word was poisoned. -/
  poison : Bool := false
  deriving DecidableEq, Repr

/-- A scale bank of an array: the unit it serves and up to 128 FP16 codes (R95). -/
structure ScaleBank where
  unit : Option UnitTag := none
  codes : List Nat := []
  deriving DecidableEq, Repr

/-- What an array keeps of a weight-tile pass until its checksum row has landed (R58, R63). -/
structure PassRec where
  /-- Number of the pass since start-up. -/
  id : Nat := 0
  /-- Element-wise sum X of the valid rows issued: integers, or FP32 bits (R58, R59). -/
  xsum : List Int := []
  /-- Column-sum registers: 32 data columns and the checksum column (R26, R58). -/
  csums : List Int := []
  /-- E of R111 for each of the 33 columns. -/
  mags : List Int := []
  /-- The unit whose rows it streams. -/
  unit : Option UnitTag := none
  /-- Its column check is due (R62, R63). -/
  due : Bool := false
  deriving DecidableEq, Repr

/-- One matrix array (chapter 2). -/
structure Arr where
  /-- ARRAY_CAUSE: 0 enabled, 1 fused, 2 self-test, 3 health record, 4 retired (Table 16.5). -/
  cause : Nat := 0
  /-- Repair map byte: bit 7 spare in use, bits [4:0] replaced row (R55). -/
  repair : BitVec 8 := 0#8
  /-- Feeder queue, at most 8 (Table 2.1). -/
  feeder : List FeedRow := []
  /-- Beats of the entry at the queue's head still to issue (R27). -/
  beats : Nat := 0
  /-- Rows in flight, oldest first. -/
  pipe : List PipeRow := []
  /-- Active and shadow weight registers (R34, R35). -/
  active : Tile := {}
  shadow : Tile := {}
  /-- Issue cycle of the last SWAP (R36, R37). -/
  swapAt : Option Nat := none
  /-- Row groups that the last SWAP has not reached yet (R36). -/
  changing : BitVec 4 := 0#4
  /-- First cycle in which the weight loader is free again (R34). -/
  loadFree : Nat := 0
  /-- Issue cycles counted. -/
  cycle : Nat := 0
  /-- Position in the aligned 16-cycle duty window and cycles used in it (R50). -/
  dutyPos : Nat := 0
  dutyUsed : Nat := 0
  /-- Duty limit in force, D of 4 to 16 (R50). -/
  duty : Nat := 16
  /-- Issue cycles since the duty limit in force last moved (R50). -/
  dutyCyc : Nat := 1024
  /-- Length of the present gap in bubbles (R51). -/
  gap : Nat := 0
  /-- Ramp: 0 full, 1 to 3 ramp-down step, 4 gated, 5 to 7 ramp-up level 1/4 to 3/4 (R53, R54). -/
  ramp : Nat := 0
  /-- Cycles spent in the present ramp step. -/
  rampCyc : Nat := 0
  /-- Share of an issue slot earned in the present ramp step, in quarters (R53, R54; log 28). -/
  rampCredit : Nat := 0
  /-- The drone LFSR (R52). -/
  lfsr : BitVec 64 := 1#64
  /-- The operands with which the last drone cycle drove the cells (R52). -/
  driven : BitVec 64 := 0#64
  /-- Toggle fractions, in eighths, of the last rows issued, newest first, at most 32 (R52). -/
  activity : List Nat := []
  /-- Operand codes of the last row issued, against which the next row's toggles are counted. -/
  lastXs : List Nat := []
  /-- Weight-tile passes since start-up (R63). -/
  passes : Nat := 0
  /-- Piccolo issue cycles since start-up (R64). -/
  picCycles : Nat := 0
  /-- Passes whose column check is open, oldest first (R58). -/
  openPasses : List PassRec := []
  /-- Checksum accumulators by PM entry: 48 bits (R60, R113). -/
  accs : Sparse (BitVec 48) := []
  /-- The two scale banks, and which was loaded last (R95). -/
  scale0 : ScaleBank := {}
  scale1 : ScaleBank := {}
  bank : Bool := false
  deriving DecidableEq, Repr

/-- The unit that is accumulating into a PM row, and whether its last K-block has landed there (R49, R61). -/
structure PmRow where
  unit : Option UnitTag := none
  done : Bool := false
  deriving DecidableEq, Repr

/-- A PM region released to the drain: its unit, the M rows still to drain, its PM rows, and those the drain check has compared (R60, R61). -/
structure Release where
  unit : UnitTag := {}
  rows : List Nat := []
  keys : List Nat := []
  compared : List Nat := []
  deriving DecidableEq, Repr

/-- A saturation-counter slot (R107 to R109). -/
structure SatSlot where
  narrowed : Nat := 0
  clipped : Nat := 0
  /-- Work context of the instruction that last narrowed into it (R109). -/
  wc : Option Nat := none
  /-- Tensor it is bound to: the descriptor (R108). -/
  desc : Line := 0#512
  deriving DecidableEq, Repr

/-- Window data that waits in the WM landing buffer while an MTHIN runs (R120): window entry, unit, byte in the unit, the bytes, and whether the unit lands with them and hollow. -/
structure HeldData where
  win : Nat := 0
  unit : Nat := 0
  off : Nat := 0
  data : List (Byte × Bool) := []
  last : Bool := false
  hollow : Bool := false
  deriving DecidableEq, Repr

/-- One compute core (R26, R116, R139, R144, R174). -/
structure Core where
  /-- Instructions queued and in flight, descriptor-store order (R142, R174). -/
  ops : List Op := []
  /-- Resident work contexts: work context, length-register set 0 to 7, dispatch stamp (R174). -/
  resident : List (Nat × Nat × Nat) := []
  /-- Dispatch stamp counter (R174). -/
  stamp : Nat := 0
  /-- Window table, entries 0 to 19 (R144). -/
  wins : Sparse Win := []
  /-- PM entries, key (array × 32 + column) × 1024 + entry (R116, R117). -/
  pm : Sparse PmEntry := []
  /-- Units waiting to be sent into windows of other cores, oldest first (R145). -/
  outbox : List OutUnit := []
  /-- Window data for WM that waits for an MTHIN to retire, oldest first (R120). -/
  wmHeld : List HeldData := []
  /-- Gather buffers of WM and AM, oldest first, at most 4 entries each (R132). -/
  gatherWm : List Gather := []
  gatherAm : List Gather := []
  /-- Scrub queues by memory, 0 WM, 1 AM, 2 PM, 3 descriptor store: word numbers, at most 4 each (R127). -/
  scrub : Sparse (List Nat) := []
  /-- Next patrol word of each memory (R127). -/
  patrol : Sparse Nat := []
  /-- Matrix arrays M0 to M3. -/
  arrays : Sparse Arr := []
  /-- Saturation slots 0 to 15 (R107). -/
  sats : Sparse SatSlot := []
  /-- The conv front's window register, key half × 1024 + entry: 32 B words, each with its poison (R190). -/
  wreg : Sparse (BitVec 256 × Bool) := []
  /-- Halves whose fill is complete (R192). -/
  wregFull : BitVec 2 := 0#2
  /-- The half being filled next. -/
  wregHalf : BitVec 1 := 0#1
  /-- The load instruction, or the matrix instruction, that waits for the other phase to end: work context, ring and ring position (R242). -/
  loadWaits : Option (Nat × Nat × W32) := none
  matrixWaits : Option (Nat × Nat × W32) := none
  /-- Work context served last at issue, for the round-robin of R279. -/
  lastIssued : Nat := 0
  /-- Transfers the FE has still to make, oldest first (R238, R239). -/
  fe : List Xfer := []
  /-- Granules requested and not yet returned, oldest first, at most 256 (R240). -/
  landing : List Gran := []
  /-- Output for remote windows by the instructions that make it (R161, R237). -/
  remote : List RemoteOut := []
  /-- FE granules sent or requested and not yet accounted for, by work context (R259). -/
  feOut : Sparse Nat := []
  /-- The core is disabled (R496, R502). -/
  disabled : Bool := false
  /-- DISABLE_CAUSE (Table 16.5). -/
  disableCause : Nat := 0
  /-- Units whose retry is in progress (R490, R491). -/
  retry : List UnitTag := []
  /-- Who accumulates into a PM row, by array × 1024 + entry (R49, R61). -/
  pmRows : Sparse PmRow := []
  /-- PM regions released to the drain and not yet drained (R49, R61). -/
  released : List Release := []
  /-- Outlier sums formed and not yet drained, FP32, by `osumKey` of the unit, row and channel (R105). -/
  osums : Sparse W32 := []
  /-- Rows and drone cycles that the bellows' own activity counters have counted (R66, Table 1.4). -/
  actRows : Nat := 0
  actDrones : Nat := 0
  /-- The island's clock is stopped (R473). -/
  stopped : Bool := false
  /-- Array-duty limit that the bellows has written, in sixteenths (R50, R480). -/
  dutyLimit : Nat := 16
  /-- Corrected errors since the last 0x0401 record, and the last corrected address (R131). -/
  ceSince : Nat := 0
  ceAddr : Nat := 0
  deriving DecidableEq, Repr

/-! ### Stream engines and the mouthpiece engine -/

/-- An instruction on a core: core, work context, ring and ring position. -/
structure OpRef where
  core : Nat := 0
  wc : Nat := 0
  ring : Nat := 0
  pos : W32 := 0#32
  deriving DecidableEq, Repr

/-- A frame that a channel has still to send, or the end of a stream that stands behind its frames (R226, R227). -/
structure Frame where
  /-- Units of at most 512 B still to send, each byte with its poison. -/
  units : List (List (Byte × Bool)) := []
  /-- A formatter's units: the PHYS address attached to each (R229, R390). -/
  addrs : List Nat := []
  /-- A formatter may still append units (R393). -/
  more : Bool := false
  /-- The SEND or END_STREAM; a formatter's frame or end of stream has none. -/
  send : Option OpRef := none
  /-- No frame: STREAM_END is due when it reaches the front (R227). -/
  ends : Bool := false
  /-- Its first unit is still to be sent: FRAME_START. -/
  first : Bool := true
  deriving DecidableEq, Repr

/-- A stream channel (Table 7.1). -/
structure Chan where
  /-- The RW fields as software wrote them: descriptor bits [511:256]. -/
  rw : BitVec 256 := 0#256
  /-- STATE: 0 idle, 1 opening, 2 active, 3 ending, 4 cancelling. -/
  state : Nat := 0
  /-- DETACHED, receivers 0 to 3. -/
  detached : BitVec 4 := 0#4
  sent : BitVec 12 := 0#12
  frame : BitVec 12 := 0#12
  /-- OWED and CREDIT of receivers 0 to 3. -/
  owed : Sparse Nat := []
  credit : Sparse Nat := []
  /-- Next unit number of each receiver, counted since its window opened (R230). -/
  unitNo : Sparse Nat := []
  /-- Epoch read when it became active (R225). -/
  epoch : BitVec 8 := 0#8
  /-- Frames and ends of streams waiting, oldest first. -/
  frames : List Frame := []
  /-- Receivers that have been sent STREAM_END. -/
  ended : BitVec 4 := 0#4
  /-- Units sent since the stream began, in full (R227, R229). -/
  total : Nat := 0
  /-- Receivers that stay detached for the whole of the frame at the front: detached in it, or with hollow units still owed when the stall timer ran out at its start (R232, R234). -/
  held : BitVec 4 := 0#4
  deriving DecidableEq, Repr

/-- The stream engines: channels and the round-robin of each engine (R229). -/
structure Streams where
  /-- Channels 0 to 511. -/
  chans : Sparse Chan := []
  /-- Channel served last, by engine × 4 + class. -/
  rr : Sparse Nat := []
  deriving DecidableEq, Repr

/-- A record on the MPE (R214, R216). -/
structure MpeRec where
  op : Op := {}
  /-- Units of its two allocations (R216). -/
  units : Nat := 0
  /-- Place 0 to 7 of its weights and scales in the buffer. -/
  slot : Nat := 0
  resident : Bool := false
  /-- Output lines done: line y of stripe s is y × S + s (log 31). -/
  line : Nat := 0
  /-- Output bytes made and not yet sent into a remote window, by offset in the stream (R161). -/
  held : Sparse (Byte × Bool) := []
  /-- Units sent into a remote window. -/
  sent : Nat := 0
  /-- It has read a hollow unit: from there on its output is hollow (R221, R236). -/
  hollow : Bool := false
  deriving DecidableEq, Repr

/-- The mouthpiece engine (chapter 6). -/
structure Mpe where
  /-- Records queued (at most 32) and resident (at most 8), queue order. -/
  recs : List MpeRec := []
  /-- Window table, entries 0 to 7 (R216). -/
  wins : Sparse Win := []
  /-- The buffer's contents, each byte with its poison (R221): window i from key i × 2^20, then the weights and scales of slot k from key (16,384 + 512 k) × 512. -/
  buf : Sparse (Byte × Bool) := []
  /-- MPE line count since start-up (R220). -/
  lineCount : Nat := 0
  /-- Record served last in each class: work context (R214). -/
  rr : Sparse Nat := []
  deriving DecidableEq, Repr
/-! ### The object dictionary -/

/-- Values of the object dictionary (chapter 9), keyed index × 256 + subindex. -/
structure Od where
  /-- RW, RWS and WO numeric entries that differ from their defaults (R298). -/
  sets : Sparse Nat := []
  /-- RO numeric entries that differ from 0. -/
  cnts : Sparse Nat := []
  /-- Domain and string entries written or reported, other than snapshots; an unlisted one is empty or all zero. -/
  doms : Sparse (List Byte) := []
  deriving DecidableEq, Repr
/-! ### Application cluster -/

/-- What the application cluster's interrupt and timer blocks hold (R447 to R450). -/
structure Apc where
  /-- PLIC edge sources pending (R450): bit i for source i. -/
  pending : BitVec 32 := 0#32
  /-- Sources claimed and not completed, by context. -/
  claimed : Sparse (BitVec 32) := []
  /-- PLIC priorities of sources 1 to 31. -/
  prio : Sparse Nat := []
  /-- PLIC enables of contexts 0 to 11: bit i for source i. -/
  enable : Sparse (BitVec 32) := []
  /-- PLIC thresholds of contexts 0 to 11. -/
  threshold : Sparse Nat := []
  /-- ACLINT MSWI and SSWI bits by hart. -/
  msip : Sparse Nat := []
  ssip : Sparse Nat := []
  /-- MTIMER compare registers by hart. -/
  mtimecmp : Sparse Nat := []
  /-- Cache lines of the APC found uncorrectable and marked poisoned: address ÷ 64 (R448). -/
  poisonLines : List Nat := []
  /-- Offset software has written into MTIME, to be added to the reference count. -/
  mtimeOff : Nat := 0
  /-- Harts released from reset: bit n for ACn (R526). -/
  harts : BitVec 6 := 0#6
  deriving DecidableEq, Repr
/-! ### Time -/

/-- Device time. -/
structure Clk where
  /-- Nanoseconds since PORST_N rose, counted in 40 ns reference cycles (R447, R470; log 3). -/
  ns : Nat := 0
  deriving DecidableEq, Repr

/-- The breath generator (R484 to R489). -/
structure Breath where
  /-- BREATH_NUMBER. -/
  number : Nat := 0
  /-- Nanoseconds since the present breath's boundary. -/
  ns : Nat := 0
  /-- Length of the breath before, in ns. -/
  prevLen : Nat := 0
  /-- Boundaries since the epoch (R485). -/
  k : Nat := 0
  /-- Settings in force since the last boundary that took them: NUM, DEN, source, image context, SYNC_OFFSET_NS, SYNC_DIVIDER (R488). -/
  num : Nat := 30
  den : Nat := 1
  source : Nat := 0
  ic : Nat := 0
  offset : Int := 0
  divider : Nat := 1
  /-- A setting has been written and acts at the next boundary (R488); the rate is among them. -/
  changed : Bool := false
  /-- Correction of the next boundary, in ns (R487). -/
  adj : Int := 0
  /-- First out-of-range error of a Confirming state, in ns. -/
  firstErr : Int := 0
  /-- Due breaths in a row without an event. -/
  missed : Nat := 0
  /-- The event of the present breath, and of the next one, has been taken (R486). -/
  took : Bool := false
  tookNext : Bool := false
  deriving DecidableEq, Repr


/-! ### Cameras, sensor control and the exposure ledger -/

/-- A camera port's sensor-control controller (Table 10.4). -/
structure I3c where
  /-- STATUS.BUSY: a software command is queued or running. -/
  busy : Bool := false
  /-- The command has the bus; otherwise it waits behind ledger writes (R353). -/
  running : Bool := false
  /-- The command last written to CMD. -/
  cmd : W64 := 0#64
  /-- RESULT. -/
  result : W64 := 0#64
  /-- IRQ_STATUS: bit 0 DONE, 1 IBI, 2 LEDGER_DELAY. -/
  irq : BitVec 3 := 0#3
  /-- IRQ_ENABLE. -/
  irqEnable : W64 := 0#64
  /-- IBI_INFO. -/
  ibi : W64 := 0#64
  /-- Writes of the last transfer that ended on the bus: target address and bytes, in order (R352, R409). -/
  sent : List (Nat × List Byte) := []
  /-- TX_BUF and RX_BUF, by byte 0 to 127. -/
  tx : Sparse Byte := []
  rx : Sparse Byte := []
  deriving DecidableEq, Repr

/-- An exposure-ledger entry (Table 12.4). -/
structure LedgerEntry where
  frame : W32 := 0#32
  vbLine : BitVec 12 := 0#12
  latency : BitVec 2 := 0#2
  count : BitVec 4 := 0#4
  reg16 : Bool := false
  data16 : Bool := false
  applied : W32 := 0#32
  /-- STATE, Table 12.5. -/
  state : BitVec 4 := 0#4
  result : BitVec 4 := 0#4
  seq : BitVec 16 := 0#16
  tag : Byte := 0#8
  /-- WRITE[0..15]. -/
  writes : Sparse W32 := []
  deriving DecidableEq, Repr

/-- Identity of an issued ledger entry (R414). -/
structure LedgerId where
  entry : Nat := 0
  seq : BitVec 16 := 0#16
  tag : Byte := 0#8
  applied : Nat := 0
  late : Bool := false
  /-- Issue order of the port, in full. -/
  issue : Nat := 0
  deriving DecidableEq, Repr

/-- What a record carries of the ledger (Table 12.3). -/
structure LedgerMark where
  entry : Option LedgerId := none
  unsure : Bool := false
  deriving DecidableEq, Repr

/-- A camera port: receiver, sensor control, trigger and exposure ledger (chapters 10 and 12). -/
structure Cam where
  /-- An HS burst is being decoded; `skip` discards the rest of it (R334, R336). -/
  burst : Bool := false
  skip : Bool := false
  /-- An initial deskew has been received since the start (R333). -/
  deskewed : Bool := false
  /-- The last packet header, not yet followed by its packet: virtual channel, data type, word count or data field. -/
  header : Option (Nat × Nat × Nat) := none
  /-- Header, CRC, length and link errors of this breath (Table 10.8). -/
  brHdr : Nat := 0
  brCrc : Nat := 0
  brLen : Nat := 0
  brLink : Nat := 0
  i3c : I3c := {}
  /-- Trigger entries in force since the last boundary: enable, offset, width, polarity, divider (R355). -/
  trig : Nat × Nat × Nat × Nat × Nat := (0, 0, 100, 0, 1)
  /-- A pulse of this breath is still to begin; a pulse is being sent (R355). -/
  pulseDue : Bool := false
  pulse : Bool := false
  /-- Ledger entries 0 to 15. -/
  ledger : Sparse LedgerEntry := []
  /-- Entries issued since reset. -/
  issues : Nat := 0
  /-- Issuing entries, oldest first. -/
  issuing : List Nat := []
  /-- Issued entries that may be, or come, in force (R414). -/
  issued : List LedgerId := []
  /-- Failures that still cast doubt: first frame, and issue order (R415). -/
  doubts : List (Nat × Nat) := []
  /-- Identity in force, fixed at the last frame start of LEDGER_IC (R414, Table 12.6). -/
  force : LedgerMark := {}
  deriving DecidableEq, Repr

/-! ### The image pipeline -/

/-- A line in a camera receiver's crossing FIFO (R341). -/
structure RxLine where
  port : Nat := 0
  ctx : Nat := 0
  frame : Nat := 0
  line : Nat := 0
  bad : Bool := false
  /-- Bytes the line takes in the FIFO. -/
  bytes : Nat := 0
  /-- Samples as received: pixels, or for YUV422 the bytes. -/
  px : List Nat := []
  deriving DecidableEq, Repr

/-- A line in the line memories (R376). -/
structure LmLine where
  line : Nat := 0
  px : List Nat := []
  /-- Stripes that still need it. -/
  stripes : BitVec 16 := 0#16
  /-- The demosaic, or for YUV422 the back end, still needs it. -/
  demosaic : Bool := false
  deriving DecidableEq, Repr

/-- A crop (R386). -/
structure Crop where
  x : Nat := 0
  y : Nat := 0
  w : Nat := 0
  h : Nat := 0
  deriving DecidableEq, Repr

/-- A statistics grid (R399). -/
structure Grid where
  cols : Nat := 16
  rows : Nat := 12
  x0 : Nat := 0
  y0 : Nat := 0
  w : Nat := 0
  h : Nat := 0
  deriving DecidableEq, Repr

/-- A latched set (R368) with what was fixed at its latch (R387, R400). -/
structure Latched where
  /-- FRAME_COUNT of the frame that latched it. -/
  frame : Nat := 0
  /-- Its bytes that differ from the reset values of Table 11.2. -/
  bytes : Sparse Byte := []
  crops : List Crop := []
  cropRefused : List Bool := []
  grid : Grid := {}
  gridRefused : Bool := false
  deriving DecidableEq, Repr

/-- One formatter's progress in a frame. -/
structure FmtRun where
  /-- Output lines written. -/
  lines : Nat := 0
  /-- Its frame has begun on the stream channel. -/
  begun : Bool := false
  /-- The header is written (R391). -/
  header : Bool := false
  deriving DecidableEq, Repr

/-- A frame of an image context, from its frame start until nothing of it is left to do. -/
structure IcFrame where
  /-- FRAME_COUNT of the frame. -/
  no : Nat := 0
  opened : Bool := true
  breath : Nat := 0
  offset : Nat := 0
  startNs : Nat := 0
  csi : Nat := 0
  gap : Bool := false
  lines : Nat := 0
  bad : Nat := 0
  extra : Nat := 0
  short : Bool := false
  long : Bool := false
  incomplete : Bool := false
  noFe : Bool := false
  duration : Nat := 0
  /-- FRAME_COUNT of the frame whose latched set it uses; none before any latch since the start. -/
  latch : Option Nat := none
  neural : Bool := false
  /-- The neural path was lost (R381). -/
  lost : Bool := false
  mark : LedgerMark := {}
  /-- Last good line of each row parity as it left unpacking (R361). -/
  goodEven : Option (List Nat) := none
  goodOdd : Option (List Nat) := none
  /-- Lines through the raw front; tap A's view of them (R397). -/
  raw : List (List Nat) := []
  /-- Lines held in the line memories. -/
  lm : List LmLine := []
  /-- Next pair segment: pair and stripe (R379). -/
  pairQ : Nat := 0
  pairS : Nat := 0
  /-- Lines demosaiced, waiting for the back end: FP16 R, G, B (R382). -/
  demosaiced : Nat := 0
  linear : List (List (Nat × Nat × Nat)) := []
  /-- Lines through the back end: FP32 R', G', B' (R383, R384). -/
  rgb : List (List (W32 × W32 × W32)) := []
  fmts : List FmtRun := [{}, {}, {}]
  /-- Embedded data: next offset in the slot, and the stamp still to be written (R348). -/
  embOff : Nat := 64
  embStamp : Bool := false
  /-- Statistics records still to be written (R405). -/
  statA : Bool := false
  statB : Bool := false
  /-- The governor counts it as finished (R394). -/
  finished : Bool := false
  deriving DecidableEq, Repr

/-- An image context (chapters 10 and 11). -/
structure Ic where
  /-- FRAME_COUNT (R340). -/
  count : Nat := 0
  /-- CSI_FRAME of the previous frame. -/
  prevCsi : Nat := 0
  /-- The governor has dropped the frame whose packets now arrive (R254). -/
  dropping : Bool := false
  frames : List IcFrame := []
  /-- Device time in ns of the last close, or of the start (R408). -/
  closeNs : Nat := 0
  /-- Shadow set: bytes that differ from the reset values of Table 11.2. -/
  shadow : Sparse Byte := []
  /-- CTRL.HOLD and OD_HOLD (R368, R371). -/
  hold : Bool := false
  odHold : Bool := false
  /-- A latch copy is running; writes held until it completes, oldest first: offset and bytes. -/
  copying : Bool := false
  held : List (Nat × List Byte) := []
  /-- LATCH_FRAME. -/
  latchFrame : W32 := 0#32
  /-- PATH of the frame last opened (STATUS [2]). -/
  path : Bool := false
  latched : List Latched := []
  /-- Back-end window (R380), its contents by byte offset, and lines taken since it opened. -/
  beWin : Win := {}
  beBuf : Sparse (Byte × Bool) := []
  beTaken : Nat := 0
  deriving DecidableEq, Repr

/-- What the image pipeline and the cameras share. -/
structure Ipl where
  /-- Lines in the crossing FIFOs, in the order in which they completed (R359). -/
  rx : List RxLine := []
  /-- Image contexts that have dropped a frame in this breath (R255). -/
  dropMask : BitVec 16 := 0#16
  deriving DecidableEq, Repr
/-! ### Audio front end -/

/-- A block of an audio group (R424): its samples by source (PDM, TDM0, TDM1), each a list of channel values. -/
structure AudioBlock where
  /-- BLOCK: k of R424. -/
  k : Nat := 0
  /-- Breath of the block. -/
  breath : Nat := 0
  pdm : List (List (BitVec 24)) := []
  tdm0 : List (List (BitVec 24)) := []
  tdm1 : List (List (BitVec 24)) := []
  /-- Instant of the first sample minus the boundary, in ns. -/
  offset : Option Nat := none
  slip : Bool := false
  /-- Last block before the group stops (R425). -/
  last : Bool := false
  deriving DecidableEq, Repr

/-- An audio group. -/
structure AudioGroup where
  /-- The block of the breath in progress. -/
  cur : Option AudioBlock := none
  /-- Blocks closed and still to be written, oldest first. -/
  closed : List AudioBlock := []
  /-- The last block has been written (R425). -/
  lastDone : Bool := false
  deriving DecidableEq, Repr

/-- A TDM port. -/
structure Tdm where
  /-- Frame-sync edges of this breath: count, first and last in ns after the boundary (R421, R422). -/
  edges : Nat := 0
  first : Nat := 0
  latest : Nat := 0
  /-- Playback samples of this breath still to be sent, one list per frame (R428). -/
  play : List (List (BitVec 24)) := []
  /-- Slot values of the frame last sent on TDMt_DOUT. -/
  out : List (BitVec 24) := []
  deriving DecidableEq, Repr

/-- The audio front end (chapter 13). -/
structure Afe where
  /-- Audio groups 0 to 7. -/
  groups : Sparse AudioGroup := []
  /-- TDM ports 0 and 1. -/
  tdm : Sparse Tdm := []
  /-- High-pass filters of microphones 0 to 31: last input and last output (R420). -/
  hpf : Sparse (BitVec 24 × BitVec 24) := []
  deriving DecidableEq, Repr

/-! ### External ports -/

/-- A port-DMA queue (Table 13.5). -/
structure PortQ where
  /-- QBASE. -/
  base : W64 := 0#64
  /-- QCTRL: ENABLE, LOG2, IRQ_EN, HALTED. -/
  enable : Bool := false
  log2 : BitVec 5 := 0#5
  irqEn : Bool := false
  halted : Bool := false
  tail : W32 := 0#32
  head : W32 := 0#32
  /-- Descriptor of the buffer in use. -/
  cur : Option (BitVec 256) := none
  /-- A frame or transfer has begun in an earlier buffer. -/
  mid : Bool := false
  deriving DecidableEq, Repr

/-- A received frame on its way to its queue's buffers. -/
structure RxFrame where
  bytes : List Byte := []
  /-- FCS or CRC error. -/
  bad : Bool := false
  /-- IP and TCP or UDP checksums good (Table 13.6). -/
  ipOk : Bool := false
  l4Ok : Bool := false
  /-- Captured time: the two words of TIMESTAMP. -/
  hi : Nat := 0
  lo : Nat := 0
  deriving DecidableEq, Repr

/-- A frame that a port transmits, buffer by buffer, or the last one it sent. -/
structure TxFrame where
  queue : Nat := 0
  bytes : List Byte := []
  /-- The FCS or CRC is corrupted, for a poisoned read (R431). -/
  bad : Bool := false
  /-- A zero-length packet follows (Table 13.6). -/
  zlp : Bool := false
  deriving DecidableEq, Repr

/-- The external ports (chapter 13). Ports: 0 USB, 1 ETH0, 2 ETH1, 3 CAN. -/
structure Ports where
  /-- Queues, key port × 32 + queue. -/
  qs : Sparse PortQ := []
  /-- Received frames waiting for their queue's buffers, key port × 32 + queue. -/
  rx : Sparse (List RxFrame) := []
  /-- Frames or transfers begun and not complete, key port × 32 + queue (R431). -/
  tx : Sparse (Option TxFrame) := []
  /-- Frame or transfer last sent, by port. -/
  sent : Sparse TxFrame := []
  /-- USB_VBUS is valid; the terminations or pull-up are connected (R433). -/
  vbus : Bool := false
  term : Bool := false
  /-- USB endpoint registers 0 to 31, at offset 0x200 + 8q (R433). -/
  ep : Sparse W64 := []
  /-- SOF_TIME: breath number and offset in ns. -/
  sofBreath : Nat := 0
  sofNs : Nat := 0
  /-- PTP_INCR (Table 13.9). -/
  ptpIncr : BitVec 40 := 0x800000000#40
  /-- The PTP clock in units of 2^-32 ns, modulo 2^48 s. -/
  ptp : Nat := 0
  /-- PTP_SNAP and PTP_SNAP_NS. -/
  snap : Nat := 0
  snapNs : Nat := 0
  /-- PTP_BREATH and PTP_BREATH_NS. -/
  ptpBreath : W64 := 0#64
  ptpBreathNs : Nat := 0
  /-- Device time in ns until which a PTP_PPS pulse lasts (R445). -/
  ppsUntil : Nat := 0
  /-- CAN: the user that the next arbitration is owed to: true the APC (R439). -/
  canOwed : Option Bool := none
  /-- The APC frame in queue 0's buffer has been sent. -/
  canSent : Bool := false
  /-- UART FIFOs, at most 64 bytes each, oldest first (R444). -/
  uartRx : List Byte := []
  uartTx : List Byte := []
  /-- GPIO registers (R445). -/
  gpioDir : W64 := 0#64
  gpioOut : W64 := 0#64
  gpioIn : W64 := 0#64
  gpioEdge : W64 := 0#64
  gpioStatus : W64 := 0#64
  /-- Status bits of the PLIC level sources 15 to 19, 21 and 22: bit i for source i (Table 14.2). -/
  status : BitVec 32 := 0#32
  deriving DecidableEq, Repr

/-! ### Management controller -/

/-- A request in the MGC's queue (R300): a posted mailbox slot, or the payload of a CAN FD request frame. -/
inductive OdReq where
  | mailbox (slot : Nat)
  | can (bytes : List Byte)
  deriving DecidableEq, Repr

/-- A segmented transfer open on CAN FD (R318 to R320). -/
structure Seg where
  /-- A write; otherwise a read. -/
  write : Bool := false
  txn : Byte := 0#8
  index : Nat := 0
  sub : Nat := 0
  /-- LENGTH of the whole value. -/
  total : Nat := 0
  /-- Bytes received so far, or the whole value read. -/
  data : List Byte := []
  /-- Last segment acknowledged. -/
  seg : Nat := 0
  deriving DecidableEq, Repr

/-- A frame in the MGC's CAN FD transmit queue: kind 0 heartbeat, 1 response, 2 event frame (R323). -/
structure MgcFrame where
  kind : Nat := 0
  /-- 11-bit base identifier. -/
  id : Nat := 0
  /-- Payload, padded to a valid length (R316). -/
  data : List Byte := []
  deriving DecidableEq, Repr

/-- A record of a store copy (Table 9.11). -/
structure StoreRec where
  index : Nat := 0
  sub : Nat := 0
  ty : Nat := 0
  value : List Byte := []
  deriving DecidableEq, Repr

/-- A copy of the persistent store on the boot medium; `valid` says that a store has written it (R325, R326). -/
structure StoreCopy where
  valid : Bool := false
  gen : Nat := 0
  recs : List StoreRec := []
  /-- Tag over header and records (Table 9.11). -/
  tag : BitVec 256 := 0#256
  deriving DecidableEq, Repr

/-- The management controller (chapter 9). -/
structure Mgc where
  /-- Event records copied for CAN FD and not yet sent or dropped (R323). -/
  canEvq : List EvtRec := []
  /-- Event frames sent in this breath (R323). -/
  evSent : Nat := 0
  /-- Request queue, oldest first (R300); its CAN FD entries are the receive FIFO (R321). -/
  odq : List OdReq := []
  /-- Mailbox data RAM: byte slot × 4,096 + offset (R313). -/
  mbox : Sparse Byte := []
  /-- The open segmented transfer (R320). -/
  seg : Option Seg := none
  /-- CAN FD transmit queue, oldest first. -/
  canTx : List MgcFrame := []
  /-- The MGC has joined the CAN FD bus (R530). -/
  joined : Bool := false
  /-- Heartbeats sent: COUNT (Table 9.10). -/
  hb : Nat := 0
  /-- A store or an erase in progress: the snapshot, or none for an erase (R325). -/
  storing : Option (Option (List StoreRec)) := none
  /-- Instruction and data RAM: the firmware image from its start on (Tables 1.7 and 17.1). -/
  ram : List Byte := []
  deriving DecidableEq, Repr

/-! ### Clock islands and power -/

/-- A core island (R472 to R476, R478, R483). -/
structure Island where
  /-- Present clock in MHz (FREQ_MHZ) and voltage in mV (VOLT_MV). -/
  freq : Nat := 600
  volt : Nat := 550
  /-- Frequency limits in MHz: bellows, thermal, and the steps of R475. -/
  bellows : Nat := 600
  thermal : Nat := 1800
  avs : Nat := 1800
  /-- Quarters of the nominal period by which the present period is stretched (R476). -/
  stretch : Nat := 0
  /-- The island has read THROTTLE_C or more and has not recovered (R483). -/
  hot : Bool := false
  deriving DecidableEq, Repr

/-- The power and heat loops of the MGC (chapter 15). -/
structure Power where
  /-- Core islands 0 to 15. -/
  islands : Sparse Island := []
  /-- APC clock in MHz and voltage in mV. -/
  apcFreq : Nat := 2000
  apcVolt : Nat := 550
  /-- Throttle index T (R478, R482). -/
  t : Nat := 36
  /-- CAP_MW in force for the present window (R482). -/
  cap : Nat := 25000
  /-- P of the last window in mW. -/
  p : Nat := 0
  /-- Windows in a row with P below CAP_MW - BELLOWS_HYST_MW, and with P above CAP_MW at T 36 (R478, R480). -/
  lowRun : Nat := 0
  hotRun : Nat := 0
  /-- Window reads in a row that failed, and that were good (R481). -/
  failRun : Nat := 0
  goodRun : Nat := 0
  /-- The present window: voltage × current summed over the rails in nW, a read failed, and its RESULT code (R477). -/
  sum : Nat := 0
  failed : Bool := false
  code : Nat := 0
  /-- A sensor has read 105 °C and the limits have not recovered (R483). -/
  critical : Bool := false
  deriving DecidableEq, Repr

/-! ### Reset, boot and trust -/

/-- Reset pins and holds (chapter 18, R483). -/
structure Ctl where
  /-- PORST_N is low. -/
  porstLow : Bool := false
  /-- SYSRST_N is low and has been accepted (R547, R548). -/
  sysrstLow : Bool := false
  /-- A thermal trip holds the device (R483). -/
  tripped : Bool := false
  /-- TESTMODE is high (R542). -/
  testMode : Bool := false
  /-- Instruction register of the test access port (R549). -/
  tap : TapOp := .idcode
  deriving DecidableEq, Repr

/-- An entry of a boot directory (R514). -/
structure DirEntry where
  ty : Nat := 0
  copy : Nat := 0
  offset : Nat := 0
  length : Nat := 0
  deriving DecidableEq, Repr

/-- The boot chain (R512 to R516, R525 to R530). -/
structure Boot where
  /-- BOOT_MODE straps as sampled at the rise of PORST_N. -/
  mode : Nat := 0
  /-- Outcome of the TU's known-answer tests. -/
  kat : Option Bool := none
  /-- Directories read, by medium (0 xSPI, 1 eMMC): the entries, none when neither copy is valid. -/
  dirs : Sparse (Option (Option (List DirEntry))) := []
  /-- Copies tried for TYPE 0x01 and for TYPE 0x02. -/
  tried1 : Nat := 0
  tried2 : Nat := 0
  /-- The MGC firmware and the APC first stage have passed. -/
  passed1 : Bool := false
  passed2 : Bool := false
  /-- ENTRY of the APC first stage. -/
  entry : W64 := 0#64
  /-- UART recovery (R516). -/
  recovery : Bool := false
  /-- Training has ended: passed or failed (R525). -/
  training : Option Bool := none
  /-- MGC firmware runs; AC0 is released; the store is restored; the self-test runs, and is complete (R526, R529). -/
  mgc : Bool := false
  ac0 : Bool := false
  restored : Bool := false
  testing : Bool := false
  tested : Bool := false
  /-- A start-up self-test other than an array's or a core memory's has failed (R507). -/
  failed : Bool := false
  deriving DecidableEq, Repr

/-- A measurement (R535). -/
structure Meas where
  ty : Nat := 0
  slot : Nat := 0
  svn : Nat := 0
  digest : List Byte := []
  deriving DecidableEq, Repr

/-- A fuse programming in progress (R520 to R522). -/
inductive FuseOp where
  | revoke (slot : Nat)
  | advance (v : Nat)
  deriving DecidableEq, Repr

/-- The trust unit (chapter 17). -/
structure Tu where
  /-- TU_ADDR. -/
  addr : Addr := 0#40
  /-- The operation in progress: OP and the address it was given (R527). -/
  op : Option (Nat × Nat) := none
  /-- PASSED and REASON of the last operation. -/
  passed : Bool := false
  reason : Nat := 0
  /-- TU_IRQ.DONE and TU_IRQ_EN. -/
  done : Bool := false
  irqEn : Bool := false
  /-- Measurements, oldest first (R535). -/
  meas : List Meas := []
  /-- A VERIFY_LOADER has been accepted; RELEASE has passed (R528). -/
  loaderTried : Bool := false
  /-- FUSE_LOCK (R523), and the programming in progress (R522). -/
  fuseLock : Bool := false
  fuse : Option FuseOp := none
  /-- Nonce of the report being signed (R534). -/
  nonce : List Byte := []
  /-- Tokens that wait for their test, oldest first (R538). -/
  tokens : List (List Byte) := []
  /-- The TU's RAM: the header of the image last read for a test (Table 1.7, R518). -/
  ram : List Byte := []
  deriving DecidableEq, Repr

/-- A key slot of the OTP (R519). -/
structure KeySlot where
  /-- SHA-512 of the Ed25519 and ML-DSA-65 public keys; both empty: unprogrammed. -/
  edHash : List Byte := []
  mldsaHash : List Byte := []
  /-- USE fuses. -/
  use : BitVec 3 := 0#3
  revoked : Bool := false
  deriving DecidableEq, Repr

/-- The fuses: identity, test results, key slots and the rollback counter (R503, R504, R519, R521). -/
structure Otp where
  /-- 0 LQ6416-C, 1 LQ4816-C. -/
  grade : Nat := 0
  siliconRev : Nat := 1
  serial : W64 := 0#64
  /-- Arrays fused off: bit 4n + a (R504). -/
  fusedOff : BitVec 64 := 0#64
  /-- Repair map: byte 4n + a (R55). -/
  repair : Sparse Byte := []
  /-- Key slots 0 to 3. -/
  slots : Sparse KeySlot := []
  /-- Rollback fuses blown. -/
  rollback : BitVec 64 := 0#64
  /-- The device-unique secret, read by the TU's KMAC256 engine alone (R532). -/
  secret : BitVec 256 := 0#256
  deriving DecidableEq, Repr

/-! ### The whole device -/

/-- Everything of the device but its fuses and the queue of waiting commands. -/
structure Dev where
  clk : Clk := {}
  breath : Breath := {}
  od : Od := {}
  apc : Apc := {}
  mem : Mem := {}
  dmc : Dmc := {}
  cp : Cp := {}
  /-- Shared tile counters, hub × 64 + counter (R179). -/
  ctrs : Sparse TileCtr := []
  /-- Compute cores CC0 to CC15. -/
  cores : Sparse Core := []
  se : Streams := {}
  mpe : Mpe := {}
  /-- Camera ports 0 to 3. -/
  cams : Sparse Cam := []
  /-- Image contexts 0 to 15. -/
  ics : Sparse Ic := []
  ipl : Ipl := {}
  afe : Afe := {}
  ports : Ports := {}
  mgc : Mgc := {}
  power : Power := {}
  ctl : Ctl := {}
  boot : Boot := {}
  tu : Tu := {}
  /-- Store copies 0 and 1 on the boot medium (R325). -/
  store0 : StoreCopy := {}
  store1 : StoreCopy := {}
  /-- Registers of the blocks whose map the spec does not give, and of the undescribed offsets of the ports: bytes by slot × 2^20 + offset (R11, R24, log 48). -/
  regs : Sparse Byte := []
  /-- Latches of what is done at most once per breath, by key; cleared at each boundary. -/
  once : List Nat := []
  /-- The model's own: how many free values have been drawn (log 2). -/
  freeNo : Nat := 0
  deriving DecidableEq, Repr

/-- Why a step stops with a fault. No meaning of this block raises one: what the spec reports, it reports by events, counters and completion records. -/
inductive Fault where
  /-- Raised by nothing. Safe. -/
  | none
  deriving DecidableEq, Repr

/-- Why a command is refused. -/
inductive Refusal where
  /-- The command has no meaning in the model yet. Safe: nothing is claimed of it. -/
  | notModelled (mnemonic : String)
  /-- A register of a peripheral slot (Table 1.6) whose map the spec does not give; no command raises it, such a write keeps its bytes (log 48). Safe. -/
  | registerMap (slot off : Nat)
  deriving DecidableEq, Repr

/-- The block's state. -/
structure State where
  /-- Commands waiting, first in, first out. -/
  pending : List Instr := []
  /-- The fuses. -/
  otp : Otp := {}
  dev : Dev := {}
  deriving DecidableEq, Repr

/-- The state right after reset. -/
def State.reset : State := {}

end Sys2Proof.Machine
end

