-- ==== Sys2Proof/Machine/Ops.lean ====
section
/-! DEFINITION. The named operations over the device's state that the meanings share: object-dictionary values, events, interrupts, physical memory and the region checks. -/

namespace Sys2Proof.Machine

open Sys2Proof

/-- A state whose device part is changed by `f`. -/
def onDev (s : State) (f : Dev → Dev) : State := { s with dev := f s.dev }

/-- A reset holds the management controller's island: PORST_N, SYSRST_N before a trip, or a part in test mode (R542, R546 to R548). -/
def Ctl.heldMgc (c : Ctl) : Bool := c.porstLow || (c.sysrstLow && !c.tripped) || c.testMode
/-- A reset holds every other island: also a thermal trip (R483). -/
def Ctl.held (c : Ctl) : Bool := c.heldMgc || c.tripped

/-- The next state whose device part is changed by `f`: the form of every command that touches neither the fuses nor the queue. A block held in reset does nothing. -/
def nextDev (s : State) (f : Dev → Dev) : Host.Outcome State Fault Refusal := .next (if s.dev.ctl.held then s else onDev s f)
/-- The same for a command of the MGC's island or of the CAN FD controller, which a thermal trip leaves at work (R483). -/
def nextMgc (s : State) (f : Dev → Dev) : Host.Outcome State Fault Refusal := .next (if s.dev.ctl.heldMgc then s else onDev s f)
/-- A next state of the whole machine, fuses included, that the MGC's island makes. -/
def nextAll (s : State) (f : State → State) : Host.Outcome State Fault Refusal := .next (if s.dev.ctl.heldMgc then s else f s)

/-! ### Object-dictionary values -/

/-- A setting: RW, RWS or WO entry i.sub (R298). -/
def setting (d : Dev) (i sub : Nat) : Nat := sget odDefault d.od.sets (odKey i sub)
/-- Write a setting. -/
def setSetting (d : Dev) (i sub v : Nat) : Dev := { d with od := { d.od with sets := sset odDefault d.od.sets (odKey i sub) v } }
/-- A reported number: RO entry i.sub. -/
def cnt (d : Dev) (i sub : Nat) : Nat := sget (fun _ => 0) d.od.cnts (odKey i sub)
/-- Write a reported number. -/
def setCnt (d : Dev) (i sub v : Nat) : Dev := { d with od := { d.od with cnts := sset (fun _ => 0) d.od.cnts (odKey i sub) v } }
/-- Add to a counter of `w` bytes, which wraps at its width (R66). -/
def bump (d : Dev) (i sub w n : Nat) : Dev := setCnt d i sub ((cnt d i sub + n) % 256 ^ w)
/-- A domain or string entry. -/
def domOf (d : Dev) (i sub : Nat) : List Byte := sget (fun _ => []) d.od.doms (odKey i sub)
/-- Write a domain entry. -/
def setDom (d : Dev) (i sub : Nat) (v : List Byte) : Dev := { d with od := { d.od with doms := sset (fun _ => []) d.od.doms (odKey i sub) v } }

/-! ### Functions (R303) -/

/-- ACTUAL of function f: 0 Stopped, 1 Starting, 2 Running, 3 Stopping, 4 Faulted. -/
def actual (d : Dev) (f : Nat) : Nat := cnt d (0x1100 + f) 3
/-- REQUESTED of function f. -/
def requested (d : Dev) (f : Nat) : Nat := setting d (0x1100 + f) 2
/-- DEVICE_STATE (R312): 0 Booting, 1 Ready, 2 Degraded, 3 Failed. -/
def deviceState (d : Dev) : Nat := cnt d 0x1010 1
/-- Ready for every rule that asks: Degraded counts as Ready (R312). -/
def isReady (d : Dev) : Bool := deviceState d == 1 || deviceState d == 2

/-! ### Once per breath, free values, time -/

/-- Whether the latch `k` is set in this breath. -/
def latched (d : Dev) (k : Nat) : Bool := d.once.contains k
/-- Set the latch `k` for this breath. -/
def latch (d : Dev) (k : Nat) : Dev := { d with once := insNat k d.once }
/-- Draw a free value's number. -/
def drawFree (d : Dev) : Nat × Dev := (d.freeNo, { d with freeNo := d.freeNo + 1 })

/-! ### Interrupts -/

/-- Set an edge source of the PLIC pending (R450). -/
def raiseIrq (d : Dev) (src : Nat) : Dev :=
  { d with apc := { d.apc with pending := d.apc.pending ||| BitVec.ofNat 32 (2 ^ src) } }

/-! ### Events -/

/-- Event sources of Table 8.8. -/
def srcHub (h : Nat) : Nat := 0x10 + h
def srcSe (e : Nat) : Nat := 0x18 + e
def srcCp : Nat := 0x20
def srcDmc : Nat := 0x21
def srcCrx (p : Nat) : Nat := 0x22 + p
def srcIpl : Nat := 0x26
def srcStats : Nat := 0x27
def srcMpe : Nat := 0x28
def srcAfe : Nat := 0x29
def srcPorts : Nat := 0x2A
def srcMgc : Nat := 0x30
def srcTu : Nat := 0x31

/-- The MGC's copy of an event record whose class bit is set in CAN_EVENT_CLASSES, taken at the event port (R290, R323). -/
def copyForCan (d : Dev) (r : EvtRec) : Dev :=
  if bit (BitVec.ofNat 8 (setting d 0x1200 1)) r.cls then { d with mgc := { d.mgc with canEvq := d.mgc.canEvq ++ [r] } } else d

/-- The event port takes a record, or loses it when it holds 64 (R290). -/
def portTake (cp : Cp) (r : EvtRec) : Cp :=
  if cp.port.length < 64 then { cp with port := cp.port ++ [r] }
  else { cp with evtLost := min (cp.evtLost + 1) (2 ^ 32 - 1), lostSince := min (cp.lostSince + 1) (2 ^ 32 - 1) }

/-- Post an event record: the CAN copy, then the event port (R17, R290); a thermal trip holds the port in reset (R483). -/
def postRec (d : Dev) (r : EvtRec) : Dev :=
  if d.ctl.tripped then d else
  let d := copyForCan d r
  { d with cp := portTake d.cp r }

/-- Post an event of no work context. -/
def postEvent (d : Dev) (code cls source payload : Nat) : Dev := postRec d ⟨code, cls, none, source, payload⟩
/-- Post an event of work context w. -/
def postEventWc (d : Dev) (code cls source w payload : Nat) : Dev := postRec d ⟨code, cls, some w, source, payload⟩
/-- Post an event at most once per breath under latch `k`. -/
def postOnce (d : Dev) (k code cls source payload : Nat) : Dev :=
  if latched d k then d else postEvent (latch d k) code cls source payload

/-! ### Table access -/

/-- Core n. -/
def coreOf (d : Dev) (n : Nat) : Core := sget (fun _ => {}) d.cores n
/-- Change core n. -/
def updCore (d : Dev) (n : Nat) (f : Core → Core) : Dev := { d with cores := supd (fun _ => {}) d.cores n f }
/-- Array a of a core. -/
def arr (c : Core) (a : Nat) : Arr := sget (fun _ => {}) c.arrays a
/-- Change array a of a core. -/
def setArr (c : Core) (a : Nat) (v : Arr) : Core := { c with arrays := sset (fun _ => {}) c.arrays a v }
/-- Change array a of core n. -/
def updArr (d : Dev) (n a : Nat) (f : Arr → Arr) : Dev := updCore d n fun c => setArr c a (f (arr c a))
/-- Work context w. -/
def wcOf (d : Dev) (w : Nat) : Wc := sget (fun _ => {}) d.cp.wcs w
/-- Change the CP's part. -/
def updCp (d : Dev) (f : Cp → Cp) : Dev := { d with cp := f d.cp }
/-- Change work context w. -/
def updWc (d : Dev) (w : Nat) (f : Wc → Wc) : Dev := updCp d fun c => { c with wcs := supd (fun _ => {}) c.wcs w f }
/-- Ring r = 8w + i. -/
def ringOf (d : Dev) (r : Nat) : Ring := sget (fun _ => {}) d.cp.rings r
/-- Change ring r. -/
def updRing (d : Dev) (r : Nat) (f : Ring → Ring) : Dev := updCp d fun c => { c with rings := supd (fun _ => {}) c.rings r f }
/-- Window entry of a core. -/
def win (c : Core) (i : Nat) : Win := sget (fun _ => {}) c.wins i
/-- Write a window entry. -/
def setWin (c : Core) (i : Nat) (w : Win) : Core := { c with wins := sset (fun _ => {}) c.wins i w }
/-- Shared tile counter k = hub × 64 + counter. -/
def ctrOf (d : Dev) (k : Nat) : TileCtr := sget (fun _ => {}) d.ctrs k
/-- Write a shared tile counter. -/
def setCtr (d : Dev) (k : Nat) (c : TileCtr) : Dev := { d with ctrs := sset (fun _ => {}) d.ctrs k c }
/-- Stream channel. -/
def chan (d : Dev) (c : Nat) : Chan := sget (fun _ => {}) d.se.chans c
/-- Write a stream channel. -/
def setChan (d : Dev) (c : Nat) (v : Chan) : Dev := { d with se := { d.se with chans := sset (fun _ => {}) d.se.chans c v } }
/-- Camera port p. -/
def cam (d : Dev) (p : Nat) : Cam := sget (fun _ => {}) d.cams p
/-- Change camera port p. -/
def updCam (d : Dev) (p : Nat) (f : Cam → Cam) : Dev := { d with cams := supd (fun _ => {}) d.cams p f }
/-- Image context n. -/
def ic (d : Dev) (n : Nat) : Ic := sget (fun _ => {}) d.ics n
/-- Change image context n. -/
def updIc (d : Dev) (n : Nat) (f : Ic → Ic) : Dev := { d with ics := supd (fun _ => {}) d.ics n f }
/-- Memory-region entry. -/
def region (d : Dev) (r : Nat) : BitVec 256 := sget (fun _ => 0#256) d.dmc.regions r

/-! ### Grades and enabled arrays -/

/-- Arrays of a core that are enabled (Table 2.12, ARRAYS_ENABLED). -/
def arraysOn (c : Core) : List Nat := if c.disabled then [] else (List.range 4).filter fun a => (arr c a).cause == 0
/-- Arrays over which the core folds: SHAPE_LIMIT (R40). -/
def shapeLimit (c : Core) : Nat := (arraysOn c).length

/-! ### The physical address map (R20) -/

/-- What a physical address is. -/
inductive Area where
  | dram
  | sb (slice : Nat)
  | wm (core off : Nat)
  | am (core off : Nat)
  | pm (core off : Nat)
  | ds (core off : Nat)
  | doorbell (ring : Nat)
  | cpPage (off : Nat)
  | mailbox (slot off : Nat)
  | periph (slot off : Nat)
  | plic (off : Nat)
  | unmapped
  deriving DecidableEq, Repr

/-- Fitted DRAM in bytes: DRAM_SIZE (R455). -/
def dramSize (d : Dev) : Nat := cnt d 0x2400 1

/-- Decode of an address (Tables 1.5 and 1.6). -/
def areaOf (d : Dev) (a : Nat) : Area :=
  if a < 0x800000000 then (if a < dramSize d then .dram else .unmapped)
  else if 0x1000000000 ≤ a && a < 0x1000800000 then .sb ((a - 0x1000000000) / 0x200000)
  else if 0x1100000000 ≤ a && a < 0x1110000000 then
    let n := (a - 0x1100000000) / 0x1000000
    let o := a % 0x1000000
    if o < 0x100000 then .wm n o
    else if o < 0x200000 then .am n (o - 0x100000)
    else if o < 0x280000 then .pm n (o - 0x200000)
    else if 0x300000 ≤ o && o < 0x310000 then .ds n (o - 0x300000)
    else .unmapped
  else if 0x2000000000 ≤ a && a < 0x2000040000 then .doorbell ((a - 0x2000000000) / 8)
  else if 0x2010000000 ≤ a && a < 0x2010008000 then .cpPage (a - 0x2010000000)
  else if 0x2010008000 ≤ a && a < 0x2010010000 then .mailbox ((a - 0x2010008000) / 0x1000) (a % 0x1000)
  else if 0x3000000000 ≤ a && a < 0x3001F00000 then .periph ((a - 0x3000000000) / 0x100000) (a % 0x100000)
  else if 0x3040000000 ≤ a && a < 0x3044000000 then .plic (a - 0x3040000000)
  else .unmapped

/-- Start of core n's WM, AM and descriptor store in the map (Table 1.5). -/
def wmBase (n : Nat) : Nat := 0x1100000000 + n * 0x1000000
def amBase (n : Nat) : Nat := wmBase n + 0x100000
def dsBase (n : Nat) : Nat := wmBase n + 0x300000
/-- Start of the map's SB. -/
def sbBase : Nat := 0x1000000000

/-! ### Bytes -/

/-- What an unlisted byte of memory reads as: 0 (log 4). -/
def blankByte : Nat → Byte := fun _ => 0#8

/-- One byte of memory. -/
def peek (m : Mem) (a : Nat) : Byte := sget blankByte m.ram a
/-- `n` bytes of memory. -/
def peeks (m : Mem) (a : Nat) : Nat → List Byte
  | 0 => []
  | n + 1 => peek m a :: peeks m (a + 1) n
/-- Write one byte of memory. -/
def poke (m : Mem) (a : Nat) (b : Byte) : Mem := { m with ram := sset blankByte m.ram a b }
/-- Write bytes of memory, lowest address first. -/
def pokes (m : Mem) (a : Nat) : List Byte → Mem
  | [] => m
  | b :: bs => pokes (poke m a b) (a + 1) bs
/-- The memory keeps its canonical form. -/
def Memory.wf (m : Mem) : Bool := swf blankByte m.ram

/-- Whether the 32 B word that holds address `a` is poisoned. -/
def isPoison (m : Mem) (a : Nat) : Bool := m.poison.contains (a / 32)
/-- Set or clear the poison bit of the word that holds address `a`. -/
def setPoison (m : Mem) (a : Nat) (p : Bool) : Mem :=
  { m with poison := if p then insNat (a / 32) m.poison else delNat (a / 32) m.poison }
/-- Change the memory. -/
def updMem (d : Dev) (f : Mem → Mem) : Dev := { d with mem := f d.mem }

/-- Bytes of a text of one-byte characters. -/
def asciiBytes (s : String) : List Byte := s.toList.map fun c => BitVec.ofNat 8 c.toNat

/-! ### Region checks (R461 to R467) -/

/-- Whether region entry e is enabled and holds granule address a (R462, Table 14.7). -/
def regionHolds (e : BitVec 256) (a : Nat) : Bool :=
  bit e 0 && decide (fld e 200 28 * 4096 ≤ a) && decide (a < fld e 228 28 * 4096)

/-- The deciding region of an address: the lowest-numbered enabled region that holds it (R462). -/
def decidingRegion (d : Dev) (a : Nat) : Option Nat := (List.range 16).find? fun r => regionHolds (region d r) a

/-- Encryption setting of an address: 1 + KEY_SLOT where its deciding region has ENCRYPT set, else 0 (R465). -/
def encSetting (d : Dev) (a : Nat) : Nat :=
  match decidingRegion d a with
  | some r => if bit (region d r) 4 then 1 + fld (region d r) 5 3 else 0
  | none => 0

/-- The access lands in an encrypted region whose key slot is not loaded (R466). -/
def keyMissing (d : Dev) (a : Nat) : Bool :=
  let e := encSetting d a
  e != 0 && !bit d.dmc.keyLoaded (e - 1)

/-- Whether agent g may read or write the granule at address a (R462, R466); agent 6 reaches all before the first ENABLE (R24). -/
def agentMay (d : Dev) (g : Nat) (write : Bool) (a : Nat) : Bool :=
  if g == 6 && !d.dmc.everEnabled then true
  else match decidingRegion d a with
    | some r => bit (region d r) ((if write then 144 else 152) + g) && !keyMissing d a
    | none => false

/-- Latch keys of what happens at most once per breath. -/
def onceViolation (g : Nat) : Nat := 100 + g
def onceEcc (n : Nat) : Nat := 200 + n
def onceSbEcc (s : Nat) : Nat := 220 + s
def onceLinkCe : Nat := 230
def onceOverrun : Nat := 231
def onceIplOverload : Nat := 232

/-- Report a refused access (R464). -/
def violation (d : Dev) (g : Nat) (write : Bool) (a : Nat) : Dev :=
  let r := (decidingRegion d a).getD 15
  let d := { d with dmc := { d.dmc with
    violAddr := BitVec.ofNat 40 a
    violInfo := BitVec.ofNat 64 (g + b2n write * 256 + r * 4096) } }
  let d := bump d 0x2420 1 4 1
  postOnce d (onceViolation g) 0x0E01 0 srcDmc (g + b2n write * 256 + r * 4096 + a * 65536)

/-- Address error (R21): the access reads zero or is discarded, and event 0x0110 carries the address. -/
def addressError (d : Dev) (source a : Nat) : Dev := postEvent d 0x0110 0 source a

/-- DRAM channel of an address (R456). -/
def dramChannel (a : Nat) : Nat := ((a / 256) % 8) ^^^ ((a / 65536) % 8)

/-- A byte as an access under encryption setting `e` reads it (R465, R467). -/
def decByte (m : Mem) (e a : Nat) : Byte :=
  let t := sget (fun _ => 0) m.encTag (a / 64)
  if t = e then peek m a else Config.unrelated t e a (peek m a)

/-- Bytes of one DRAM granule as an access under setting `e` reads them. -/
def decBytes (m : Mem) (e a : Nat) : Nat → List Byte
  | 0 => []
  | n + 1 => decByte m e a :: decBytes m e (a + 1) n

/-- Write bytes into one DRAM granule under setting `e`: the granule is read, decrypted, merged and stored under `e` (R465). -/
def encWrite (m : Mem) (e a : Nat) (bs : List Byte) : Mem :=
  let g := a / 64
  let t := sget (fun _ => 0) m.encTag g
  let m := if t = e then m else { pokes m (g * 64) (decBytes m e (g * 64) 64) with encTag := sset (fun _ => 0) m.encTag g e }
  pokes m a bs

/-- A link error met by a DRAM read of the granule at `a`: counters, events, and which halves are poisoned (R457). -/
def linkRead (d : Dev) (a : Nat) : Dev × Bool × Bool :=
  let k := sget (fun _ => 0) d.dmc.linkErr (a / 64)
  let ch := dramChannel a
  let d := if k = 0 then d else { d with dmc := { d.dmc with linkErr := sset (fun _ => 0) d.dmc.linkErr (a / 64) 0 } }
  if k = 0 then (d, false, false)
  else if k = 1 then
    let d := bump d (0x2410 + ch) 1 4 1
    let d := { d with dmc := { d.dmc with ceSince := d.dmc.ceSince + 1, ceMask := d.dmc.ceMask ||| BitVec.ofNat 8 (2 ^ ch) } }
    if setting d 0x2401 5 = 1 && !latched d onceLinkCe then
      let d := postEvent (latch d onceLinkCe) 0x0E02 0 srcDmc (d.dmc.ceMask.toNat + d.dmc.ceSince % 2 ^ 32 * 2 ^ 32)
      ({ d with dmc := { d.dmc with ceSince := 0, ceMask := 0#8 } }, false, false)
    else (d, false, false)
  else
    let d := bump d (0x2410 + ch) 2 4 1
    (postEvent d 0x0E03 0 srcDmc (ch + a / 64 * 64 * 65536), k == 2, k == 3)

/-- Payload of event 0x0401 (R131): the last corrected address and the count since the previous record, in places the model chose (log 19). -/
def ceRecord (a n : Nat) : Nat := a % 2 ^ 40 + n % 2 ^ 24 * 2 ^ 40

/-- SB slice of an address. -/
def sliceOf (a : Nat) : Nat := (a - sbBase) / 0x200000

/-- The correction stage of an SB read of the word that holds `a` (R126, R128, R131): counts, events and poison. -/
def sbCorrect (d : Dev) (a : Nat) : Dev :=
  let k := sget (fun _ => 0) d.mem.latent (a / 32)
  let s := sliceOf a
  if k = 0 then d
  else
    let d := updMem d fun m => { m with latent := sset (fun _ => 0) m.latent (a / 32) 0 }
    if k = 1 then
      let d := bump d (0x2260 + s) 1 4 1
      let n := sget (fun _ => 0) d.mem.sbCe s + 1
      if setting d 0x2240 3 = 1 && !latched d (onceSbEcc s) then
        let d := updMem d fun m => { m with sbCe := sset (fun _ => 0) m.sbCe s 0 }
        postEvent (latch d (onceSbEcc s)) 0x0401 0 (srcHub s) (ceRecord (a / 32 * 32) n)
      else updMem d fun m => { m with sbCe := sset (fun _ => 0) m.sbCe s n }
    else
      let d := bump d (0x2260 + s) 2 4 1
      postEvent (updMem d fun m => setPoison m a true) 0x0402 0 (srcHub s) (a / 32 * 32)

/-- A read of one 64 B granule of DRAM or SB by agent g, or by the APC (none): its bytes and the poison of its halves (R462, R464). -/
def readGranule (d : Dev) (g : Option Nat) (source a : Nat) : Dev × List Byte × Bool × Bool :=
  let a := a / 64 * 64
  let zeros := List.replicate 64 (0#8)
  let refused : Bool := match g with
    | some g => !agentMay d g false a
    | none => keyMissing d a
  match areaOf d a with
  | .dram =>
    if refused then (match g with | some g => violation d g false a | none => d, zeros, g.isSome, g.isSome)
    else
      let (d, lo, hi) := linkRead d a
      let d := bump d (0x2410 + dramChannel a) 3 8 64
      let line := g.isSome && d.apc.poisonLines.contains (a / 64)
      (d, decBytes d.mem (encSetting d a) a 64, lo || line, hi || line)
  | .sb _ =>
    if refused then (match g with | some g => violation d g false a | none => d, zeros, g.isSome, g.isSome)
    else
      let d := sbCorrect (sbCorrect d a) (a + 32)
      (d, peeks d.mem a 64, isPoison d.mem a, isPoison d.mem (a + 32))
  | _ => (addressError d source a, zeros, false, false)

/-- Granules of `n` bytes at address `a` (R12). -/
def granulesOf (a n : Nat) : List Nat :=
  if n = 0 then [] else (List.range ((a + n - 1) / 64 - a / 64 + 1)).map fun i => (a / 64 + i) * 64

/-- Read granule after granule. -/
def readGranules (d : Dev) (g : Option Nat) (source : Nat) : List Nat → Dev × List Byte × Bool
  | [] => (d, [], false)
  | a :: t =>
    let (d, bs, p, q) := readGranule d g source a
    let (d, rest, r) := readGranules d g source t
    (d, bs ++ rest, p || q || r)

/-- A read of `n` bytes of DRAM or SB at `a`: the bytes, and whether any half of a granule read was poisoned. -/
def memRead (d : Dev) (g : Option Nat) (source a n : Nat) : Dev × List Byte × Bool :=
  let (d, bs, p) := readGranules d g source (granulesOf a n)
  (d, (bs.drop (a % 64)).take n, p)

/-- Read granule after granule, each byte with the poison of its half (R129). -/
def readMarked (d : Dev) (g : Option Nat) (source : Nat) : List Nat → Dev × List (Byte × Bool)
  | [] => (d, [])
  | a :: t =>
    let (d, bs, p, q) := readGranule d g source a
    let (d, rest) := readMarked d g source t
    (d, (bs.take 32).map (fun b => (b, p)) ++ (bs.drop 32).map (fun b => (b, q)) ++ rest)

/-- A read of `n` bytes of DRAM or SB at `a`, each byte with the poison of its half. -/
def memReadMarked (d : Dev) (g : Option Nat) (source a n : Nat) : Dev × List (Byte × Bool) :=
  let (d, bs) := readMarked d g source (granulesOf a n)
  (d, (bs.drop (a % 64)).take n)

/-- Poison of an SB half after a write of `n` bytes at `o` of the half, the data's poison being `p` (R153): a full cover takes `p`, a partial one keeps poison. -/
def halfPoison (old p : Bool) (o n : Nat) : Bool := if o = 0 ∧ 32 ≤ n then p else if n = 0 then old else old || p

/-- A write within one granule of DRAM or SB by agent g, or by the APC (none); pl and ph: the poison of the data for its lower and upper half. -/
def writeGranule (d : Dev) (g : Option Nat) (source a : Nat) (bs : List Byte) (pl ph : Bool) : Dev :=
  let refused : Bool := match g with
    | some g => !agentMay d g true (a / 64 * 64)
    | none => keyMissing d a
  match areaOf d a with
  | .dram =>
    if refused then (match g with | some g => violation d g true (a / 64 * 64) | none => d)
    else
      let d := bump d (0x2410 + dramChannel a) 4 8 64
      let d := if g.isSome && d.apc.poisonLines.contains (a / 64) then { d with apc := { d.apc with poisonLines := delNat (a / 64) d.apc.poisonLines } } else d
      updMem d fun m => encWrite m (encSetting d a) a bs
  | .sb s =>
    if refused then (match g with | some g => violation d g true (a / 64 * 64) | none => d)
    else
      let n := bs.length
      let d := if n < 64 then sbCorrect (sbCorrect (bump d (0x2260 + s) 3 4 1) (a / 64 * 64)) (a / 64 * 64 + 32)
        else updMem d fun m => { m with latent := sset (fun _ => 0) (sset (fun _ => 0) m.latent (a / 32) 0) (a / 32 + 1) 0 }
      let o := a % 64
      let nLo := if o < 32 then min n (32 - o) else 0
      let b := a / 64 * 64
      let pLo := halfPoison (isPoison d.mem b) pl (if o < 32 then o else 32) nLo
      let pHi := halfPoison (isPoison d.mem (b + 32)) ph (if o ≤ 32 then 0 else o - 32) (n - nLo)
      updMem d fun m => setPoison (setPoison (pokes m a bs) b pLo) (b + 32) pHi
  | _ => addressError d source a

/-- Write bytes granule by granule; `k` bounds the number of granules. -/
def writeGranules (d : Dev) (g : Option Nat) (source : Nat) : Nat → Nat → List Byte → Bool → Dev
  | 0, _, _, _ => d
  | _ + 1, _, [], _ => d
  | k + 1, a, bs, p =>
    let n := 64 - a % 64
    writeGranules (writeGranule d g source a (bs.take n) p p) g source k (a + n) (bs.drop n) p

/-- A write of bytes to DRAM or SB at `a`, poisoned or not (R129, R464). -/
def memWrite (d : Dev) (g : Option Nat) (source a : Nat) (bs : List Byte) (p : Bool) : Dev :=
  writeGranules d g source (bs.length / 64 + 2) a bs p

/-- Write bytes with their poison granule by granule, each half with the poison of its bytes (R129, R153); `k` bounds the number of granules. -/
def physWriteMarked (d : Dev) (g source : Nat) : Nat → Nat → List (Byte × Bool) → Dev
  | 0, _, _ => d
  | _ + 1, _, [] => d
  | k + 1, a, bs =>
    let n := 64 - a % 64
    let part := bs.take n
    let lo := 32 - a % 64
    physWriteMarked (writeGranule d (some g) source a (part.map (·.1)) ((part.take lo).any (·.2)) ((part.drop lo).any (·.2))) g source k (a + n) (bs.drop n)

/-- Whether every granule of `n` bytes at `a` is mapped and granted to agent g: the rule of admission test 8 and of the port DMA (R462). -/
def spanGranted (d : Dev) (g : Nat) (write : Bool) (a n : Nat) : Bool :=
  (granulesOf a n).all fun x => (match areaOf d x with | .dram => true | .sb _ => true | _ => false) && agentMay d g write x

/-! ### Settings of ports and image contexts (Tables 10.6, 10.7, 11.10, 12.8) -/

/-- Index B of camera port p. -/
def camB (p : Nat) : Nat := 0x3000 + 0x100 * p
/-- Index X of image context n. -/
def icX (n : Nat) : Nat := 0x4000 + 0x40 * n
/-- Function of camera port p and of image context n (Table 9.3). -/
def camFn (p : Nat) : Nat := 0x01 + p
def icFn (n : Nat) : Nat := 0x05 + n
def icPort (d : Dev) (n : Nat) : Nat := setting d (icX n + 1) 1
def icVc (d : Dev) (n : Nat) : Nat := setting d (icX n + 1) 2
def icType (d : Dev) (n : Nat) : Nat := setting d (icX n + 1) 3
def icWidth (d : Dev) (n : Nat) : Nat := setting d (icX n + 1) 4
def icHeight (d : Dev) (n : Nat) : Nat := setting d (icX n + 1) 5
def icMode (d : Dev) (n : Nat) : Nat := setting d (icX n) 1
/-- Formatter entry of formatter f (0 display, 1 coding, 2 machine vision) of image context n. -/
def fmtSet (d : Dev) (n f sub : Nat) : Nat := setting d (icX n + 4 + f) sub
def fmtOn (d : Dev) (n f : Nat) : Bool := fmtSet d n f 1 == 1
/-- Stripe width, halo and number of stripes (R373). -/
def icSw (d : Dev) (n : Nat) : Nat := setting d (icX n + 3) 1
def icHalo (d : Dev) (n : Nat) : Nat := setting d (icX n + 3) 2
def icStripes (d : Dev) (n : Nat) : Nat := ceilDiv (icWidth d n) (icSw d n)
/-- Interior width of stripe s (R373). -/
def stripeWidth (d : Dev) (n s : Nat) : Nat := min (icSw d n) (icWidth d n - s * icSw d n)
/-- Units of one back-end line (R380). -/
def uBe (d : Dev) (n : Nat) : Nat := ((List.range (icStripes d n)).map fun s => ceilDiv (6 * stripeWidth d n s) 512).sum
/-- The image context carries YUV422 (R385). -/
def icYuv (d : Dev) (n : Nat) : Bool := icType d n == 0x1E

/-- A function is Starting or Running. -/
def fnUp (d : Dev) (f : Nat) : Bool := actual d f == 1 || actual d f == 2
/-- A function is Starting, Running or Stopping: its block is at work. -/
def fnLive (d : Dev) (f : Nat) : Bool := fnUp d f || actual d f == 3
/-- A function's block runs: ACTUAL becomes Running, and STARTS counts it (R303, R305). -/
def goRunning (d : Dev) (f : Nat) : Dev := bump (setCnt d (0x1100 + f) 3 2) (0x1100 + f) 7 4 1

/-- Units of the pair segment of stripe s (R379). -/
def pairUnit (d : Dev) (n s : Nat) : Nat := ceilDiv (4 * (stripeWidth d n s + 2 * icHalo d n)) 512
/-- Units of the pair segments of all stripes (R379). -/
def pairUnits (d : Dev) (n : Nat) : Nat := ((List.range (icStripes d n)).map (pairUnit d n)).sum

/-- Agents of Table 14.6. -/
def agFe : Nat := 0
def agSe : Nat := 1
def agIpl : Nat := 2
def agMpe : Nat := 3
def agAfe : Nat := 4
def agPort : Nat := 5
def agMgc : Nat := 6
def agCp : Nat := 7

end Sys2Proof.Machine
end

