-- ==== Sys2Proof/Machine/Operands.lean ====
section
/-! DEFINITION. Operand forms: the fields of command records (Tables 5.1 to 5.9), tensor descriptors (Table 5.3), and the elements, rows and planes they name. -/

namespace Sys2Proof.Machine

open Sys2Proof

/-! ### Record fields -/

def rTag (w : Line) : Nat := fld w 48 16
def rChainPos (w : Line) : Nat := fld w 16 8
def rComplete (w : Line) : Bool := bit w 15
def rEventOnError (w : Line) : Bool := bit w 14
def rOpcode (w : Line) : Nat := fld w 0 8

def rMpeMode (w : Line) : Nat := fld w 376 8
def rDilH (w : Line) : Nat := fld w 312 8
def rDilW (w : Line) : Nat := fld w 304 8
def rPadMode (w : Line) : Nat := fld w 302 2
def rGroups (w : Line) : Nat := fld w 290 12
def rPadTop (w : Line) : Nat := fld w 246 10
def rPadBottom (w : Line) : Nat := fld w 236 10
def rPadLeft (w : Line) : Nat := fld w 226 10
def rPadRight (w : Line) : Nat := fld w 216 10
def rKh (w : Line) : Nat := fld w 212 4
def rKw (w : Line) : Nat := fld w 208 4
def rStrideH (w : Line) : Nat := fld w 206 2 + 1
def rStrideW (w : Line) : Nat := fld w 204 2 + 1
def rMchunk (w : Line) : Nat := fld w 176 16
def rGroup (w : Line) : Nat := fld w 168 8
/-- PASS_ROWS in rows: 0 stands for 256 (Table 5.5). -/
def rPassRows (w : Line) : Nat := let p := fld w 160 8; if p = 0 then 256 else 32 * p
def rDescA (w : Line) : Nat := fld w 116 12
/-- DESC_W of the matrix family, DESC_B of the vector family. -/
def rDescW (w : Line) : Nat := fld w 104 12
def rDescO (w : Line) : Nat := fld w 92 12
def rShape (w : Line) : Nat := fld w 90 2
def rStation (w : Line) : Nat := fld w 88 2
def rPmDouble (w : Line) : Bool := bit w 87
def rTransA (w : Line) : Bool := bit w 86
def rTransW (w : Line) : Bool := bit w 85
def rPmBase (w : Line) : Nat := fld w 64 10

def rLenOut (w : Line) : Nat := fld w 184 8
def rImm (w : Line) : W32 := BitVec.ofNat 32 (fld w 152 32)
def rFunc (w : Line) : Nat := fld w 84 8
def rAxis (w : Line) : Nat := fld w 82 2
def rParam (w : Line) : Nat := fld w 64 16

def rDescSrc (w : Line) : Nat := fld w 116 12
def rDescDst (w : Line) : Nat := fld w 104 12
def rChannel (w : Line) : Nat := fld w 95 9
def rXop (w : Line) : Nat := fld w 92 3
def rWmode (w : Line) : Nat := fld w 91 1
def rWindow (w : Line) : Nat := fld w 86 5
def rWsize (w : Line) : Nat := fld w 75 11
def rWkind (w : Line) : Nat := fld w 71 4

def rLaddr (w : Line) : Nat := fld w 152 40
def rIndex (w : Line) : Nat := fld w 122 6
def rLsrc (w : Line) : Nat := fld w 121 1
def rScope (w : Line) : Nat := fld w 119 2
def rValue (w : Line) : W32 := BitVec.ofNat 32 (fld w 64 32)

/-- Opcode families. -/
def isMatrixOp (o : Nat) : Bool := o == 0x01 || o == 0x02 || o == 0x03 || o == 0x08 || o == 0x09
def isConvOp (o : Nat) : Bool := o == 0x08 || o == 0x09
def isVectorOp (o : Nat) : Bool := o == 0x10 || o == 0x11 || o == 0x12
/-- Opcodes of Table 5.2 (R158). -/
def opcodeKnown (o : Nat) : Bool := [0x01, 0x02, 0x03, 0x08, 0x09, 0x0A, 0x10, 0x11, 0x12, 0x18, 0x19, 0x1A, 0x20, 0x21, 0x22, 0x23, 0x24, 0x30].contains o

/-! ### Tensor descriptors -/

/-- A tensor descriptor (Table 5.3). -/
structure Desc where
  outlierCount : Nat := 0
  aux2 : Nat := 0
  aux1 : Nat := 0
  cbGroup : Nat := 0
  gsLog2 : Nat := 0
  aux0 : Nat := 0
  zp : Nat := 0
  expMode : Nat := 0
  fixedExp : Int := 0
  satSlot : Nat := 0
  len : List Nat := []
  stride : List Nat := []
  ext : List Nat := []
  format : Nat := 0
  space : Nat := 0
  window : Nat := 0
  remote : Nat := 0
  base : Nat := 0
  deriving DecidableEq, Repr

/-- Read a descriptor's fields; dimension 0 has a stride of one element. -/
def descOf (w : Line) : Desc :=
  { outlierCount := fld w 488 7, aux2 := fld w 448 40, aux1 := fld w 408 40, cbGroup := fld w 398 10
    gsLog2 := fld w 393 5, aux0 := fld w 344 40, zp := fld w 336 8, expMode := fld w 334 2
    fixedExp := sext 8 (fld w 326 8), satSlot := fld w 321 5
    len := [fld w 256 7, fld w 263 7, fld w 270 7, fld w 277 7]
    stride := [0, fld w 192 32, fld w 224 32, fld w 288 32]
    ext := [fld w 64 32, fld w 96 32, fld w 128 32, fld w 160 32]
    format := fld w 60 4, space := fld w 57 3, window := fld w 52 5, remote := fld w 48 4, base := fld w 0 40 }

/-- Declared extent of a dimension. -/
def dExt (t : Desc) (k : Nat) : Nat := t.ext.getD k 1
/-- Stride of a dimension in bytes. -/
def dStride (t : Desc) (k : Nat) : Nat := t.stride.getD k 0
/-- Element format, INT8 for a reserved code (which admission refuses). -/
def dFmt (t : Desc) : Fmt := (fmtOf t.format).getD .int8
/-- Zero point of the tensor (R69): only UINT8 has one. -/
def dZp (t : Desc) : Nat := if dFmt t = .uint8 then t.zp else 0
/-- Bytes that `n` elements of dimension 0 take (R68). -/
def elemBytes (f : Fmt) (n : Nat) : Nat := (n * fmtBits f + 7) / 8

/-- Copied descriptor i of an instruction. -/
def opDesc (o : Op) (i : Nat) : Desc :=
  match o.descs.find? fun x => x.1 == i with
  | some (_, _, w) => descOf w
  | none => {}

/-- Outlier list copied for descriptor i (R159). -/
def opList (o : Op) (i : Nat) : List Nat :=
  match o.lists.find? fun x => x.1 == i with
  | some (_, _, l) => l
  | none => []

/-- Actual extents of descriptor i, as latched at issue (R175). -/
def opExt (o : Op) (i : Nat) : List Nat :=
  match o.lens.find? fun x => x.1 == i with
  | some (_, l) => l
  | none => (opDesc o i).ext

/-! ### Core memory bytes -/

/-- Gather entry of a word, if the core's WM or AM gather buffer holds one. -/
def gatherOf (c : Core) (wm : Bool) (word : Nat) : Option Gather :=
  (if wm then c.gatherWm else c.gatherAm).find? fun g => g.word == word

/-- Physical address of offset `off` of WM or AM of core n. -/
def coreAddr (n : Nat) (wm : Bool) (off : Nat) : Nat := (if wm then wmBase n else amBase n) + off

/-- A byte of WM or AM of core n, with the bytes of a gather entry merged in (R134). -/
def coreByte (d : Dev) (n : Nat) (wm : Bool) (off : Nat) : Byte :=
  match gatherOf (coreOf d n) wm (off / 32) with
  | some g => if g.mask / 2 ^ (off % 32) % 2 = 1 then g.bytes.getD (off % 32) 0#8 else peek d.mem (coreAddr n wm off)
  | none => peek d.mem (coreAddr n wm off)

/-- The word of WM or AM that holds offset `off` reads as poisoned: its stored poison bit, or that of its gather entry (R129, R134). -/
def corePoison (d : Dev) (n : Nat) (wm : Bool) (off : Nat) : Bool :=
  isPoison d.mem (coreAddr n wm off) || (match gatherOf (coreOf d n) wm (off / 32) with | some g => g.poison | none => false)

/-- Bytes of WM or AM with the poison of their words. -/
def coreMarked (d : Dev) (n : Nat) (wm : Bool) (off k : Nat) : List (Byte × Bool) :=
  (List.range k).map fun j => (coreByte d n wm (off + j), corePoison d n wm (off + j))

/-- Remove byte `b` of a word from a gather buffer: a write to memory has superseded it (R134). -/
def gatherDrop (l : List Gather) (word b : Nat) : List Gather :=
  (l.map fun g => if g.word == word && g.mask / 2 ^ b % 2 == 1 then { g with mask := g.mask - 2 ^ b } else g).filter fun g => g.mask != 0

/-- Write a byte of WM or AM of core n. -/
def coreSetByte (d : Dev) (n : Nat) (wm : Bool) (off : Nat) (b : Byte) : Dev :=
  let d := updMem d fun m => poke m (coreAddr n wm off) b
  if (gatherOf (coreOf d n) wm (off / 32)).isSome then
    updCore d n fun c =>
      if wm then { c with gatherWm := gatherDrop c.gatherWm (off / 32) (off % 32) }
      else { c with gatherAm := gatherDrop c.gatherAm (off / 32) (off % 32) }
  else d

/-- Write bytes of WM or AM of core n, lowest first. -/
def coreSetBytes (d : Dev) (n : Nat) (wm : Bool) (off : Nat) : List Byte → Dev
  | [] => d
  | b :: bs => coreSetBytes (coreSetByte d n wm off b) n wm (off + 1) bs

/-- Memory number of scrub queues and counters: 0 WM, 1 AM. -/
def memNo (wm : Bool) : Nat := if wm then 0 else 1

/-! ### The correction stage and the scrub queues (R126 to R128, R131) -/

/-- Words of a memory: 0 WM, 1 AM, 2 PM (entries), 3 descriptor store. -/
def memWords (mem : Nat) : Nat := if mem < 2 then 32768 else if mem = 2 then 131072 else 2048

/-- Physical address of word w of a memory of core n. -/
def wordAddr (n mem w : Nat) : Nat :=
  match mem with
  | 0 => wmBase n + 32 * w
  | 1 => amBase n + 32 * w
  | 2 => wmBase n + 0x200000 + 4 * w
  | _ => dsBase n + 32 * w

/-- Key of a word in the table of latent errors: its 32 B word, or for a PM entry its address. -/
def latentKey (n mem w : Nat) : Nat := if mem = 2 then wordAddr n mem w else wordAddr n mem w / 32

/-- PM key of the entry that word w of the PM range is (R117). -/
def pmKeyOf (w : Nat) : Nat := (w / 32768 * 32 + w % 32) * 1024 + w / 32 % 1024
/-- Word of the PM range that a PM key is (R117). -/
def pmWordOf (k : Nat) : Nat := k / 32768 * 32768 + k % 1024 * 32 + k / 1024 % 32

/-- Errors that have struck the stored word since it was last written: the worse of what stood and u. -/
def strike (d : Dev) (key u : Nat) : Dev := updMem d fun m => { m with latent := supd (fun _ => 0) m.latent key (max u) }

/-- A write to a word cancels its scrub entry (R127). -/
def scrubCancel (d : Dev) (n mem word : Nat) : Dev :=
  if (sget (fun _ => []) (coreOf d n).scrub mem).contains word then
    updCore d n fun c => { c with scrub := supd (fun _ => []) c.scrub mem fun l => l.filter (· ≠ word) }
  else d

/-- A full write of a word: no latent error and no scrub entry is left of what it held (R127). -/
def wordWritten (d : Dev) (n mem w : Nat) : Dev :=
  scrubCancel (updMem d fun m => { m with latent := sset (fun _ => 0) m.latent (latentKey n mem w) 0 }) n mem w

/-- Every PM entry of a list of keys is written. -/
def pmWritten (d : Dev) (n : Nat) (keys : List Nat) : Dev :=
  let d := updMem d fun m => { m with latent := keys.foldl (fun t k => sset (fun _ => 0) t (latentKey n 2 (pmWordOf k)) 0) m.latent }
  keys.foldl (fun d k => scrubCancel d n 2 (pmWordOf k)) d

/-- The address enters the memory's scrub queue, or is dropped when the queue is full (R127). -/
def scrubEnter (d : Dev) (n mem w : Nat) : Dev :=
  if (sget (fun _ => []) (coreOf d n).scrub mem).contains w then d
  else if (sget (fun _ => []) (coreOf d n).scrub mem).length < 4 then
    updCore d n fun c => { c with scrub := supd (fun _ => []) c.scrub mem fun l => l ++ [w] }
  else bump d (0x2250 + n) 7 4 1

/-- A corrected error of core n: counted, and event 0x0401 at most once per breath (R131). -/
def coreCorrected (d : Dev) (n mem w : Nat) : Dev :=
  let d := bump d (0x2250 + n) (mem + 1) 4 1
  let d := updCore d n fun c => { c with ceSince := c.ceSince + 1, ceAddr := wordAddr n mem w }
  if setting d 0x2240 3 = 1 && !latched d (onceEcc n) then
    let d := postEvent (latch d (onceEcc n)) 0x0401 0 n (ceRecord (coreOf d n).ceAddr (coreOf d n).ceSince)
    updCore d n fun c => { c with ceSince := 0 }
  else d

/-- An uncorrectable error of core n: the word is stored poisoned, and event 0x0402 is posted (R128), its payload the word's address (log 19). -/
def coreUncorrectable (d : Dev) (n mem w : Nat) : Dev :=
  let d := bump d (0x2250 + n) 5 4 1
  let d := updMem d fun m => { m with latent := sset (fun _ => 0) m.latent (latentKey n mem w) 0 }
  let d := if mem = 2 then updCore d n fun c => { c with pm := supd (fun _ => {}) c.pm (pmKeyOf w) fun e => { e with poison := true } }
    else updMem d fun m => setPoison m (wordAddr n mem w) true
  postEvent d 0x0402 0 n (wordAddr n mem w)

/-- A read of word w of a memory of core n through the correction stage, the word having suffered u (0 nothing, 1 a single-bit, 2 a double-bit error) (R126 to R128). -/
def coreMemRead (d : Dev) (n mem w u : Nat) : Dev :=
  let d := strike d (latentKey n mem w) u
  match sget (fun _ => 0) d.mem.latent (latentKey n mem w) with
  | 0 => d
  | 1 => scrubEnter (coreCorrected d n mem w) n mem w
  | _ => coreUncorrectable d n mem w

/-- Words lo to hi of a memory of core n that hold a latent error. -/
def latentWords (d : Dev) (n mem lo hi : Nat) : List Nat :=
  let unit := if mem = 2 then 4 else 1
  ((d.mem.latent.map (·.1)).filter fun k => decide (latentKey n mem lo ≤ k) && decide (k ≤ latentKey n mem hi)).map fun k => (k - latentKey n mem 0) / unit

/-- Reads of words lo to hi of a memory of core n pass the correction stage (R126): only a word with a latent error changes anything. -/
def readWords (d : Dev) (n mem lo hi : Nat) : Dev := (latentWords d n mem lo hi).foldl (fun d w => coreMemRead d n mem w 0) d

/-- Reads of `k` bytes of WM or AM from offset `off`. -/
def readBytes (d : Dev) (n : Nat) (wm : Bool) (off k : Nat) : Dev :=
  if k = 0 then d else readWords d n (memNo wm) (off / 32) ((off + k - 1) / 32)

/-- The PM entries of some keys are read through the correction stage (R126). -/
def readPm (d : Dev) (n : Nat) (keys : List Nat) : Dev :=
  if d.mem.latent.isEmpty then d else keys.foldl (fun d k => coreMemRead d n 2 (pmWordOf k) 0) d

/-! ### Writes of WM and AM -/

/-- One write of at most 32 B within a word of WM or AM (R130, R133): a full one takes the data's poison; a partial one reads the word through the correction stage, merges and keeps poison. -/
def coreWriteWord (d : Dev) (n : Nat) (wm : Bool) (off : Nat) (bs : List Byte) (p : Bool) : Dev :=
  let full := bs.length = 32 ∧ off % 32 = 0
  let d := if full then d else coreMemRead d n (memNo wm) (off / 32) 0
  let old := isPoison d.mem (coreAddr n wm off)
  let d := wordWritten (coreSetBytes d n wm off bs) n (memNo wm) (off / 32)
  updMem d fun m => setPoison m (coreAddr n wm off) (if full then p else old || p)

/-! ### Gather buffers (R132 to R134) -/

/-- Position and instruction of core n that a record names. -/
def opAt (c : Core) (wc ring : Nat) (pos : W32) : Option (Nat × Op) :=
  findIdxElem (fun o => o.wc == wc && o.ring == ring && o.pos == pos && o.issued) c.ops 0

/-- Note poison that an instruction has moved (R130). -/
def markPoison (d : Dev) (n i : Nat) (p : Bool) : Dev :=
  if p then updCore d n fun c => { c with ops := modifyAt c.ops i fun o => { o with poisoned := true } } else d

/-- Gather buffer of WM or AM. -/
def gatherBuf (c : Core) (wm : Bool) : List Gather := if wm then c.gatherWm else c.gatherAm
/-- Write a gather buffer. -/
def setGather (c : Core) (wm : Bool) (l : List Gather) : Core := if wm then { c with gatherWm := l } else { c with gatherAm := l }

/-- Flush an entry: a plain 32 B write, or with a partial mask a read, a merge and a write that keeps or gains poison (R133). -/
def flushGather (d : Dev) (n : Nat) (wm : Bool) (g : Gather) : Dev :=
  let d := updCore d n fun c => setGather c wm ((gatherBuf c wm).filter (· ≠ g))
  let off := 32 * g.word
  if g.mask = 2 ^ 32 - 1 then coreWriteWord d n wm off g.bytes g.poison
  else
    let d := bump d (0x2250 + n) 0x0A 4 1
    let d := coreMemRead d n (memNo wm) g.word 0
    let p := g.poison || isPoison d.mem (coreAddr n wm off)
    let bs := (List.range 32).map fun b => if g.mask / 2 ^ b % 2 = 1 then g.bytes.getD b 0#8 else peek d.mem (coreAddr n wm (off + b))
    let d := coreWriteWord d n wm off bs p
    match opAt (coreOf d n) g.wc g.ring g.pos with
    | some (i, _) => markPoison d n i p
    | none => d

/-- Merge bytes into an entry for the writer that `who` names; a byte written twice holds the later value. -/
def mergeGather (g who : Gather) (b mask : Nat) (bs : List Byte) (p : Bool) : Gather :=
  let put (g : Gather) (x : Nat × Byte) : Gather :=
    if mask / 2 ^ x.1 % 2 = 1 then
      { g with bytes := g.bytes.set (b + x.1) x.2, mask := if g.mask / 2 ^ (b + x.1) % 2 = 1 then g.mask else g.mask + 2 ^ (b + x.1) }
    else g
  { (withPos bs).foldl put g with wc := who.wc, ring := who.ring, pos := who.pos, poison := g.poison || p }

/-- A narrow write (R132, R133): a fifth word flushes the oldest entry, a full mask flushes its own. -/
def narrowPut (d : Dev) (n : Nat) (who : Gather) (wm : Bool) (off mask : Nat) (bs : List Byte) (p : Bool) : Dev :=
  let word := off / 32
  let l := gatherBuf (coreOf d n) wm
  let d := if (gatherOf (coreOf d n) wm word).isNone && decide (4 ≤ l.length) then
      (match l with | g :: _ => flushGather d n wm g | [] => d) else d
  let old := (gatherOf (coreOf d n) wm word).getD { word := word, bytes := List.replicate 32 0#8 }
  let g := mergeGather old who (off % 32) mask bs p
  let l := gatherBuf (coreOf d n) wm
  let l := if (gatherOf (coreOf d n) wm word).isSome then l.map (fun x => if x.word == word then g else x) else l ++ [g]
  let d := scrubCancel (updCore d n fun c => setGather c wm l) n (memNo wm) word
  if g.mask = 2 ^ 32 - 1 then flushGather d n wm g else d

/-- Flush every entry that an instruction wrote last, before it retires (R133). -/
def flushOwned (d : Dev) (n : Nat) (o : Op) : Dev :=
  let mine (g : Gather) : Bool := g.wc == o.wc && g.ring == o.ring && g.pos == o.pos
  let d := ((coreOf d n).gatherWm.filter mine).foldl (fun d g => flushGather d n true g) d
  ((coreOf d n).gatherAm.filter mine).foldl (fun d g => flushGather d n false g) d

/-- A write of part of a word: 16 B or less within a naturally aligned 16 B is narrow and enters the gather buffer, more is a 32 B write with a mask (R132; log 178). -/
def storePart (d : Dev) (n : Nat) (who : Gather) (wm : Bool) (off : Nat) (part : List (Byte × Bool)) : Dev :=
  let bs := part.map (·.1)
  let p := part.any (·.2)
  if off % 16 + bs.length ≤ 16 then narrowPut d n who wm off (2 ^ bs.length - 1) bs p else coreWriteWord d n wm off bs p

/-- Write bytes with their poison into WM or AM of core n, word by word (R129). -/
def coreStore (d : Dev) (n : Nat) (who : Gather) (wm : Bool) : Nat → Nat → List (Byte × Bool) → Dev
  | 0, _, _ => d
  | _ + 1, _, [] => d
  | k + 1, off, bs =>
    let m := 32 - off % 32
    coreStore (storePart d n who wm off (bs.take m)) n who wm k (off + m) (bs.drop m)

/-- The writer that a window's data has: no instruction of the core (R144). -/
def noWriter : Gather := { wc := 4096 }
/-- The writer that an instruction is. -/
def opWriter (o : Op) : Gather := { wc := o.wc, ring := o.ring, pos := o.pos }

/-- The entry whose region holds offset `off` of WM or AM, unless it is closed. -/
def windowAt (c : Core) (wm : Bool) (off : Nat) : Option Nat :=
  (List.range 20).find? fun j =>
    let w := win c j
    w.state != 0 && w.wm == wm && decide (w.base * 512 ≤ off) && decide (off < (w.base + w.size + 1) * 512)

/-- A part of a word, its bytes that `mask` names, as an instruction writes it: into the region of a window that is not closed it puts undefined bytes, which stay so until the window closes (R560). -/
def spoil (d : Dev) (n : Nat) (wm : Bool) (off mask : Nat) (part : List (Byte × Bool)) : Dev × List (Byte × Bool) :=
  match windowAt (coreOf d n) wm off with
  | some j =>
    let (k, d) := drawFree d
    let w := win (coreOf d n) j
    let at' := ((List.range part.length).filter fun b => mask / 2 ^ b % 2 = 1).map (off + ·)
    (updCore d n fun c => setWin c j { w with spoilt := at'.foldl (fun l a => insNat a l) w.spoilt },
     (withPos part).map fun b => (Config.undefByte k (off + b.1), b.2.2))
  | none => (d, part)

/-- An instruction of core n writes bytes with their poison into WM or AM (R129, R132, R560); `k` bounds the words. -/
def opStore (d : Dev) (n : Nat) (o : Op) (wm : Bool) : Nat → Nat → List (Byte × Bool) → Dev
  | 0, _, _ => d
  | _ + 1, _, [] => d
  | k + 1, off, bs =>
    let m := 32 - off % 32
    let (d, part) := spoil d n wm off (2 ^ m - 1) (bs.take m)
    opStore (storePart d n (opWriter o) wm off part) n o wm k (off + m) (bs.drop m)

/-! ### Windows -/

/-- Units since open as a number from 0 to 4,095. -/
def mod12 (n : Nat) : Nat := n % 4096

/-- Offset in its memory of byte b of unit u, counted in full from the window's open (R144). -/
def winOffset (w : Win) (u b : Nat) : Nat := (w.base + (u % (w.size + 1))) * 512 + b

/-- Offset in its memory of byte x of the data that starts at unit u0, counted in full. -/
def winByteOff (w : Win) (u0 x : Nat) : Nat := winOffset w (u0 + x / 512) (x % 512)

/-- Full number of unit `base`, counted modulo 4,096, for an instruction that has freed `freed` units of the window itself: the unit of that number next after those it has freed (R161). -/
def trueUnit (w : Win) (base freed : Nat) : Nat := w.freed + mod12 (base + freed + 4096 - w.free.toNat % 4096) - freed

/-! ### Elements -/

/-- Where a tensor lies, as an instruction on core n sees it. -/
structure Place where
  core : Nat := 0
  /-- Space: 0 PHYS, 1 AM, 2 WM, 3 WIN. -/
  space : Nat := 0
  win : Win := {}
  /-- In a window: the tensor's first unit as its BASE gives it, and counted in full. -/
  base0 : Nat := 0
  unit0 : Nat := 0
  deriving DecidableEq, Repr

/-- Place of a tensor for an instruction on core n, or for a record of the MPE (16), whose windows lie in its own buffer; the instruction has freed `freed` units of the window already. A tensor in a remote window lies in the region of that window, where the exponents of its EXP_MODE 1 are read (R161, R557). -/
def placeOf (d : Dev) (n : Nat) (t : Desc) (freed : Nat) : Place :=
  if t.space = 3 then
    let w : Win := if n = 16 then { sget (fun _ => {}) d.mpe.wins t.window with base := t.window * 2048 } else win (coreOf d n) t.window
    { core := n, space := 3, win := w, base0 := mod12 t.base, unit0 := trueUnit w (mod12 t.base) freed }
  else if t.space = 4 then
    let w := win (coreOf d t.remote) t.window
    { core := t.remote, space := 3, win := w, base0 := mod12 t.base, unit0 := trueUnit w (mod12 t.base) 0 }
  else { core := n, space := t.space }

/-- Offset in a window's memory of byte x of the data that starts at unit `base` as a descriptor gives it (R161). -/
def placeOff (p : Place) (base x : Nat) : Nat := winByteOff p.win (p.unit0 + mod12 (base + 4096 - p.base0)) x

/-- Reads of bytes lo to lo + k - 1 of a tensor's data from `base` pass the correction stage of the core memory they lie in (R126). -/
def touchData (d : Dev) (p : Place) (base lo k : Nat) : Dev :=
  if d.mem.latent.isEmpty || k = 0 then d
  else match p.space with
    | 1 => readBytes d p.core false (base + lo) k
    | 2 => readBytes d p.core true (base + lo) k
    | 3 => if p.core = 16 then d
      else (List.range ((lo + k - 1) / 512 - lo / 512 + 1)).foldl (fun d u => readBytes d p.core p.win.wm (placeOff p (mod12 base) ((lo / 512 + u) * 512)) 512) d
    | _ => d

/-- A byte of a tensor's main data at byte offset x from its start. -/
def tByte (d : Dev) (p : Place) (base x : Nat) : Byte :=
  match p.space with
  | 1 => coreByte d p.core false (base + x)
  | 2 => coreByte d p.core true (base + x)
  | 3 => if p.core = 16 then (sget (fun _ => (0#8, false)) d.mpe.buf (placeOff p (mod12 base) x)).1
    else coreByte d p.core p.win.wm (placeOff p (mod12 base) x)
  | _ => decByte d.mem (encSetting d (base + x)) (base + x)

/-- Whether the 32 B word or granule half holding a tensor's byte is poisoned. -/
def tPoison (d : Dev) (p : Place) (base x : Nat) : Bool :=
  match p.space with
  | 1 => corePoison d p.core false (base + x)
  | 2 => corePoison d p.core true (base + x)
  | 3 => if p.core = 16 then (sget (fun _ => (0#8, false)) d.mpe.buf (placeOff p (mod12 base) x)).2
    else corePoison d p.core p.win.wm (placeOff p (mod12 base) x)
  | _ => isPoison d.mem (base + x)

/-- Little-endian number of `n` bytes of a tensor. -/
def tNum (d : Dev) (p : Place) (base x : Nat) : Nat → Nat
  | 0 => 0
  | n + 1 => (tByte d p base x).toNat + 256 * tNum d p base (x + 1) n

/-- Byte offset of the element at indices ix (dimension 0 first) from the tensor's start (R161). -/
def elemOff (t : Desc) (ix : List Nat) : Nat :=
  ix.getD 0 0 * fmtBits (dFmt t) / 8 + ix.getD 1 0 * dStride t 1 + ix.getD 2 0 * dStride t 2 + ix.getD 3 0 * dStride t 3

/-- Code of the element at indices ix: 4-bit elements pack two to a byte (R68). -/
def elemRaw (d : Dev) (p : Place) (t : Desc) (ix : List Nat) : Nat :=
  let x := elemOff t ix
  match fmtBits (dFmt t) with
  | 4 => (tByte d p t.base x).toNat / 16 ^ (ix.getD 0 0 % 2) % 16
  | b => tNum d p t.base x (b / 8)

/-- Poison of the element at indices ix. -/
def elemPoison (d : Dev) (p : Place) (t : Desc) (ix : List Nat) : Bool := tPoison d p t.base (elemOff t ix)

/-- Bytes of a tensor's main data at its declared extents. -/
def tensorBytes (t : Desc) : Nat :=
  (dExt t 1 - 1) * dStride t 1 + (dExt t 2 - 1) * dStride t 2 + (dExt t 3 - 1) * dStride t 3 + elemBytes (dFmt t) (dExt t 0)

/-- Rows of an activation tensor: every index of its dimensions 1 to 3 (R92). -/
def tensorRows (t : Desc) : Nat := dExt t 1 * dExt t 2 * dExt t 3

/-- Start of a tensor's exponent plane: AUX0, or in a window the unit after the main data (R160, R161). -/
def expPlane (t : Desc) : Nat := if t.space = 3 ∨ t.space = 4 then t.base % 4096 + (tensorBytes t + 511) / 512 else t.aux0

/-- Start of a tensor's side plane (R103, R161). -/
def sidePlane (t : Desc) : Nat :=
  if t.space = 3 ∨ t.space = 4 then expPlane t + (if t.expMode = 0 then 0 else (tensorRows t + 511) / 512) else t.aux1

/-- Bytes of a weight tensor's scale tensor for `n` output channels (R94). -/
def scaleBytes (t : Desc) (n : Nat) : Nat := if t.aux0 = 0 then 0 else 2 * (if t.gsLog2 = 31 then 1 else ceilDiv n (2 ^ t.gsLog2))
/-- Bytes of a weight tensor's codebook tensor for `n` output channels (R75). -/
def bookBytes (t : Desc) (n : Nat) : Nat := if dFmt t = .cb4 then 32 * (if t.cbGroup = 0 then 1 else ceilDiv n (32 * t.cbGroup)) else 0

/-- Start of a weight tensor's scale tensor: AUX0, or in a window, where R160 ignores AUX0, the unit after the main data (log 176). -/
def scaleBase (t : Desc) : Nat := if t.space = 3 then t.base % 4096 + (tensorBytes t + 511) / 512 else t.aux0
/-- Start of a weight tensor's codebook tensor: AUX1, or in a window the unit after the scale tensor (log 176). -/
def bookBase (t : Desc) (n : Nat) : Nat := if t.space = 3 then scaleBase t + (scaleBytes t n + 511) / 512 else t.aux1

/-- Row exponent e_a of row m of a source (R557). -/
def rowExp (d : Dev) (p : Place) (t : Desc) (m : Nat) : Int :=
  match t.expMode with
  | 0 => 0
  | 2 => t.fixedExp
  | _ => sext 8 (tNum d p (expPlane t) m 1)

/-- The value of an element as the VU takes it (R555). QROW takes it so too: a floating format's encoded value carries no 2^e_a, which R555 says of VEC and REDUCE (log 177). -/
def vuVal (d : Dev) (p : Place) (t : Desc) (ix : List Nat) (row : Nat) : Val :=
  let f := dFmt t
  let raw := elemRaw d p t ix
  if fmtIsInt f then r32 (vscale (ofInt (intOf f raw - dZp t)) (rowExp d p t row)) else elemVal f raw

/-- Row number of indices ix: dimension 1 fastest (R92). -/
def rowOf (ext : List Nat) (ix : List Nat) : Nat :=
  ix.getD 1 0 + ext.getD 1 1 * (ix.getD 2 0 + ext.getD 2 1 * ix.getD 3 0)

end Sys2Proof.Machine
end

