-- ==== Sys2Proof/Machine/Flags.lean ====
section
/-! DEFINITION. Sums, saturation flags, check tolerances and completion flags: how the arrays add, what sets a flag, and when two sides of a check agree (chapter 3). -/

namespace Sys2Proof.Machine

open Sys2Proof

/-! ### Format pairs and beats (Tables 3.3 and 3.4) -/

/-- The pair's path is floating (Table 3.3): floating operands, and CB4 weights. -/
def floatPair (a w : Fmt) : Bool := w == .cb4 || !(fmtIsInt a) || !(fmtIsInt w)

/-- The pairs of Table 3.3 (R79). -/
def pairOk (a w : Fmt) : Bool :=
  let a8i := a == .int8 || a == .uint8
  let f8 (x : Fmt) := x == .e4m3 || x == .e5m2
  let f16 (x : Fmt) := x == .fp16 || x == .bf16
  ((a8i || a == .int16) && (w == .int4 || w == .int8 || w == .int16))
    || ((a8i || f8 a || f16 a) && w == .cb4)
    || ((f8 a || f16 a) && (f8 w || f16 w))

/-- K per pass (Table 3.3). -/
def kPerPass (w : Fmt) : Nat := if w == .int4 || w == .cb4 then 64 else 32

/-- Beats per row (Table 3.3). -/
def beatsOf (a w : Fmt) : Nat :=
  let a2 := a == .int16 || a == .fp16 || a == .bf16
  let w2 := w == .int16 || w == .fp16 || w == .bf16
  if a == .int16 && w == .int16 then 4 else if a2 || w2 then 2 else 1

/-- Low byte unsigned and high byte signed of a 16-bit integer, the high part with its weight of 256. -/
def splitInt (v : Int) : List Int := [v % 256, v - v % 256]

/-- Significand bits of the head of a split floating operand (Table 3.4). -/
def headBits (f : Fmt) : Nat := if f == .fp16 then 6 else 4

/-- Head and tail of a floating value. -/
def splitVal (f : Fmt) (v : Val) : List Val := let h := headOf (headBits f) v; [h, vadd v (vneg h)]

/-- The parts of an activation, one for each activation half of Table 3.4. -/
def actParts (a w : Fmt) (v : Val) : List Val :=
  if floatPair a w then (if a == .fp16 || a == .bf16 then splitVal a v else [v])
  else match a, v with
    | .int16, .num m e => (splitInt (m * pow2 e)).map ofInt
    | .int16, v => [v, v]
    | _, v => [v]

/-- The parts of a weight. -/
def wgtParts (a w : Fmt) (v : Val) : List Val :=
  if floatPair a w then (if (a == .e4m3 || a == .e5m2) && (w == .fp16 || w == .bf16) then splitVal w v else [v])
  else match w, v with
    | .int16, .num m e => (splitInt (m * pow2 e)).map ofInt
    | .int16, v => [v, v]
    | _, v => [v]

/-! ### Column sums (R82 to R84) -/

/-- The exact integer that a value of the integer path is. -/
def intVal : Val → Int
  | .num m e => m * pow2 e
  | _ => 0

/-- Exact sum of products on the integer path (R82). -/
def intColumn (ps : List Val) : Int := ps.foldl (fun s p => s + intVal p) 0

/-- Largest floor of log2 of the magnitudes of a list (R83, R111); -1000 when every value is zero. -/
def magOf (ps : List Val) : Int :=
  ps.foldl (fun e p => match p with | .num m x => max e (ilog2 m + x) | _ => e) (-1000)

/-- One group stage of the floating path: align the products and the carry to F, truncate toward minus infinity at 2^(F-47), sum exactly (R83). -/
def groupStage (ps : List Val) (carry : Val) : Val :=
  let all := carry :: ps
  if all.any invalidVal then .nan
  else
    let f := magOf all
    if f = -1000 then .zero false
    else
      let q := f - 47
      mkVal (all.foldl (fun s p => match p with | .num m e => s + floorTo m e q | _ => s) 0) q

/-- Data row that the spare row of an array replaces, by its repair map byte (R55). -/
def spareRow (rep : BitVec 8) : Option Nat := if bit rep 7 then some (fld rep 0 5) else none

/-- K elements, counted in the pass, that each of the four row groups sums in full form, `per` to a physical row: the row that the spare replaces joins group 3 (R26, R55). -/
def groupKs (rep : BitVec 8) (per : Nat) : List (List Nat) :=
  (List.range 4).map fun g =>
    let rows := ((List.range 8).map (8 * g + ·)).filter fun r => spareRow rep != some r
    let rows := if g = 3 then rows ++ (spareRow rep).toList else rows
    rows.flatMap fun r => (List.range per).map (per * r + ·)

/-- K elements that each row group sums for a pair of formats: all 8 in the one group of a piccolo column (R44), else the four groups of full form, 16 in each for 4-bit weights (R83; log 23). -/
def sumGroups (piccolo : Bool) (rep : BitVec 8) (fw : Fmt) : List (List Nat) :=
  if piccolo then [List.range 8] else groupKs rep (kPerPass fw / 32)

/-- The products of a list by groups of their positions. -/
def byGroups (groups : List (List Nat)) (ps : List Val) : List (List Val) := groups.map fun g => g.map fun k => ps.getD k (.zero false)

/-- Column sum through the four row groups, then rounded to FP32: the contribution and its overflow mark (R83, R84). -/
def floatColumn (groups : List (List Val)) : Val × Bool :=
  r32f (groups.foldl (fun c g => groupStage g c) (.zero false))

/-- One contribution: an exact integer, or a floating column sum with its overflow mark. -/
structure Contrib where
  v : Val := .zero false
  ovf : Bool := false
  deriving DecidableEq, Repr

/-- Sum of a column's products: exact on the integer path, through the row groups on the floating path (R82 to R84). -/
def columnSum (float : Bool) (groups : List (List Nat)) (ps : List Val) : Contrib :=
  if float then let r := floatColumn (byGroups groups ps); { v := r.1, ovf := r.2 } else { v := ofInt (intColumn ps) }

/-- The beats of a row in one column: each activation part by each weight part, in the order of Table 3.4. -/
def beatSums (fa fw : Fmt) (groups : List (List Nat)) (avs wvs : List Val) : List Contrib :=
  let aps := avs.map (actParts fa fw)
  let wps := wvs.map (wgtParts fa fw)
  let na := (aps.headD [.zero false]).length
  let nw := (wps.headD [.zero false]).length
  (List.range na).flatMap fun i => (List.range nw).map fun j =>
    columnSum (floatPair fa fw) groups (List.zipWith (fun a w => vmul (a.getD i (.zero false)) (w.getD j (.zero false))) aps wps)

/-! ### PM adds (R85 to R87) -/

/-- Clamp an exact sum to INT32, with the saturation flag (R85). -/
def satInt (v : Int) : Int × Bool :=
  if v < -2147483648 then (-2147483648, true) else if 2147483647 < v then (2147483647, true) else (v, false)

/-- PM write of an integer contribution: in place clears the flag, an add keeps it; either sets it when the sum leaves INT32 (R85, R87). -/
def pmInt (e : PmEntry) (first : Bool) (c : Int) (poison : Bool) : PmEntry :=
  let (v, f) := satInt (if first then c else e.bits.toInt + c)
  { bits := BitVec.ofInt 32 v, sat := f || (!first && e.sat), poison := poison || (!first && e.poison) }

/-- PM write of a floating contribution (R86, R87). -/
def pmFloat (e : PmEntry) (first : Bool) (c : Val) (ovf : Bool) (poison : Bool) : PmEntry :=
  let (v, f) := if first then (c, false) else r32f (vadd (ofF32 e.bits) c)
  { bits := toF32 v, sat := f || ovf || invalidVal v || (!first && e.sat), poison := poison || (!first && e.poison) }

/-! ### Checks (R57 to R60, R64, R111) -/

/-- Distance of two values at most 2^k. -/
def within (a b : Val) (k : Int) : Bool :=
  let k := max k (-126)
  match vadd a (vneg b) with
  | .nan => true
  | .inf _ => false
  | .zero _ => true
  | .num m e => dyLe m.natAbs e 1 k

/-- Row check: exact equality on the integer path, τ = 2^(E-16) on the floating path (R57, Table 3.9). -/
def rowAgrees (float : Bool) (sumCols chk : Val) (e : Int) : Bool :=
  if float then invalidVal sumCols || invalidVal chk || within sumCols chk (e - 16) else sumCols == chk

/-- Column check: equality modulo 2^16 on the integer path, τ = 2^(E-1) on the floating path (R58, R59). -/
def colAgrees (float : Bool) (s o : Val) (e : Int) : Bool :=
  if float then invalidVal s || invalidVal o || within s o (e - 1) else (intVal s - intVal o) % 65536 == 0

/-- Drain check: equality on the integer path, τ = (B + 1) × 2^(E-16) on the floating path (R60, Table 3.9). -/
def drainAgrees (float : Bool) (s acc : Val) (e : Int) (b : Nat) : Bool :=
  if float then
    match vadd s (vneg acc) with
    | .nan => true
    | .inf _ => true
    | .zero _ => true
    | .num m x => dyLe m.natAbs x ((b : Int) + 1) (e - 16) || dyLe m.natAbs x 1 (-126)
  else (intVal s - intVal acc) % 2 ^ 48 == 0

/-! ### Shapes and routes (Tables 2.6, 5.10 and 6.3) -/

/-- N of the logical tile that SHAPE names (R201). -/
def shapeN (w : Line) : Nat := if rShape w = 0 then 32 else if rShape w = 1 then 64 else 128

/-- A: the arrays that receive rows of one M row sequence (R168). -/
def sharing (w : Line) (arrays : Nat) : Nat := if arrays = 3 then 3 else if rShape w = 0 then 4 else if rShape w = 1 then 2 else 1

/-- The instruction runs input-stationary (R41). -/
def inputStationary (w : Line) : Bool := rOpcode w = 0x01 && rStation w = 2

/-- The convolution routes of Table 6.3. -/
inductive Route where
  | dense | depthwise | packed | blocked
  deriving DecidableEq, Repr

/-- First route of Table 6.3 whose condition holds, for the formats, channels per group and GROUPS of a record. -/
def routeOf (w : Line) (fa fw : Fmt) (g cg ng : Nat) : Option Route :=
  let kd := kPerPass fw
  let f16 (f : Fmt) := f == .fp16 || f == .bf16
  if g = 1 then some .dense
  else if cg = 1 && decide (1 ≤ ng) && decide (ng ≤ 8) && (((fa == .int8 || fa == .uint8) && fw == .int8) || (f16 fa && f16 fw)) then some .depthwise
  else if decide (2 ≤ cg) && decide (cg ≤ kd / 2) && (2 ^ Nat.log2 cg == cg) && decide (kd / cg * ng ≤ shapeN w) && fw != .cb4 then some .packed
  else if cg * fmtBits fa / 8 % 32 = 0 && decide (0 < cg) then some .blocked
  else none

/-- Route of a convolution's record with its operands. -/
def routeFor (w : Line) (a wt : Desc) : Route :=
  let g := max 1 (rGroups w)
  (routeOf w (dFmt a) (dFmt wt) g (dExt a 0 / g) (dExt wt 0 / g)).getD .dense

/-- Widest segment of a convolution whose output is `wout` wide (R194, R211). -/
def segOf (w : Line) (wout : Nat) : Nat :=
  if rMchunk w ≠ 0 then rMchunk w else if rOpcode w = 0x09 then ceilDiv wout (rStrideW w) else wout

/-- PM entries per array of one work tile: P of Table 5.10 and R197, for declared M, N and output width. -/
def pmRowsOf (w : Line) (arrays m n wout : Nat) : Nat :=
  let sh := sharing w arrays
  if rOpcode w = 0x03 then 32
  else if rOpcode w = 0x02 then 2 * ceilDiv (rPassRows w) sh
  else if isConvOp (rOpcode w) then ceilDiv (segOf w wout) sh
  else if rStation w = 2 then ceilDiv n (if arrays = 3 then 3 else 4)
  else if rStation w = 1 then ceilDiv (if rMchunk w = 0 then m else rMchunk w) sh
  else ceilDiv m sh

/-! ### Completion flags and status (Table 8.5, R285) -/

/-- Bits [100:96] of a completion record, as a number of five bits. -/
def flagBits (sat clamped refold incomplete poisoned : Bool) : Nat :=
  b2n poisoned + 2 * b2n incomplete + 4 * b2n refold + 8 * b2n clamped + 16 * b2n sat

/-- Status of a retired record (R285): Cancelled, Poisoned, Incomplete, OK, the first that applies. -/
def statusOf (cancelled : Bool) (flags : Nat) : Nat :=
  if cancelled then 0x0801 else if flags % 2 = 1 then 0x0803 else if flags / 2 % 2 = 1 then 0x0802 else 0

end Sys2Proof.Machine
end

