-- ==== Sys2Proof/Machine/CpOps.lean ====
section
/-! DEFINITION. Operations of the command processor that its commands and the cores share: work-context entries, the context cache, completions, signals and length registers (chapter 8, R165, R177). -/

namespace Sys2Proof.Machine

open Sys2Proof

/-! ### Fields of a work-context entry (Table 8.1) -/

def wRingBase (c : Wc) (i : Nat) : Nat := fld c.ro (536 + 64 * i) 40
def wRingLog2 (c : Wc) (i : Nat) : Nat := fld c.ro (531 + 64 * i) 5
def wRingCore (c : Wc) (i : Nat) : Nat := fld c.ro (527 + 64 * i) 4
def wComplBase (c : Wc) : Nat := fld c.ro 280 40
def wComplLog2 (c : Wc) : Nat := fld c.ro 275 5
def wSignalBlock (c : Wc) : Nat := fld c.ro 216 40
def wLenBlock (c : Wc) : Nat := fld c.ro 152 40
def wDescTable (c : Wc) : Nat := fld c.ro 88 40
def wClass (c : Wc) : Nat := fld c.ro 50 2
def wCheckMode (c : Wc) : Nat := fld c.ro 48 2
def wCheckN (c : Wc) : Nat := fld c.ro 44 4
def wLoadWidth (c : Wc) : Nat := fld c.ro 40 4
def wRingEnable (c : Wc) (i : Nat) : Bool := bit c.ro (32 + i)
def wDescCount (c : Wc) : Nat := fld c.ro 0 12

/-- Replace the `w` bits of a number from bit `lo` by x. -/
def setFld (v lo w x : Nat) : Nat := v - (v / 2 ^ lo % 2 ^ w) * 2 ^ lo + x % 2 ^ w * 2 ^ lo

/-- The RW fields of an entry over other contents (R264). -/
def mergeRw (d : Dev) (w : Nat) (c : Wc) (v : Nat) : Nat :=
  let v := (List.range 8).foldl (fun v i => setFld v (1024 + 32 * i) 32 (ringOf d (8 * w + i)).head.toNat) v
  let v := setFld v 472 40 c.placement.toNat
  let v := setFld v 436 12 c.inflight
  let v := setFld v 416 16 c.resident.toNat
  let v := setFld v 384 32 c.retired.toNat
  let v := setFld v 352 32 c.complTail.toNat
  let v := setFld v 320 32 c.complHead.toNat
  let v := setFld v 60 4 c.state.toNat
  let v := setFld v 52 8 c.epoch.toNat
  setFld v 24 8 c.halted.toNat

/-- Address of entry w (R262). -/
def entryAddr (d : Dev) (w : Nat) : Nat := d.cp.ctxBase.toNat + 256 * w

/-- Write the RW fields of an entry through to DRAM (R264). -/
def writeThrough (d : Dev) (w : Nat) : Dev :=
  let c := wcOf d w
  let (d, bs, _) := memRead d (some agCp) srcCp (entryAddr d w) 256
  let d := memWrite d (some agCp) srcCp (entryAddr d w) (leBytes 256 (mergeRw d w c (leNat bs))) false
  updWc d w fun c => { c with dirty := false }

/-- Alignment of an address to a power of two. -/
def alignedTo (a n : Nat) : Bool := a % n == 0

/-- The checks of ENABLE (Table 8.4): the low bit number of the first failing field, in ascending bit order, or none. -/
def entryFault (c : Wc) : Option Nat :=
  let field (ok : Bool) (lo : Nat) : List Nat := if ok then [] else [lo]
  let rings := (List.range 8).flatMap fun i =>
    if wRingEnable c i then
      field (decide (4 ≤ wRingLog2 c i) && decide (wRingLog2 c i ≤ 16)) (531 + 64 * i)
        ++ field (alignedTo (wRingBase c i) (max 1024 (64 * 2 ^ min (wRingLog2 c i) 16))) (536 + 64 * i)
    else []
  (field (wCheckMode c != 3) 48
    ++ field (alignedTo (wDescTable c) 64) 88
    ++ field (alignedTo (wLenBlock c) 256) 152
    ++ field (alignedTo (wSignalBlock c) 256) 216
    ++ field (decide (4 ≤ wComplLog2 c) && decide (wComplLog2 c ≤ 16)) 275
    ++ field (alignedTo (wComplBase c) (32 * 2 ^ min (wComplLog2 c) 16)) 280
    ++ rings).head?

/-- Load the fields of an entry as a fill reads them. -/
def loadEntry (d : Dev) (w v : Nat) : Dev :=
  let d := updWc d w fun c => { c with
    cached := true, dirty := false
    ro := BitVec.ofNat 2048 v
    state := BitVec.ofNat 4 (v / 2 ^ 60), epoch := BitVec.ofNat 8 (v / 2 ^ 52), halted := BitVec.ofNat 8 (v / 2 ^ 24)
    placement := BitVec.ofNat 40 (v / 2 ^ 472), inflight := v / 2 ^ 436 % 4096, resident := BitVec.ofNat 16 (v / 2 ^ 416)
    retired := BitVec.ofNat 32 (v / 2 ^ 384), complTail := BitVec.ofNat 32 (v / 2 ^ 352), complHead := BitVec.ofNat 32 (v / 2 ^ 320) }
  (List.range 8).foldl (fun d i => updRing d (8 * w + i) fun r => { r with head := BitVec.ofNat 32 (v / 2 ^ (1024 + 32 * i)) }) d

/-- Set STATE Faulted and post event 0x0824 (R269). -/
def faultWc (d : Dev) (w cause : Nat) : Dev :=
  let d := updWc d w fun c => { c with cached := true, state := 3#4, dirty := true }
  postEventWc d 0x0824 1 srcCp w cause

/-- Read a 256 B entry into the context cache (R271): a poisoned read, or a failing check of an entry that is not Disabled, makes the work context Faulted (R269). -/
def fillEntry (d : Dev) (w : Nat) : Dev :=
  let (d, bs, p) := memRead d (some agCp) srcCp (entryAddr d w) 256
  let d := bump d 0x2602 4 4 1
  if p then faultWc d w 1
  else
    let d := loadEntry d w (leNat bs)
    if (wcOf d w).state ≠ 0#4 && (entryFault (wcOf d w)).isSome then faultWc d w 2 else d

/-- Whether an entry may be evicted (R272). -/
def evictable (d : Dev) (w : Nat) (c : Wc) : Bool :=
  c.cached && (c.state == 0#4 || c.state == 3#4 || c.inflight == 0) && c.resident == 0#16
    && (List.range 8).all fun i => (ringOf d (8 * w + i)).tail == (ringOf d (8 * w + i)).head

/-- The least recently used evictable entry (R272). -/
def evictChoice (d : Dev) : Option Nat :=
  (d.cp.wcs.foldl (fun b e => if evictable d e.1 e.2 then (match b with
    | some (w, u) => if e.2.lastUse < u then some (e.1, e.2.lastUse) else some (w, u)
    | none => some (e.1, e.2.lastUse)) else b) (none : Option (Nat × Nat))).map (·.1)

/-- Entries in the context cache. -/
def cachedCount (d : Dev) : Nat := (d.cp.wcs.filter fun e => e.2.cached).length

/-- Make room in a full cache by evicting, with write-back; false when nothing can be evicted (R272). -/
def makeRoom (d : Dev) : Dev × Bool :=
  if cachedCount d < 3072 then (d, true)
  else match evictChoice d with
    | some v => (updWc (writeThrough d v) v fun c => { c with cached := false }, true)
    | none => (bump d 0x2602 5 4 1, false)

/-- Note a use of entry w, for the eviction order. -/
def touchWc (d : Dev) (w : Nat) : Dev :=
  let t := d.cp.useClock + 1
  updWc (updCp d fun c => { c with useClock := t }) w fun c => { c with lastUse := t }

/-- Bring entry w into the context cache if it is not there; false while it must wait (R271, R272). -/
def ensureCached (d : Dev) (w : Nat) : Dev × Bool :=
  if (wcOf d w).cached then (touchWc d w, true)
  else
    let (d, ok) := makeRoom d
    if ok then (touchWc (fillEntry d w) w, true) else (d, false)

/-! ### Completions (R283 to R287) -/

/-- Free completion slots beyond those reserved (R278). -/
def freeSlots (c : Wc) : Nat := 2 ^ wComplLog2 c - (c.complTail - c.complHead).toNat - c.reserved

/-- The 32 B completion record (Table 8.5). -/
def completionBytes (seq : W32) (tag opcode epoch kind ring status detail flags pos breath time : Nat) : List Byte :=
  leBytes 32 (pack [(224, 32, seq.toNat), (208, 16, tag), (200, 8, opcode), (192, 8, epoch), (188, 4, kind), (185, 3, ring),
    (160, 16, status), (128, 32, detail), (96, 5, flags), (64, 32, pos), (32, 32, breath), (0, 32, time)])

/-- Write a completion record of work context w, take its SEQ, and raise the class's interrupt (R283, R450). -/
def writeCompletion (d : Dev) (w tag opcode epoch kind ring status detail flags pos : Nat) : Dev :=
  let c := wcOf d w
  let a := wComplBase c + c.complTail.toNat % 2 ^ wComplLog2 c * 32
  let d := memWrite d (some agCp) srcCp a
    (completionBytes c.complTail tag opcode epoch kind ring status detail flags pos d.breath.number d.breath.ns) false
  let d := updWc d w fun c => { c with complTail := c.complTail + 1, dirty := true }
  raiseIrq d (2 + wClass c)

/-- Completion of a command (Table 8.5: TAG 0, OPCODE its OP, RING and RING_POS 0). -/
def commandDone (d : Dev) (w op kind status detail : Nat) : Dev :=
  writeCompletion d w 0 op (wcOf d w).epoch.toNat kind 0 status detail 0 0

/-- A completion starts the fill of an entry that is not cached (R271). -/
def fillForCompletion (d : Dev) (w : Nat) : Dev := if (wcOf d w).cached then d else (ensureCached d w).1

/-- Completion of a record, when it has COMPLETE set or was refused; event 0x0826 when EVENT_ON_ERROR asks for it, its SEQ zero where no completion record is written (R285; log 197). -/
def recordDone (d : Dev) (w : Nat) (word : Line) (epoch ring : Nat) (pos : W32) (status detail flags : Nat) : Dev :=
  let d := fillForCompletion d w
  let seq := (wcOf d w).complTail.toNat
  let written := rComplete word || (0x0501 ≤ status && status ≤ 0x050F)
  let d := if written then writeCompletion d w (rTag word) (rOpcode word) epoch 0 ring status detail flags pos.toNat else d
  if rEventOnError word && status != 0 then postEventWc d 0x0826 1 srcCp w ((if written then seq else 0) + status * 2 ^ 32) else d

/-- Take back the completion slot that a fetched record reserved (R278). -/
def releaseSlot (d : Dev) (w : Nat) : Dev := updWc d w fun c => { c with reserved := c.reserved - 1 }

/-! ### Signals and length registers -/

/-- Signal counter i of work context w (R165). -/
def signalOf (c : Wc) (i : Nat) : W32 := sget (fun _ => 0#32) c.signals i

/-- Write a signal counter, and the word of the signal block that mirrors it (R165, R262; log 20). -/
def setSignal (d : Dev) (w i : Nat) (v : W32) : Dev :=
  let d := updWc d w fun c => { c with signals := sset (fun _ => 0#32) c.signals i v }
  memWrite d (some agCp) srcCp (wSignalBlock (wcOf d w) + 4 * i) (leBytes 4 v.toNat) false

/-- Add to a signal counter. -/
def addSignal (d : Dev) (w i : Nat) (v : W32) : Dev := setSignal d w i (signalOf (wcOf d w) i + v)

/-- Length-register set of work context w on a core (R174). -/
def lenSet (c : Core) (w : Nat) : Option Nat := (c.resident.find? fun r => r.1 == w).map (·.2.1)

/-- Address of a core's copy of length register r in set s (Table 4.2). -/
def lenAddr (n s r : Nat) : Nat := dsBase n + 0xE000 + s * 256 + 4 * r

/-- Length register r of work context w as core n holds it; the MPE (16) takes the master copy (R177; log 31), zero where its region does not grant it (R464). -/
def lenReg (d : Dev) (n w r : Nat) : Nat :=
  if n = 16 then (let a := wLenBlock (wcOf d w) + 4 * r; if spanGranted d agMpe false a 4 then leNat (decBytes d.mem (encSetting d a) a 4) else 0)
  else match lenSet (coreOf d n) w with
  | some s => leNat (peeks d.mem (lenAddr n s r) 4)
  | none => 0

/-- A write of at most 32 B within a word of a core's descriptor store, at offset `off` of it (R118): a full one takes the data's poison, a partial one keeps poison (R127, R130). -/
def dsPut (d : Dev) (n off : Nat) (bs : List Byte) (p : Bool) : Dev :=
  let a := dsBase n + off
  let full := bs.length = 32 ∧ off % 32 = 0
  let d := if full then d else coreMemRead d n 3 (off / 32) 0
  let old := isPoison d.mem a
  updMem (wordWritten (updMem d fun m => pokes m a bs) n 3 (off / 32)) fun m => setPoison m a (if full then p else old || p)

/-- Write a length register: the master copy, then the copy on every core where the work context is resident (R177). -/
def setLen (d : Dev) (w r : Nat) (v : W32) : Dev :=
  let d := memWrite d (some agCp) srcCp (wLenBlock (wcOf d w) + 4 * r) (leBytes 4 v.toNat) false
  (List.range 16).foldl (fun d n => match lenSet (coreOf d n) w with
    | some s => dsPut d n (0xE000 + s * 256 + 4 * r) (leBytes 4 v.toNat) false
    | none => d) d

/-! ### Event records -/

/-- The 16 B event record (Table 8.8). -/
def eventBytes (r : EvtRec) (seq : BitVec 24) : List Byte :=
  leBytes 16 (pack [(112, 16, r.code), (110, 2, r.cls), (109, 1, b2n r.wc.isSome), (96, 12, r.wc.getD 0), (88, 8, r.source), (64, 24, seq.toNat), (0, 64, r.payload)])

/-! ### Bitmaps of the tile counters (R179, R182) -/

/-- Start of counter k's bitmap in its hub's SB slice (Table 5.11); bit t % 8 of byte t / 8 is tile t's (log 60). -/
def bitmapBase (k : Nat) (t : TileCtr) : Nat := sbBase + k / 64 * 0x200000 + t.bitmap * 64

/-- A hub clears a granule of its slice: a full write. -/
def hubClear (d : Dev) (a : Nat) : Dev :=
  updMem d fun m =>
    let m := { m with latent := sset (fun _ => 0) (sset (fun _ => 0) m.latent (a / 32) 0) (a / 32 + 1) 0 }
    setPoison (setPoison (pokes m a (List.replicate 64 0#8)) a false) (a + 32) false

/-- A hub tests and sets the bit of tile t of counter k (R182): the bit as it stood. -/
def testAndSet (d : Dev) (k t : Nat) : Dev × Bool :=
  let a := bitmapBase k (ctrOf d k) + t / 8
  let d := sbCorrect d a
  let b := peek d.mem a
  (updMem d fun m => pokes m a [b ||| BitVec.ofNat 8 (2 ^ (t % 8))], bit b (t % 8))

/-! ### Work in flight -/

/-- A record of one of a work context's stage rings is in flight. -/
def stageInflight (d : Dev) (w : Nat) : Bool :=
  let rs := (wcOf d w).stages.map (·.ring)
  d.cores.any (fun c => c.2.ops.any fun o => o.wc == w && rs.contains o.ring)
    || d.mpe.recs.any fun m => m.op.wc == w && rs.contains m.op.ring

/-- Free a counter that a placement held. -/
def freeCounter (d : Dev) (k : Nat) : Dev :=
  let d := setCtr d k { ctrOf d k with state := 0, members := 0, bound := false }
  setCnt d (0x2270 + k / 64) 4 (cnt d (0x2270 + k / 64) 4 - 1)

/-- Records fetched and not dispatched go back to their ring. -/
def unfetch (d : Dev) (r : Nat) : Dev :=
  let k := ((ringOf d r).ready.map (·.length)).sum - (ringOf d r).part + (match (ringOf d r).refused with | some x => x.1 | none => 0)
  updWc (updRing d r fun x => { x with ready := [], part := 0, refused := none, pre := 0 }) (r / 8) fun c => { c with reserved := c.reserved - k }

/-- A unit of a stage ring is dispatched in part (R179). -/
def stagePart (d : Dev) (w : Nat) : Bool := (wcOf d w).stages.any fun s => (ringOf d (8 * w + s.ring)).part != 0

/-- A pending RELEASE ends once no record of the stage rings is in flight and its completion has a slot (Table 8.4). -/
def releaseSettle (d : Dev) (w : Nat) : Dev :=
  if (wcOf d w).releasePending && !stageInflight d w && !stagePart d w && freeSlots (wcOf d w) != 0 then
    let d := (wcOf d w).groups.foldl (fun d g => freeCounter d g.2) d
    let d := ((wcOf d w).stages.map (·.ring)).foldl (fun d i => unfetch d (8 * w + i)) d
    let d := updWc d w fun c => { c with placement := 0#40, stages := [], groups := [], winModes := [], releasePending := false, dirty := true }
    commandDone d w 5 2 0 0
  else d

/-- Work contexts with a record in flight. -/
def anyInflight (d : Dev) : Bool := d.cp.wcs.any fun e => e.2.inflight != 0

/-- The CP writes the compute pool's ACTUAL Stopped once no record is in flight (R270). -/
def poolSettle (d : Dev) : Dev :=
  if actual d 0 == 3 && requested d 0 == 0 && !anyInflight d then setCnt d 0x1100 3 0 else d

/-- Whether the compute pool lets the CP dispatch (R270). -/
def poolRuns (d : Dev) : Bool := actual d 0 == 2 && requested d 0 == 2

end Sys2Proof.Machine
end

