-- ==== Sys2Proof/Machine/Sequencer.lean ====
section
/-! DEFINITION. The tile sequencer's shared operations: windows and credits, scoreboard and issue, and retirement (chapters 4, 5 and 7). -/

namespace Sys2Proof.Machine

open Sys2Proof

/-! ### Channels and their receivers (Tables 7.1 and 7.2) -/

def chPhysBase (c : Chan) : Nat := fld c.rw 216 40
def chPhysUnits (c : Chan) : Nat := fld c.rw 192 24 + 1
def chStall (c : Chan) : Nat := fld c.rw 176 16
def chWc (c : Chan) : Nat := fld c.rw 164 12
def chProdKind (c : Chan) : Nat := fld c.rw 162 2
def chProducer (c : Chan) : Nat := fld c.rw 150 12
def chRecv (c : Chan) (r : Nat) : BitVec 32 := BitVec.ofNat 32 (fld c.rw (32 * r) 32)
def rvValid (w : BitVec 32) : Bool := bit w 31
def rvKind (w : BitVec 32) : Nat := fld w 28 3
def rvCore (w : BitVec 32) : Nat := fld w 24 4
def rvWindow (w : BitVec 32) : Nat := fld w 19 5
/-- Node of a window receiver: the core, or 16 for the MPE. -/
def rvNode (w : BitVec 32) : Nat := if rvKind w = 2 then 16 else rvCore w
/-- Receiver r is a window. -/
def isWinRecv (c : Chan) (r : Nat) : Bool := let w := chRecv c r; rvValid w && (rvKind w == 1 || rvKind w == 2)
/-- Receiver r is the PHYS buffer. -/
def isPhysRecv (c : Chan) (r : Nat) : Bool := let w := chRecv c r; rvValid w && rvKind w == 3
/-- A descriptor is invalid when a receiver in use has a reserved KIND or a WINDOW out of range (R224). -/
def chanInvalid (c : Chan) : Bool := (List.range 4).any fun r =>
  let w := chRecv c r
  rvValid w && (rvKind w == 0 || 3 < rvKind w || (rvKind w == 1 && 19 < rvWindow w) || (rvKind w == 2 && 7 < rvWindow w))
/-- Receiver of a channel that is window i of a node. -/
def recvOf (c : Chan) (node i : Nat) : Option Nat :=
  (List.range 4).find? fun r => isWinRecv c r && rvNode (chRecv c r) == node && rvWindow (chRecv c r) == i
/-- Credits the channel holds for receiver r. -/
def chCredit (c : Chan) (r : Nat) : Nat := sget (fun _ => 0) c.credit r
def chOwed (c : Chan) (r : Nat) : Nat := sget (fun _ => 0) c.owed r
def setCredit (c : Chan) (r v : Nat) : Chan := { c with credit := sset (fun _ => 0) c.credit r v }
def setOwed (c : Chan) (r v : Nat) : Chan := { c with owed := sset (fun _ => 0) c.owed r v }

/-! ### Windows of the cores (node 0 to 15), of the MPE (node 16) and of the image contexts' back ends (node 17 + context) -/

/-- Window i of a node. -/
def winAt (d : Dev) (node i : Nat) : Win :=
  if node < 16 then win (coreOf d node) i else if node = 16 then sget (fun _ => {}) d.mpe.wins i else (ic d (node - 17)).beWin
/-- Write window i of a node. -/
def setWinAt (d : Dev) (node i : Nat) (w : Win) : Dev :=
  if node < 16 then updCore d node fun c => setWin c i w
  else if node = 16 then { d with mpe := { d.mpe with wins := sset (fun _ => {}) d.mpe.wins i w } }
  else updIc d (node - 17) fun x => { x with beWin := w }

/-- Event source of the unit that holds a window. -/
def nodeSource (node : Nat) : Nat := if node < 16 then node else if node = 16 then srcMpe else srcIpl

/-- Write bytes with their poison into a table of bytes, from key `k` on. -/
def putMarked (t : Sparse (Byte × Bool)) (k : Nat) : List (Byte × Bool) → Sparse (Byte × Bool)
  | [] => t
  | b :: bs => putMarked (sset (fun _ => (0#8, false)) t k b) (k + 1) bs

/-- Event and count for a granule discarded as stale or as a violation (R147). -/
def discardGranule (d : Dev) (node : Nat) (stale : Bool) (addr : Nat) (writer : BitVec 16) : Dev :=
  if stale then (if node < 16 then bump d (0x2250 + node) 9 4 1 else d)
  else
    let d := if node < 16 then bump d (0x2250 + node) 8 4 1 else d
    postEvent d 0x0403 0 (nodeSource node) (addr % 2 ^ 40 + writer.toNat * 2 ^ 40)

/-- Discard the granules of a unit, the first at `addr`, one by one (R147). -/
def discardUnit (d : Dev) (node : Nat) (stale : Bool) (addr : Nat) (writer : BitVec 16) (granules : Nat) : Dev :=
  (List.range granules).foldl (fun d g => discardGranule d node stale (addr + 64 * g) writer) d

/-- A window closed: a block window frees every unit at close (R148, R151). -/
def shutWin (w : Win) : Win :=
  if w.block then { w with state := 0, free := w.fill, freed := w.freed + (w.fill - w.free).toNat, hollow := [] } else { w with state := 0 }

/-- Units of a closing window reach the declared count: it becomes closed (R151). -/
def closeIfDone (w : Win) : Win :=
  match w.declared with
  | some k => if w.state = 2 ∧ w.fill.toNat = mod12 k then shutWin w else w
  | none => w

/-- Unit u lies from FILL to GRANTED - 1, modulo 4,096 (R146). -/
def unitGranted (w : Win) (u : Nat) : Bool := decide (mod12 (u + 4096 - w.fill.toNat) < (w.granted - w.fill).toNat)

/-- Window data as it lands: bytes that an instruction has spoilt stay undefined (R560). -/
def landedBytes (w : Win) (k off : Nat) (bs : List (Byte × Bool)) : List (Byte × Bool) :=
  if w.spoilt.isEmpty then bs
  else (withPos bs).map fun b => if w.spoilt.contains (off + b.1) then (Config.undefByte k (off + b.1), b.2.2) else b.2

/-- Offset at which byte b of the writer's unit u, a number modulo 4,096, lies in a window: at its full number since the open (R144, R161). -/
def landOffset (w : Win) (u b : Nat) : Nat := winOffset w (trueUnit w (mod12 u) 0) b

/-- Write data bytes at byte b of unit u of a node's window. -/
def landData (d : Dev) (node i : Nat) (u b : Nat) (bs : List (Byte × Bool)) : Dev :=
  let w := winAt d node i
  if node < 16 then
    let off := landOffset w u b
    let (k, d) := if w.spoilt.isEmpty then (0, d) else drawFree d
    coreStore d node noWriter w.wm (bs.length / 32 + 2) off (landedBytes w k off bs)
  else
    let k := landOffset { w with base := 0 } u b
    if node = 16 then { d with mpe := { d.mpe with buf := putMarked d.mpe.buf (i * 2 ^ 20 + k) bs } }
    else updIc d (node - 17) fun x => { x with beBuf := putMarked x.beBuf k bs }

/-- A unit lands: FILL increases, the hollow bit is kept, a closing window may close (R146, R235, R151). -/
def landUnit (d : Dev) (node i u : Nat) (hollow : Bool) : Dev :=
  let w := winAt d node i
  setWinAt d node i (closeIfDone { w with fill := w.fill + 1, hollow := if hollow then w.hollow ++ [mod12 u] else w.hollow })

/-- An MTHIN has issued on a core and has not retired: window writes into WM wait (R120). -/
def mthinRuns (c : Core) : Bool := c.ops.any fun o => o.issued && rOpcode o.word == 0x03

/-- Data of a window are written, and its unit lands with the last of them. -/
def landNow (d : Dev) (node i u b : Nat) (bs : List (Byte × Bool)) (last hollow : Bool) : Dev :=
  let d := if hollow || bs.isEmpty then d else landData d node i u b bs
  if last || hollow then landUnit d node i u hollow else d

/-- Data that have passed R146 land, or wait in the WM landing buffer while an MTHIN runs (R120). -/
def landPart (d : Dev) (node i u b : Nat) (bs : List (Byte × Bool)) (last hollow : Bool) : Dev :=
  if node < 16 && (winAt d node i).wm && mthinRuns (coreOf d node) then
    updCore d node fun c => { c with wmHeld := c.wmHeld ++ [{ win := i, unit := u, off := b, data := bs, last := last, hollow := hollow }] }
  else landNow d node i u b bs last hollow

/-- The WM landing buffer's data land once no MTHIN runs; those of a window revoked or closed meanwhile are discarded (R120, R147). -/
def landHeld (d : Dev) (n : Nat) : Dev :=
  if mthinRuns (coreOf d n) then d
  else
    let held := (coreOf d n).wmHeld
    held.foldl (fun d h =>
      let w := win (coreOf d n) h.win
      if w.state = 1 ∨ w.state = 2 then landNow d n h.win h.unit h.off h.data h.last h.hollow
      else discardGranule d n true (coreAddr n w.wm (landOffset w h.unit h.off)) w.writer)
      (updCore d n fun c => { c with wmHeld := [] })

/-- Units of window i of core n that have passed R146 and wait in the WM landing buffer. -/
def unitsHeld (c : Core) (i : Nat) : Nat := (c.wmHeld.filter fun h => h.win == i && (h.last || h.hollow)).length

/-- The window as the check of R146 sees it: units in the landing buffer are past FILL. -/
def winChecked (d : Dev) (node i : Nat) : Win :=
  let w := winAt d node i
  if node < 16 then { w with fill := w.fill + BitVec.ofNat 12 (unitsHeld (coreOf d node) i) } else w

/-- Return n credits to the writer of a window (R145, R149). -/
def giveCredits (d : Dev) (node i : Nat) (writer : BitVec 16) (n : Nat) : Dev :=
  if writer.toNat / 4096 = 2 then
    let c := chan d (writer.toNat % 4096)
    match recvOf c node i with
    | some r => setChan d (writer.toNat % 4096) (setCredit c r ((chCredit c r + n) % 4096))
    | none => d
  else d

/-- Granules that `n` bytes occupy; a hollow unit is one (R233). -/
def unitGranules (hollow : Bool) (n : Nat) : Nat := if hollow then 1 else max 1 ((n + 63) / 64)

/-- A disabled core's router takes a unit: granules counted, one credit returned (R498). -/
def sinkUnit (d : Dev) (node i : Nat) (writer : BitVec 16) (granules : Nat) : Dev :=
  giveCredits (bump d (0x2300 + node) 6 8 granules) node i writer 1

/-- Deliver a whole unit into a window, under the checks of R146 and R147. -/
def deliverUnit (d : Dev) (node i : Nat) (writer : BitVec 16) (epoch : BitVec 8) (u : Nat) (bs : List (Byte × Bool)) (hollow : Bool) : Dev :=
  let w := winChecked d node i
  let off := landOffset w u 0
  let addr := if node < 16 then coreAddr node w.wm off else off
  let gs := unitGranules hollow bs.length
  if node < 16 && (coreOf d node).disabled then sinkUnit d node i writer gs
  else if w.state = 3 ∨ ((w.state = 1 ∨ w.state = 2) ∧ w.epoch ≠ epoch) then discardUnit d node true addr writer gs
  else if (w.state = 1 ∨ w.state = 2) ∧ w.writer = writer ∧ unitGranted w u = true then landPart d node i u 0 bs true hollow
  else discardUnit d node false addr writer gs

/-- Open window i on a node and send SIZE + 1 credits to its writer (R145). -/
def openWindow (d : Dev) (node i : Nat) (wm block : Bool) (size base : Nat) (writer : BitVec 16) (wc : Nat) (epoch : BitVec 8) : Dev :=
  let d := setWinAt d node i { state := 1, wm := wm, block := block, epoch := epoch, wc := wc, writer := writer,
                               granted := BitVec.ofNat 12 (size + 1), size := size, base := base }
  if writer.toNat / 4096 = 2 then
    let k := writer.toNat % 4096
    match recvOf (chan d k) node i with
    | some r =>
      let c := chan d k
      setChan d k { setCredit c r (mod12 (size + 1)) with unitNo := sset (fun _ => 0) c.unitNo r 0 }
    | none => d
  else d

/-- Whether the writer holds a credit for the window's next unit: a closing window takes the units already granted (R145, R151). -/
def hasCredit (w : Win) (writer : BitVec 16) (epoch : BitVec 8) : Bool :=
  (w.state == 1 || w.state == 2) && w.writer == writer && w.epoch == epoch && w.granted != w.fill

/-- Send what can be sent of a core's outbox: each unit in order, none past a unit of the same window that lacks a credit (R145, R249). -/
def pumpList (d : Dev) (n : Nat) : List OutUnit → List (Nat × Nat) → Dev × List OutUnit
  | [], _ => (d, [])
  | o :: t, held =>
    let wr := BitVec.ofNat 16 (0x1000 + n)
    if held.contains (o.core, o.win) then let (d, r) := pumpList d n t held; (d, o :: r)
    else if (coreOf d o.core).disabled || hasCredit (winChecked d o.core o.win) wr o.epoch then
      pumpList (deliverUnit d o.core o.win wr o.epoch o.unit o.data o.hollow) n t held
    else let (d, r) := pumpList d n t ((o.core, o.win) :: held); (d, o :: r)

/-- Send what can be sent of core n's outbox. -/
def pump (d : Dev) (n : Nat) : Dev :=
  let (d, rest) := pumpList d n (coreOf d n).outbox []
  updCore d n fun c => { c with outbox := rest }

/-! ### What an instruction names -/

/-- Descriptors a record names: sources, then outputs (Tables 5.5, 5.6, 5.8). -/
def recSources (w : Line) : List Nat :=
  let o := rOpcode w
  if isMatrixOp o || o = 0x0A then [rDescA w, rDescW w]
  else if o = 0x10 then (if rFunc w = 0x30 then [rDescA w] else [rDescA w, rDescW w]).filter (· ≠ 0xFFF)
  else if o = 0x11 || o = 0x12 then [rDescA w]
  else if o = 0x18 || o = 0x19 then [rDescSrc w]
  else if o = 0x1A && rXop w = 0 then [rDescSrc w]
  else []

/-- Outputs of a record. -/
def recOutputs (w : Line) : List Nat :=
  let o := rOpcode w
  if isMatrixOp o || o = 0x0A then [rDescO w].filter (· ≠ 0xFFF)
  else if o = 0x10 then (if rFunc w = 0x30 then [rDescO w, rDescW w] else [rDescO w])
  else if o = 0x11 || o = 0x12 then [rDescO w]
  else if o = 0x18 || o = 0x19 then [rDescDst w]
  else []

/-- Descriptors a record names in all; RECV_OPEN and OPEN_AGENT name the tensor of their window (R554). -/
def recDescs (w : Line) : List Nat :=
  recSources w ++ recOutputs w ++ (if rOpcode w = 0x1A && (rXop w = 1 || rXop w = 4) then [rDescDst w] else [])

/-- Actual lengths of descriptor t on core n for work context wc, and whether a register was clamped (R175, R176). -/
def actualExt (d : Dev) (n wc : Nat) (t : Desc) : List Nat × Bool :=
  (List.range 4).foldl (fun (r : List Nat × Bool) k =>
    let l := t.len.getD k 0
    if 64 ≤ l then
      let v := lenReg d n wc (l % 64)
      (r.1 ++ [min v (dExt t k)], r.2 || decide (dExt t k < v))
    else (r.1 ++ [dExt t k], r.2)) ([], false)

/-- Length registers a record's descriptors name. -/
def lensNamed (o : Op) : List Nat :=
  o.descs.flatMap fun x => ((descOf x.2.2).len.filter (64 ≤ ·)).map (· % 64)

/-- Length register an instruction will write at retirement (R177, R178). -/
def lenWritten (o : Op) : Option Nat :=
  if rOpcode o.word = 0x24 then some (rIndex o.word)
  else if rOpcode o.word = 0x10 && 128 ≤ rLenOut o.word then some (rLenOut o.word % 64) else none

/-- Range of `n` bytes at offset `a` of WM or AM, as the space of a tensor names it. -/
def spaceRange (t : Desc) (a n : Nat) : List Range :=
  if (t.space = 1 ∨ t.space = 2) ∧ n ≠ 0 then [{ mem := if t.space = 2 then 0 else 1, lo := a / 32, hi := (a + n - 1) / 32 }] else []

/-- Range of a tensor's exponent plane (R92). -/
def expRange (t : Desc) : List Range := if t.expMode ≠ 0 ∧ t.aux0 ≠ 0 then spaceRange t t.aux0 (tensorRows t) else []

/-- Ranges that a source is read from: main data, exponent plane in modes 1 and 3, side plane; of a weight tensor of `n` channels the scale tensor and the codebooks too (R139). -/
def sourceRanges (t : Desc) (weights : Option Nat) : List Range :=
  spaceRange t t.base (tensorBytes t) ++ (match weights with
    | some n => spaceRange t t.aux0 (scaleBytes t n) ++ spaceRange t t.aux1 (bookBytes t n)
    | none => (if t.expMode = 2 then [] else expRange t) ++ (if t.outlierCount ≠ 0 ∧ t.aux1 ≠ 0 then spaceRange t t.aux1 (128 * tensorRows t) else []))

/-- Ranges that an output is written to: main data, exponent plane in modes 2 and 3, side plane (R139, R557). -/
def outputRanges (t : Desc) : List Range :=
  spaceRange t t.base (tensorBytes t) ++ (if t.expMode = 1 then [] else expRange t)
    ++ (if t.outlierCount ≠ 0 ∧ t.aux1 ≠ 0 then spaceRange t t.aux1 (128 * tensorRows t) else [])

/-- Two ranges of one memory overlap. -/
def rangesMeet (a b : Range) : Bool := a.mem == b.mem && decide (a.lo ≤ b.hi) && decide (b.lo ≤ a.hi)

/-- Distance between two ranges of the same memory. -/
def rangeGap (a b : Range) : Nat := if a.hi < b.lo then b.lo - a.hi else if b.hi < a.lo then a.lo - b.hi else 0

/-- The closest pair of ranges of the same memory and kind: their positions; of equally close pairs the first (log 179). -/
def closestPair (l : List (Bool × Range)) : Option (Nat × Nat) :=
  let idx := List.range l.length
  let cand := idx.flatMap fun i => (idx.filter (i < ·)).filterMap fun j =>
    let a := l.getD i (false, {})
    let b := l.getD j (false, {})
    if a.1 = b.1 ∧ a.2.mem = b.2.mem then some (rangeGap a.2 b.2, i, j) else none
  (cand.foldl (fun b x => match b with | some y => if x.1 < y.1 then some x else some y | none => some x) (none : Option (Nat × Nat × Nat))).map (·.2)

/-- Merge the two closest ranges of the same memory and kind until four remain (R139); `k` bounds the merges. -/
def mergeRanges : Nat → List (Bool × Range) → List (Bool × Range)
  | 0, l => l
  | k + 1, l =>
    if l.length ≤ 4 then l
    else match closestPair l with
      | none => l
      | some (i, j) =>
        let a := l.getD i (false, {})
        let b := l.getD j (false, {})
        mergeRanges k (removeAt (removeAt l j) i ++ [(a.1, { mem := a.2.mem, lo := min a.2.lo b.2.lo, hi := max a.2.hi b.2.hi })])

/-- Route of an instruction that is a convolution on the VU (R204). -/
def isDepthwise (o : Op) : Bool :=
  isConvOp (rOpcode o.word) && routeFor o.word (opDesc o (rDescA o.word)) (opDesc o (rDescW o.word)) == .depthwise

/-- PM entries per array of one work tile of an instruction (Table 5.10), for the arrays it was dispatched on. -/
def opPmRows (o : Op) : Nat :=
  let w := o.word
  pmRowsOf w o.arrays (dExt (opDesc o (rDescA w)) (if rTransA w then 0 else 1)) (dExt (opDesc o (rDescW w)) (if rTransW w then 1 else 0))
    (dExt (opDesc o (rDescO w)) 1)

/-- PM entries of the matrix instruction's region or regions (R168, Table 5.10); the depthwise route has none (R204). -/
def pmSpan (o : Op) : List Range :=
  let w := o.word
  if isMatrixOp (rOpcode w) && !isDepthwise o then
    let p := if rPmDouble w && rOpcode w ≠ 0x02 then 2 * opPmRows o else opPmRows o
    [{ mem := 2, lo := rPmBase w, hi := min 1023 (rPmBase w + p - 1) }]
  else []

/-- Output channels of an instruction's weight tensor, where source i is one. -/
def weightChannels (o : Op) (i : Nat) : Option Nat :=
  if isMatrixOp (rOpcode o.word) && i == rDescW o.word then
    some (dExt (opDesc o i) (if !isConvOp (rOpcode o.word) && rTransW o.word then 1 else 0))
  else none

/-- The ranges an instruction reads, each in full. -/
def readRanges (o : Op) : List Range :=
  (recSources o.word).flatMap (fun i => sourceRanges (opDesc o i) (weightChannels o i))
    ++ (recOutputs o.word).flatMap fun i => if (opDesc o i).expMode = 1 then expRange (opDesc o i) else []

/-- Source and destination ranges of an instruction as the scoreboard records them, at most four in all (R139). -/
def opRanges (o : Op) : List Range × List Range :=
  let l := (readRanges o).map (fun r => (false, r)) ++ ((recOutputs o.word).flatMap (fun i => outputRanges (opDesc o i)) ++ pmSpan o).map fun r => (true, r)
  let l := mergeRanges l.length l
  ((l.filter fun x => !x.1).map (·.2), (l.filter (·.1)).map (·.2))

/-- Units of window data that a tensor's main data and planes take (R161), for a weight tensor its scales and codebooks (log 176). -/
def tensorUnits (t : Desc) (weights : Option Nat) : Nat :=
  (tensorBytes t + 511) / 512 + (match weights with
    | some n => (scaleBytes t n + 511) / 512 + (bookBytes t n + 511) / 512
    | none => (if t.expMode = 0 then 0 else (tensorRows t + 511) / 512) + (if t.outlierCount = 0 then 0 else (128 * tensorRows t + 511) / 512))

/-- Window units an instruction reads: every unit of each source in a window, all named as finished (R148; log 21). -/
def opUnits (o : Op) : List UnitUse := (recSources o.word).filterMap fun i =>
  let t := opDesc o i
  let u := tensorUnits t (weightChannels o i)
  if t.space = 3 then some { win := t.window, need := t.base % 4096 + u, free := u } else none

/-! ### Issue (R140, R142, R148, R178, R241, R242, R279) -/

/-- An instruction is a load instruction: FETCH, or SPILL with a PHYS end (R241). -/
def isLoad (o : Op) : Bool :=
  rOpcode o.word == 0x18 || (rOpcode o.word == 0x19 && (opDesc o (rDescDst o.word)).space == 0)
/-- An instruction runs on the arrays (R241). -/
def isMatrix (o : Op) : Bool := isMatrixOp (rOpcode o.word)
/-- It takes a scoreboard entry: it reads or writes WM, AM or PM (R139, R282). -/
def takesEntry (o : Op) : Bool := !(o.src.isEmpty && o.dst.isEmpty)

/-- A load instruction is issued and unfinished on the core. -/
def loadActive (c : Core) : Bool := c.ops.any fun o => o.issued && isLoad o
/-- A matrix instruction is issued and unfinished on the core. -/
def matrixActive (c : Core) : Bool := c.ops.any fun o => o.issued && isMatrix o

/-- The scoreboard lets an instruction with these ranges issue (R140). -/
def scoreboardOk (c : Core) (src dst : List Range) : Bool :=
  let held := c.ops.filter fun o => o.issued
  (src.isEmpty && dst.isEmpty || decide ((held.filter takesEntry).length < 192))
    && held.all fun o =>
      !(src.any fun a => o.dst.any (rangesMeet a))
        && !(dst.any fun a => o.dst.any (rangesMeet a))
        && (o.released || !(dst.any fun a => o.src.any (rangesMeet a)))

/-- An instruction takes its window's units as they land: a convolution row by row (R199), an MSTREAM pass by pass (R169). -/
def walksWindow (o : Op) : Bool := isConvOp (rOpcode o.word) || rOpcode o.word == 0x02

/-- Units landed, counted from unit `base` of a window, for an instruction that has freed `freed` of them already. -/
def landedFrom (w : Win) (base freed : Nat) : Nat :=
  freed + ((w.fill - w.free).toNat - mod12 (mod12 (base + freed) + 4096 - w.free.toNat))

/-- Position of a hollow unit counted from unit `base`, for an instruction that has freed `freed` units already. -/
def hollowFrom (h base freed : Nat) : Nat := freed + mod12 (h + 4096 - mod12 (base + freed))

/-- FILL has passed the last unit needed, modulo 4,096 (R148). -/
def unitsLanded (c : Core) (o : Op) : Bool := (opUnits o).all fun u =>
  let w := win c u.win
  w.state != 0 && (walksWindow o || decide (mod12 (u.need + 4096 - w.free.toNat) ≤ (w.fill - w.free).toNat))

/-- Window entries an instruction opens: entry and region (R560). -/
def opensOf (o : Op) : List (Nat × Bool × Nat × Nat) :=
  let x := if rOpcode o.word = 0x1A && (rXop o.word = 1 || rXop o.word = 4) then
      let t := opDesc o (rDescDst o.word)
      [(rWindow o.word, t.space == 2, t.base / 512, rWsize o.word)]
    else []
  x ++ o.opens.map fun f => (f.1, decide (16 ≤ f.1), Config.fusedBase f.1 f.2.2.2, f.2.2.2)

/-- The window entries an instruction opens are closed and their regions free (R560). -/
def opensOk (c : Core) (o : Op) : Bool := (opensOf o).all fun x =>
  (win c x.1).state == 0 && (List.range 20).all fun j =>
    let w := win c j
    w.state == 0 || w.wm != x.2.1 || decide (x.2.2.1 + x.2.2.2 < w.base) || decide (w.base + w.size < x.2.2.1)

/-- Earlier instructions of the same work context on the core. -/
def earlierOps (c : Core) (i : Nat) (w : Nat) : List Op := (c.ops.take i).filter fun o => o.wc == w

/-- A signal counter has reached VALUE (R165). -/
def signalReached (v value : W32) : Bool := !(v - value).msb

/-- A load turn is not needed, or is held (R243). -/
def turnOk (d : Dev) (n : Nat) (o : Op) : Bool :=
  !isLoad o || wLoadWidth (wcOf d o.wc) == 0 || bit (wcOf d o.wc).turns n

/-- The VU is free for an instruction: no other depthwise convolution holds it from its issue to its retirement (R204; log 180). -/
def vuFree (c : Core) (o : Op) : Bool :=
  !(c.ops.any fun x => x.issued && isDepthwise x && !(x.wc == o.wc && x.ring == o.ring && x.pos == o.pos))

/-- An instruction needs the VU to issue: a vector instruction, or a matrix instruction that drains without a tile counter. -/
def needsVu (o : Op) : Bool := isVectorOp (rOpcode o.word) || (isMatrix o && rGroup o.word == 0)

/-- The instruction at position i waits for the scoreboard alone of what holds its turn (R140, R142). -/
def turnReached (c : Core) (i : Nat) (o : Op) : Bool :=
  !o.issued && (earlierOps c i o.wc).all fun b => b.issued && rOpcode b.word != 0x21

/-- Nothing but the load and compute phases holds the instruction at position i back. -/
def readyBut (d : Dev) (n i : Nat) (o : Op) : Bool :=
  let c := coreOf d n
  let before := earlierOps c i o.wc
  let r := opRanges o
  turnReached c i o
    && scoreboardOk c r.1 r.2
    && unitsLanded c o
    && opensOk c o
    && (!needsVu o || vuFree c o)
    && before.all (fun b => match lenWritten b with | some l => !((lensNamed o).contains l) | none => true)
    && (if rOpcode o.word = 0x22 || rOpcode o.word = 0x21 then before.isEmpty else true)
    && (if rOpcode o.word = 0x23 then signalReached (signalOf (wcOf d o.wc) (rIndex o.word)) (rValue o.word) else true)

/-- An instruction's name in the phase marks. -/
def opName (o : Op) : Nat × Nat × W32 := (o.wc, o.ring, o.pos)

/-- The instruction that a phase mark names still waits to issue (R242). -/
def stillWaits (c : Core) (k : Option (Nat × Nat × W32)) : Bool :=
  match k with
  | some k => c.ops.any fun o => !o.issued && opName o == k
  | none => false

/-- The phases of R241 and R242 let the instruction issue. -/
def phaseOk (d : Dev) (n : Nat) (o : Op) : Bool :=
  let c := coreOf d n
  if isMatrix o then !loadActive c && !stillWaits c c.loadWaits
  else if isLoad o then !matrixActive c && !stillWaits c c.matrixWaits && turnOk d n o
  else true

/-- The first load instruction that waits for matrix work to finish, and the first matrix instruction that waits for the load phase to end, are marked (R242). -/
def notePhases (d : Dev) (n : Nat) : Dev :=
  let c := coreOf d n
  let first (p : Op → Bool) : Option (Nat × Nat × W32) :=
    ((withPos c.ops).find? fun x => p x.2 && readyBut d n x.1 x.2).map fun x => opName x.2
  let l := if stillWaits c c.loadWaits then c.loadWaits else if matrixActive c then first isLoad else none
  let m := if stillWaits c c.matrixWaits then c.matrixWaits else if loadActive c then first isMatrix else none
  updCore d n fun c => { c with loadWaits := l, matrixWaits := m }

/-- Load instructions that only the want of a load turn holds back: each work context asks for core n's turn, and the wait is counted (R243). -/
def askTurns (d : Dev) (n : Nat) : Dev :=
  let c := coreOf d n
  let ws := (withPos c.ops).filter fun x => isLoad x.2 && readyBut d n x.1 x.2 && !matrixActive c && !stillWaits c c.matrixWaits && !turnOk d n x.2
  if ws.isEmpty then d
  else bump (ws.foldl (fun d x => updWc d x.2.wc fun w => { w with asks := w.asks ||| BitVec.ofNat 16 (2 ^ n) }) d) (0x22D0 + n) 5 8 1

/-- Some instruction of core n waits under R140 (R156). -/
def waitsScoreboard (d : Dev) (n : Nat) : Bool :=
  let c := coreOf d n
  (withPos c.ops).any fun x => turnReached c x.1 x.2 && (let r := opRanges x.2; !scoreboardOk c r.1 r.2)

/-- The instruction at position i may issue. -/
def readyToIssue (d : Dev) (n i : Nat) (o : Op) : Bool := readyBut d n i o && phaseOk d n o

/-- Order in which the sequencer takes ready instructions: lowest class, then round-robin over work contexts after the one served last (R279). -/
def issueRank (d : Dev) (n : Nat) (o : Op) : Nat :=
  wClass (wcOf d o.wc) * 4096 + (o.wc + 4096 - ((coreOf d n).lastIssued + 1)) % 4096

/-- Best of a list of candidates by rank. -/
def bestOf {α : Type} (rank : α → Nat) (l : List α) : Option α :=
  l.foldl (fun b x => match b with | some y => if rank x < rank y then some x else some y | none => some x) none

/-- The instruction the sequencer of core n issues next: its position and itself. -/
def chosenOp (d : Dev) (n : Nat) : Option (Nat × Op) :=
  if (coreOf d n).disabled then none
  else bestOf (fun x => issueRank d n x.2) ((withPos (coreOf d n).ops).filter fun x => readyToIssue d n x.1 x.2)

/-- Write back an instruction at position i of core n. -/
def setOp (d : Dev) (n i : Nat) (o : Op) : Dev := updCore d n fun c => { c with ops := modifyAt c.ops i fun _ => o }

/-- Some word of the instruction's record, descriptors or length registers in the descriptor store is poisoned (R506). -/
def commandPoisoned (d : Dev) (n : Nat) (o : Op) : Bool :=
  let bad (a k : Nat) : Bool := (List.range k).any fun j => isPoison d.mem (a + 32 * j)
  bad (dsBase n + 64 * o.slot) 2
    || o.descs.any (fun x => bad (dsBase n + 0x4000 + 64 * x.2.1) 2)
    || (lensNamed o).any fun r => match lenSet (coreOf d n) o.wc with
        | some s => isPoison d.mem (lenAddr n s r)
        | none => false

/-- The instruction names a hollow unit (R236). -/
def namesHollow (c : Core) (o : Op) : Bool := (opUnits o).any fun u =>
  let w := win c u.win
  w.hollow.any fun h => decide (mod12 (h + 4096 - mod12 (u.need + 4096 - u.free)) < u.free)

/-- The instruction runs refolded: a full-form matrix instruction on a core with three enabled arrays (R40). -/
def runsRefolded (c : Core) (o : Op) : Bool := shapeLimit c == 3 && isMatrixOp (rOpcode o.word) && rOpcode o.word != 0x03

/-- Every word of the instruction's record, descriptors, outlier lists and length registers is read from the descriptor store, and every word of its sources in the core's memories outside windows, through the correction stage (R126). -/
def readOperands (d : Dev) (n : Nat) (o : Op) : Dev :=
  if d.mem.latent.isEmpty then d
  else
    let ds (d : Dev) (off k : Nat) : Dev := readWords d n 3 (off / 32) ((off + k - 1) / 32)
    let d := ds d (64 * o.slot) 64
    let d := o.descs.foldl (fun d x => ds d (0x4000 + 64 * x.2.1) 64) d
    let d := o.lists.foldl (fun d x => ds d (0xC000 + 128 * x.2.1) 128) d
    let d := match lenSet (coreOf d n) o.wc with
      | some s => (lensNamed o).foldl (fun d r => ds d (0xE000 + s * 256 + 4 * r) 4) d
      | none => d
    (readRanges o).foldl (fun d r => readWords d n r.mem r.lo r.hi) d

/-- What issue does to every instruction: operands read, lengths latched and clamps reported, ranges recorded, the round-robin moved (R126, R139, R175, R176). -/
def issueCommon (d : Dev) (n i : Nat) (o : Op) : Dev × Op :=
  let d := readOperands d n o
  let c := coreOf d n
  let ex := (recDescs o.word).map fun k => (k, actualExt d n o.wc (opDesc o k))
  let clamped := ex.any fun x => x.2.2
  let r := opRanges o
  let o := { o with issued := true, lens := ex.map (fun x => (x.1, x.2.1)), src := r.1, dst := r.2, units := opUnits o,
                    clamped := clamped, refold := runsRefolded c o, poisoned := commandPoisoned d n o }
  let d := if clamped then postEventWc (bump d (0x2280 + n) 2 4 1) 0x0521 1 n o.wc 0 else d
  let d := if runsRefolded c o then bump d (0x2210 + n) 9 4 1 else d
  (setOp (updCore d n fun c => { c with lastIssued := o.wc }) n i o, o)

/-- Where a tensor's exponent plane and side plane begin in the stream of its units, in bytes from its first unit (R161). -/
def planeStart (t : Desc) (plane : Nat) : Nat :=
  match plane with
  | 0 => 0
  | 1 => (expPlane t - t.base % 4096) * 512
  | _ => (sidePlane t - t.base % 4096) * 512

/-- Bytes of a tensor in a window that are filled at its actual extents: its rows, and the planes of those rows, each by offset and length (R161). -/
def filledSpans (t : Desc) (ext : List Nat) : List (Nat × Nat) :=
  let row := elemBytes (dFmt t) (ext.getD 0 1)
  let ixs := (List.range (ext.getD 3 1)).flatMap fun k3 => (List.range (ext.getD 2 1)).flatMap fun k2 => (List.range (ext.getD 1 1)).map fun k1 => [0, k1, k2, k3]
  let plane (k n : Nat) : List (Nat × Nat) := ixs.map fun ix => (planeStart t k + n * rowOf t.ext ix, n)
  (ixs.map (fun ix => (elemOff t ix, row)) ++ (if t.expMode = 2 ∨ t.expMode = 3 then plane 1 1 else []) ++ (if t.outlierCount = 0 then [] else plane 2 128)).filter fun x => x.2 != 0

/-- Units of a tensor in a window that hold filled bytes, rising, counted from its base. -/
def filledUnits (t : Desc) (ext : List Nat) : List Nat :=
  ((filledSpans t ext).flatMap fun x => (List.range ((x.1 + x.2 - 1) / 512 - x.1 / 512 + 1)).map (x.1 / 512 + ·)).foldl (fun l u => insNat u l) []

/-- Filled bytes of unit u. -/
def unitBytes (t : Desc) (ext : List Nat) (u : Nat) : Nat :=
  ((filledSpans t ext).map fun x => min (x.1 + x.2) (512 * u + 512) - max x.1 (512 * u)).sum

/-- A hollow unit for each of the units of a tensor in a remote window (R236). -/
def hollowOuts (o : Op) (t : Desc) (us : List Nat) : List OutUnit :=
  us.map fun u => { core := t.remote, win := t.window, unit := t.base % 4096 + u, hollow := true, wc := o.wc, ring := o.ring, pos := o.pos, epoch := o.epoch }

/-- Hollow units for every unit the instruction would have sent into a window (R236). -/
def hollowUnits (o : Op) : List OutUnit := (recOutputs o.word).flatMap fun i =>
  let t := opDesc o i
  if t.space = 4 then hollowOuts o t (filledUnits t (opExt o i)) else []

/-- Put units into core n's outbox and send what can be sent. -/
def sendUnits (d : Dev) (n : Nat) (us : List OutUnit) : Dev :=
  pump (updCore d n fun c => { c with outbox := c.outbox ++ us }) n

/-- Mark the instruction at position i complete, with its sources released. -/
def finishOp (d : Dev) (n i : Nat) (f : Op → Op) : Dev :=
  updCore d n fun c => { c with ops := modifyAt c.ops i fun o => f { o with done := true, released := true } }

/-- What a cycle of core n's sequencer does before it issues: what waits for the other phase is marked (R242), what waits for a load turn asks for it (R243), and a wait under R140 is counted (R156; log 181). -/
def beforeIssue (d : Dev) (n : Nat) : Dev :=
  let d := askTurns (notePhases d n) n
  if waitsScoreboard d n then bump d (0x2250 + n) 0x0B 8 1 else d

/-- Issue the instruction that the sequencer takes next, when its form is `p`, and let `run` carry out its effect. A stopped clock counts no cycle (R473). -/
def issueAs (d : Dev) (n : Nat) (p : Op → Bool) (run : Dev → Nat → Op → Dev) : Dev :=
  if (coreOf d n).stopped || (coreOf d n).disabled then d else
  let d := beforeIssue d n
  match chosenOp d n with
  | some (i, o) =>
    if p o then
      let (d, o) := issueCommon d n i o
      if o.poisoned then finishOp d n i id
      else if (!walksWindow o || rGroup o.word != 0) && namesHollow (coreOf d n) o then
        finishOp (sendUnits d n (hollowUnits o)) n i fun o => { o with incomplete := true, exhausted := true }
      else run d i o
    else d
  | none => d

/-! ### Retirement (R141, R148, R283 to R287) -/

/-- Free the units an instruction names as finished: in a ring window FREE advances and the credits wait to be returned; a block window frees at close (R148, R149). -/
def freeUnits (d : Dev) (n : Nat) (u : UnitUse) : Dev :=
  let w := winAt d n u.win
  if w.block || w.state == 0 then d
  else
    let nf := w.free + BitVec.ofNat 12 u.free
    setWinAt d n u.win { w with free := nf, freed := w.freed + u.free, pendingCredits := w.pendingCredits + u.free,
                                hollow := w.hollow.filter fun h => decide (u.free ≤ mod12 (h + 4096 - w.free.toNat)) }

/-- The instruction's units have all been sent. -/
def outboxClear (c : Core) (o : Op) : Bool := !(c.outbox.any fun u => u.wc == o.wc && u.ring == o.ring && u.pos == o.pos)

/-- The sequence word of a result buffer (R286). -/
def seqWord (o : Op) : List Byte := leBytes 8 (pack [(32, 32, o.pos.toNat), (24, 8, o.epoch.toNat), (21, 3, o.ring)])

/-- Write the sequence words of an instruction that does not retire Cancelled (R286, R287). -/
def writeSeqWords (d : Dev) (g source : Nat) (o : Op) : Dev :=
  if o.cancelled || !rComplete o.word then d
  else o.seqWords.foldl (fun d a => memWrite d (some g) source a (seqWord o) false) d

/-- Flags of an instruction's completion. -/
def opFlags (o : Op) : Nat := flagBits o.sat o.clamped o.refold o.incomplete o.poisoned

/-- Count a record out of flight, and take back its slot (R278, R282). -/
def leaveFlight (d : Dev) (w : Nat) : Dev :=
  let d := releaseSlot d w
  releaseSettle (poolSettle (updWc d w fun c => { c with inflight := c.inflight - 1, retired := c.retired + 1, dirty := true })) w

/-- Merge two flag words. -/
def orFlags (a b : Nat) : Nat := a ||| b

/-- Conditions of a shared instruction's completion: OK when DONE = TOTAL, Incomplete when DONE falls short (R183, log 182). -/
def sharedFlags (fl done total : Nat) : Nat := (fl - fl / 2 % 2 * 2) + (if done < total then 2 else 0)

/-- Retire one copy of a record with several; the last copy's retirement writes the completion (R183, R248, R252). -/
def retireShared (d : Dev) (s : Shared) (o : Op) : Dev :=
  let s' := { s with left := s.left - 1, flags := orFlags s.flags (opFlags o), cancelled := s.cancelled || o.cancelled }
  if s.left ≤ 1 then
    let d := updCp d fun cp => { cp with shared := cp.shared.filter (· ≠ s) }
    match s.ctr with
    | some k =>
      let t := ctrOf d k
      let fl := sharedFlags s'.flags t.done t.total
      let st := statusOf (s'.cancelled && decide (t.done < t.total)) fl
      let d := setCtr d k { t with state := 3 }
      leaveFlight (recordDone d s.wc s.word s.epoch.toNat s.ring s.pos st (if st = 0x0802 then t.done else 0) fl) s.wc
    | none => leaveFlight (recordDone d s.wc s.word s.epoch.toNat s.ring s.pos (statusOf s'.cancelled s'.flags) 0 s'.flags) s.wc
  else updCp d fun cp => { cp with shared := cp.shared.map fun x => if x = s then s' else x }

/-- A work context without core n's load turn. -/
def dropTurn (n : Nat) (c : Wc) : Wc := { c with turns := c.turns &&& ~~~(BitVec.ofNat 16 (2 ^ n)) }

/-- The core's load phase has ended: turns return to the CP (R243). -/
def returnTurns (d : Dev) (n : Nat) : Dev :=
  if loadActive (coreOf d n) then d
  else (d.cp.wcs.map (·.1)).foldl (fun d w => if bit (wcOf d w).turns n then updWc d w (dropTurn n) else d) d

/-- Begin closing a window: no more credits; it closes when FILL reaches the declared count (R151). The hollow bits of units not yet freed stay (R235). -/
def beginClose (d : Dev) (n i : Nat) : Dev :=
  let w := win (coreOf d n) i
  if w.state = 1 then setWinAt d n i (closeIfDone { w with state := 2 }) else d

/-- Whether a unit of work is one of an instruction. -/
def unitIs (o : Op) (u : UnitTag) : Bool := u.wc == o.wc && u.ring == o.ring && u.pos == o.pos

/-- Key of the outlier sum of row m and channel ch of an instruction (R105). -/
def osumKey (o : Op) (m ch : Nat) : Nat := (((o.wc * 8 + o.ring) * 2 ^ 32 + o.pos.toNat) * 2 ^ 32 + m) * 2 ^ 32 + ch

/-- What a core keeps of an instruction's work is dropped: outlier sums, PM rows, released regions, retries. -/
def forgetWork (c : Core) (o : Op) : Core := { c with
  osums := c.osums.filter fun e => e.1 / 2 ^ 64 != osumKey o 0 0 / 2 ^ 64
  pmRows := c.pmRows.filter fun e => match e.2.unit with | some u => !unitIs o u | none => true
  released := c.released.filter fun r => !unitIs o r.unit
  remote := c.remote.filter fun r => !(r.wc == o.wc && r.ring == o.ring && r.pos == o.pos)
  retry := c.retry.filter fun u => !unitIs o u }

/-- An instruction that retires after its work context's CANCEL was accepted completes Cancelled (R293). -/
def overtaken (d : Dev) (o : Op) : Bool := o.cancelled || o.epoch != (wcOf d o.wc).epoch

/-- Retire the instruction at position i of core n: its gather entries flush first (R133). -/
def retireOp (d : Dev) (n i : Nat) (o : Op) : Dev :=
  let d := flushOwned d n o
  let o := { o with cancelled := overtaken d o, poisoned := o.poisoned || (match (coreOf d n).ops[i]? with | some x => x.poisoned | none => false) }
  let d := if o.cancelled then d else o.units.foldl (fun d u => freeUnits d n u) d
  let d := match o.lenOut with
    | some v => if o.cancelled then d else setLen d o.wc (rLenOut o.word % 64) (BitVec.ofNat 32 v)
    | none => d
  let d := writeSeqWords d agFe n o
  let d := updCore d n fun c => forgetWork { c with ops := removeAt c.ops i } o
  let d := landHeld (o.closes.foldl (fun d w => beginClose d n w) d) n
  let d := returnTurns d n
  match d.cp.shared.find? fun x => x.wc == o.wc && x.ring == o.ring && x.pos == o.pos with
  | some x => retireShared d x o
  | none => leaveFlight (recordDone d o.wc o.word o.epoch.toNat o.ring o.pos (statusOf o.cancelled (opFlags o)) 0 (opFlags o)) o.wc

/-- Retire a record of the MPE (R214, R283). -/
def retireMpe (d : Dev) (o : Op) : Dev :=
  let o := { o with cancelled := overtaken d o }
  let d := writeSeqWords d agMpe srcMpe o
  leaveFlight (recordDone d o.wc o.word o.epoch.toNat o.ring o.pos (statusOf o.cancelled (opFlags o)) 0 (opFlags o)) o.wc

/-- Retire every instruction of a list of positions, the highest position first. -/
def retireMany (d : Dev) (n : Nat) : List (Nat × Op) → Dev
  | [] => d
  | (i, o) :: t => retireOp (retireMany d n t) n i o

end Sys2Proof.Machine
end

