-- ==== Sys2Proof/Machine/Drain.lean ====
section
/-! DEFINITION. The VU's output side, shared by the matrix, convolution and vector families: rescale, row exponents, narrowing with its statistics, and the writing of an output tensor (chapter 3, R97 to R109, R557). -/

namespace Sys2Proof.Machine

open Sys2Proof

/-! ### Saturation slots (R107 to R109) -/

/-- Saturation slot k of a core. -/
def satSlot (c : Core) (k : Nat) : SatSlot := sget (fun _ => {}) c.sats k
/-- Write a saturation slot. -/
def setSat (c : Core) (k : Nat) (s : SatSlot) : Core := { c with sats := sset (fun _ => {}) c.sats k s }

/-- Close a slot's window (R108): compare the clipped share with the threshold, post event 0x0301 when it exceeds it, clear both counts and add them to the core's counters. -/
def closeCalib (d : Dev) (n k : Nat) : Dev :=
  let s := satSlot (coreOf d n) k
  let high := decide (setting d 0x2220 1 * s.narrowed < s.clipped * 65536) && setting d 0x2220 3 == 1
  let d := bump (bump d (0x2230 + n) 1 8 s.narrowed) (0x2230 + n) 2 8 s.clipped
  let d := updCore d n fun c => setSat c k { s with narrowed := 0, clipped := 0 }
  if high then
    let d := bump d (0x2230 + n) 5 4 1
    let pay := min 65535 (s.clipped * 65536 / s.narrowed) + k * 65536 + n * 2 ^ 20
    match s.wc with
    | some w => postEventWc d 0x0301 0 n w pay
    | none => postEvent d 0x0301 0 n pay
  else d

/-- Count one value narrowed into a tensor bound to a slot (R107, R108). The partial counts of a slot rebound to another tensor are dropped: R108 only has them restart from zero (log 183). -/
def countNarrow (d : Dev) (n wc : Nat) (slot : Nat) (tensor : Line) (clipped : Bool) : Dev :=
  if slot < 16 then d
  else
    let k := slot % 16
    let s := satSlot (coreOf d n) k
    let s := if s.desc = tensor then s else { s with narrowed := 0, clipped := 0, desc := tensor }
    let s := { s with narrowed := s.narrowed + 1, clipped := s.clipped + b2n clipped, wc := some wc }
    let d := updCore d n fun c => setSat c k s
    if s.narrowed = 2 ^ setting d 0x2220 2 then closeCalib d n k else d

/-! ### Scales and codebooks -/

/-- Index of the scale that serves output channel ch (R94). -/
def scaleIx (t : Desc) (ch : Nat) : Nat := if t.gsLog2 = 31 then 0 else ch / 2 ^ t.gsLog2
/-- FP16 code of the scale of output channel ch of a weight tensor (R94); 1.0 without a scale tensor. A weight tensor in a window has its scales in the unit after the main data (log 176). -/
def scaleCode (d : Dev) (p : Place) (t : Desc) (ch : Nat) : Nat :=
  if t.aux0 = 0 then 0x3C00 else tNum d p (scaleBase t) (2 * scaleIx t ch) 2
/-- Scale of output channel ch. -/
def scaleOf (d : Dev) (p : Place) (t : Desc) (ch : Nat) : Val := decodeFloat f16 (scaleCode d p t ch)
/-- The scale of output channel ch reads poisoned (R130). -/
def scalePoison (d : Dev) (p : Place) (t : Desc) (ch : Nat) : Bool := t.aux0 != 0 && tPoison d p (scaleBase t) (2 * scaleIx t ch)

/-- Number of the codebook that serves output channel ch (R75, R76). -/
def bookIx (t : Desc) (ch : Nat) : Nat := if t.cbGroup = 0 then 0 else ch / (32 * t.cbGroup)
/-- Codebook entry `code` that serves output channel ch of `n` (R75); a weight tensor in a window has its codebooks in the unit after its scales (log 176). -/
def bookRaw (d : Dev) (p : Place) (t : Desc) (n ch code : Nat) : Nat := tNum d p (bookBase t n) (32 * bookIx t ch + 2 * code) 2
/-- The codebook that serves output channel ch reads poisoned (R129). -/
def bookPoison (d : Dev) (p : Place) (t : Desc) (n ch : Nat) : Bool := dFmt t == .cb4 && tPoison d p (bookBase t n) (32 * bookIx t ch)

/-- Invalid weight scales that one load of the output channels `chs` into a scale bank meets: each scale entry once (R73, R94, R95). -/
def scaleInvalid (d : Dev) (p : Place) (t : Desc) (chs : List Nat) : Nat :=
  if t.aux0 = 0 then 0
  else (((chs.map (scaleIx t)).eraseDups).map fun k => decodeFloat f16 (tNum d p (scaleBase t) (2 * k) 2)).countP invalidVal

/-- Invalid entries that one load of the codebooks of output channels `chs` meets (R73, R77). -/
def bookInvalid (d : Dev) (p : Place) (t : Desc) (n : Nat) (chs : List Nat) : Nat :=
  if dFmt t = .cb4 then
    (((chs.map (bookIx t)).eraseDups).flatMap fun b => (List.range 16).map fun c => decodeFloat f16 (tNum d p (bookBase t n) (32 * b + 2 * c) 2)).countP invalidVal
  else 0

/-- Value of a weight element for output channel ch of `n` (R78). -/
def wgtVal (d : Dev) (p : Place) (t : Desc) (n ch : Nat) (raw : Nat) : Val :=
  if dFmt t = .cb4 then decodeFloat f16 (bookRaw d p t n ch raw) else elemVal (dFmt t) raw

/-- A scale bank of an array takes the scales of a unit's columns; the other bank keeps those of the unit before (R95). -/
def loadBank (a : Arr) (u : UnitTag) (codes : List Nat) : Arr :=
  let b : ScaleBank := { unit := some u, codes := codes.take 128 }
  if a.bank then { a with scale0 := b, bank := false } else { a with scale1 := b, bank := true }

/-- Scale that an array's banks hold for column j of a unit. -/
def bankScale (a : Arr) (u : UnitTag) (j : Nat) : Option Nat :=
  if a.scale1.unit = some u then a.scale1.codes[j]? else if a.scale0.unit = some u then a.scale0.codes[j]? else none

/-- The scale a drain takes for output channel ch: from the bank of array `ai`, column j, or where the bank has gone on to another unit from the scale tensor (R95, log 187). -/
def drainScale (d : Dev) (n ai j : Nat) (u : UnitTag) (p : Place) (t : Desc) (ch : Nat) : Val :=
  match bankScale (arr (coreOf d n) ai) u j with
  | some c => decodeFloat f16 c
  | none => scaleOf d p t ch

/-! ### Rescale (R97, R206) -/

/-- Steps 2 to 6 of the rescale: zero-point correction and degenerate term, conversion, outlier sum, scale, row exponent. -/
def rescale (intAcc : Bool) (acc : Val) (z : Nat) (wsum dterm : Val) (vp : Int) (osum : Option Val) (s : Val) (ea : Int) : Val :=
  let acc :=
    if intAcc then vadd acc (ofInt (vp * intVal dterm - z * intVal wsum))
    else
      let acc := if vp = 0 then acc else fadd acc (fmul (ofInt vp) dterm)
      if z = 0 then acc else fsub acc (fmul (ofInt z) wsum)
  let v := r32 acc
  let v := match osum with
    | some o => fadd v o
    | none => v
  r32 (vscale (fmul v s) ea)

/-! ### Output rows -/

/-- A piece of an output tensor to be written: plane (0 main data, 1 exponent plane, 2 side plane), byte offset in the plane, bytes each with its poison. -/
structure Piece where
  plane : Nat := 0
  off : Nat := 0
  data : List (Byte × Bool) := []
  deriving DecidableEq, Repr

/-- What an instruction has produced so far: pieces to write, and the conditions that arose. -/
structure Made where
  pieces : List Piece := []
  sat : Bool := false
  poisoned : Bool := false
  deriving DecidableEq, Repr

/-- Little-endian bytes of an element of 8 bits or more, each carrying the element's poison. -/
def elemData (f : Fmt) (raw : Nat) (p : Bool) : List (Byte × Bool) := (leBytes (fmtBits f / 8) raw).map fun b => (b, p)

/-- Bytes of a run of 4-bit codes, whose first takes the low nibble unless `odd`; `lo` and `hi` are what the bytes at its ends held, whose other nibble stays (R68). -/
def nibbleData (odd : Bool) (lo hi : Byte) (cs : List (Nat × Bool)) : List (Byte × Bool) :=
  let cs := if odd then (lo.toNat % 16, false) :: cs else cs
  let cs := if cs.length % 2 = 1 then cs ++ [(hi.toNat / 16, false)] else cs
  (List.range (cs.length / 2)).map fun i =>
    let a := cs.getD (2 * i) (0, false)
    let b := cs.getD (2 * i + 1) (0, false)
    (BitVec.ofNat 8 (a.1 % 16 + b.1 % 16 * 16), a.2 || b.2)

/-- Bytes of a run of element codes of an output tensor, the first at indices ix (R68). -/
def runData (d : Dev) (p : Place) (t : Desc) (ix : List Nat) (cs : List (Nat × Bool)) : List (Byte × Bool) :=
  if fmtBits (dFmt t) = 4 then
    let i0 := ix.getD 0 0
    let last := elemOff t ((i0 + cs.length - 1) :: ix.drop 1)
    nibbleData (i0 % 2 == 1) (tByte d p t.base (elemOff t ix)) (tByte d p t.base last) cs
  else cs.flatMap fun c => elemData (dFmt t) c.1 c.2

/-- Row exponent of an output row (R557, R99): none, given, fixed or generated over the values that are not listed outliers. QROW too follows EXP_MODE, where R101 speaks of a generated exponent only (log 184). -/
def outExp (d : Dev) (p : Place) (t : Desc) (row : Nat) (vals : List Val) : Int :=
  match t.expMode with
  | 0 => 0
  | 1 => sext 8 (tNum d p (expPlane t) row 1)
  | 2 => t.fixedExp
  | _ => genExp (dFmt t) (dZp t) vals

/-- Narrow one value into a plane of the output tensor, in format f with zero point z, and count it (R88 to R91, R107). -/
def narrowAs (d : Dev) (n wc : Nat) (f : Fmt) (z : Nat) (t : Desc) (tw : Line) (e : Int) (v : Val) : Dev × Narrowed :=
  let r := narrow f z e v
  let d := countNarrow d n wc t.satSlot tw r.clipped
  (if r.invalid then bump d (0x2230 + n) 3 4 1 else d, r)

/-- A value of an output row: itself, its poison, and its place in the outlier list when it is listed. -/
structure OutVal where
  v : Val := .zero false
  p : Bool := false
  slot : Option Nat := none
  deriving DecidableEq, Repr

/-- Narrow a run of values in element order, a listed one to FP16 for the side plane: each value's code, and whether any clipped (R103, R107, R108). -/
def narrowRun (d : Dev) (n wc : Nat) (t : Desc) (tw : Line) (e : Int) : List OutVal → Dev × List Nat × Bool
  | [] => (d, [], false)
  | x :: rest =>
    let (d, r) := if x.slot.isSome then narrowAs d n wc .fp16 0 t tw e x.v else narrowAs d n wc (dFmt t) (dZp t) t tw e x.v
    let (d, cs, c) := narrowRun d n wc t tw e rest
    (d, r.raw :: cs, r.clipped || c)

/-- Narrow part of an output row, whose first element has the indices ix, and record the pieces: main data, the row's exponent in modes 2 and 3, and when it splits outliers the listed values as FP16 in the side plane (R103, R557). A drain splits under a generated exponent, QROW always, VEC never. -/
def emitRow (d : Dev) (n wc : Nat) (p : Place) (t : Desc) (tw : Line) (list : List Nat) (split : Bool) (row : Nat) (ix : List Nat) (vals : List (Val × Bool)) (m : Made) : Dev × Made :=
  let first := ix.getD 0 0
  let split := split && !list.isEmpty
  let outs : List OutVal := (withPos vals).map fun x => { v := x.2.1, p := x.2.2, slot := if split then list.findIdx? (· == first + x.1) else none }
  let e := outExp d p t row ((outs.filter fun x => x.slot.isNone).map (·.v))
  let (d, cs, c) := narrowRun d n wc t tw e outs
  let coded := outs.zip cs
  let main := coded.map fun x => (if x.1.slot.isSome then realZero (dFmt t) (dZp t) else x.2, x.1.p)
  let pcs := [({ off := elemOff t ix, data := runData d p t ix main } : Piece)]
  let pcs := if t.expMode = 2 ∨ t.expMode = 3 then pcs ++ [{ plane := 1, off := row, data := elemData .uint8 (lowBits 8 e) false }] else pcs
  let pcs := if split then
      let side := (List.range 64).flatMap fun i => match coded.find? fun x => x.1.slot == some i with
        | some x => elemData .fp16 x.2 x.1.p
        | none => elemData .fp16 0 false
      pcs ++ [{ plane := 2, off := 128 * row, data := side }]
    else pcs
  let ep := t.expMode == 1 && tPoison d p (expPlane t) row
  (d, { m with pieces := m.pieces ++ pcs, sat := m.sat || c, poisoned := m.poisoned || ep || vals.any (·.2) })

/-! ### Writing an output tensor -/

/-- What an instruction has made for a remote window. -/
def remoteOf (c : Core) (o : Op) : RemoteOut :=
  (c.remote.find? fun r => r.wc == o.wc && r.ring == o.ring && r.pos == o.pos).getD { wc := o.wc, ring := o.ring, pos := o.pos }

/-- Write it back. -/
def setRemote (c : Core) (r : RemoteOut) : Core :=
  { c with remote := (c.remote.filter fun x => !(x.wc == r.wc && x.ring == r.ring && x.pos == r.pos)) ++ [r] }

/-- The unit u of a tensor as it is sent: the bytes held, zeros where nothing is filled, up to the last one filled. -/
def unitData (held : Sparse (Byte × Bool)) (u : Nat) : List (Byte × Bool) :=
  let mine := held.filter fun e => e.1 / 512 == u
  (List.range (mine.foldl (fun m e => max m (e.1 % 512 + 1)) 0)).map fun b => sget (fun _ => (0#8, false)) mine (u * 512 + b)

/-- Units, from the next one to send, that are whole; with `all`, every one that is left (R145: ascending order). -/
def wholeUnits (t : Desc) (ext : List Nat) (held : Sparse (Byte × Bool)) (all : Bool) : List Nat → List Nat
  | [] => []
  | u :: us => if all || unitBytes t ext u ≤ (held.filter fun e => e.1 / 512 == u).length then u :: wholeUnits t ext held all us else []

/-- Bytes of a tensor in a remote window, each piece by plane and offset, join those held; whole units are sent in ascending order, hollow ones once the output has become hollow (R145, R161, R236). -/
def sendPieces (d : Dev) (n : Nat) (o : Op) (t : Desc) (ext : List Nat) (ps : List Piece) (hollow all : Bool) : Dev :=
  let r := remoteOf (coreOf d n) o
  let held := ps.foldl (fun h p => (withPos p.data).foldl (fun h b => sput h (planeStart t p.plane + p.off + b.1) b.2) h) r.held
  let hollow := hollow || r.hollow
  let us := (wholeUnits t ext held all ((filledUnits t ext).drop r.sent)).filter fun u => hollow || held.any fun e => e.1 / 512 == u
  let d := updCore d n fun c => setRemote c { r with held := held.filter (fun e => !us.contains (e.1 / 512)), sent := r.sent + us.length, hollow := hollow }
  sendUnits d n (us.map fun u =>
    ({ core := t.remote, win := t.window, unit := t.base % 4096 + u, data := if hollow then [] else unitData held u, hollow := hollow,
       wc := o.wc, ring := o.ring, pos := o.pos, epoch := o.epoch } : OutUnit))

/-- The pieces that an output row would have been, as a hollow output counts them (R236). -/
def blankPieces (t : Desc) (ext : List Nat) (keep : List Nat → Bool) : List Piece :=
  let ixs := (List.range (ext.getD 3 1)).flatMap fun k3 => (List.range (ext.getD 2 1)).flatMap fun k2 => (List.range (ext.getD 1 1)).map fun k1 => [0, k1, k2, k3]
  let blank (n : Nat) : List (Byte × Bool) := List.replicate n (0#8, false)
  (ixs.filter keep).flatMap fun ix =>
    [({ off := elemOff t ix, data := blank (elemBytes (dFmt t) (ext.getD 0 1)) } : Piece)]
      ++ (if t.expMode = 2 ∨ t.expMode = 3 then [{ plane := 1, off := rowOf t.ext ix, data := blank 1 }] else [])
      ++ (if t.outlierCount = 0 then [] else [{ plane := 2, off := 128 * rowOf t.ext ix, data := blank 128 }])

/-- Row exponents of consecutive rows packed four to a write: pieces of the exponent plane that continue one another within 4 B become one (R132). -/
def packExps (base : Nat) (ps : List Piece) : List Piece :=
  ps.foldl (fun (acc : List Piece) p => match acc.getLast? with
    | some q => if (base + p.off) % 4 ≠ 0 ∧ q.off + q.data.length = p.off then acc.dropLast ++ [{ q with data := q.data ++ p.data }] else acc ++ [p]
    | none => [p]) []

/-- Write the pieces of an output tensor of actual extents `ext` where it lies: own core memory, DRAM or the SB as the FE, or a remote window unit by unit (R237, R249). -/
def writeOut (d : Dev) (n : Nat) (o : Op) (t : Desc) (ext : List Nat) (ps : List Piece) : Dev :=
  let start (p : Piece) : Nat := (match p.plane with | 0 => t.base | 1 => t.aux0 | _ => t.aux1) + p.off
  match t.space with
  | 0 => ps.foldl (fun d p => physWriteMarked d agFe n (p.data.length / 64 + 2) (start p) p.data) d
  | 4 => sendPieces d n o t ext ps false false
  | s =>
    let ps := ps.filter (·.plane != 1) ++ packExps t.aux0 (ps.filter (·.plane == 1))
    ps.foldl (fun d p => opStore d n o (s == 2) (p.data.length / 32 + 2) (start p) p.data) d

/-- An output in a remote window is complete: what is held of it is sent, and nothing of it is kept (R145). -/
def endOut (d : Dev) (n : Nat) (o : Op) (t : Desc) (ext : List Nat) : Dev :=
  if t.space = 4 then
    updCore (sendPieces d n o t ext [] false true) n fun c => { c with remote := c.remote.filter fun r => !(r.wc == o.wc && r.ring == o.ring && r.pos == o.pos) }
  else d

/-- Granule of the sequence word of an output tensor, when it is a result buffer (R286). -/
def seqGranule (t : Desc) : List Nat := if t.space = 0 then [t.base - 64] else []

/-- Raw descriptor of an instruction's tensor i, as its saturation slot names it. -/
def opDescRaw (o : Op) (i : Nat) : Line :=
  match o.descs.find? fun x => x.1 == i with
  | some (_, _, w) => w
  | none => 0#512

end Sys2Proof.Machine
end

