-- ==== Sys2Proof/Machine/Matrix.lean ====
section
/-! DEFINITION. MMUL, MSTREAM and MTHIN: tile geometry, the arrays' products and sums, and the tile walk (chapters 2, 3 and 5). -/

namespace Sys2Proof.Machine

open Sys2Proof

/-- What a matrix instruction works on: its core, operands, formats and actual lengths. -/
structure Mat where
  n : Nat := 0
  op : Op := {}
  a : Desc := {}
  w : Desc := {}
  o : Desc := {}
  pa : Place := {}
  pw : Place := {}
  po : Place := {}
  /-- Declared extents M, N, K. -/
  dm : Nat := 0
  dn : Nat := 0
  dk : Nat := 0
  /-- Actual lengths M, N, K. -/
  lm : Nat := 0
  ln : Nat := 0
  lk : Nat := 0
  list : List Nat := []
  /-- Enabled arrays, and how many there were when the instruction was dispatched (R495). -/
  on : List Nat := []
  geo : Nat := 4
  deriving DecidableEq, Repr

/-- Operands of MMUL, MSTREAM and MTHIN (R162): a transposed operand's dimensions 0 and 1 are exchanged. -/
def matOf (d : Dev) (n : Nat) (op : Op) : Mat :=
  let w := op.word
  let ia := rDescA w
  let iw := rDescW w
  let io := rDescO w
  let a := opDesc op ia
  let wt := opDesc op iw
  let ea := opExt op ia
  let ew := opExt op iw
  let eo := opExt op io
  let (ka, ma) := if rTransA w then (1, 0) else (0, 1)
  let (nw, kw) := if rTransW w then (1, 0) else (0, 1)
  { n := n, op := op, a := a, w := wt, o := opDesc op io
    pa := placeOf d n a op.freed, pw := placeOf d n wt 0, po := placeOf d n (opDesc op io) 0
    dm := dExt a ma, dn := dExt wt nw, dk := dExt a ka
    lm := min (ea.getD ma 1) (eo.getD 1 1), ln := min (ew.getD nw 1) (eo.getD 0 1), lk := min (ea.getD ka 1) (ew.getD kw 1)
    list := opList op ia, on := arraysOn (coreOf d n), geo := op.arrays }

def matFa (x : Mat) : Fmt := dFmt x.a
def matFw (x : Mat) : Fmt := dFmt x.w
def matFloat (x : Mat) : Bool := floatPair (matFa x) (matFw x)

/-- N-block width (R166). -/
def nBlock (op : Line) (arrays : Nat) : Nat :=
  if rOpcode op = 0x03 then (if arrays = 3 then 384 else 512)
  else if arrays = 3 then 32 else if rShape op = 0 then 32 else if rShape op = 1 then 64 else 128

/-- Rows of a work tile's M-chunk (R166). -/
def mChunk (op : Line) (m : Nat) : Nat :=
  if rOpcode op = 0x01 && rStation op = 2 then 32
  else if rOpcode op = 0x01 && rStation op = 1 && rMchunk op ≠ 0 then rMchunk op
  else max 1 m

/-- N-blocks: one in input-stationary mode, where N-blocks never form (R170). -/
def nBlocks (op : Line) (arrays n : Nat) : Nat := if inputStationary op then 1 else ceilDiv n (nBlock op arrays)

/-- Work tiles of an instruction (R167). -/
def tileCount (op : Line) (arrays m n : Nat) : Nat := nBlocks op arrays n * ceilDiv m (mChunk op m)

/-- PM key of row r of the tile and column c of the N-block (Table 2.6, R40, R43, R44). -/
def pmKey (x : Mat) (region r c : Nat) : Nat :=
  let op := x.op.word
  let na := max 1 x.on.length
  let key (a col e : Nat) : Nat := ((x.on.getD a 0) * 32 + col) * 1024 + (rPmBase op + region + e)
  if rOpcode op = 0x03 then key (c / 128) (c % 32) (4 * r + c % 128 / 32)
  else if inputStationary op then key (c % na) r (c / na)
  else if na = 3 then key (r % 3) (c % 32) (r / 3)
  else if rShape op = 0 then key (r % 4) c (r / 4)
  else if rShape op = 1 then key (2 * (c / 32) + r % 2) (c % 32) (r / 2)
  else key (c / 32) (c % 32) r

/-- Activation code of row m, element k: real zero beyond the actual K length (R172). -/
def aRaw (d : Dev) (x : Mat) (m k : Nat) : Nat :=
  if k < x.lk then elemRaw d x.pa x.a (if rTransA x.op.word then [m, k] else [k, m]) else realZero (matFa x) (dZp x.a)

/-- Activation value as the cells take it: a listed outlier channel is real zero (R69, R104). -/
def aVal (d : Dev) (x : Mat) (m k : Nat) : Val :=
  elemVal (matFa x) (if x.list.contains k then realZero (matFa x) (dZp x.a) else aRaw d x m k)

/-- Indices of channel n, element k in the weight tensor (R162). -/
def wIx (x : Mat) (k n : Nat) : List Nat := if rTransW x.op.word then [k, n] else [n, k]
/-- Output channels of the weight tensor as declared. -/
def wChans (x : Mat) : Nat := x.dn

/-- Weight value of channel n, element k. -/
def wVal (d : Dev) (x : Mat) (k n : Nat) : Val := wgtVal d x.pw x.w (wChans x) n (elemRaw d x.pw x.w (wIx x k n))

/-- Some word of the device, of the MPE's buffer or of a gather buffer of core n carries poison. -/
def anyPoison (d : Dev) (n : Nat) : Bool :=
  !d.mem.poison.isEmpty || n == 16 || (coreOf d n).gatherWm.any (·.poison) || (coreOf d n).gatherAm.any (·.poison)

/-- Poison of row m over a K range. -/
def aPoison (d : Dev) (x : Mat) (m : Nat) (ks : List Nat) : Bool :=
  ks.any fun k => k < x.lk && elemPoison d x.pa x.a (if rTransA x.op.word then [m, k] else [k, m])

/-- Poison of a weight tile, its codebooks included. -/
def wPoison (d : Dev) (x : Mat) (ks ns : List Nat) : Bool :=
  ns.any fun n => bookPoison d x.pw x.w (wChans x) n || ks.any fun k => elemPoison d x.pw x.w (wIx x k n)

/-- Add a row's beats into a PM entry; the first beat of the first K-block writes in place (R87). -/
def pmRow (float : Bool) (e : PmEntry) (first : Bool) (poison : Bool) : List Contrib → PmEntry
  | [] => e
  | c :: cs =>
    let e := if float then pmFloat e first c.v c.ovf poison else pmInt e first (intVal c.v) poison
    pmRow float e false poison cs

/-- K elements of K-block kb, up to the declared K. -/
def kRange (kd dk kb : Nat) : List Nat := (List.range (min kd (dk - kb * kd))).map (kb * kd + ·)

/-- The instruction runs in piccolo form (R163). -/
def isPiccolo (x : Mat) : Bool := rOpcode x.op.word == 0x03

/-- K depth of one PM add: the K per pass, or 8 in piccolo form (R44). -/
def kDepth (x : Mat) : Nat := if isPiccolo x then 8 else kPerPass (matFw x)

/-- Poison of what row m and channel ch add in one K-block, `held` being the rows, or the channels, of the tile that stands in the cells: a poisoned word of the tile reaches every entry (R129). -/
def addPoison (d : Dev) (x : Mat) (held : List Nat) (m ch : Nat) (ks : List Nat) : Bool :=
  anyPoison d x.n && (if inputStationary x.op.word then (held.any fun m => aPoison d x m ks) || wPoison d x ks [ch]
    else aPoison d x m ks || wPoison d x ks held)

/-- PM entry on array `ai` of row m and channel ch after every K-block (R170): zero when the actual K is zero. -/
def accumulate (d : Dev) (x : Mat) (held : List Nat) (ai m ch : Nat) : PmEntry :=
  let kd := kDepth x
  let gs := sumGroups (isPiccolo x) (arr (coreOf d x.n) ai).repair (matFw x)
  (List.range (ceilDiv x.lk kd)).foldl (fun (e : PmEntry) kb =>
    let ks := kRange kd x.dk kb
    pmRow (matFloat x) e (kb == 0) (addPoison d x held m ch ks)
      (beatSums (matFa x) (matFw x) gs (ks.map (aVal d x m)) (ks.map fun k => wVal d x k ch))) {}

/-- W_n (R96): over the K elements that pass, exact for integer weights, FP32 for CB4. -/
def wSum (d : Dev) (x : Mat) (ch : Nat) : Val :=
  let ks := List.range (min x.dk (ceilDiv x.lk (kDepth x) * kDepth x))
  if matFloat x then ks.foldl (fun s k => fadd s (wVal d x k ch)) (.zero false)
  else ofInt (ks.foldl (fun s k => s + intVal (wVal d x k ch)) 0)

/-- A source has a side plane: AUX1 names one; in a window, where R160 ignores AUX1, the plane follows the main data of every tensor with an outlier list (R104, R161; log 185). -/
def hasSide (t : Desc) : Bool := t.aux1 != 0 || t.space == 3

/-- Outlier value i of row m: from the side plane, or (q - z) as FP16 when the source has none (R104). -/
def outlierVal (d : Dev) (x : Mat) (m i k : Nat) : Val :=
  if hasSide x.a then decodeFloat f16 (tNum d x.pa (sidePlane x.a) (128 * m + 2 * i) 2)
  else
    let raw := aRaw d x m k
    if fmtIsInt (matFa x) then ofInt (intOf (matFa x) raw - dZp x.a) else elemVal (matFa x) raw

/-- Listed channels within the actual K, each with its place in the list. -/
def listedNow (x : Mat) : List (Nat × Nat) := (withPos x.list).filter fun i => i.2 < x.lk

/-- The outlier sum of row m and channel ch, in list order (R105). -/
def outlierSum (d : Dev) (x : Mat) (m ch : Nat) : Option Val :=
  if x.list.isEmpty then none
  else some ((listedNow x).foldl (fun s i => fadd s (fmul (outlierVal d x m i.1 i.2) (wVal d x i.2 ch))) (.zero false))

/-- Poison of what the VU reads for a row's outlier sums over the channels `chs` (R130). -/
def outlierPoison (d : Dev) (x : Mat) (m : Nat) (chs : List Nat) : Bool :=
  !x.list.isEmpty && anyPoison d x.n && (listedNow x).any fun i =>
    (if hasSide x.a then tPoison d x.pa (sidePlane x.a) (128 * m + 2 * i.1) else aPoison d x m [i.2]) || wPoison d x [i.2] chs

/-- Invalid operands that the VU reads for the outlier sums of row m over the channels `chs`: values and weights, once each (R73). -/
def outlierInvalid (d : Dev) (x : Mat) (m : Nat) (chs : List Nat) : Nat :=
  if x.list.isEmpty then 0
  else ((listedNow x).map fun i => outlierVal d x m i.1 i.2).countP invalidVal + ((listedNow x).flatMap fun i => chs.map (wVal d x i.2)).countP invalidVal

/-! ### The parts of a work tile (R40, R173, R495) -/

/-- Columns of a work tile that run at once: all of them, or on a core that has fewer arrays than the instruction was dispatched on 32 at a time, 384 in piccolo form (R40, R48, R495). -/
def colParts (x : Mat) (cols : List Nat) : List (List Nat) :=
  if x.on.length = 3 ∧ x.geo ≠ 3 then
    let w := if isPiccolo x then 384 else if inputStationary x.op.word then max 1 (3 * opPmRows x.op) else 32
    chunks w (ceilDiv cols.length w) cols
  else [cols]

/-- Rows of a sub-chunk (R173, R495): three times the entries admitted for one work tile, at most 3,072, or 1,536 with PM_DOUBLE. -/
def subChunk (x : Mat) : Nat :=
  let p := if rOpcode x.op.word = 0x02 then opPmRows x.op / 2 else opPmRows x.op
  max 1 (min (3 * p) (if rPmDouble x.op.word then 1536 else 3072))

/-- Rows of a work tile that run at once: all of them, or consecutive sub-chunks. -/
def rowParts (x : Mat) (rows : List Nat) : List (List Nat) :=
  if x.on.length = 3 ∧ x.geo ≠ 3 ∧ isPiccolo x = false ∧ inputStationary x.op.word = false then chunks (subChunk x) (ceilDiv rows.length (subChunk x)) rows
  else [rows]

/-- The parts of a work tile in order, columns outermost (log 188). -/
def tileParts (x : Mat) (rows cols : List Nat) : List (List Nat × List Nat) :=
  (colParts x cols).flatMap fun cs => (rowParts x rows).map fun rs => (rs, cs)

/-- A cell of a part: output channel, PM key, and the array column that holds it (128 of them in piccolo form). -/
structure Cell where
  ch : Nat := 0
  key : Nat := 0
  col : Nat := 0
  deriving DecidableEq, Repr

/-- Cells of row m of a part. -/
def partCells (x : Mat) (region : Nat) (rows cols : List Nat) (m : Nat) : List Cell :=
  cols.map fun ch =>
    let c := ch - cols.headD 0
    { ch := ch, key := pmKey x region (m - rows.headD 0) c
      col := if isPiccolo x then c % 128 else if inputStationary x.op.word then 128 else c % 32 }

/-- Channels of a part that stand in the cells with column c of it: those of the same array (R38, R44). -/
def tileMates (x : Mat) (cols : List Nat) (ch : Nat) : List Nat :=
  let w := if isPiccolo x then 128 else 32
  let c := (ch - cols.headD 0) / w
  (cols.drop (c * w)).take w

/-- Channels whose scales array `j` of the enabled ones holds for a part (R95). -/
def bankChans (x : Mat) (cols : List Nat) (j : Nat) : List Nat :=
  if inputStationary x.op.word then []
  else if isPiccolo x then (cols.drop (128 * j)).take 128
  else if x.on.length = 3 ∨ rShape x.op.word = 0 then cols
  else if rShape x.op.word = 1 then (cols.drop (32 * (j / 2))).take 32
  else (cols.drop (32 * j)).take 32

/-- The unit of retry that a work tile is (R490). -/
def unitOf (op : Op) (t : Nat) : UnitTag := { wc := op.wc, ring := op.ring, pos := op.pos, tile := t }

/-- Rows of a part that stream, or in input-stationary mode its weight rows: those within the actual lengths (R172). -/
def streamed (x : Mat) (rows cols : List Nat) : Nat :=
  if inputStationary x.op.word then cols.countP (· < x.ln) else rows.countP (· < x.lm)

/-- Times each streamed row issues: the arrays that take it (Table 2.6, R44). -/
def copiesOf (x : Mat) (cols : List Nat) : Nat :=
  if isPiccolo x then ceilDiv cols.length 128
  else if inputStationary x.op.word || x.on.length == 3 || rShape x.op.word == 0 then 1 else if rShape x.op.word = 1 then 2 else 4

/-- PM entries of a part after every K-block, by key: of its live rows (R170, R172). -/
def partEntries (d : Dev) (x : Mat) (region : Nat) (rows cols : List Nat) : List (Nat × PmEntry) :=
  let is := inputStationary x.op.word
  let ms := if is then rows else rows.filter (· < x.lm)
  ms.flatMap fun m => ((partCells x region rows cols m).filter fun c => !is || c.ch < x.ln).map fun c =>
    (c.key, accumulate d x (if is then rows else tileMates x cols c.ch) (c.key / 32768) m c.ch)

/-- Invalid operands of a part: activations once per row issue, and with `load` weights once per tile load, codebooks once per load of an array's tile and scales once per load of a bank (R73; log 189). -/
def partInvalid (d : Dev) (x : Mat) (load : Bool) (rows cols : List Nat) : Nat :=
  let kd := kDepth x
  let kbs := List.range (ceilDiv x.lk kd)
  let tiles := chunks 32 (ceilDiv cols.length 32) cols
  (kbs.map fun kb =>
    let ks := kRange kd x.dk kb
    ((rows.filter (· < x.lm)).flatMap fun m => ks.map (aVal d x m)).countP invalidVal
      + (if !load || matFw x == .cb4 then 0 else (ks.flatMap fun k => cols.map (wVal d x k)).countP invalidVal)).sum
  + (if load then (tiles.map fun t => scaleInvalid d x.pw x.w t + (if isPiccolo x then 1 else kbs.length) * bookInvalid d x.pw x.w (wChans x) t).sum else 0)

/-- Write PM entries (R32, R127). -/
def putPm (d : Dev) (n : Nat) (es : List (Nat × PmEntry)) : Dev :=
  pmWritten (updCore d n fun c => { c with pm := es.foldl (fun s e => sset (fun _ => {}) s e.1 e.2) c.pm }) n (if d.mem.latent.isEmpty && (coreOf d n).scrub.isEmpty then [] else es.map (·.1))

/-- A PM entry. -/
def pmAt (c : Core) (key : Nat) : PmEntry := sget (fun _ => {}) c.pm key

/-- Reads of a part's operands pass the correction stage where they lie in a window (R126). -/
def touchRows (d : Dev) (x : Mat) (rows : List Nat) : Dev :=
  if x.a.space = 3 then (rows.filter (· < x.lm)).foldl (fun d m =>
    if rTransA x.op.word then d else touchData d x.pa x.a.base (m * dStride x.a 1) (elemBytes (dFmt x.a) (dExt x.a 0))) d
  else d

/-- One part of unit u: every row is accumulated and PM written; its weights, codebooks and scales are loaded when `load` says so (R95, R170, R172). -/
def computePart (d : Dev) (x : Mat) (u : UnitTag) (region : Nat) (load : Bool) (rows cols : List Nat) : Dev :=
  let d := touchRows d x rows
  let es := partEntries d x region rows cols
  let passes := ceilDiv x.lk (kDepth x)
  let d := bump d (0x2210 + x.n) 4 8 (streamed x rows cols * passes * copiesOf x cols)
  let d := bump d (0x2230 + x.n) 3 4 (partInvalid d x load rows cols)
  let live := rows.filter (· < x.lm)
  let d := if x.list.isEmpty then d
    else bump (bump d (0x2230 + x.n) 6 8 live.length) (0x2230 + x.n) 3 4 ((live.map fun m => outlierInvalid d x m cols).sum)
  let d := (withPos x.on).foldl (fun d a => updArr d x.n a.2 fun v =>
    let v := if isPiccolo x then { v with picCycles := v.picCycles + live.length * passes * beatsOf (matFa x) (matFw x) } else { v with passes := v.passes + passes }
    let chs := bankChans x cols a.1
    if load && !chs.isEmpty then loadBank v u (chs.map (scaleCode d x.pw x.w)) else v) d
  putPm d x.n es

/-! ### The drain -/

/-- Row of PM that a key lies in: array × 1024 + entry. -/
def pmRowKey (key : Nat) : Nat := key / 32768 * 1024 + key % 1024

/-- PM rows that the drain check passes over because they hold a saturated entry (R60). -/
def uncheckedRows (c : Core) (rows : List Nat) : Nat :=
  (rows.filter fun k => (List.range 32).any fun col => (pmAt c ((k / 1024 * 32 + col) * 1024 + k % 1024)).sat).length

/-- Drain row m of unit u with the PM entries of its cells: rescale every column and narrow it (R97, R98). -/
def drainRow (d : Dev) (x : Mat) (u : UnitTag) (m : Nat) (osum : Nat → Option Val) (cells : List (Cell × PmEntry)) (acc : Made) : Dev × Made :=
  let z := if matFa x = .uint8 then x.a.zp else 0
  let ea := rowExp d x.pa x.a m
  let vals := cells.map fun ce =>
    let ch := ce.1.ch
    let v := if matFloat x then ofF32 ce.2.bits else ofInt ce.2.bits.toInt
    (rescale (!matFloat x) v z (if z = 0 then .zero false else wSum d x ch) (.zero false) 0 (osum ch)
      (drainScale d x.n (ce.1.key / 32768) ce.1.col u x.pw x.w ch) ea, ce.2.poison)
  let nsat := cells.countP fun ce => ce.2.sat
  let d := bump d (0x2230 + x.n) 4 4 nsat
  let chs := cells.map (·.1.ch)
  let read := anyPoison d x.n && (outlierPoison d x m chs || chs.any (scalePoison d x.pw x.w)
    || (x.a.expMode % 2 == 1 && tPoison d x.pa (expPlane x.a) m))
  emitRow d x.n x.op.wc x.po x.o (opDescRaw x.op (rDescO x.op.word)) (opList x.op (rDescO x.op.word)) (x.o.expMode == 3) m [chs.headD 0, m] vals
    { acc with sat := acc.sat || decide (0 < nsat), poisoned := acc.poisoned || read }

/-- Drain rows of a part in order. -/
def drainRows (d : Dev) (x : Mat) (u : UnitTag) (region : Nat) (rows cols : List Nat) : List Nat → Made → Dev × Made
  | [], m => (d, m)
  | r :: t, acc =>
    let cells := (partCells x region rows cols r).filter fun c => c.ch < x.ln
    let (d, acc) := drainRow d x u r (outlierSum d x r) (cells.map fun c => (c, pmAt (coreOf d x.n) c.key)) acc
    drainRows d x u region rows cols t acc

/-- Drain a part: its PM rows are read, counted where the drain check passes over them, rescaled and narrowed (R60, R97, R126). -/
def drainPart (d : Dev) (x : Mat) (u : UnitTag) (region : Nat) (rows cols : List Nat) (acc : Made) : Dev × Made :=
  let live := rows.filter (· < x.lm)
  let keys := live.flatMap fun m => (partCells x region rows cols m).map (·.key)
  let d := readPm d x.n keys
  let d := if wCheckMode (wcOf d x.op.wc) = 0 then bump d (0x2210 + x.n) 8 4 (uncheckedRows (coreOf d x.n) (keys.map pmRowKey).eraseDups) else d
  drainRows d x u region rows cols live acc

/-- Compute and drain the parts of a list one after another (R40, R495). -/
def runParts (d : Dev) (x : Mat) (u : UnitTag) (region : Nat) : List (List Nat × List Nat) → Made → Dev × Made
  | [], m => (d, m)
  | p :: ps, m =>
    let (d, m) := drainPart (computePart d x u region true p.1 p.2) x u region p.1 p.2 m
    runParts d x u region ps m

/-! ### The tile walk (R170) -/

/-- Rows of tile t. -/
def tileRows (x : Mat) (t : Nat) : List Nat :=
  let ch := mChunk x.op.word x.dm
  let chunksN := ceilDiv x.dm ch
  let mc := t % max 1 chunksN
  (List.range (min ch (x.dm - mc * ch))).map (mc * ch + ·)

/-- Columns of tile t. -/
def tileCols (x : Mat) (t : Nat) : List Nat :=
  let chunksN := max 1 (ceilDiv x.dm (mChunk x.op.word x.dm))
  if inputStationary x.op.word then List.range x.dn
  else
    let nb := nBlock x.op.word x.geo
    (List.range (min nb (x.dn - t / chunksN * nb))).map (t / chunksN * nb + ·)

/-- Offset of tile i's PM region: with PM_DOUBLE tiles alternate (R168). -/
def tileRegion (x : Mat) (i : Nat) : Nat := if rPmDouble x.op.word then i % 2 * opPmRows x.op else 0

/-- A tile is skipped when it lies wholly beyond the actual lengths (R170). -/
def tileSkipped (x : Mat) (t : Nat) : Bool :=
  decide (x.ln ≤ (tileCols x t).headD 0) || decide (x.lm ≤ (tileRows x t).headD 0)

/-- Parts of tile t (R40, R173, R495). -/
def partsOf (x : Mat) (t : Nat) : List (List Nat × List Nat) := tileParts x (tileRows x t) (tileCols x t)

/-- Work tile t, the i-th that this core takes, up to its claim: its first part is accumulated into PM (R170, R182); a skipped tile is counted only. -/
def computeTile (d : Dev) (x : Mat) (i t : Nat) : Dev :=
  if tileSkipped x t then bump d (0x2280 + x.n) 1 8 1
  else match partsOf x t with
    | p :: _ => computePart d x (unitOf x.op t) (tileRegion x i) true p.1 p.2
    | [] => d

/-- Drain tile t after its claim; the parts behind the first run and drain in turn (R40, R97, R170). -/
def drainTile (d : Dev) (x : Mat) (i t : Nat) (acc : Made) : Dev × Made :=
  if tileSkipped x t then (d, acc)
  else match partsOf x t with
    | p :: ps =>
      let (d, acc) := drainPart d x (unitOf x.op t) (tileRegion x i) p.1 p.2 acc
      runParts d x (unitOf x.op t) (tileRegion x i) ps acc
    | [] => (d, acc)

/-- Run work tile t, the i-th that this core takes. -/
def runTile (d : Dev) (x : Mat) (i t : Nat) (acc : Made) : Dev × Made := drainTile (computeTile d x i t) x i t acc

/-- Run a list of tiles in order. -/
def runTiles (d : Dev) (x : Mat) : List (Nat × Nat) → Made → Dev × Made
  | [], m => (d, m)
  | (i, t) :: ts, m => let (d, m) := runTile d x i t m; runTiles d x ts m

/-- The conditions that arose while an instruction made its output (R98, R130). -/
def madeFlags (m : Made) (o : Op) : Op :=
  { o with sat := o.sat || m.sat, poisoned := o.poisoned || m.poisoned }

/-- Change the instruction at position i of core n. -/
def updOp (d : Dev) (n i : Nat) (f : Op → Op) : Dev := updCore d n fun c => { c with ops := modifyAt c.ops i f }

/-- Write what an instruction has made and note the conditions that arose. -/
def putMade (d : Dev) (n i : Nat) (op : Op) (t : Desc) (k : Nat) (m : Made) : Dev :=
  updOp (writeOut d n op t (opExt op k) m.pieces) n i (madeFlags m)

/-- The whole of an MMUL or MTHIN on one core: its tiles in ascending t, then the output written (R170). A shared one waits for its tiles. -/
def runMmul (d : Dev) (i : Nat) (n : Nat) (op : Op) : Dev :=
  if rGroup op.word ≠ 0 then d
  else
    let x := matOf d n op
    let (d, m) := runTiles d x (withPos (List.range (tileCount op.word x.geo x.dm x.dn))) {}
    let d := endOut (putMade d n i op x.o (rDescO op.word) m) n op x.o (opExt op (rDescO op.word))
    finishOp d n i fun o => { o with seqWords := seqGranule x.o }

/-! ### MSTREAM (R169) -/

/-- Rows of A that have come: all of them, or for A in a window those whole in the units landed (R169). -/
def streamHave (x : Mat) : Nat :=
  if x.a.space = 3 then
    let bytes := landedFrom x.pa.win (x.a.base % 4096) x.op.freed * 512
    let row := elemBytes (dFmt x.a) (dExt x.a 0)
    if bytes < row then 0 else if dStride x.a 1 = 0 then x.lm else min x.lm ((bytes - row) / dStride x.a 1 + 1)
  else x.lm

/-- No more rows will come: dimension 1 has ended, or the writer's stream (R169, R227). -/
def streamEnded (x : Mat) : Bool :=
  decide (x.lm ≤ streamHave x) || (match x.pa.win.declared with
    | some k => decide (x.pa.win.fill.toNat = mod12 k)
    | none => false)

/-- Units of A that its first r rows fill, whole ones only, or with the last one begun (R169). -/
def streamUnits (x : Mat) (r : Nat) (begun : Bool) : Nat :=
  if r = 0 then 0 else
    let bytes := (r - 1) * dStride x.a 1 + elemBytes (dFmt x.a) (dExt x.a 0)
    if begun then (bytes + 511) / 512 else r * dStride x.a 1 / 512

/-- Some unit that rows `row` to `row + k - 1` read is hollow (R236). -/
def passHollow (x : Mat) (row k : Nat) : Bool :=
  x.a.space == 3 && x.pa.win.hollow.any fun h =>
    let u := hollowFrom h (x.a.base % 4096) x.op.freed
    decide (streamUnits x row false ≤ u) && decide (u < streamUnits x (row + k) true)

/-- PM region of a pass: the region of an MSTREAM is a ring of two passes (R169). -/
def passRegion (x : Mat) (row : Nat) : Nat := row / rPassRows x.op.word % 2 * (opPmRows x.op / 2)

/-- The parts of a pass one after another; the weight tile is loaded with the stream's first pass only, or where a pass runs in several parts with each part (R169, R173). -/
def passParts (d : Dev) (x : Mat) (u : UnitTag) (region : Nat) (load : Bool) : List (List Nat × List Nat) → Made → Dev × Made
  | [], m => (d, m)
  | p :: ps, m =>
    let (d, m) := drainPart (computePart d x u region load p.1 p.2) x u region p.1 p.2 m
    passParts d x u region load ps m

/-- One pass of an MSTREAM: `k` rows from row op.row accumulated, drained and written, and the units freed that they fill; a pass that names a hollow unit, and every later one, sends hollow units only (R169, R236). -/
def runPass (d : Dev) (n i : Nat) (op : Op) (k : Nat) : Dev :=
  let x := matOf d n op
  let rows := (List.range k).map (op.row + ·)
  let parts := tileParts x rows (List.range x.dn)
  let ext := opExt op (rDescO op.word)
  let hollow := op.incomplete || passHollow x op.row k
  let d := if hollow then
      (if x.o.space = 4 then sendPieces d n op x.o ext (blankPieces x.o ext fun ix => rows.contains (ix.getD 1 0)) true false else d)
    else
      let (d, m) := passParts d x (unitOf op 0) (passRegion x op.row) (op.row == 0 || decide (1 < parts.length)) parts {}
      putMade d n i op x.o (rDescO op.word) m
  let fr := if x.a.space = 3 ∧ x.pa.win.block = false then streamUnits x (op.row + k) false - op.freed else 0
  let d := if fr = 0 then d else freeUnits d n { win := x.a.window, free := fr }
  updOp d n i fun o => { o with row := op.row + k, freed := op.freed + fr, incomplete := hollow }

/-- The next pass may run, or the stream has ended. -/
def passReady (x : Mat) : Bool := streamEnded x || decide (x.op.row + rPassRows x.op.word ≤ streamHave x)

/-- Run the passes of the MSTREAM at position i of core n that are ready, up to `k` of them; when no row is left it is complete. -/
def streamAdvance (d : Dev) (n i : Nat) : Nat → Dev
  | 0 => d
  | k + 1 =>
    match (coreOf d n).ops[i]? with
    | none => d
    | some op =>
      let x := matOf d n op
      if streamEnded x ∧ streamHave x ≤ op.row then
        let rest := op.units.map fun u => if u.win = x.a.window ∧ x.a.space = 3 then { u with free := streamUnits x op.row true - op.freed } else u
        finishOp (endOut d n op x.o (opExt op (rDescO op.word))) n i fun o => { o with units := rest, seqWords := seqGranule x.o }
      else if passReady x && vuFree (coreOf d n) op then
        streamAdvance (runPass d n i op (min (rPassRows op.word) (streamHave x - op.row))) n i k
      else d

/-- An MSTREAM begins: it runs every pass whose rows have landed. A shared one waits for its tiles. -/
def runMstream (d : Dev) (i : Nat) (n : Nat) (op : Op) : Dev :=
  if rGroup op.word ≠ 0 then d else streamAdvance d n i ((matOf d n op).lm + 2)

/-- An issued MSTREAM that is not complete and dealt to no shared counter, whose next pass is ready. -/
def streamPending (d : Dev) (n : Nat) : Option (Nat × Op) :=
  (withPos (coreOf d n).ops).find? fun x => rOpcode x.2.word == 0x02 && x.2.issued && !x.2.done && (rGroup x.2.word == 0 || decide (0 < x.2.taken))
    && passReady (matOf d n x.2) && vuFree (coreOf d n) x.2

/-- MSTREAM: an unfinished one goes on with the passes that have become ready; otherwise the next one issues (R169). -/
def streamCommand (d : Dev) (n : Nat) : Dev :=
  match streamPending d n with
  | some (i, o) => streamAdvance d n i ((matOf d n o).lm + 2)
  | none => issueAs d n (fun o => rOpcode o.word == 0x02) fun d i o => runMstream d i n o

/-- MMUL (R170): the sequencer of core n issues it and walks its tiles. -/
def execMmul (n : Fin 16) (s : State) : Host.Outcome State Fault Refusal :=
  nextDev s fun d => issueAs d n (fun o => rOpcode o.word == 0x01) fun d i o => runMmul d i n o

/-- MSTREAM (R169). -/
def execMstream (n : Fin 16) (s : State) : Host.Outcome State Fault Refusal := nextDev s fun d => streamCommand d n

/-- MTHIN (R163): piccolo form. -/
def execMthin (n : Fin 16) (s : State) : Host.Outcome State Fault Refusal :=
  nextDev s fun d => issueAs d n (fun o => rOpcode o.word == 0x03) fun d i o => runMmul d i n o

end Sys2Proof.Machine
end

