-- ==== Sys2Proof/Machine/Conv.lean ====
section
/-! DEFINITION. CONV and TCONV: geometry, routes, padding, the tap-stationary walk and its tiles (chapter 6). -/

namespace Sys2Proof.Machine

open Sys2Proof

/-- A convolution's operands and geometry. -/
structure Cnv where
  n : Nat := 0
  op : Op := {}
  a : Desc := {}
  w : Desc := {}
  o : Desc := {}
  pa : Place := {}
  pw : Place := {}
  po : Place := {}
  /-- TCONV. -/
  trans : Bool := false
  /-- Declared and actual input width and height. -/
  dw : Nat := 0
  dh : Nat := 0
  aw : Nat := 0
  ah : Nat := 0
  /-- Actual output width and height. -/
  ow : Nat := 0
  oh : Nat := 0
  /-- Input channels, output channels, groups. -/
  c : Nat := 0
  no : Nat := 0
  g : Nat := 1
  list : List Nat := []
  /-- Enabled arrays, and how many there were when the instruction was dispatched (R495). -/
  on : List Nat := []
  geo : Nat := 4
  deriving DecidableEq, Repr

/-- Output extent of CONV in one dimension (R188). -/
def convExtent (h padA padB dil k s : Nat) : Nat :=
  if h + padA + padB < dil * (k - 1) + 1 then 0 else (h + padA + padB - dil * (k - 1) - 1) / s + 1

/-- Output extent of TCONV in one dimension (R208). -/
def tconvExtent (h padA padB dil k s : Nat) : Nat :=
  if h = 0 then 0 else (h - 1) * s + (k - 1) * dil + 1 - padA - padB

/-- Operands of CONV and TCONV (R187, R200). -/
def cnvOf (d : Dev) (n : Nat) (op : Op) (trans : Bool) : Cnv :=
  let w := op.word
  let a := opDesc op (rDescA w)
  let wt := opDesc op (rDescW w)
  let o := opDesc op (rDescO w)
  let ea := opExt op (rDescA w)
  let aw := ea.getD 1 1
  let ah := ea.getD 2 1
  let f := if trans then tconvExtent else convExtent
  { n := n, op := op, a := a, w := wt, o := o, pa := placeOf d n a op.freed, pw := placeOf d n wt 0, po := placeOf d n o 0, trans := trans
    dw := dExt a 1, dh := dExt a 2, aw := aw, ah := ah
    ow := min (dExt o 1) (f aw (rPadLeft w) (rPadRight w) (rDilW w) (rKw w) (rStrideW w))
    oh := min (dExt o 2) (f ah (rPadTop w) (rPadBottom w) (rDilH w) (rKh w) (rStrideH w))
    c := dExt a 0, no := dExt wt 0, g := max 1 (rGroups w), list := opList op (rDescA w), on := arraysOn (coreOf d n), geo := op.arrays }

def cnvFa (x : Cnv) : Fmt := dFmt x.a
def cnvFw (x : Cnv) : Fmt := dFmt x.w
def cnvFloat (x : Cnv) : Bool := floatPair (cnvFa x) (cnvFw x)

/-- A dimension of a CONV is degenerate: odd kernel of at least 3, PAD_MODE 0 or 1, and every off-centre tap reads outside the declared input at every output position (R205). -/
def degenerate (padMode h out padA dil k s : Nat) : Bool :=
  k % 2 == 1 && decide (3 ≤ k) && (padMode == 0 || padMode == 1)
    && (List.range k).all fun t => t == (k - 1) / 2 || (List.range out).all fun y =>
      decide (y * s + t * dil < padA) || decide (h + padA ≤ y * s + t * dil)

/-- The rows, or the columns, of the kernel are reduced to the centre tap (R206). -/
def rowsReduced (x : Cnv) : Bool :=
  let w := x.op.word
  !x.trans && degenerate (rPadMode w) x.dh (dExt x.o 2) (rPadTop w) (rDilH w) (rKh w) (rStrideH w)
def colsReduced (x : Cnv) : Bool :=
  let w := x.op.word
  !x.trans && degenerate (rPadMode w) x.dw (dExt x.o 1) (rPadLeft w) (rDilW w) (rKw w) (rStrideW w)

/-- Tap rows that run (R206). -/
def tapRows (x : Cnv) : List Nat := if rowsReduced x then [(rKh x.op.word - 1) / 2] else List.range (rKh x.op.word)

/-- Tap columns that run (R206). -/
def tapCols (x : Cnv) : List Nat := if colsReduced x then [(rKw x.op.word - 1) / 2] else List.range (rKw x.op.word)

/-- Padding ahead of the rows, after any reduction (R206). -/
def padAhead (x : Cnv) : Int :=
  let w := x.op.word
  if rowsReduced x then (rPadTop w : Int) - rDilH w * ((rKh w - 1) / 2) else rPadTop w

/-- Input row that tap row ky reads for output row oy; none for a tap row of another phase of TCONV (R195, R209). -/
def inRow (x : Cnv) (oy ky : Nat) : Option Int :=
  let w := x.op.word
  if x.trans then
    let v : Int := oy + rPadTop w - ky * rDilH w
    if v % rStrideH w = 0 then some (v / rStrideH w) else none
  else some (oy * rStrideH w + ky * rDilH w - rPadTop w)

/-- Input column that tap column kx reads for output column ox. -/
def inCol (x : Cnv) (ox kx : Nat) : Option Int :=
  let w := x.op.word
  if x.trans then
    let v : Int := ox + rPadLeft w - kx * rDilW w
    if v % rStrideW w = 0 then some (v / rStrideW w) else none
  else some (ox * rStrideW w + kx * rDilW w - rPadLeft w)

/-- A coordinate lies in the actual input. -/
def inside (v : Int) (n : Nat) : Bool := decide (0 ≤ v) && decide (v < n)

/-- A coordinate clamped into the actual input. -/
def clampTo (v : Int) (n : Nat) : Nat := (max 0 (min v (n - 1))).toNat

/-- Code of channel c of the input pixel at row iy, column ix, padding included (R193, R209, Table 6.2). -/
def cnvRaw (d : Dev) (x : Cnv) (iy ix : Int) (c : Nat) : Nat :=
  let z := realZero (cnvFa x) (dZp x.a)
  if x.c ≤ c then z
  else if inside iy x.ah && inside ix x.aw then elemRaw d x.pa x.a [c, ix.toNat, iy.toNat]
  else if x.trans || rPadMode x.op.word = 1 then z
  else if rPadMode x.op.word = 2 then elemRaw d x.pa x.a [c, clampTo ix x.aw, clampTo iy x.ah]
  else 0

/-- Poison of an input element. -/
def cnvPoison (d : Dev) (x : Cnv) (iy ix : Int) (c : Nat) : Bool :=
  decide (c < x.c) && (if inside iy x.ah && inside ix x.aw then elemPoison d x.pa x.a [c, ix.toNat, iy.toNat]
    else !x.trans && rPadMode x.op.word == 2 && elemPoison d x.pa x.a [c, clampTo ix x.aw, clampTo iy x.ah])

/-- Padding's real value is zero, so that a pass of nothing but padding is skipped (R196). -/
def padIsZero (x : Cnv) : Bool := x.trans || rPadMode x.op.word == 1 || (rPadMode x.op.word == 0 && dZp x.a == 0)

/-- Channels per group of the input and of the output. -/
def cgOf (x : Cnv) : Nat := x.c / x.g
def ngOf (x : Cnv) : Nat := x.no / x.g

/-- N-blocks of a route (Table 6.3). -/
def routeBlocks (w : Line) (fw : Fmt) (r : Route) (g cg ng no : Nat) : Nat :=
  match r with
  | .dense => ceilDiv no (shapeN w)
  | .depthwise => 1
  | .packed => ceilDiv g (kPerPass fw / max 1 cg)
  | .blocked => g * ceilDiv ng (shapeN w)

/-- The route of an admitted convolution. -/
def cnvRoute (x : Cnv) : Route := routeFor x.op.word x.a x.w

/-- Group that N-block nb of the group-blocked route belongs to, and the number of the block in it (R202). -/
def blockOf (x : Cnv) (nb : Nat) : Nat × Nat := let per := max 1 (ceilDiv (ngOf x) (shapeN x.op.word)); (nb / per, nb % per)

/-- Output channels of N-block nb (R202, R203), on the group-blocked route with the channels beyond its group's last, which the block accumulates too. -/
def blockCols (x : Cnv) (nb : Nat) : List Nat :=
  let w := shapeN x.op.word
  match cnvRoute x with
  | .dense => (List.range (min w (x.no - nb * w))).map (nb * w + ·)
  | .depthwise => List.range x.no
  | .packed =>
    let gp := kPerPass (cnvFw x) / max 1 (cgOf x)
    (List.range (min (gp * ngOf x) (x.no - nb * gp * ngOf x))).map (nb * gp * ngOf x + ·)
  | .blocked =>
    let (g, j) := blockOf x nb
    let c0 := g * ngOf x + j * w
    (List.range (min w (x.no - c0))).map (c0 + ·)

/-- Output channels of N-block nb that drain (R202). -/
def drainCols (x : Cnv) (nb : Nat) : List Nat :=
  match cnvRoute x with
  | .blocked => (blockCols x nb).filter (· < ((blockOf x nb).1 + 1) * ngOf x)
  | _ => blockCols x nb

/-- Group whose input channels channel ch of N-block nb takes: its own, or on the group-blocked route the block's. -/
def groupAt (x : Cnv) (nb ch : Nat) : Nat := if cnvRoute x = .blocked then (blockOf x nb).1 else ch / max 1 (ngOf x)

/-- The slices of N-block nb: each a list of input channels, with the channel from which its real-zero tail begins (R193, R202, R203). -/
def blockSlices (x : Cnv) (nb : Nat) : List (List Nat × Nat) :=
  let kd := kPerPass (cnvFw x)
  match cnvRoute x with
  | .packed => let c0 := kd * nb; [((List.range kd).map (c0 + ·), x.c)]
  | .blocked =>
    let g := nb / max 1 (ceilDiv (ngOf x) (shapeN x.op.word))
    let c0 := g * cgOf x
    (List.range (ceilDiv (cgOf x) kd)).map fun k => ((List.range kd).map (c0 + k * kd + ·), c0 + cgOf x)
  | _ => (List.range (ceilDiv x.c kd)).map fun k => ((List.range kd).map (k * kd + ·), x.c)

/-- Weight of output channel ch at input channel c of group g and tap (kx, ky): zero where c is not of the group (R203). -/
def cnvWgt (d : Dev) (x : Cnv) (g ch c kx ky : Nat) : Val :=
  if g * cgOf x ≤ c ∧ c < (g + 1) * cgOf x then wgtVal d x.pw x.w x.no ch (elemRaw d x.pw x.w [ch, c - g * cgOf x, kx, ky])
  else .zero false

/-- Poison of that weight or of its codebook. -/
def cnvWgtPoison (d : Dev) (x : Cnv) (g ch c kx ky : Nat) : Bool :=
  decide (g * cgOf x ≤ c ∧ c < (g + 1) * cgOf x) && (bookPoison d x.pw x.w x.no ch || elemPoison d x.pw x.w [ch, c - g * cgOf x, kx, ky])

/-- Code of a slice element: real zero past the slice's last channel and for listed outliers. -/
def sliceRaw (d : Dev) (x : Cnv) (lim : Nat) (iy ix : Int) (c : Nat) : Nat :=
  if lim ≤ c ∨ x.list.contains c = true then realZero (cnvFa x) (dZp x.a) else cnvRaw d x iy ix c

/-- A tile of the walk: output row, N-block, and the output columns of its segment in order (R194, R211). -/
structure CnvTile where
  oy : Nat := 0
  nb : Nat := 0
  cols : List Nat := []
  deriving DecidableEq, Repr

/-- Segments of the output columns: for TCONV column phase by column phase (R211). -/
def segColumns (x : Cnv) (width : Nat) : List (List (List Nat)) :=
  let w := x.op.word
  let phases := if x.trans then (List.range (rStrideW w)).map fun ps => (List.range width).filter fun c => (c + rPadLeft w) % rStrideW w == ps
    else [List.range width]
  phases.map fun cs =>
    let seg := if rMchunk w = 0 then max 1 cs.length else rMchunk w
    chunks seg (ceilDiv cs.length seg) cs

/-- N-blocks of the instruction. -/
def cnvBlocks (x : Cnv) : Nat := routeBlocks x.op.word (cnvFw x) (cnvRoute x) x.g (cgOf x) (ngOf x) x.no

/-- Tiles of one output row in order: column phase, N-block, segment (R194, R211). -/
def rowTiles (x : Cnv) (oy : Nat) : List CnvTile :=
  (segColumns x (dExt x.o 1)).flatMap fun segs => (List.range (cnvBlocks x)).flatMap fun nb => segs.map fun cs => { oy := oy, nb := nb, cols := cs }

/-- Work tiles of a convolution (R194, R211), at its declared extents. -/
def cnvTiles (x : Cnv) : Nat := dExt x.o 2 * (rowTiles x 0).length

/-- Tile t. -/
def cnvTile (x : Cnv) (t : Nat) : CnvTile :=
  let per := max 1 (rowTiles x 0).length
  (rowTiles x (t / per)).getD (t % per) {}

/-- Passes of a tile in the walk's order: tap row, slice, tap column, with whether each is skipped (R195, R196). -/
def tilePasses (x : Cnv) (t : CnvTile) : List ((Nat × Nat × List Nat × Nat) × Bool) :=
  (tapRows x).flatMap fun ky => match inRow x t.oy ky with
    | none => []
    | some iy => (blockSlices x t.nb).flatMap fun sl => (tapCols x).filterMap fun kx =>
      if (t.cols.head?.bind fun c => inCol x c kx).isNone then none
      else
        let skip := padIsZero x && (t.cols.filter (· < x.ow)).all fun c => match inCol x c kx with
          | some ix => !(inside iy x.ah && inside ix x.aw)
          | none => true
        some ((ky, kx, sl.1, sl.2), skip)

/-- A pass of a tile: tap row, tap column, the slice's channels, and the channel from which its real-zero tail begins. -/
abbrev Pass := Nat × Nat × List Nat × Nat

/-- Poison of the weight tile of a pass: any word of the columns `held` of the array (R129). -/
def passPoison (d : Dev) (x : Cnv) (nb : Nat) (held : List Nat) (p : Pass) : Bool :=
  held.any fun ch => (p.2.2.1.filter (· < p.2.2.2)).any fun c => cnvWgtPoison d x (groupAt x nb ch) ch c p.2.1 p.1

/-- One pass's contribution on array `ai` to a pixel and channel of N-block nb, and its poison. -/
def passBeats (d : Dev) (x : Cnv) (nb ai : Nat) (held : List Nat) (oy ox ch : Nat) (p : Pass) : List Contrib × Bool :=
  let (ky, kx, cs, lim) := p
  match inRow x oy ky, inCol x ox kx with
  | some iy, some ix =>
    let avs := cs.map fun c => elemVal (cnvFa x) (sliceRaw d x lim iy ix c)
    let wvs := cs.map fun c => cnvWgt d x (groupAt x nb ch) ch c kx ky
    (beatSums (cnvFa x) (cnvFw x) (sumGroups false (arr (coreOf d x.n) ai).repair (cnvFw x)) avs wvs,
     anyPoison d x.n && ((cs.any fun c => c < lim && cnvPoison d x iy ix c) || passPoison d x nb held p))
  | _, _ => ([], false)

/-- PM entry on array `ai` of one pixel and channel after the passes that run (R195, R196). -/
def cnvAcc (d : Dev) (x : Cnv) (nb ai : Nat) (held : List Nat) (oy ox ch : Nat) (ps : List Pass) : PmEntry :=
  (ps.foldl (fun (e : PmEntry × Bool) p =>
    let (bs, q) := passBeats d x nb ai held oy ox ch p
    (pmRow (cnvFloat x) e.1 e.2 q bs, false)) (({} : PmEntry), true)).1

/-- Sum of weights: FP32 with each addition rounded on the floating path, else exact (R96). -/
def sumWeights (float : Bool) (ws : List Val) : Val :=
  if float then ws.foldl fadd (.zero false) else ofInt (ws.foldl (fun s v => s + intVal v) 0)

/-- W_n over the passes that run (R196, R206, R210). -/
def cnvWsum (d : Dev) (x : Cnv) (nb ch : Nat) (ps : List Pass) : Val :=
  sumWeights (cnvFloat x) (ps.flatMap fun p => (p.2.2.1.filter (· < p.2.2.2)).map fun c => cnvWgt d x (groupAt x nb ch) ch c p.2.1 p.1)

/-- D_n: the weights of the dropped taps of channel ch's group (R206). -/
def cnvDterm (d : Dev) (x : Cnv) (ch : Nat) : Val :=
  let w := x.op.word
  let g := ch / max 1 (ngOf x)
  let cs := (List.range (cgOf x)).map (g * cgOf x + ·)
  let ws := (List.range (rKh w)).flatMap fun ky => (List.range (rKw w)).flatMap fun kx =>
    if (tapRows x).contains ky && (tapCols x).contains kx then [] else cs.map fun c => cnvWgt d x g ch c kx ky
  sumWeights (cnvFloat x) ws

/-- Real value of padding in the accumulator's units, where a degenerate dimension needs its constant term (R206). -/
def padValue (x : Cnv) : Int :=
  if !x.trans && rPadMode x.op.word = 0 && cnvFa x = .uint8 && ((tapRows x).length < rKh x.op.word || (tapCols x).length < rKw x.op.word) then -(x.a.zp : Int) else 0

/-- Row number, in the source's planes, of an output pixel's anchor input pixel (R558). -/
def anchorRow (x : Cnv) (oy ox : Nat) : Nat :=
  let w := x.op.word
  let iy : Int := if x.trans then ((oy + rPadTop w) / rStrideH w : Nat) else oy * rStrideH w + (rKh w - 1) / 2 * rDilH w - rPadTop w
  let ix : Int := if x.trans then ((ox + rPadLeft w) / rStrideW w : Nat) else ox * rStrideW w + (rKw w - 1) / 2 * rDilW w - rPadLeft w
  clampTo ix x.aw + x.dw * clampTo iy x.ah

/-- Exponent of an output pixel's anchor input pixel (R558). -/
def anchorExp (d : Dev) (x : Cnv) (oy ox : Nat) : Int := rowExp d x.pa x.a (anchorRow x oy ox)

/-- Row number in the source's planes of the input pixel at row iy, column ix (R92). -/
def pixelRow (x : Cnv) (iy ix : Nat) : Nat := ix + x.dw * iy

/-- Value that the feeders pass to the VU for listed channel c, i-th of the list, of the input pixel at row iy, column ix (R104): from the side plane or (q - z); for a padding pixel (q - z) of its stored code, in replication the nearest pixel's value (Table 6.2; log 24). -/
def cnvOutlier (d : Dev) (x : Cnv) (iy ix : Int) (i c : Nat) : Val :=
  let at' (y z : Nat) : Val :=
    if hasSide x.a then decodeFloat f16 (tNum d x.pa (sidePlane x.a) (128 * pixelRow x y z + 2 * i) 2)
    else
      let raw := elemRaw d x.pa x.a [c, z, y]
      if fmtIsInt (cnvFa x) then ofInt (intOf (cnvFa x) raw - dZp x.a) else elemVal (cnvFa x) raw
  if inside iy x.ah && inside ix x.aw then at' iy.toNat ix.toNat
  else if x.trans || rPadMode x.op.word = 1 then .zero false
  else if rPadMode x.op.word = 2 then at' (clampTo iy x.ah) (clampTo ix x.aw)
  else ofInt (-(dZp x.a : Int))

/-- Listed channels of the group of channel ch, each with its place in the list. -/
def listedOf (x : Cnv) (ch : Nat) : List (Nat × Nat) :=
  let g := ch / max 1 (ngOf x)
  (withPos x.list).filter fun i => decide (g * cgOf x ≤ i.2) && decide (i.2 < (g + 1) * cgOf x)

/-- Taps of the passes that run, in the walk's order, that read a pixel for output (oy, ox): row, column and the input pixel of each. -/
def liveTaps (x : Cnv) (oy ox : Nat) (ps : List Pass) : List (Nat × Nat × Int × Int) :=
  ((tapRows x).flatMap fun ky => (tapCols x).map fun kx => (ky, kx)).filterMap fun t =>
    if ps.any fun p => p.1 == t.1 && p.2.1 == t.2 then
      (match inRow x oy t.1, inCol x ox t.2 with
        | some iy, some ix => some (t.1, t.2, iy, ix)
        | _, _ => none)
    else none

/-- Terms of the outlier sum of an output pixel and channel: value and weight, taps in order, channels in list order (R105; log 24). -/
def outlierTerms (d : Dev) (x : Cnv) (oy ox ch : Nat) (ps : List Pass) : List (Val × Val) :=
  (liveTaps x oy ox ps).flatMap fun t => (listedOf x ch).map fun i =>
    (cnvOutlier d x t.2.2.1 t.2.2.2 i.1 i.2, cnvWgt d x (ch / max 1 (ngOf x)) ch i.2 t.2.1 t.1)

/-- Outlier sum of an output pixel and channel (R105). -/
def cnvOutliers (d : Dev) (x : Cnv) (oy ox ch : Nat) (ps : List Pass) : Option Val :=
  if x.list.isEmpty then none
  else some ((outlierTerms d x oy ox ch ps).foldl (fun s t => fadd s (fmul t.1 t.2)) (.zero false))

/-- Poison of what the VU reads for an output pixel's outlier sums (R130). -/
def cnvOutlierPoison (d : Dev) (x : Cnv) (oy ox : Nat) (chs : List Nat) (ps : List Pass) : Bool :=
  !x.list.isEmpty && anyPoison d x.n && (liveTaps x oy ox ps).any fun t =>
    (withPos x.list).any fun i =>
      (inside t.2.2.1 x.ah && inside t.2.2.2 x.aw
        && (if hasSide x.a then tPoison d x.pa (sidePlane x.a) (128 * pixelRow x t.2.2.1.toNat t.2.2.2.toNat + 2 * i.1) else cnvPoison d x t.2.2.1 t.2.2.2 i.2))
      || chs.any fun ch => cnvWgtPoison d x (ch / max 1 (ngOf x)) ch i.2 t.2.1 t.1

/-- Invalid operands that the VU reads for an output pixel's outlier sums (R73). -/
def cnvOutlierInvalid (d : Dev) (x : Cnv) (oy ox : Nat) (chs : List Nat) (ps : List Pass) : Nat :=
  if x.list.isEmpty then 0
  else ((liveTaps x oy ox ps).flatMap fun t => (withPos x.list).map fun i => cnvOutlier d x t.2.2.1 t.2.2.2 i.1 i.2).countP invalidVal
    + (chs.flatMap fun ch => (outlierTerms d x oy ox ch ps).map (·.2)).countP invalidVal

/-! ### The depthwise route (R204) -/

/-- Taps of an output element on the depthwise route: those of its phase (R204, R210). -/
def dwTaps (x : Cnv) (oy ox : Nat) : List (Nat × Nat × Int × Int) :=
  (tapRows x).flatMap fun ky => (tapCols x).filterMap fun kx => match inRow x oy ky, inCol x ox kx with
    | some iy, some ix => some (ky, kx, iy, ix)
    | _, _ => none

/-- Depthwise accumulation of one output element on the VU: taps ky then kx; integers saturate, floats round each addition (R204). -/
def dwAcc (d : Dev) (x : Cnv) (oy ox ch : Nat) : PmEntry :=
  let c := ch / max 1 (ngOf x)
  ((dwTaps x oy ox).foldl (fun (e : PmEntry × Bool) t =>
    let p := vmul (elemVal (cnvFa x) (cnvRaw d x t.2.2.1 t.2.2.2 c)) (cnvWgt d x c ch c t.2.1 t.1)
    let q := anyPoison d x.n && (cnvPoison d x t.2.2.1 t.2.2.2 c || cnvWgtPoison d x c ch c t.2.1 t.1)
    (if cnvFloat x then pmFloat e.1 e.2 p false q else pmInt e.1 e.2 (intVal p) q, false)) (({} : PmEntry), true)).1

/-- Invalid operands of a depthwise tile: every input element, weight and scale that it reads, once (R73; log 189). -/
def dwInvalid (d : Dev) (x : Cnv) (oy : Nat) (live chs : List Nat) : Nat :=
  let taps := live.flatMap fun ox => dwTaps x oy ox
  let pixels := (taps.map fun t => (t.2.2.1, t.2.2.2)).eraseDups
  let wts := (taps.map fun t => (t.1, t.2.1)).eraseDups
  (pixels.flatMap fun p => ((chs.map (· / max 1 (ngOf x))).eraseDups).map fun c => elemVal (cnvFa x) (cnvRaw d x p.1 p.2 c)).countP invalidVal
    + (wts.flatMap fun t => chs.map fun ch => cnvWgt d x (ch / max 1 (ngOf x)) ch (ch / max 1 (ngOf x)) t.2 t.1).countP invalidVal
    + scaleInvalid d x.pw x.w chs

/-! ### A tile's parts, their passes and their drain -/

/-- The convolution as the matrix operations see it, for its columns, rows and arrays. -/
def matLike (x : Cnv) : Mat := { n := x.n, op := x.op, on := x.on, geo := x.geo }

/-- PM key of pixel r of a part and column c of it. -/
def cnvKey (x : Cnv) (region r c : Nat) : Nat := pmKey (matLike x) region r c

/-- Parts of a tile: on a core with three arrays 32 columns at a time (R201), and sub-chunks of the pixels that the admitted region holds (R495). -/
def cnvParts (x : Cnv) (t : CnvTile) : List (List Nat × List Nat) :=
  let cols := blockCols x t.nb
  let live := t.cols.filter (· < x.ow)
  if x.on.length = 3 then
    let k := subChunk (matLike x)
    (chunks 32 (ceilDiv cols.length 32) cols).flatMap fun cs => (chunks k (ceilDiv live.length k) live).map fun rs => (rs, cs)
  else [(live, cols)]

/-- Cells of pixel `ox` of a part. -/
def cnvCells (x : Cnv) (region : Nat) (rows cols : List Nat) (ox : Nat) : List Cell :=
  (withPos cols).map fun c => { ch := c.2, key := cnvKey x region (rows.idxOf ox) c.1, col := c.1 % 32 }

/-- Rescale one output element (R97, R204, R206, R558). -/
def cnvRescale (d : Dev) (x : Cnv) (oy ox nb : Nat) (ps : List Pass) (ch : Nat) (e : PmEntry) (osum : Option Val) (scale : Val) : Val × Bool :=
  let z := dZp x.a
  let v := if cnvFloat x then ofF32 e.bits else ofInt e.bits.toInt
  let vp := padValue x
  let wsum := if z = 0 then .zero false
    else if cnvRoute x = .depthwise then
      let c := ch / max 1 (ngOf x)
      sumWeights (cnvFloat x) ((dwTaps x oy ox).map fun t => cnvWgt d x c ch c t.2.1 t.1)
    else cnvWsum d x nb ch ps
  (rescale (!cnvFloat x) v z wsum (if vp = 0 then .zero false else cnvDterm d x ch) vp osum scale (anchorExp d x oy ox), e.poison)

/-- Drain one output pixel: its cells' entries are rescaled, narrowed and written (R97); a saturated accumulator counts, on the depthwise route too (R87; log 186). -/
def cnvDrainPixel (d : Dev) (x : Cnv) (u : UnitTag) (t : CnvTile) (ps : List Pass) (ox : Nat) (osum : Nat → Option Val)
    (cells : List (Cell × PmEntry)) (m : Made) : Dev × Made :=
  let dw := cnvRoute x == .depthwise
  let vals := cells.map fun ce => cnvRescale d x t.oy ox t.nb ps ce.1.ch ce.2 (osum ce.1.ch)
    (if dw then scaleOf d x.pw x.w ce.1.ch else drainScale d x.n (ce.1.key / 32768) ce.1.col u x.pw x.w ce.1.ch)
  let ns := cells.countP fun ce => ce.2.sat
  let d := bump d (0x2230 + x.n) 4 4 ns
  let chs := cells.map (·.1.ch)
  let read := anyPoison d x.n && (cnvOutlierPoison d x t.oy ox chs ps || chs.any (scalePoison d x.pw x.w)
    || (x.a.expMode % 2 == 1 && tPoison d x.pa (expPlane x.a) (anchorRow x t.oy ox)))
  emitRow d x.n x.op.wc x.po x.o (opDescRaw x.op (rDescO x.op.word)) (opList x.op (rDescO x.op.word)) (x.o.expMode == 3)
    (ox + dExt x.o 1 * t.oy) [chs.headD 0, ox, t.oy] vals { m with sat := m.sat || decide (0 < ns), poisoned := m.poisoned || read }

/-- Drain pixels of a part in order. -/
def cnvDrainRows (d : Dev) (x : Cnv) (u : UnitTag) (t : CnvTile) (ps : List Pass) (region : Nat) (rows cols : List Nat) : List Nat → Made → Dev × Made
  | [], m => (d, m)
  | ox :: rest, m =>
    let cells := (cnvCells x region rows cols ox).filter fun c => (drainCols x t.nb).contains c.ch
    let es := cells.map fun c => (c, if cnvRoute x = .depthwise then dwAcc d x t.oy ox c.ch else pmAt (coreOf d x.n) c.key)
    let (d, m) := if cells.isEmpty then (d, m) else cnvDrainPixel d x u t ps ox (fun ch => cnvOutliers d x t.oy ox ch ps) es m
    cnvDrainRows d x u t ps region rows cols rest m

/-- Passes of a tile that run. -/
def livePasses (x : Cnv) (t : CnvTile) : List Pass := ((tilePasses x t).filter fun p => !p.2).map (·.1)

/-- A tile lies wholly beyond the actual extents (R200). -/
def cnvSkipped (x : Cnv) (t : CnvTile) : Bool := decide (x.oh ≤ t.oy) || (t.cols.filter (· < x.ow)).isEmpty

/-- Offset of the PM region of the i-th tile that a core takes (R168). -/
def cnvRegion (x : Cnv) (i : Nat) : Nat := if rPmDouble x.op.word then i % 2 * opPmRows x.op else 0

/-- Channels of a part that stand in the cells with channel ch. -/
def cnvMates (cols : List Nat) (ch : Nat) : List Nat := (cols.drop (cols.idxOf ch / 32 * 32)).take 32

/-- PM entries of a part after its passes, by key (R195). -/
def cnvEntries (d : Dev) (x : Cnv) (t : CnvTile) (region : Nat) (rows cols : List Nat) : List (Nat × PmEntry) :=
  let ps := livePasses x t
  rows.flatMap fun ox => (cnvCells x region rows cols ox).map fun c =>
    (c.key, cnvAcc d x t.nb (c.key / 32768) (cnvMates cols c.ch) t.oy ox c.ch ps)

/-- Invalid operands of a part's passes: activations once per row issue, weights once per tile load, codebooks once per load of an array's tile, scales once per load of a bank (R73; log 189). -/
def cnvInvalid (d : Dev) (x : Cnv) (t : CnvTile) (rows cols : List Nat) : Nat :=
  let ps := livePasses x t
  let tiles := chunks 32 (ceilDiv cols.length 32) cols
  (ps.map fun p =>
    let cs := p.2.2.1.filter (· < p.2.2.2)
    (rows.flatMap fun ox => match inRow x t.oy p.1, inCol x ox p.2.1 with
      | some iy, some ix => cs.map fun c => elemVal (cnvFa x) (sliceRaw d x p.2.2.2 iy ix c)
      | _, _ => []).countP invalidVal
    + (if cnvFw x = .cb4 then (tiles.map fun l => bookInvalid d x.pw x.w x.no l).sum
       else (cols.flatMap fun ch => cs.map fun c => cnvWgt d x (groupAt x t.nb ch) ch c p.2.1 p.1).countP invalidVal)).sum
  + (tiles.map fun l => scaleInvalid d x.pw x.w l).sum

/-- One part of a tile: its passes run and PM is written (R195, R196). -/
def computeCnvPart (d : Dev) (x : Cnv) (u : UnitTag) (t : CnvTile) (region : Nat) (rows cols : List Nat) : Dev :=
  let all := tilePasses x t
  let ps := livePasses x t
  let es := cnvEntries d x t region rows cols
  let d := bump d (0x2290 + x.n) 2 8 (all.filter (·.2)).length
  let d := bump d (0x2210 + x.n) 4 8 (rows.length * ps.length * copiesOf (matLike x) cols)
  let d := bump d (0x2230 + x.n) 3 4 (cnvInvalid d x t rows cols)
  let d := if x.list.isEmpty then d
    else bump (bump d (0x2230 + x.n) 6 8 rows.length) (0x2230 + x.n) 3 4 ((rows.map fun ox => cnvOutlierInvalid d x t.oy ox cols ps).sum)
  let d := (withPos x.on).foldl (fun d a => updArr d x.n a.2 fun v =>
    let chs := bankChans (matLike x) cols a.1
    let v := { v with passes := v.passes + ps.length }
    if chs.isEmpty then v else loadBank v u (chs.map (scaleCode d x.pw x.w))) d
  putPm d x.n es

/-- Drain a part of a tile (R60, R97, R126). -/
def drainCnvPart (d : Dev) (x : Cnv) (u : UnitTag) (t : CnvTile) (region : Nat) (rows cols : List Nat) (m : Made) : Dev × Made :=
  if cnvRoute x = .depthwise then cnvDrainRows d x u t [] region rows cols rows m
  else
    let keys := rows.flatMap fun ox => (cnvCells x region rows cols ox).map (·.key)
    let d := readPm d x.n keys
    let d := if wCheckMode (wcOf d x.op.wc) = 0 then bump d (0x2210 + x.n) 8 4 (uncheckedRows (coreOf d x.n) (keys.map pmRowKey).eraseDups) else d
    cnvDrainRows d x u t (livePasses x t) region rows cols rows m

/-- Compute and drain the parts of a list one after another (R201). -/
def runCnvParts (d : Dev) (x : Cnv) (u : UnitTag) (t : CnvTile) (region : Nat) : List (List Nat × List Nat) → Made → Dev × Made
  | [], m => (d, m)
  | p :: ps, m =>
    let (d, m) := drainCnvPart (computeCnvPart d x u t region p.1 p.2) x u t region p.1 p.2 m
    runCnvParts d x u t region ps m

/-- Input lines that output row oy reads: those of the actual input, and in replication the edge lines (R193). -/
def linesRead (x : Cnv) (oy : Nat) : List Nat :=
  (tapRows x).filterMap fun ky => (inRow x oy ky).bind fun v =>
    if inside v x.ah then some v.toNat else if !x.trans && rPadMode x.op.word = 2 then some (clampTo v x.ah) else none

/-- The input lines of an output row pass the correction stage where A lies in a window (R126). -/
def touchLines (d : Dev) (x : Cnv) (oy : Nat) : Dev :=
  if x.a.space = 3 then (linesRead x oy).foldl (fun d l => touchData d x.pa x.a.base (l * dStride x.a 2) (dStride x.a 2)) d else d

/-- One work tile, the i-th this core takes, up to its claim: its first part runs and PM is written; the depthwise route uses no PM (R195, R196, R200, R204). -/
def computeCnv (d : Dev) (x : Cnv) (i k : Nat) (t : CnvTile) : Dev :=
  if cnvSkipped x t then bump d (0x2280 + x.n) 1 8 1
  else
    let d := touchLines d x t.oy
    if cnvRoute x = .depthwise then
      let live := t.cols.filter (· < x.ow)
      bump (bump d (0x2290 + x.n) 4 8 live.length) (0x2230 + x.n) 3 4 (dwInvalid d x t.oy live (blockCols x t.nb))
    else match cnvParts x t with
      | p :: _ => computeCnvPart d x (unitOf x.op k) t (cnvRegion x i) p.1 p.2
      | [] => d

/-- Drain work tile k after its claim; the parts behind the first run and drain in turn (R201). -/
def drainCnv (d : Dev) (x : Cnv) (i k : Nat) (t : CnvTile) (m : Made) : Dev × Made :=
  if cnvSkipped x t then (d, m)
  else if cnvRoute x = .depthwise then
    let live := t.cols.filter (· < x.ow)
    drainCnvPart d x (unitOf x.op k) t 0 live (blockCols x t.nb) m
  else match cnvParts x t with
    | p :: ps =>
      let (d, m) := drainCnvPart d x (unitOf x.op k) t (cnvRegion x i) p.1 p.2 m
      runCnvParts d x (unitOf x.op k) t (cnvRegion x i) ps m
    | [] => (d, m)

/-- Run one work tile, number k. -/
def runCnvTile (d : Dev) (x : Cnv) (k : Nat) (t : CnvTile) (m : Made) : Dev × Made := drainCnv (computeCnv d x k k t) x k k t m

/-- Run tiles in order, from number k. -/
def runCnvTiles (d : Dev) (x : Cnv) (k : Nat) : List CnvTile → Made → Dev × Made
  | [], m => (d, m)
  | t :: ts, m => let (d, m) := runCnvTile d x k t m; runCnvTiles d x (k + 1) ts m

/-! ### Rows and window lines (R199) -/

/-- Units of one input line (R199). -/
def lineUnits (x : Cnv) : Nat := dStride x.a 2 / 512

/-- Input lines, from line 0, that must have landed for output row oy: up to the last that it reads (R199); for TCONV up to line floor((y + PAD_TOP) / s_h) (R211). -/
def linesNeeded (x : Cnv) (oy : Nat) : Nat :=
  if x.trans then min x.ah ((oy + rPadTop x.op.word) / rStrideH x.op.word + 1)
  else (linesRead x oy).foldl (fun m l => max m (l + 1)) 0

/-- Last output row that reads input line i (R199, R206, R211). -/
def lastReader (x : Cnv) (i : Nat) : Nat :=
  let w := x.op.word
  min (x.oh - 1) (if x.trans then i * rStrideH w + (rKh w - 1) * rDilH w - rPadTop w else (((i : Int) + padAhead x) / rStrideH w).toNat)

/-- Units, counted from the tensor's base, that have landed. -/
def landedUnits (x : Cnv) : Nat := landedFrom x.pa.win (x.a.base % 4096) x.op.freed

/-- Output row oy may run: its input lines have landed (R199). -/
def rowReady (x : Cnv) (oy : Nat) : Bool := x.a.space != 3 || decide (linesNeeded x oy * lineUnits x ≤ landedUnits x)

/-- Input lines freed once output rows below oy have retired: those whose last reader is below oy (R199). -/
def linesFreed (x : Cnv) (oy : Nat) : Nat := (List.range x.ah).countP fun i => decide (lastReader x i < oy)

/-- Some unit of the lines that output row oy reads is hollow (R235, R236). -/
def rowHollow (x : Cnv) (oy : Nat) : Bool :=
  x.a.space == 3 && x.pa.win.hollow.any fun h => (linesRead x oy).contains (hollowFrom h (x.a.base % 4096) x.op.freed / max 1 (lineUnits x))

/-- Hollow units for the pixels of an output row that `keep` names, where the output lies in a remote window (R236). -/
def cnvBlank (d : Dev) (n : Nat) (x : Cnv) (keep : List Nat → Bool) : Dev :=
  let ext := opExt x.op (rDescO x.op.word)
  if x.o.space = 4 then sendPieces d n x.op x.o ext (blankPieces x.o ext keep) true false else d

/-- Run output row oy: its tiles, its output, and the lines it frees (R194, R199); a row of an Incomplete instruction sends hollow units only (R236). -/
def runCnvRow (d : Dev) (n : Nat) (i : Nat) (op : Op) (trans : Bool) : Dev :=
  let x := cnvOf d n op trans
  let oy := op.row
  let hollow := op.incomplete || rowHollow x oy
  let d := if hollow then cnvBlank d n x fun ix => ix.getD 2 0 == oy
    else
      let (d, m) := runCnvTiles (bump d (0x2290 + n) 1 8 1) x (oy * (rowTiles x 0).length) (rowTiles x oy) {}
      putMade d n i op x.o (rDescO op.word) m
  let fr := if x.a.space = 3 ∧ x.pa.win.block = false then linesFreed x (oy + 1) * lineUnits x - op.freed else 0
  let d := if fr = 0 then d else freeUnits d n { win := x.a.window, free := fr }
  updOp d n i fun o => { o with row := oy + 1, freed := op.freed + fr, incomplete := hollow }

/-- Run the output rows of the convolution at position i of core n that are ready, up to `k` of them; after the last row it is complete. -/
def cnvAdvance (d : Dev) (n i : Nat) (trans : Bool) : Nat → Dev
  | 0 => d
  | k + 1 =>
    match (coreOf d n).ops[i]? with
    | none => d
    | some op =>
      let x := cnvOf d n op trans
      if x.oh ≤ op.row then
        let rest := (op.units.map fun u => { u with free := u.free - op.freed })
        let d := bump d (0x2280 + n) 1 8 ((dExt x.o 2 - x.oh) * (rowTiles x 0).length)
        finishOp (endOut d n op x.o (opExt op (rDescO op.word))) n i fun o => { o with units := rest, seqWords := seqGranule x.o }
      else if rowReady x op.row && vuFree (coreOf d n) op then cnvAdvance (runCnvRow d n i op trans) n i trans k
      else d

/-- A CONV or TCONV begins: it runs every output row whose lines have landed. A shared one waits for its tiles (R195, R200). -/
def runConv (d : Dev) (i n : Nat) (op : Op) (trans : Bool) : Dev :=
  if rGroup op.word ≠ 0 then d else cnvAdvance d n i trans ((cnvOf d n op trans).oh + 1)

/-- An issued convolution that is not complete, dealt to no shared counter, whose next row is ready. -/
def cnvPending (d : Dev) (n : Nat) (oc : Nat) : Option (Nat × Op) :=
  (withPos (coreOf d n).ops).find? fun x => rOpcode x.2.word == oc && x.2.issued && !x.2.done && rGroup x.2.word == 0
    && (let c := cnvOf d n x.2 (oc == 0x09); decide (c.oh ≤ x.2.row) || (rowReady c x.2.row && vuFree (coreOf d n) x.2))

/-- CONV or TCONV: an unfinished one goes on with the rows that have become ready; otherwise the next one issues. -/
def convCommand (d : Dev) (n oc : Nat) : Dev :=
  match cnvPending d n oc with
  | some (i, o) => cnvAdvance d n i (oc == 0x09) ((cnvOf d n o (oc == 0x09)).oh + 1)
  | none => issueAs d n (fun o => rOpcode o.word == oc) fun d i o => runConv d i n o (oc == 0x09)

/-- CONV (R195). -/
def execConv (n : Fin 16) (s : State) : Host.Outcome State Fault Refusal := nextDev s fun d => convCommand d n 0x08

/-- TCONV (R208). -/
def execTconv (n : Fin 16) (s : State) : Host.Outcome State Fault Refusal := nextDev s fun d => convCommand d n 0x09

end Sys2Proof.Machine
end

