-- ==== Sys2Proof/Machine/Move.lean ====
section
/-! DEFINITION. FETCH, SPILL and XFER, the fetch engine's transfers, and a core's part in the streams (R223 to R240, R554). -/

namespace Sys2Proof.Machine

open Sys2Proof

/-! ### Transfers (R238) -/

/-- Merge dimensions, each (extent, source stride, destination stride), into the run wherever both strides equal the run's bytes. -/
def mergeRun (size : Nat) : List (Nat × Nat × Nat) → Nat × List (Nat × Nat × Nat)
  | [] => (size, [])
  | (e, a, b) :: t => if e = 1 ∨ (a = size ∧ b = size) then mergeRun (size * e) t else (size, (e, a, b) :: t)

/-- Source and destination offsets of the runs, the lowest remaining dimension fastest. -/
def runStarts : List (Nat × Nat × Nat) → List (Nat × Nat)
  | [] => [(0, 0)]
  | (e, a, b) :: t => (runStarts t).flatMap fun p => (List.range e).map fun i => (p.1 + i * a, p.2 + i * b)

/-- Runs of a tensor, cut into transfers of at most 64 KiB: source offset, destination offset, bytes. -/
def transfersOf (f : Fmt) (ext : List Nat) (src dst : Desc) : List (Nat × Nat × Nat) :=
  let dims := [1, 2, 3].map fun k => (ext.getD k 1, dStride src k, dStride dst k)
  let (size, rest) := mergeRun (elemBytes f (ext.getD 0 1)) dims
  (runStarts rest).flatMap fun p => (List.range (ceilDiv size 65536)).map fun j =>
    (p.1 + j * 65536, p.2 + j * 65536, min 65536 (size - j * 65536))

/-- Whether a transfer or granule belongs to an instruction. -/
def xferOf (o : Op) (x : Xfer) : Bool := x.wc == o.wc && x.ring == o.ring && x.pos == o.pos
def granOf (o : Op) (x : Gran) : Bool := x.wc == o.wc && x.ring == o.ring && x.pos == o.pos

/-- Set up the transfers of an issued FETCH or SPILL (R237, R238). -/
def setupFe (d : Dev) (n i : Nat) (o : Op) : Dev :=
  let src := opDesc o (rDescSrc o.word)
  let dst := opDesc o (rDescDst o.word)
  let xs := transfersOf (dFmt src) (opExt o (rDescSrc o.word)) src dst
  let xs := xs.map fun x => ({ wc := o.wc, epoch := o.epoch, ring := o.ring, pos := o.pos, src := src.base + x.1,
                               dst := (if dst.space = 4 then 0 else dst.base) + x.2.1, len := x.2.2 } : Xfer)
  let d := setOp d n i { o with seqWords := seqGranule dst }
  if xs.isEmpty then finishOp d n i id
  else updCore d n fun c => { c with fe := c.fe ++ xs }

/-- Add to the granules of work context w that core n has sent or requested and not accounted for (R259). -/
def feAdd (d : Dev) (n w k : Nat) : Dev := updCore d n fun c => { c with feOut := supd (fun _ => 0) c.feOut w (· + k) }
/-- Account for granules (R259). -/
def feSub (d : Dev) (n w k : Nat) : Dev := updCore d n fun c => { c with feOut := supd (fun _ => 0) c.feOut w (· - k) }

/-- The destination of a FETCH or SPILL as its transfers fill it: only the main data moves (R237). -/
def feDst (o : Op) : Desc := { opDesc o (rDescDst o.word) with expMode := 0, outlierCount := 0 }

/-- Place bytes at the destination of a FETCH or SPILL: PHYS as agent 0, the core's own memory, or a remote window unit by unit (R237). -/
def feStore (d : Dev) (n : Nat) (o : Op) (dst : Nat) (bs : List (Byte × Bool)) : Dev :=
  let t := feDst o
  match t.space with
  | 0 => physWriteMarked d agFe n (bs.length / 64 + 2) dst bs
  | 4 => sendPieces d n o t (opExt o (rDescDst o.word)) [{ off := dst, data := bs }] false false
  | s => opStore d n o (s == 2) (bs.length / 32 + 2) dst bs

/-- The instruction is complete when no transfer and no granule of it is left (R237). -/
def feSettle (d : Dev) (n i : Nat) (o : Op) : Dev :=
  let c := coreOf d n
  if c.fe.any (xferOf o) || c.landing.any (granOf o) then d else finishOp (endOut d n o (feDst o) (opExt o (rDescDst o.word))) n i id

/-- Cut bytes read from `a` into the granules that carry them: destination offset and bytes; `k` bounds the granules. -/
def cutGranules : Nat → Nat → Nat → List (Byte × Bool) → List (Nat × List (Byte × Bool))
  | 0, _, _, _ => []
  | _ + 1, _, _, [] => []
  | k + 1, a, dst, bs => let m := 64 - a % 64; (dst, bs.take m) :: cutGranules k (a + m) (dst + m) (bs.drop m)

/-- FE_TRANSFER (R238 to R240): the FE of core n makes its oldest transfer. A SPILL's bytes go out; a FETCH requests as many granules as its landing buffer has entries for. -/
def feTransfer (d : Dev) (n : Nat) : Dev :=
  let c := coreOf d n
  match c.disabled, c.fe with
  | false, x :: rest =>
    match opAt c x.wc x.ring x.pos with
    | some (i, o) =>
      let src := opDesc o (rDescSrc o.word)
      if rOpcode o.word = 0x19 then
        let bs := coreMarked d n (src.space == 2) x.src x.len
        let d := updCore d n fun c => { c with fe := rest }
        let d := feStore d n o x.dst bs
        let d := bump (bump d (0x22D0 + n) 1 8 1) (0x22D0 + n) 3 8 x.len
        feSettle (markPoison d n i (bs.any (·.2))) n i o
      else
        let room := 256 - c.landing.length
        let len := min x.len (room * 64 - (if room = 0 then 0 else x.src % 64))
        if len = 0 then d
        else
          let (d, bs) := memReadMarked d (some agFe) n x.src len
          let gs := (cutGranules (len / 64 + 2) x.src x.dst bs).map fun g =>
            ({ wc := x.wc, epoch := x.epoch, ring := x.ring, pos := x.pos, dst := g.1, data := g.2 } : Gran)
          let d := feAdd d n x.wc gs.length
          let left := if len < x.len then [{ x with src := x.src + len, dst := x.dst + len, len := x.len - len }] else []
          let d := updCore d n fun c => { c with fe := left ++ rest, landing := c.landing ++ gs }
          if left.isEmpty then bump d (0x22D0 + n) 1 8 1 else d
    | none => updCore d n fun c => { c with fe := rest }
  | _, _ => d

/-- FE_GRANULE_RETURN (R240, R256, R498): the oldest requested granule of core n returns; it lands, or is discarded when its epoch is stale, or the router of a disabled core sinks it. -/
def feReturn (d : Dev) (n : Nat) : Dev :=
  let c := coreOf d n
  match c.landing with
  | [] => d
  | g :: rest =>
    let d := feSub (updCore d n fun c => { c with landing := rest }) n g.wc 1
    if c.disabled then bump d (0x2300 + n) 6 8 1
    else if g.epoch ≠ (wcOf d g.wc).epoch then bump d (0x22D0 + n) 6 4 1
    else match opAt c g.wc g.ring g.pos with
      | some (i, o) =>
        let d := bump (feStore d n o g.dst g.data) (0x22D0 + n) 2 8 g.data.length
        feSettle (markPoison d n i (g.data.any (·.2))) n i o
      | none => d

/-- FE_TRANSFER (R238, R239). -/
def execFeTransfer (n : Fin 16) (s : State) : Host.Outcome State Fault Refusal := nextDev s fun d => feTransfer d n

/-- FE_GRANULE_RETURN (R256). -/
def execFeGranuleReturn (n : Fin 16) (s : State) : Host.Outcome State Fault Refusal := nextDev s fun d => feReturn d n

/-- FETCH (R237, R241): the sequencer of core n issues it and its FE sets up the transfers. -/
def execFetch (n : Fin 16) (s : State) : Host.Outcome State Fault Refusal :=
  nextDev s fun d => issueAs d n (fun o => rOpcode o.word == 0x18) fun d i o => setupFe d n i o

/-- SPILL (R237, R241). -/
def execSpill (n : Fin 16) (s : State) : Host.Outcome State Fault Refusal :=
  nextDev s fun d => issueAs d n (fun o => rOpcode o.word == 0x19) fun d i o => setupFe d n i o

/-! ### XFER -/

/-- Event 0x0703, and the instruction retires Incomplete (R228). -/
def misuse (d : Dev) (n i : Nat) (o : Op) : Dev :=
  let ch := rChannel o.word
  finishOp (postEventWc d 0x0703 0 (srcSe (ch / 64)) o.wc (ch + n * 4096)) n i fun o => { o with incomplete := true }

/-- The channel is set up with core n as its producer (R224, R228). -/
def producerOk (c : Chan) (n : Nat) : Bool := !chanInvalid c && chProdKind c == 1 && chProducer c == n
/-- The channel is set up with window `w` of core n as a receiver (R228). -/
def receiverOk (c : Chan) (n w : Nat) : Bool := !chanInvalid c &&
  (List.range 4).any fun r => let x := chRecv c r; rvValid x && rvKind x == 1 && rvCore x == n && rvWindow x == w

/-- A channel leaves idle (R225), unless its descriptor is invalid (R224). -/
def leaveIdle (c : Chan) : Chan :=
  if c.state = 0 ∧ chanInvalid c = false then
    { c with state := 1, detached := 0#4, sent := 0#12, frame := 0#12, owed := [], ended := 0#4, total := 0, held := 0#4 }
  else c

/-- The instruction as a channel names it. -/
def opRef (n : Nat) (o : Op) : OpRef := { core := n, wc := o.wc, ring := o.ring, pos := o.pos }

/-- The bytes of a tensor in element order, each with its poison (R226). -/
def tensorData (d : Dev) (n : Nat) (o : Op) (k : Nat) : Dev × List (Byte × Bool) :=
  let t := opDesc o k
  let ext := opExt o k
  let row := elemBytes (dFmt t) (ext.getD 0 1)
  let starts := (runStarts ([1, 2, 3].map fun k => (ext.getD k 1, dStride t k, 0))).map (·.1)
  if t.space = 0 then
    starts.foldl (fun (x : Dev × List (Byte × Bool)) s =>
      let (d, bs) := memReadMarked x.1 (some agSe) (srcSe (rChannel o.word / 64)) (t.base + s) row
      (d, x.2 ++ bs)) (d, [])
  else (d, starts.flatMap fun s => coreMarked d n (t.space == 2) (t.base + s) row)

/-- SEND (R226): the tensor becomes the channel's next frame; the instruction is complete when its last unit has been read. -/
def runSend (d : Dev) (n i : Nat) (o : Op) : Dev :=
  let ch := rChannel o.word
  if producerOk (chan d ch) n then
    let (d, bs) := tensorData d n o (rDescSrc o.word)
    let us := chunks 512 ((bs.length + 511) / 512) bs
    let d := markPoison d n i (bs.any (·.2))
    let d := setChan d ch (leaveIdle (chan d ch))
    if us.isEmpty then finishOp d n i id
    else setChan d ch { chan d ch with frames := (chan d ch).frames ++ [{ units := us, send := some (opRef n o) }] }
  else misuse d n i o

/-- RECV_OPEN (R554, R223): open a window with a stream channel as its writer. -/
def runRecvOpen (d : Dev) (n i : Nat) (o : Op) : Dev :=
  let ch := rChannel o.word
  if receiverOk (chan d ch) n (rWindow o.word) then
    let t := opDesc o (rDescDst o.word)
    finishOp (openWindow d n (rWindow o.word) (t.space == 2) (rWmode o.word == 1) (rWsize o.word) (t.base / 512)
      (BitVec.ofNat 16 (0x2000 + ch)) o.wc o.epoch) n i id
  else misuse d n i o

/-- RECV_END (R151, R228): the window closes when the instruction retires; a channel's window is checked, another writer's is not. -/
def runRecvEnd (d : Dev) (n i : Nat) (o : Op) : Dev :=
  let w := win (coreOf d n) (rWindow o.word)
  let agent := w.state != 0 && w.writer.toNat / 4096 != 2
  if agent || (receiverOk (chan d (rChannel o.word)) n (rWindow o.word)
      && (w.state == 0 || w.writer == BitVec.ofNat 16 (0x2000 + rChannel o.word))) then
    finishOp d n i fun o => { o with closes := o.closes ++ [rWindow o.word] }
  else misuse d n i o

/-- END_STREAM (R227): the channel will send STREAM_END after every earlier frame, and before every later one. -/
def runEndStream (d : Dev) (n i : Nat) (o : Op) : Dev :=
  let ch := rChannel o.word
  if producerOk (chan d ch) n then
    setChan d ch { leaveIdle (chan d ch) with frames := (chan d ch).frames ++ [{ ends := true, send := some (opRef n o) }] }
  else misuse d n i o

/-- OPEN_AGENT (R554, R250): open a window for a core FE, the IPL or the MPE; a waiting core writer starts sending. -/
def runOpenAgent (d : Dev) (n i : Nat) (o : Op) : Dev :=
  let t := opDesc o (rDescDst o.word)
  let wr := BitVec.ofNat 16 (rWkind o.word * 4096 + rChannel o.word)
  let d := openWindow d n (rWindow o.word) (t.space == 2) (rWmode o.word == 1) (rWsize o.word) (t.base / 512) wr o.wc o.epoch
  let d := finishOp d n i id
  if rWkind o.word = 1 then pump d (rChannel o.word) else d

/-- XFER SEND (R226). -/
def execXferSend (n : Fin 16) (s : State) : Host.Outcome State Fault Refusal :=
  nextDev s fun d => issueAs d n (fun o => rOpcode o.word == 0x1A && rXop o.word == 0) fun d i o => runSend d n i o

/-- XFER RECV_OPEN (R554). -/
def execXferRecvOpen (n : Fin 16) (s : State) : Host.Outcome State Fault Refusal :=
  nextDev s fun d => issueAs d n (fun o => rOpcode o.word == 0x1A && rXop o.word == 1) fun d i o => runRecvOpen d n i o

/-- XFER RECV_END (R151). -/
def execXferRecvEnd (n : Fin 16) (s : State) : Host.Outcome State Fault Refusal :=
  nextDev s fun d => issueAs d n (fun o => rOpcode o.word == 0x1A && rXop o.word == 2) fun d i o => runRecvEnd d n i o

/-- XFER END_STREAM (R227). -/
def execXferEndStream (n : Fin 16) (s : State) : Host.Outcome State Fault Refusal :=
  nextDev s fun d => issueAs d n (fun o => rOpcode o.word == 0x1A && rXop o.word == 3) fun d i o => runEndStream d n i o

/-- XFER OPEN_AGENT (R554). -/
def execXferOpenAgent (n : Fin 16) (s : State) : Host.Outcome State Fault Refusal :=
  nextDev s fun d => issueAs d n (fun o => rOpcode o.word == 0x1A && rXop o.word == 4) fun d i o => runOpenAgent d n i o

end Sys2Proof.Machine
end

