-- ==== Sys2Proof/Machine/Sync.lean ====
section
/-! DEFINITION. FUSE, BARRIER, SIGNAL, WAIT, SETLEN, NOP, and the end of an instruction: source release and retirement (R141, R165, R177, R248 to R252). -/

namespace Sys2Proof.Machine

open Sys2Proof

/-- FUSE (R248): open the windows of the core's incoming fused hand-overs, writer the paired core; a producer that waits for them starts sending. -/
def runFuse (d : Dev) (n i : Nat) (o : Op) : Dev :=
  let d := o.opens.foldl (fun d x =>
    openWindow d n x.1 (decide (16 ≤ x.1)) (x.2.2.1 == 1) x.2.2.2 (Config.fusedBase x.1 x.2.2.2) (BitVec.ofNat 16 (0x1000 + x.2.1)) o.wc o.epoch) d
  let d := finishOp d n i id
  o.opens.foldl (fun d x => pump d x.2.1) d

/-- Cores on which copies of a scope-1 BARRIER wait (R252). -/
def barrierAt (d : Dev) (o : Op) : BarWait :=
  (d.cp.barriers.find? fun b => b.wc == o.wc && b.ring == o.ring && b.pos == o.pos).getD { wc := o.wc, ring := o.ring, pos := o.pos }

/-- Cores in a 16-bit set, lowest first. -/
def coresIn (m : BitVec 16) : List Nat := (List.range 16).filter fun n => bit m n

/-- Let the copy of a BARRIER on core n go. -/
def releaseCopy (wc ring : Nat) (pos : W32) (d : Dev) (n : Nat) : Dev :=
  match opAt (coreOf d n) wc ring pos with
  | some (i, _) => finishOp d n i id
  | none => d

/-- BARRIER of scope 1 (R252): the copy on core n has waited; when every copy has, the CP releases all of them. -/
def runBarrierWc (d : Dev) (n : Nat) (o : Op) : Dev :=
  let b := barrierAt d o
  let b' := { b with waited := b.waited ||| BitVec.ofNat 16 (2 ^ n) }
  let copies := match d.cp.shared.find? fun x => x.wc == o.wc && x.ring == o.ring && x.pos == o.pos with
    | some x => x.left
    | none => 1
  let others := d.cp.barriers.filter (· ≠ b)
  if copies ≤ (coresIn b'.waited).length then
    (coresIn b'.waited).foldl (releaseCopy o.wc o.ring o.pos) (updCp d fun c => { c with barriers := others })
  else updCp d fun c => { c with barriers := others ++ [b'] }

/-- SETLEN (R177): the CP writes the length register from VALUE or from the word at LADDR. -/
def runSetlen (d : Dev) (n i : Nat) (o : Op) : Dev :=
  if rLsrc o.word = 0 then finishOp (setLen d o.wc (rIndex o.word) (rValue o.word)) n i id
  else
    let (d, bs, p) := memRead d (some agCp) srcCp (rLaddr o.word) 4
    finishOp (markPoison (setLen d o.wc (rIndex o.word) (BitVec.ofNat 32 (leNat bs))) n i p) n i id

/-- The instruction at position i may retire: its effect is complete, every unit it sends has gone, and a shared one has received Exhausted (R141, R181, R286); its narrow writes leave the gather buffers as it retires (R133). -/
def mayRetire (c : Core) (o : Op) : Bool :=
  o.issued && o.done && outboxClear c o && (o.ctr.isNone || o.exhausted || o.cancelled || o.incomplete || o.poisoned)

/-- Retire the instruction at position i of core n, if it is complete. -/
def retireAt (d : Dev) (n i : Nat) : Dev :=
  match (coreOf d n).ops[i]? with
  | some o => if !(coreOf d n).disabled && mayRetire (coreOf d n) o then retireOp d n i o else d
  | none => d

/-- The last read of the instruction at position i has left the banks (R141); a FETCH or SPILL still reads while it has transfers to make. -/
def releaseAt (d : Dev) (n i : Nat) : Dev :=
  match (coreOf d n).ops[i]? with
  | some o =>
    if o.issued && !(coreOf d n).fe.any (xferOf o) then updCore d n fun c => { c with ops := modifyAt c.ops i fun o => { o with released := true } }
    else d
  | none => d

/-- FUSE (R248). -/
def execFuse (n : Fin 16) (s : State) : Host.Outcome State Fault Refusal :=
  nextDev s fun d => issueAs d n (fun o => rOpcode o.word == 0x20) fun d i o => runFuse d n i o

/-- BARRIER of scope 0 (R251): it issues when every earlier instruction of its work context on the core has retired, and later ones wait for it. -/
def execBarrierCore (n : Fin 16) (s : State) : Host.Outcome State Fault Refusal :=
  nextDev s fun d => issueAs d n (fun o => rOpcode o.word == 0x21 && rScope o.word == 0) fun d i _ => finishOp d n i id

/-- BARRIER of scope 1 (R252). -/
def execBarrierWorkContext (n : Fin 16) (s : State) : Host.Outcome State Fault Refusal :=
  nextDev s fun d => issueAs d n (fun o => rOpcode o.word == 0x21 && rScope o.word == 1) fun d _ o => runBarrierWc d n o

/-- SIGNAL (R165). -/
def execSignal (n : Fin 16) (s : State) : Host.Outcome State Fault Refusal :=
  nextDev s fun d => issueAs d n (fun o => rOpcode o.word == 0x22) fun d i o =>
    finishOp (addSignal d o.wc (rIndex o.word) (rValue o.word)) n i id

/-- WAIT (R165): it issues when its counter has reached VALUE. -/
def execWait (n : Fin 16) (s : State) : Host.Outcome State Fault Refusal :=
  nextDev s fun d => issueAs d n (fun o => rOpcode o.word == 0x23) fun d i _ => finishOp d n i id

/-- SETLEN (R177). -/
def execSetlen (n : Fin 16) (s : State) : Host.Outcome State Fault Refusal :=
  nextDev s fun d => issueAs d n (fun o => rOpcode o.word == 0x24) fun d i o => runSetlen d n i o

/-- NOP (R158). -/
def execNop (n : Fin 16) (s : State) : Host.Outcome State Fault Refusal :=
  nextDev s fun d => issueAs d n (fun o => rOpcode o.word == 0x30) fun d i _ => finishOp d n i id

/-- SOURCE_RELEASE (R141). -/
def execSourceRelease (n : Fin 16) (i : Fin 256) (s : State) : Host.Outcome State Fault Refusal :=
  nextDev s fun d => releaseAt d n i

end Sys2Proof.Machine
end

