-- ==== Sys2Proof/Machine/Faults.lean ====
section
/-! DEFINITION. The units of retry and their PM rows, check mismatches, retries, array retirement and core disable (R49, R61, R173, R490 to R498, R508). -/

namespace Sys2Proof.Machine

open Sys2Proof

/-- Enabled arrays of a core as a mask (ARRAYS_ENABLED). -/
def arraysMask (c : Core) : Nat := ((arraysOn c).map (2 ^ ·)).sum

/-! ### Units of retry (R490) -/

/-- The convolution that an instruction is. -/
def cnvAt (d : Dev) (n : Nat) (o : Op) : Cnv := cnvOf d n o (rOpcode o.word == 0x09)

/-- The parts of unit t of a matrix instruction, rows and columns of each: of a work tile, or of a pass of MSTREAM. A skipped tile has none, and a depthwise one, which uses no array. -/
def unitParts (d : Dev) (n : Nat) (o : Op) (t : Nat) : List (List Nat × List Nat) :=
  if isConvOp (rOpcode o.word) then
    let x := cnvAt d n o
    let ct := cnvTile x t
    if cnvSkipped x ct || cnvRoute x == .depthwise then [] else cnvParts x ct
  else
    let x := matOf d n o
    if rOpcode o.word = 0x02 then
      tileParts x (((List.range (rPassRows o.word)).map (t * rPassRows o.word + ·)).filter (· < x.lm)) (List.range x.dn)
    else if tileSkipped x t then [] else partsOf x t

/-- A row of a unit as PM holds it: the M row or output pixel, its number among the rows of the output, and its cells. -/
structure UnitRow where
  m : Nat := 0
  no : Nat := 0
  cells : List Cell := []
  deriving DecidableEq, Repr

/-- Rows of a part of unit t whose region starts at `region`: those within the actual lengths (R170, R172). -/
def unitRows (d : Dev) (n : Nat) (o : Op) (t region : Nat) (p : List Nat × List Nat) : List UnitRow :=
  if isConvOp (rOpcode o.word) then
    let x := cnvAt d n o
    p.1.map fun ox => { m := ox, no := ox + dExt x.o 1 * (cnvTile x t).oy, cells := cnvCells x region p.1 p.2 ox }
  else
    let x := matOf d n o
    (p.1.filter (· < x.lm)).map fun m =>
      { m := m, no := m, cells := (partCells x region p.1 p.2 m).filter fun c => !inputStationary o.word || decide (c.ch < x.ln) }

/-- PM rows of a list of rows: array × 1024 + entry. -/
def pmRowsIn (rows : List UnitRow) : List Nat := (rows.flatMap fun r => r.cells.map fun c => pmRowKey c.key).eraseDups

/-- Passes of unit t that run: K-blocks, or the taps and slices of a convolution tile. -/
def unitPasses (d : Dev) (n : Nat) (o : Op) (t : Nat) : Nat :=
  if isConvOp (rOpcode o.word) then let x := cnvAt d n o; (livePasses x (cnvTile x t)).length
  else let x := matOf d n o; ceilDiv x.lk (kDepth x)

/-- The instruction's accumulation is on the floating path. -/
def unitFloat (o : Op) : Bool := floatPair (dFmt (opDesc o (rDescA o.word))) (dFmt (opDesc o (rDescW o.word)))

/-- Who accumulates into a PM row of a core. -/
def pmRowOf (c : Core) (k : Nat) : PmRow := sget (fun _ => {}) c.pmRows k

/-- Offset of the PM region in which unit u runs: with PM_DOUBLE the one its place among the tiles in hand gives, or the one its rows have begun in (R168); an MSTREAM's pass has a half of the ring (R169). -/
def unitRegion (c : Core) (o : Op) (u : UnitTag) : Nat :=
  if rOpcode o.word = 0x02 then u.tile % 2 * (opPmRows o / 2)
  else if rPmDouble o.word then
    if o.tiles.contains u.tile then (o.taken + o.tiles.idxOf u.tile) % 2 * opPmRows o
    else if c.pmRows.any fun e => e.2.unit == some u && decide (rPmBase o.word + opPmRows o ≤ e.1 % 1024) then opPmRows o
    else if c.pmRows.any fun e => e.2.unit == some u then 0
    else o.taken % 2 * opPmRows o
  else 0

/-- Run a part of unit t from its first K-block, or first pass (R491). -/
def computeUnit (d : Dev) (n : Nat) (o : Op) (t region : Nat) (p : List Nat × List Nat) : Dev :=
  if isConvOp (rOpcode o.word) then let x := cnvAt d n o; computeCnvPart d x (unitOf o t) (cnvTile x t) region p.1 p.2
  else computePart d (matOf d n o) (unitOf o t) region true p.1 p.2

/-- Checksum accumulator that goes with the entries of a PM row which a whole run has left (R60, R113): their sum, and on the floating path E and B. -/
def accOfRow (float : Bool) (es : List PmEntry) (b : Nat) : BitVec 48 :=
  if float then
    let vs := es.map fun e => ofF32 e.bits
    let e := min 255 (max 0 (magOf vs + 127))
    BitVec.ofNat 48 ((toF32 (r32 (vs.foldl vadd (.zero false)))).toNat + min 255 b * 2 ^ 32 + e.toNat * 2 ^ 40)
  else BitVec.ofInt 48 (es.foldl (fun s e => s + e.bits.toInt) 0)

/-- The 32 entries of a PM row. -/
def pmRowEntries (c : Core) (k : Nat) : List PmEntry := (List.range 32).map fun col => pmAt c ((k / 1024 * 32 + col) * 1024 + k % 1024)

/-- The PM rows of a unit are complete: each belongs to it, and its accumulator matches what it holds. -/
def completeRows (d : Dev) (n : Nat) (o : Op) (u : UnitTag) (keys : List Nat) : Dev :=
  let b := unitPasses d n o u.tile
  keys.foldl (fun d k => updCore d n fun c =>
    let a := arr c (k / 1024)
    setArr { c with pmRows := sset (fun _ => {}) c.pmRows k { unit := some u, done := true } } (k / 1024)
      { a with accs := sset (fun _ => 0#48) a.accs (k % 1024) (accOfRow (unitFloat o) (pmRowEntries c k) b) }) d

/-- Execute unit u again from its first K-block, or first pass (R173, R491, R494). -/
def reExecute (d : Dev) (n : Nat) (u : UnitTag) : Dev :=
  match opAt (coreOf d n) u.wc u.ring u.pos with
  | some (_, o) =>
    if o.done || !isMatrix o then d
    else
      let region := unitRegion (coreOf d n) o u
      match unitParts d n o u.tile with
      | p :: _ => completeRows (computeUnit d n o u.tile region p) n o u (pmRowsIn (unitRows d n o u.tile region p))
      | [] => d
  | none => d

/-! ### Abandoned work -/

/-- An array without the rows, the pass sums and the swaps of the units that `p` names (R491). -/
def dropUnits (p : UnitTag → Bool) (a : Arr) : Arr :=
  { a with
    beats := match a.feeder with | r :: _ => if p r.unit then 0 else a.beats | [] => 0
    feeder := a.feeder.filter fun r => !p r.unit
    pipe := a.pipe.filter fun r => !p r.row.unit
    openPasses := a.openPasses.filter fun r => match r.unit with | some u => !p u | none => true }

/-- Abandon the units that `p` names on every array of a core, with the PM rows they hold. -/
def abandon (c : Core) (p : UnitTag → Bool) : Core :=
  let c := (List.range 4).foldl (fun c a => setArr c a (dropUnits p (arr c a))) c
  { c with pmRows := c.pmRows.filter fun e => match e.2.unit with | some u => !p u | none => true }

/-- Units whose passes are in progress on a core: rows waiting or in flight, PM rows not released, and tiles in hand (R494). -/
def unitsAtWork (c : Core) : List UnitTag :=
  let rows := (List.range 4).flatMap fun a => ((arr c a).feeder ++ (arr c a).pipe.map (·.row)).map (·.unit)
  let held := c.pmRows.filterMap fun e => e.2.unit
  let hand := c.ops.flatMap fun o => if o.issued && isMatrix o && rOpcode o.word != 0x02 then o.tiles.map (unitOf o) else []
  ((rows ++ held ++ hand).eraseDups).filter fun u => !c.released.any fun r => r.unit == u

/-! ### Disable and retirement -/

/-- Window data that waits in the WM landing buffer of a core as it is disabled is discarded like what arrives later (R498). -/
def sinkHeld (d : Dev) (n : Nat) : Dev :=
  (coreOf d n).wmHeld.foldl (fun d h =>
    let d := bump d (0x2300 + n) 6 8 (unitGranules h.hollow h.data.length)
    if h.last || h.hollow then giveCredits d n h.win (win (coreOf d n) h.win).writer 1 else d) (updCore d n fun c => { c with wmHeld := [] })

/-- Disable core n (R497): instructions retire Incomplete, windows are revoked, residency ends, event 0x1003 is posted. -/
def disableCore (d : Dev) (n before cause : Nat) : Dev :=
  let count := min 65535 (coreOf d n).ops.length
  let d := updCore (sinkHeld d n) n fun c => { abandon c (fun _ => true) with
    disabled := true, disableCause := cause, fe := [], outbox := [], remote := [], retry := [], released := [], osums := []
    loadWaits := none, matrixWaits := none
    ops := c.ops.map fun o => { o with incomplete := true, done := true, issued := true, closes := [], units := [] } }
  let d := retireMany d n (withPos (coreOf d n).ops)
  let d := (List.range 20).foldl (fun d i =>
    let w := win (coreOf d n) i
    if w.state = 1 ∨ w.state = 2 then setWinAt d n i { w with state := 3, pendingCredits := 0, hollow := [] } else d) d
  let d := (d.cp.wcs.map (·.1)).foldl (fun d w =>
    if bit (wcOf d w).resident n then updWc d w fun c => { c with resident := c.resident &&& ~~~(BitVec.ofNat 16 (2 ^ n)), dirty := true } else d) d
  let d := updCore d n fun c => { c with resident := [] }
  postEvent d 0x1003 0 n (before + cause * 16 + count * 65536)

/-- Retire array a of core n (R493 to R496): every pass in progress is abandoned, and on a core that still has three arrays each abandoned unit is executed again, an attempt with a retry of its own. -/
def retireArray (d : Dev) (n a : Nat) : Dev :=
  let before := arraysMask (coreOf d n)
  let us := unitsAtWork (coreOf d n)
  let d := updCore d n fun c => { abandon (setArr c a { arr c a with cause := 4 }) (fun u => us.contains u) with retry := [] }
  let d := postEvent d 0x1002 0 n (a + arraysMask (coreOf d n) * 16)
  if (arraysOn (coreOf d n)).length < 3 then disableCore d n before 3 else us.foldl (fun d u => reExecute d n u) d

/-! ### Mismatches -/

/-- Payload of event 0x1001 (R508). -/
def mismatchPayload (a kind group attempt col entry tile : Nat) : Nat :=
  pack [(0, 2, a), (2, 2, kind), (4, 2, group), (6, 1, attempt), (8, 8, col), (16, 16, entry), (32, 32, tile)]

/-- A check mismatch of unit u on array a of core n (R490 to R493): the first abandons the unit and executes it again; one in the retry retires the array. -/
def mismatch (d : Dev) (n a kind group col entry : Nat) (u : UnitTag) : Dev :=
  let d := bump d (0x2210 + n) 7 4 1
  let again := (coreOf d n).retry.contains u
  let d := postEvent d 0x1001 0 n (mismatchPayload a kind group (b2n again) col entry u.tile)
  if again then retireArray (updCore d n fun c => { c with released := c.released.filter fun r => !(r.unit == u) }) n a
  else
    let d := updCore (bump d (0x2300 + n) 2 4 1) n fun c => { abandon c (· == u) with
      retry := c.retry ++ [u], released := c.released.filter fun r => !(r.unit == u) }
    reExecute d n u

end Sys2Proof.Machine
end

