-- ==== Sys2Proof/Machine/Admission.lean ====
section
/-! DEFINITION. The admission check: the records of a unit, the tests of Table 5.12 in order, and the binding of a placement's counters (R184, R185, R246, R556). -/

namespace Sys2Proof.Machine

open Sys2Proof

/-! ### Records of a unit -/

/-- A record as the admission check takes it on one core. -/
structure URec where
  /-- Its index in the unit. -/
  idx : Nat := 0
  /-- Core it runs on; 16 is the MPE. -/
  core : Nat := 0
  word : Line := 0#512
  /-- CHAIN_POS that its FUSE header gives it; 0 outside a chain. -/
  chain : Nat := 0
  /-- From a free ring (R268). -/
  free : Bool := true
  /-- Its COMPLETE flag makes PHYS outputs result buffers (R286). -/
  ds : List (Nat × Line) := []
  /-- Descriptor indices beyond the table, or missing. -/
  bad : List Nat := []
  /-- Outlier lists named. -/
  lists : List (Nat × List Nat) := []
  /-- Arrays over which its core folds. -/
  arrays : Nat := 4
  /-- Chain record but the last: the window entry that the next record reads, and the lowest core of its stage. -/
  next : Option (Nat × Nat) := none
  deriving DecidableEq, Repr

/-- A descriptor of the record. -/
def uDesc (r : URec) (i : Nat) : Desc :=
  match r.ds.find? fun x => x.1 == i with
  | some (_, w) => descOf w
  | none => {}

/-- Descriptor indices whose role must be filled. -/
def roleIdx (w : Line) : List Nat :=
  let o := rOpcode w
  if o = 0x0A then [rDescA w, rDescW w] ++ (if 128 ≤ rMpeMode w then [] else [rDescO w])
  else if isMatrixOp o then [rDescA w, rDescW w, rDescO w]
  else if o = 0x10 then
    let f := rFunc w
    [rDescA w, rDescO w] ++ (if f ≤ 4 || f = 0x30 then [rDescW w] else [])
  else if o = 0x11 || o = 0x12 then [rDescA w, rDescO w]
  else if o = 0x18 || o = 0x19 then [rDescSrc w, rDescDst w]
  else if o = 0x1A then (if rXop w = 0 then [rDescSrc w] else if rXop w = 1 || rXop w = 4 then [rDescDst w] else [])
  else []

/-- All descriptor indices of a record: its roles, and a second VEC source that is present. -/
def namedIdx (w : Line) : List Nat := (roleIdx w ++ recDescs w).eraseDups

/-- Bytes the check reads from DRAM or SB, when agent 7 may read them. -/
def cpBytes (d : Dev) (a n : Nat) : List Byte :=
  if spanGranted d agCp false a n then
    (granulesOf a n).flatMap (fun g => decBytes d.mem (encSetting d g) g 64) |>.drop (a % 64) |>.take n
  else []

/-- What a read of agent 7 that is not granted posts: an address error, or a region violation (R21, R464). -/
def cpTouch (d : Dev) (a n : Nat) : Dev := if spanGranted d agCp false a n then d else (memRead d (some agCp) srcCp a n).1

/-- The 16-bit entries of an outlier list. -/
def listEntries : List Byte → List Nat
  | a :: b :: t => (a.toNat + 256 * b.toNat) :: listEntries t
  | _ => []

/-- A record with what it names, on a core. -/
def mkRec (d : Dev) (c : Wc) (idx core : Nat) (word : Line) (chain : Nat) (free : Bool) (next : Option (Nat × Nat)) : URec :=
  let ix := namedIdx word
  let ok := ix.filter fun i => i ≠ 0xFFF && i ≤ wDescCount c
  let ds := ok.map fun i => (i, (BitVec.ofNat 512 (leNat (cpBytes d (wDescTable c + 64 * i) 64)) : Line))
  let lists := ds.filterMap fun x =>
    let t := descOf x.2
    if t.outlierCount = 0 then none else some (x.1, listEntries (cpBytes d t.aux2 (2 * t.outlierCount)))
  { idx := idx, core := core, word := word, chain := chain, free := free, ds := ds, bad := ix.filter fun i => !ok.contains i
    lists := lists, arrays := if core < 16 then shapeLimit (coreOf d core) else 4, next := next }

/-- The admission check reads the descriptors that records name (R159, R184). -/
def touchDescs (d : Dev) (c : Wc) (ws : List Line) : Dev :=
  (ws.flatMap namedIdx).foldl (fun d i => if i ≠ 0xFFF && i ≤ wDescCount c then cpTouch d (wDescTable c + 64 * i) 64 else d) d

/-! ### Roles -/

/-- The record has a weight role, and its descriptor. -/
def weightIdx (w : Line) : Option Nat := if isMatrixOp (rOpcode w) || rOpcode w = 0x0A then some (rDescW w) else none
/-- Output descriptors. -/
def outIdx (w : Line) : List Nat := (recOutputs w).filter (· ≠ 0xFFF)

/-- Output channels of a weight tensor. -/
def chanCount (w : Line) (t : Desc) : Nat := if isMatrixOp (rOpcode w) && !isConvOp (rOpcode w) && rTransW w then dExt t 1 else dExt t 0

/-- Spans that a descriptor names in the space of its BASE: start and bytes (R160). -/
def descSpans (r : URec) (i : Nat) : List (Nat × Nat) :=
  let t := uDesc r i
  let isOut := (outIdx r.word).contains i
  let head := if isOut && rComplete r.word && t.space = 0 then [(t.base - 64, tensorBytes t + 64)] else [(t.base, tensorBytes t)]
  if weightIdx r.word = some i then
    let n := chanCount r.word t
    head ++ (if t.aux0 = 0 then [] else [(t.aux0, scaleBytes t n)]) ++ (if dFmt t = .cb4 && t.aux1 ≠ 0 then [(t.aux1, bookBytes t n)] else [])
  else
    head ++ (if t.expMode = 0 then [] else [(t.aux0, tensorRows t)])
      ++ (if t.outlierCount = 0 || t.aux1 = 0 then [] else [(t.aux1, 128 * tensorRows t)])

/-! ### Matrix and convolution geometry -/

def uA (r : URec) : Desc := uDesc r (rDescA r.word)
def uW (r : URec) : Desc := uDesc r (rDescW r.word)
def uO (r : URec) : Desc := uDesc r (rDescO r.word)
/-- M, K of A and K, N of W with transposition undone (R162). -/
def uM (r : URec) : Nat := dExt (uA r) (if rTransA r.word then 0 else 1)
def uK (r : URec) : Nat := dExt (uA r) (if rTransA r.word then 1 else 0)
def uKw (r : URec) : Nat := dExt (uW r) (if rTransW r.word then 0 else 1)
def uN (r : URec) : Nat := dExt (uW r) (if rTransW r.word then 1 else 0)

/-- Output pixels of the widest segment (R194, R211). -/
def uSeg (r : URec) : Nat := segOf r.word (dExt (uO r) 1)

/-- Entries per pixel slice (Table 6.1). -/
def sliceEntries (fa fw : Fmt) : Nat := kPerPass fw * fmtBits fa / 256

/-- Route of a convolution record (R201). -/
def uRoute (r : URec) : Option Route :=
  let g := max 1 (rGroups r.word)
  routeOf r.word (dFmt (uA r)) (dFmt (uW r)) g (dExt (uA r) 0 / g) (dExt (uW r) 0 / g)

/-- A convolution's rows, and its columns, are reduced to the centre tap (R205, R206). -/
def uDegH (r : URec) : Bool :=
  rOpcode r.word == 0x08 && degenerate (rPadMode r.word) (dExt (uA r) 2) (dExt (uO r) 2) (rPadTop r.word) (rDilH r.word) (rKh r.word) (rStrideH r.word)
def uDegW (r : URec) : Bool :=
  rOpcode r.word == 0x08 && degenerate (rPadMode r.word) (dExt (uA r) 1) (dExt (uO r) 1) (rPadLeft r.word) (rDilW r.word) (rKw r.word) (rStrideW r.word)

/-- Input lines that one output row reads, its kernel reduced where the rows are degenerate (R199, R206, R211). -/
def uLines (r : URec) : Nat :=
  if uDegH r then 1
  else if rOpcode r.word = 0x09 then (rKh r.word - 1) * rDilH r.word / rStrideH r.word + 1
  else (rKh r.word - 1) * rDilH r.word + 1

/-- PM entries per array (Table 5.10, R197); the depthwise route takes none (R204). -/
def pmEntries (r : URec) : Nat :=
  if isConvOp (rOpcode r.word) && uRoute r == some .depthwise then 0 else pmRowsOf r.word r.arrays (uM r) (uN r) (dExt (uO r) 1)

/-- Work tiles T of a matrix or convolution record (R167, R194, R211). -/
def uTiles (r : URec) : Nat :=
  let w := r.word
  if isConvOp (rOpcode w) then
    let g := max 1 (rGroups w)
    let rt := (uRoute r).getD .dense
    let nb := routeBlocks w (dFmt (uW r)) rt g (dExt (uA r) 0 / g) (dExt (uW r) 0 / g) (dExt (uW r) 0)
    let ow := dExt (uO r) 1
    let segs :=
      if rOpcode w = 0x09 then
        ((List.range (rStrideW w)).map fun p =>
          let n := ((List.range ow).filter fun x => (x + rPadLeft w) % rStrideW w == p).length
          if rMchunk w = 0 then min 1 n else ceilDiv n (rMchunk w)).sum
      else ceilDiv ow (max 1 (uSeg r))
    dExt (uO r) 2 * nb * segs
  else tileCount w r.arrays (uM r) (uN r)

/-! ### The tests -/

/-- Test 2: Bad record. -/
def badRecord (r : URec) : Bool :=
  let w := r.word
  let o := rOpcode w
  let depth := isConvOp o && uRoute r == some .depthwise
  !opcodeKnown o
    || rChainPos w != r.chain
    || (o == 0x20 && (r.free || r.chain != 0 || rIndex w == 0 || decide (32 < rIndex w)))
    || (r.chain != 0 && o == 0x0A)
    || (o == 0x1A && (decide (4 < rXop w) || (rXop w == 4 && !([1, 3, 4].contains (rWkind w)))))
    || (o == 0x21 && decide (1 < rScope w))
    || (o == 0x10 && !([0, 1, 2, 3, 4, 5, 6, 0x10, 0x11, 0x12, 0x13, 0x20, 0x21, 0x22, 0x30, 0x31, 0x40, 0x50].contains (rFunc w)))
    || (o == 0x10 && rFunc w == 0x30 && (rParam w == 0 || decide (4096 < rParam w)))
    || (o == 0x11 && (decide (rFunc w < 0x60) || decide (0x63 < rFunc w)))
    || (isMatrixOp o && !depth && (if o == 0x03 then rShape w != 3 else rShape w == 3))
    || ((o == 0x01 || o == 0x02) && rStation w == 3)
    || (o == 0x02 && decide (32 < fld w 160 8))
    || (o == 0x0A && decide (2 ≤ rMpeMode w / 16 % 4))
    || (r.free && isMatrixOp o && rGroup w != 0)

/-- A role lacks its address (R160); in a window and a remote window AUX0 and AUX1 are ignored. -/
def lacksAddress (r : URec) (i : Nat) : Bool :=
  let t := uDesc r i
  let near := t.space != 3 && t.space != 4
  (near && t.expMode != 0 && t.aux0 == 0) || (t.outlierCount != 0 && t.aux2 == 0)
    || (if weightIdx r.word = some i then near && dFmt t == .cb4 && t.aux1 == 0
      else near && (outIdx r.word).contains i && rOpcode r.word == 0x12 && t.outlierCount != 0 && t.aux1 == 0)

/-- DESC_DST of RECV_OPEN and OPEN_AGENT, whose SPACE test 12 judges (R554). -/
def opensIdx (w : Line) : Option Nat := if rOpcode w = 0x1A && (rXop w = 1 || rXop w = 4) then some (rDescDst w) else none

/-- A field of a descriptor is reserved or out of range, or an extent is zero. -/
def descBad (r : URec) (i : Nat) : Bool :=
  let t := uDesc r i
  let isOut := (outIdx r.word).contains i
  let mpe := rOpcode r.word == 0x0A
  decide (10 < t.format) || decide (4 < t.space)
    || (opensIdx r.word != some i && (if isOut then t.space == 3 else t.space == 4))
    || ((t.space == 3 || t.space == 4) && decide ((if mpe && !isOut then 7 else 19) < t.window))
    || [0, 1, 2, 3].any (fun k => dExt t k == 0)
    || (weightIdx r.word == some i && decide (15 < t.gsLog2) && t.gsLog2 != 31)
    || lacksAddress r i

/-- Two lists of extents agree. -/
def sameExt (a b : Desc) : Bool := a.ext == b.ext

/-- Extents of a VEC source B against A (R559): a dimension of extent 1 is not bound, a bound one is bound as A's is. -/
def broadcastOk (a b : Desc) : Bool := [0, 1, 2, 3].all fun k =>
  if dExt b k = 1 then decide (b.len.getD k 0 < 64)
  else dExt b k == dExt a k && (decide (b.len.getD k 0 < 64) || b.len.getD k 0 == a.len.getD k 0)

/-- Extents of a reduction, or of top-k's outputs: A's, with `k` along AXIS. -/
def axisExt (a : Desc) (ax k : Nat) : List Nat := [0, 1, 2, 3].map fun i => if i = ax then k else dExt a i

/-- Test 3: the first operand dimension or role that disagrees, as its descriptor index (R162, R163, R169, R187, R237, R559, R562, R563). -/
def dimsBad (r : URec) : Option Nat :=
  let w := r.word
  let o := rOpcode w
  let a := uA r; let wt := uW r; let t := uO r
  let pick (b : Bool) (i : Nat) : List Nat := if b then [i] else []
  let flat (x : Desc) : Bool := dExt x 2 == 1 && dExt x 3 == 1
  (if o = 0x01 || o = 0x02 || o = 0x03 then
      pick (!flat a) (rDescA w) ++ pick (!flat wt || uKw r != uK r) (rDescW w)
        ++ pick (!flat t || dExt t 0 != uN r || dExt t 1 != uM r) (rDescO w)
        ++ pick (o == 0x03 && decide (8 < uM r)) (rDescA w)
        ++ pick (o == 0x02 && decide (kPerPass (dFmt wt) < uK r)) (rDescA w)
        ++ pick (o == 0x02 && decide (nBlock w r.arrays < uN r)) (rDescW w)
    else if isConvOp o || o = 0x0A then
      let g := max 1 (rGroups w)
      pick (dExt a 3 != 1) (rDescA w)
        ++ pick (dExt wt 2 != rKw w || dExt wt 3 != rKh w || dExt wt 1 * g != dExt a 0) (rDescW w)
        ++ pick (rDescO w != 0xFFF && (dExt t 3 != 1 || dExt t 0 != dExt wt 0)) (rDescO w)
    else if o = 0x10 then
      let f := rFunc w
      if f = 0x30 then
        pick (rDescW w == 0xFFF || wt.format != 9 || wt.ext != axisExt a (rAxis w) (rParam w)) (rDescW w)
          ++ pick (t.ext != axisExt a (rAxis w) (rParam w)) (rDescO w)
      else if f = 0x31 then
        pick (rDescW w != 0xFFF) (rDescW w) ++ pick (dExt t 1 != 1 || dExt t 2 != 1 || dExt t 3 != 1) (rDescO w)
      else pick (decide (f ≤ 4) && !broadcastOk a wt) (rDescW w) ++ pick (!sameExt a t) (rDescO w)
    else if o = 0x11 then pick (t.ext != axisExt a (rAxis w) 1) (rDescO w)
    else if o = 0x12 then pick (!sameExt a t) (rDescO w)
    else if o = 0x18 || o = 0x19 then
      let s := uDesc r (rDescSrc w); let t := uDesc r (rDescDst w)
      pick (if o = 0x18 then s.space != 0 else s.space != 1 && s.space != 2) (rDescSrc w)
        ++ pick (!sameExt s t || fmtBits (dFmt s) != fmtBits (dFmt t)
          || (if o = 0x18 then t.space != 1 && t.space != 2 && t.space != 4 else t.space != 0 && t.space != 4)) (rDescDst w)
    else if o = 0x1A && rXop w = 0 then pick (decide (2 < (uDesc r (rDescSrc w)).space)) (rDescSrc w)
    else []).head?

/-- Admission of a chain: the output and the next record's input name one window, and REMOTE_CORE the next stage's lowest core (R248). -/
def chainBad (r : URec) : Option Nat :=
  match r.next with
  | some (win, low) => (outIdx r.word).find? fun i => let t := uDesc r i; !(t.space == 4 && t.window == win && t.remote == low)
  | none => none

def test3 (r : URec) : Option Nat :=
  match r.bad.head? with
  | some i => some i
  | none => match (namedIdx r.word).find? (descBad r) with
    | some i => some i
    | none => match dimsBad r with
      | some i => some i
      | none => chainBad r

/-- INT32 or FP32. -/
def wideFmt (t : Desc) : Bool := t.format == 9 || t.format == 10

/-- Test 4: Format pair. The pairs of Table 3.3 are the arrays' (R79); an MPCONV is tested for INT32 and FP32 sources here and by Table 6.6 for the rest. -/
def test4 (r : URec) : Bool :=
  (isMatrixOp (rOpcode r.word) &&
    (!pairOk (dFmt (uA r)) (dFmt (uW r)) || (rOpcode r.word == 0x01 && rStation r.word == 2 && fmtBits (dFmt (uW r)) == 4)))
  || (rOpcode r.word == 0x0A && (wideFmt (uA r) || wideFmt (uW r)))

/-- Test 5: Codebook group (R76). -/
def test5 (r : URec) : Option Nat :=
  let t := uW r
  if (isMatrixOp (rOpcode r.word) || rOpcode r.word = 0x0A) && dFmt t = .cb4 && decide (ceilDiv (chanCount r.word t) 32 < t.cbGroup) then some (rDescW r.word)
  else none

/-- A list is not strictly ascending. -/
def notRising : List Nat → Bool
  | a :: b :: t => decide (b ≤ a) || notRising (b :: t)
  | _ => false

/-- Channels of the tensor's K, or of its rows. -/
def listBad (r : URec) (i : Nat) : Bool :=
  let t := uDesc r i
  let f := dFmt t
  let l := match r.lists.find? fun x => x.1 == i with | some (_, l) => l | none => []
  let k := if i = rDescA r.word && isMatrixOp (rOpcode r.word) && !isConvOp (rOpcode r.word) then uK r else dExt t 0
  t.outlierCount != 0 && (decide (64 < t.outlierCount) || !(f == .int8 || f == .uint8 || f == .e4m3 || f == .e5m2)
    || notRising l || l.any (fun c => decide (k ≤ c)) || weightIdx r.word == some i)

/-- An exponent would be generated in the drain of an operation wider than its logical tile (R100). -/
def wideExp (r : URec) : Bool :=
  let w := r.word
  let o := rOpcode w
  isMatrixOp o && rDescO w != 0xFFF && (uO r).expMode == 3 &&
    (if isConvOp o then
      (match uRoute r with
        | some .depthwise => false
        | some .packed => decide (kPerPass (dFmt (uW r)) / max 1 (dExt (uA r) 0 / max 1 (rGroups w)) < rGroups w)
        | some .blocked => true
        | _ => decide (shapeN w < dExt (uO r) 0))
    else !(o == 0x01 && rStation w == 2) && decide (nBlock w r.arrays < uN r))

/-- EXP_MODE is not 0 where only 0 is allowed (R557). -/
def expModeBad (r : URec) (i : Nat) : Bool :=
  let t := uDesc r i
  let f := dFmt t
  t.expMode != 0 && (weightIdx r.word == some i || f == .int4 || f == .cb4
    || ((outIdx r.word).contains i && (f == .bf16 || f == .fp32 || f == .int32)))

/-- Test 6: Row scaling. -/
def test6 (r : URec) : Option Nat :=
  match (namedIdx r.word).find? fun i => listBad r i || expModeBad r i with
  | some i => some i
  | none => if wideExp r then some (rDescO r.word) else none

/-- Test 7: Alignment. -/
def test7 (r : URec) : Option Nat :=
  let w := r.word
  let bad (i : Nat) : Bool :=
    let t := uDesc r i
    let core := t.space == 1 || t.space == 2
    (decide (t.space ≤ 2) && t.base % 32 != 0)
      || (core && (t.aux0 % 32 != 0 || t.aux1 % 32 != 0))
      || ((core || t.space == 3) && [1, 2, 3].any fun k => decide (1 < dExt t k) && dStride t k % 32 != 0)
      || (t.outlierCount != 0 && t.aux2 % 128 != 0)
  let turned (flag : Bool) (i : Nat) : Bool :=
    let t := uDesc r i
    flag && (decide (fmtBits (dFmt t) < 8) || (decide (t.space ≤ 2) && t.base % (128 * fmtBits (dFmt t)) != 0))
  match (namedIdx w).find? bad with
  | some i => some i
  | none =>
    if isMatrixOp (rOpcode w) && turned (rTransA w) (rDescA w) then some (rDescA w)
    else if isMatrixOp (rOpcode w) && turned (rTransW w) (rDescW w) then some (rDescW w)
    else if rOpcode w = 0x03 && ((uW r).space != 2 || (uW r).base % 2048 != 0) then some (rDescW w)
    else none

/-- Agent that moves a record's PHYS tensors. -/
def moverOf (w : Line) : Nat := if rOpcode w = 0x1A then agSe else if rOpcode w = 0x0A then agMpe else agFe

/-- Test 8: Out of region (R286, R462). -/
def test8 (d : Dev) (r : URec) : Option Nat :=
  (namedIdx r.word).find? fun i =>
    let t := uDesc r i
    (t.space == 0 && (descSpans r i).any fun s => !spanGranted d (moverOf r.word) ((outIdx r.word).contains i) s.1 s.2)
      || (t.outlierCount != 0 && !spanGranted d agCp false t.aux2 (2 * t.outlierCount))

/-- Bytes by which a record's tensors in one core memory run beyond 1 MiB (tests 9 and 10). -/
def overflow (r : URec) (space : Nat) : Option Nat :=
  let ends := (namedIdx r.word).flatMap fun i => if (uDesc r i).space = space then (descSpans r i).map fun s => s.1 + s.2 else []
  let m := ends.foldl max 0
  if 0x100000 < m then some (m - 0x100000) else none

/-- Test 11: PM overflow. -/
def test11 (r : URec) : Option Nat :=
  if isMatrixOp (rOpcode r.word) then
    let p := pmEntries r
    let e := rPmBase r.word + (if rPmDouble r.word && rOpcode r.word ≠ 0x02 then 2 * p else p)
    if uRoute r = some .depthwise && isConvOp (rOpcode r.word) then none
    else if 1024 < e then some (e - 1024) else none
  else none

/-- A window that a unit opens on a core: entry, memory, base and size in units. -/
structure UWin where
  core : Nat := 0
  entry : Nat := 0
  wm : Bool := false
  base : Nat := 0
  units : Nat := 1
  /-- Its base is given (a fused hand-over's is not, log 22). -/
  placed : Bool := true
  /-- Ring mode. -/
  ring : Bool := true
  deriving DecidableEq, Repr

/-- The window that a record opens. -/
def opensRec (r : URec) : List UWin :=
  if rOpcode r.word = 0x1A && (rXop r.word = 1 || rXop r.word = 4) then
    let t := uDesc r (rDescDst r.word)
    [{ core := r.core, entry := rWindow r.word, wm := t.space == 2, base := t.base / 512, units := rWsize r.word + 1, ring := rWmode r.word == 0 }]
  else []

/-- A window by itself breaks R144 or R554. -/
def winBad (w : UWin) : Bool :=
  decide (19 < w.entry) || (w.wm != decide (16 ≤ w.entry)) || decide (2048 < w.units) || (w.placed && decide (2048 < w.base + w.units))

/-- Two placed windows of one memory overlap. -/
def winsMeet (a b : UWin) : Bool :=
  a.placed && b.placed && a.core == b.core && a.wm == b.wm && decide (a.base < b.base + b.units) && decide (b.base < a.base + a.units)

/-- A window meets a destination of a record on its core (R143). -/
def winHits (r : URec) (w : UWin) : Bool :=
  w.placed && w.core == r.core && (outIdx r.word).any fun i =>
    (outputRanges (uDesc r i)).any fun g => g.mem == memNo w.wm && decide (w.base * 16 ≤ g.hi) && decide (g.lo < (w.base + w.units) * 16)

/-- Test 12 over the records of a unit, in order, with the windows now open: the first entry at fault. -/
def test12 (all : List UWin) : List UWin → List URec → Option Nat
  | _, [] => none
  | cur, r :: rs =>
    let here := opensRec r
    let dst := if here.isEmpty then false else let t := uDesc r (rDescDst r.word); (t.space != 1 && t.space != 2) || t.base % 512 != 0
    match here with
    | w :: _ =>
      if dst || winBad w || cur.any (fun v => v.core == w.core && (v.entry == w.entry || winsMeet v w)) then some w.entry
      else match all.find? (winHits r) with
        | some v => some v.entry
        | none => test12 all (w :: cur) rs
    | [] =>
      match all.find? (winHits r) with
      | some v => some v.entry
      | none =>
        if rOpcode r.word = 0x1A && rXop r.word = 2 && decide (19 < rWindow r.word) then some (rWindow r.word)
        else if rOpcode r.word = 0x1A && rXop r.word = 2 then test12 all (cur.filter fun v => !(v.core == r.core && v.entry == rWindow r.word)) rs
        else test12 all cur rs

/-- A record names more units of a window of its unit than the window holds (R169, R199). -/
def unitsShort (all : List UWin) (r : URec) : Bool :=
  let w := r.word
  (recSources w).any fun i =>
    let t := uDesc r i
    t.space == 3 && (match all.find? fun v => v.core == r.core && v.entry == t.window with
      | some v =>
        let need :=
          if isConvOp (rOpcode w) && i = rDescA w && v.ring then uLines r * ceilDiv (dStride t 2) 512
          else if rOpcode w = 0x02 && i = rDescA w then (rPassRows w * dStride t 1 + 511) / 512
          else tensorUnits t (if weightIdx w = some i then some (chanCount w t) else none)
        decide (v.units < need)
      | none => false)

/-- The stream channel whose units the window of a RECV_OPEN takes (Table 4.8, R223). -/
def recvChannel (r : URec) : Option Nat :=
  if rOpcode r.word = 0x1A && rXop r.word = 1 then some (rChannel r.word) else none

/-- Test 13, for each record after those before it: a window too small, or a fifth receiver of one stream. -/
def test13 (all : List UWin) : List Nat → List URec → Option Nat
  | _, [] => none
  | seen, r :: rs =>
    if unitsShort all r then some r.idx
    else match recvChannel r with
      | some k => if 4 ≤ (seen.filter (· == k)).length then some r.idx else test13 all (k :: seen) rs
      | none => test13 all seen rs

/-- Window that a record's source A lies in, in ring mode: as the unit's own opening of it says, else as the work context's admitted placement does, else ring (R199). -/
def ringSource (all : List UWin) (held : List (Nat × Nat × Bool)) (r : URec) : Bool :=
  let a := uA r
  match all.find? fun v => v.core == r.core && v.entry == a.window with
  | some v => v.ring
  | none => match held.find? fun v => v.1 == r.core && v.2.1 == a.window with
    | some v => !v.2.2
    | none => true

/-- A pad of a dimension is out of Table 6.4: at most (K - 1) × DIL, or, with the kernel reduced to its centre tap, none left beside the DIL × (K - 1) / 2 by which it shrinks (R206; log 190). -/
def padOut (p k dil : Nat) (deg : Bool) : Bool := if deg then p != dil * (k - 1) / 2 else decide ((k - 1) * dil < p)

/-- Limits of CONV and TCONV (Table 6.4, R189, R191, R199, R201, R206). -/
def convLimit (all : List UWin) (held : List (Nat × Nat × Bool)) (r : URec) : Bool :=
  let w := r.word
  let tr := rOpcode w == 0x09
  let a := uA r; let wt := uW r; let o := uO r
  let g := rGroups w
  let f := if tr then tconvExtent else convExtent
  let oh := f (dExt a 2) (rPadTop w) (rPadBottom w) (rDilH w) (rKh w) (rStrideH w)
  let ow := f (dExt a 1) (rPadLeft w) (rPadRight w) (rDilW w) (rKw w) (rStrideW w)
  let kOut (k : Nat) : Bool := k == 0 || decide (9 < k)
  kOut (rKh w) || kOut (rKw w) || rDilH w == 0 || rDilW w == 0
    || (!tr && rPadMode w == 3)
    || padOut (rPadTop w) (rKh w) (rDilH w) (uDegH r) || padOut (rPadBottom w) (rKh w) (rDilH w) (uDegH r)
    || padOut (rPadLeft w) (rKw w) (rDilW w) (uDegW r) || padOut (rPadRight w) (rKw w) (rDilW w) (uDegW r)
    || oh == 0 || ow == 0 || dExt o 2 != oh || dExt o 1 != ow
    || g == 0 || dExt a 0 % max 1 g != 0 || dExt wt 0 % max 1 g != 0
    || (uRoute r).isNone
    || decide (1024 < uSeg r * sliceEntries (dFmt a) (dFmt wt))
    || !(a.space == 1 || a.space == 3) || wt.space != 2 || !(o.space == 0 || o.space == 1 || o.space == 4)
    || (a.space == 3 && dStride a 2 % 512 != 0 && ringSource all held r)
    || (uRoute r == some .depthwise && (a.outlierCount != 0 || o.outlierCount != 0))

/-- Input lines L of an MPCONV record's window (R216). -/
def mpeLines (w : Line) : Nat := if rMpeMode w / 16 % 4 = 0 then rKh w else ceilDiv (rKh w) (rStrideH w)
/-- Image context of an MPCONV record (Table 6.5), and its FROM_IPL and TO_IPL. -/
def mpeIc (w : Line) : Nat := rMpeMode w % 16
def mpeFrom (w : Line) : Bool := rMpeMode w / 64 % 2 == 1
def mpeTo (w : Line) : Bool := rMpeMode w / 128 % 2 == 1

/-- Units of an MPCONV record's input window: L + 1 lines; with FROM_IPL a line is a raw line of every stripe, and L doubles (R216, Table 6.12). -/
def mpeWindow (d : Dev) (w : Line) (a : Desc) : Nat :=
  if mpeFrom w then ceilDiv ((2 * mpeLines w + 1) * pairUnits d (mpeIc w)) 2 else (mpeLines w + 1) * ceilDiv (dStride a 2) 512

/-- Units of an MPCONV record's weights, scales and checksum sums: 4 bytes of sums per output channel (R216, Table 6.12). -/
def mpeWeights (w : Line) (wt : Desc) : Nat :=
  let n := dExt wt 0
  ceilDiv (n * dExt wt 1 * rKh w * rKw w + scaleBytes wt n + 4 * n) 512

/-- Units of the MPE buffer that an MPCONV record holds (R216). -/
def mpeUnits (d : Dev) (w : Line) (a wt : Desc) : Nat := mpeWeights w wt + mpeWindow d w a

/-- Limits of MPCONV (Table 6.6, R215 to R219). -/
def mpeLimit (d : Dev) (r : URec) : Bool :=
  let w := r.word
  let k := mpeIc w
  let m := rMpeMode w
  let conv := m / 16 % 4 == 0
  let a := uA r; let wt := uW r; let o := uO r
  let toIpl := mpeTo w
  let fromIpl := mpeFrom w
  let c := dExt a 0; let n := dExt wt 0
  let inR (x lo hi : Nat) : Bool := decide (lo ≤ x) && decide (x ≤ hi)
  let f := if conv then convExtent else tconvExtent
  !(if conv then inR (rKh w) 1 7 && inR (rKw w) 1 7 && inR (rStrideH w) 1 2 && inR (rStrideW w) 1 2
    else inR (rKh w) 2 8 && inR (rKw w) 2 8 && rStrideH w == 2 && rStrideW w == 2)
    || !((inR c 1 8 && inR n 1 64) || (inR c 1 64 && inR n 1 8))
    || !(a.format == 4 || a.format == 2 || a.format == 3) || wt.format != 2
    || !inR (dExt a 1) 1 2048 || (conv && rPadMode w == 3)
    || a.space != 3 || a.outlierCount != 0 || (rDescO w != 0xFFF && o.outlierCount != 0)
    || rGroups w != 1 || rDilH w != 1 || rDilW w != 1 || rGroup w != 0
    || (if toIpl then rDescO w != 0xFFF || n != 3
        else !(o.format == 2 || o.format == 3 || o.format == 4 || o.format == 7) || !(o.space == 0 || o.space == 4)
          || dExt o 2 != f (dExt a 2) (rPadTop w) (rPadBottom w) 1 (rKh w) (rStrideH w)
          || dExt o 1 != f (dExt a 1) (rPadLeft w) (rPadRight w) 1 (rKw w) (rStrideW w))
    || (fromIpl && (a.format != 4 || c != 4 || dExt a 1 != (min (icSw d k) (icWidth d k) + 2 * icHalo d k) / 2 || dExt a 2 != icHeight d k / 2))
    || decide (512 < mpeUnits d w a wt)

/-! ### A unit -/

/-- A unit: its records core by core in ascending order, the windows that fused hand-overs open, and the counters that a placement binds. -/
structure AUnit where
  recs : List URec := []
  fused : List UWin := []
  /-- Cores named (test 1). -/
  cores : List Nat := []
  /-- A fused hand-over between stages of different core counts: its window entry (R247). -/
  uneven : Option Nat := none
  /-- Counter groups to bind, each with its hub, in order. -/
  groups : List (Nat × Nat) := []
  /-- Counter groups the work context holds, besides. -/
  bound : List Nat := []
  /-- Windows that the work context's admitted placement opens: core, entry, block mode (R199). -/
  held : List (Nat × Nat × Bool) := []
  deriving DecidableEq, Repr

/-- The windows that a unit opens (R143, R247, R554). -/
def unitWins (u : AUnit) : List UWin := u.fused ++ u.recs.flatMap opensRec

/-- The first record that a test refuses, with what the test says of it. -/
def firstRec (u : AUnit) (f : URec → Option Nat) : Option Nat := u.recs.findSome? f

/-- Free tile counters of hub h. -/
def freeCounters (d : Dev) (h : Nat) : List Nat := (List.range 64).filter fun k => !(ctrOf d (h * 64 + k)).bound

/-- Test 14: counters, tiles and outlier lists (R246, R182). -/
def test14 (d : Dev) (u : AUnit) : Option Nat :=
  let short := (List.range 4).any fun h => decide ((freeCounters d h).length < (u.groups.filter fun g => g.2 == h).length)
  if short then some 1
  else
    let known (r : URec) : Bool := u.bound.contains (rGroup r.word) || u.groups.any fun g => g.1 == rGroup r.word
    let shared := u.recs.filter fun r => isMatrixOp (rOpcode r.word) && rGroup r.word != 0
    if shared.any fun r => !known r then some 1
    else if u.recs.any fun r => isMatrixOp (rOpcode r.word) && decide (65535 < uTiles r) then some 3
    else if (List.range 16).any fun n =>
        decide (64 < ((u.recs.filter fun r => r.core == n && r.chain != 0).flatMap fun r => r.lists.map (·.1)).eraseDups.length) then some 4
    else none

/-- The tests of Table 5.12 in order: the code and detail of the first that refuses (R184). -/
def admitUnit (d : Dev) (u : AUnit) : Option (Nat × Nat) :=
  let all := unitWins u
  let mem (code : Nat) (x : Option Nat) : List (Nat × Nat) := match x with | some v => [(code, v)] | none => []
  let yes (p : URec → Bool) (r : URec) : Option Nat := if p r then some r.idx else none
  match u.cores.find? fun n => n < 16 && (coreOf d n).disabled with
  | some n => some (0x0501, n)
  | none => match firstRec u (yes badRecord) with
    | some i => some (0x0502, i)
    | none => match firstRec u test3 with
      | some i => some (0x0503, i)
      | none => (mem 0x0504 (firstRec u (yes test4)) ++ mem 0x0505 (firstRec u test5) ++ mem 0x0506 (firstRec u test6)
          ++ mem 0x0507 (firstRec u test7) ++ mem 0x0508 (firstRec u (test8 d)) ++ mem 0x0509 (firstRec u fun r => overflow r 2)
          ++ mem 0x050A (firstRec u fun r => overflow r 1) ++ mem 0x050B (firstRec u test11)
          ++ mem 0x050C (match u.uneven with | some e => some e | none => match (u.fused.find? winBad) with
              | some w => some w.entry
              | none => test12 all u.fused u.recs)
          ++ mem 0x050D (test13 all [] u.recs) ++ mem 0x050E (test14 d u)
          ++ mem 0x050F (firstRec u (yes fun r => (isConvOp (rOpcode r.word) && convLimit all u.held r) || (rOpcode r.word == 0x0A && mpeLimit d r)))).head?

/-! ### Where a ring's records run -/

/-- The stage that a ring feeds. -/
def stageOf (c : Wc) (i : Nat) : Option (Nat × Stage) := findIdxElem (fun s => s.ring == i) c.stages 0

/-- The stages of a chain's records, from a stage on. -/
def chainStages (c : Wc) : Nat → Stage → List Stage
  | 0, _ => []
  | k + 1, s => s :: chainStages c k (c.stages.getD s.nxt {})

/-- Cores of a set, lowest first. -/
def setCores (m : BitVec 16) : List Nat := (List.range 16).filter fun n => bit m n

/-- All cores of the placement. -/
def placementCores (c : Wc) : BitVec 16 := c.stages.foldl (fun m s => m ||| s.cores) 0#16

/-- Cores that each record of a unit on ring i goes to, with the stage it runs on (R246, R248, R252, R277). -/
def unitCores (c : Wc) (i : Nat) (ws : List Line) : List (List Nat × Option Stage) :=
  match stageOf c i, ws with
  | some (_, st), w :: rest =>
    if rOpcode w = 0x20 then
      let ss := chainStages c rest.length st
      (setCores (ss.foldl (fun m s => m ||| s.cores) 0#16), none) :: ss.map fun s => (setCores s.cores, some s)
    else ws.map fun w =>
      (if rOpcode w = 0x0A then [16]
       else if isMatrixOp (rOpcode w) && rGroup w ≠ 0 then setCores st.cores
       else if rOpcode w = 0x21 && rScope w = 1 then setCores (placementCores c)
       else (setCores st.cores).take 1, some st)
  | _, _ => ws.map fun w => (if rOpcode w = 0x0A then [16] else [wRingCore c i], none)

/-- Window entry that a record reads. -/
def inputWindow (d : Dev) (c : Wc) (w : Line) : Option Nat :=
  ((recSources w).filterMap fun i =>
    let t := descOf (BitVec.ofNat 512 (leNat (cpBytes d (wDescTable c + 64 * i) 64)))
    if t.space = 3 then some t.window else none).head?

/-- Windows that a chain's header opens on a stage's cores: the previous stage's fused hand-over. -/
def fusedOf (prev s : Stage) : List UWin :=
  if prev.handover = 1 then (setCores s.cores).map fun n =>
    { core := n, entry := prev.window, wm := decide (16 ≤ prev.window), units := prev.wsize + 1, placed := false, ring := prev.wmode == 0 }
  else []

/-- The admission records of a unit on ring i of work context w, `base` being the index of its first record. -/
def unitRecs (d : Dev) (w i base : Nat) (ws : List Line) : List URec :=
  let c := wcOf d w
  let cs := unitCores c i ws
  let free := (stageOf c i).isNone
  let chained := match ws with | h :: _ => rOpcode h == 0x20 && !free | [] => false
  let all := (withPos ws).flatMap fun x =>
    let next := if chained && x.1 ≠ 0 then
        (match ws[x.1 + 1]?, cs[x.1 + 1]? with
          | some nw, some (ns, _) => (inputWindow d c nw).map fun e => (e, ns.headD 0)
          | _, _ => none) else none
    (cs.getD x.1 ([], none)).1.map fun n => mkRec d c (base + x.1) n x.2 (if chained then x.1 else 0) free next
  (List.range 17).flatMap fun n => all.filter fun r => r.core == n

/-- The unit of one record or one FUSE chain fetched from ring i (R184). -/
def ringUnit (d : Dev) (w i : Nat) (ws : List Line) : AUnit :=
  let c := wcOf d w
  let rs := unitRecs d w i 0 ws
  let ss := (unitCores c i ws).filterMap (·.2)
  { recs := rs, cores := (rs.map (·.core)).eraseDups, fused := (ss.zip ss.tail).flatMap fun p => fusedOf p.1 p.2
    bound := c.groups.map (·.1), held := c.winModes }

/-! ### Placements (R245, R246, R556) -/

/-- A stage entry (Table 7.7). -/
def stageEntry (v : BitVec 256) : Stage :=
  { cores := BitVec.ofNat 16 (fld v 240 16), ring := fld v 237 3, handover := fld v 235 2, nxt := fld v 229 6
    group := fld v 216 8, window := fld v 211 5, wmode := fld v 210 1, wsize := fld v 199 11 }

/-- The hub with the least summed hop count from a set of cores, the lower-numbered on a tie (R14, R246). -/
def nearestHub (m : BitVec 16) : Nat :=
  let x (n : Nat) : Nat := [0, 1, 3, 4].getD (n % 4) 0
  let dist (a b : Nat) : Nat := (a - b) + (b - a)
  let cost (h : Nat) : Nat := ((setCores m).map fun n => dist (x n) 2 + dist (n / 4) h).sum
  (bestOf cost (List.range 4)).getD 0

/-- The checks of R556 on a placement header and its stages: the detail of the first that fails. -/
def placementBad (w table stages hwc : Nat) (ss : List Stage) : Option Nat :=
  if table % 32 ≠ 0 ∨ stages = 0 ∨ 64 < stages ∨ hwc ≠ w then some 0xFFFFFFFF
  else ((withPos ss).find? fun x => x.2.handover == 3 || ((x.2.handover == 1 || x.2.handover == 2) && decide (stages ≤ x.2.nxt))).map fun x => 0xFFFF0000 + x.1

/-- A fused hand-over between stages of different core counts (R247). -/
def unevenStage (ss : List Stage) : Option Nat :=
  (ss.find? fun s => s.handover == 1 && (setCores s.cores).length != (setCores (ss.getD s.nxt {}).cores).length).map (·.window)

/-- Counter groups that a stage table names, each once, with its hub (R246). -/
def groupsOf (ss : List Stage) : List (Nat × Nat) :=
  ((ss.map (·.group)).filter (· ≠ 0)).eraseDups.map fun g => (g, nearestHub ((ss.filter fun s => s.group == g).foldl (fun m s => m ||| s.cores) 0#16))

/-- Members of a counter group. -/
def groupMembers (ss : List Stage) (g : Nat) : BitVec 16 := (ss.filter fun s => s.group == g).foldl (fun m s => m ||| s.cores) 0#16

/-- Bind a counter group to the lowest-numbered free counter of its hub, with its bitmap's place in the slice. -/
def bindGroup (w : Nat) (ss : List Stage) (d : Dev) (g : Nat × Nat) : Dev :=
  match (freeCounters d g.2).head? with
  | some k =>
    let key := g.2 * 64 + k
    let d := setCtr d key { ctrOf d key with state := 0, wc := w, members := groupMembers ss g.1, bitmap := k * 128, bound := true }
    let d := updWc d w fun c => { c with groups := c.groups ++ [(g.1, key)] }
    setCnt d (0x2270 + g.2) 4 (cnt d (0x2270 + g.2) 4 + 1)
  | none => d

end Sys2Proof.Machine
end

