-- ==== Sys2Proof/Machine/Cp.lean ====
section
/-! DEFINITION. The command processor's commands: work-context states, doorbells, fetch and dispatch, the completion and event rings, and cancellation (chapter 8). -/

namespace Sys2Proof.Machine

open Sys2Proof

/-! ### Commands (Tables 8.3 and 8.4) -/

/-- A command in the queue: OP, work context, ARG. -/
def cmdWord (op w arg : Nat) : W64 := BitVec.ofNat 64 (op * 2 ^ 60 + w * 2 ^ 48 + arg)
def cOp (c : W64) : Nat := fld c 60 4
def cWc (c : W64) : Nat := fld c 48 12
def cArg (c : W64) : Nat := fld c 0 40

/-- Report a command given in a state that does not accept it (R267). -/
def wrongState (d : Dev) (w op status : Nat) : Dev :=
  if (wcOf d w).state = 0#4 then postEventWc d 0x0825 1 srcCp w 3
  else commandDone d w op (if op = 4 then 1 else 2) status 0

/-- Take a work context out of every core's resident set (R174). -/
def dropResident (d : Dev) (w : Nat) : Dev :=
  (coresIn (wcOf d w).resident).foldl (fun d n => updCore d n fun c => { c with resident := c.resident.filter fun r => r.1 != w }) d

/-- Little-endian 32-bit words. -/
def words32 : List Byte → List W32
  | a :: b :: c :: e :: t => BitVec.ofNat 32 (leNat [a, b, c, e]) :: words32 t
  | _ => []

/-- Load the signal counters from the signal block (log 20). -/
def loadSignals (d : Dev) (w : Nat) : Dev :=
  let (d, bs, _) := memRead d (some agCp) srcCp (wSignalBlock (wcOf d w)) 256
  updWc d w fun c => { c with signals := (withPos (words32 bs)).foldl (fun t x => sset (fun _ => 0#32) t x.1 x.2) [] }

/-- ENABLE (R266): the entry is read and checked; on success the reset values are written and every doorbell TAIL is 0. -/
def runEnable (d : Dev) (w : Nat) : Dev :=
  if (wcOf d w).state ≠ 0#4 then wrongState d w 1 0x0810
  else match entryFault (wcOf d w) with
    | some lo => postEventWc d 0x0825 1 srcCp w (2 + lo % 4096 * 16)
    | none =>
      let d := dropResident d w
      let d := (List.range 8).foldl (fun d i => updRing d (8 * w + i) fun _ => {}) d
      let d := updWc d w fun c => { c with state := 1#4, placement := 0#40, inflight := 0, resident := 0#16, retired := 0#32, complTail := 1#32,
                                           complHead := 1#32, halted := 0#8, reserved := 0, stages := [], groups := [], winModes := [], cancel := none,
                                           releasePending := false, turns := 0#16, asks := 0#16, lastTurn := 15, dirty := true }
      commandDone (loadSignals d w) w 1 2 0 0

/-- DISABLE: the completion is written, then the state changes and the entry is written back. -/
def runDisable (d : Dev) (w : Nat) : Dev :=
  let c := wcOf d w
  if (c.state = 1#4 ∨ c.state = 3#4) ∧ c.inflight = 0 ∧ c.placement = 0#40 then
    writeThrough (updWc (commandDone d w 2 2 0 0) w fun c => { c with state := 0#4 }) w
  else wrongState d w 2 0x0810

/-- Records of ring r from RING_HEAD to TAIL are skipped (R294). -/
def skipRing (w : Nat) (d : Dev) (i : Nat) : Dev :=
  let r := 8 * w + i
  let d := unfetch d r
  let x := ringOf d r
  let k := (x.tail - x.head).toNat
  updWc (updRing d r fun x => { x with head := x.tail }) w fun c =>
    { c with cancel := c.cancel.map fun y => { y with skipped := y.skipped + k, tails := y.tails ++ [x.tail] } }

/-- CANCEL (R292, R294): the epoch rises, the tails are recorded, the records up to them are skipped, the signal counters become zero. -/
def runCancel (d : Dev) (w : Nat) : Dev :=
  let c := wcOf d w
  if c.state = 1#4 then
    let d := updWc d w fun c => { c with state := 2#4, epoch := c.epoch + 1, cancel := some {}, signals := [], dirty := true }
    let d := memWrite d (some agCp) srcCp (wSignalBlock (wcOf d w)) (List.replicate 256 0#8) false
    (List.range 8).foldl (skipRing w) d
  else if c.state = 2#4 then updWc d w fun c => { c with cancel := c.cancel.map fun y => { y with extra := y.extra + 1 } }
  else wrongState d w 3 0x0810

/-- The placement at an address: header, stages, and whether it was read poisoned or refused (R245, R556). -/
def readPlacement (d : Dev) (a : Nat) : Dev × BitVec 128 × List Stage × Bool :=
  let (d, hb, p) := memRead d (some agCp) srcCp a 16
  let h : BitVec 128 := BitVec.ofNat 128 (leNat hb)
  let n := fld h 64 8
  if p || decide (64 < n) then (d, h, [], p)
  else
    let (d, sb, q) := memRead d (some agCp) srcCp (fld h 88 40) (32 * n)
    (d, h, (List.range n).map fun i => stageEntry (BitVec.ofNat 256 (leNat ((sb.drop (32 * i)).take 32))), q)

/-- Records of ring i of work context w from RING_HEAD to TAIL, cut into units: each record alone, a FUSE header with its chain. -/
def cutChains : Nat → List Line → List (List Line)
  | 0, _ => []
  | _ + 1, [] => []
  | k + 1, w :: t =>
    let n := if rOpcode w = 0x20 && decide (rIndex w ≤ 32) then rIndex w else 0
    (w :: t.take n) :: cutChains k (t.drop n)

/-- The records that stand in a ring, from RING_HEAD. -/
def ringLines (d : Dev) (w i : Nat) : List Line :=
  let c := wcOf d w
  let r := ringOf d (8 * w + i)
  (List.range (r.tail - r.head).toNat).map fun k =>
    BitVec.ofNat 512 (leNat (cpBytes d (wRingBase c i + (r.head.toNat + k) % 2 ^ wRingLog2 c i * 64) 64))

/-- The check of a placement reads the records of a ring and the descriptors that they name (R159, R184). -/
def touchRing (d : Dev) (w i : Nat) : Dev :=
  let c := wcOf d w
  let r := ringOf d (8 * w + i)
  let d := (List.range (r.tail - r.head).toNat).foldl (fun d k => cpTouch d (wRingBase c i + (r.head.toNat + k) % 2 ^ wRingLog2 c i * 64) 64) d
  touchDescs d c (ringLines d w i)

/-- Units of a ring with the index of each one's first record. -/
def numberUnits : Nat → List (List Line) → List (Nat × List Line)
  | _, [] => []
  | k, u :: us => (k, u) :: numberUnits (k + u.length) us

/-- The unit that a placement's submission admits: the records that stand in its stage rings (R184). -/
def placementUnit (d : Dev) (w : Nat) (cores : BitVec 16) (ss : List Stage) : AUnit :=
  let rings := (ss.map (·.ring)).eraseDups
  let recs := rings.flatMap fun i =>
    let ls := ringLines d w i
    (numberUnits 0 (cutChains ls.length ls)).flatMap fun u => unitRecs d w i u.1 u.2
  { recs := (List.range 17).flatMap fun n => recs.filter fun r => r.core == n
    cores := (List.range 16).filter fun n => bit cores n || ss.any fun s => bit s.cores n
    fused := ss.flatMap fun s => fusedOf s (ss.getD s.nxt {})
    uneven := unevenStage ss, groups := groupsOf ss }

/-- SUBMIT (R266, R556): the placement is checked and admitted as a whole. -/
def runSubmit (d : Dev) (w a : Nat) : Dev :=
  let c := wcOf d w
  if c.state ≠ 1#4 then wrongState d w 4 0x0810
  else if c.placement ≠ 0#40 ∨ c.releasePending = true then wrongState d w 4 0x0811
  else
    let (d, h, ss, p) := readPlacement d a
    if p then commandDone d w 4 1 0x0803 0
    else match placementBad w (fld h 88 40) (fld h 64 8) (fld h 48 12) ss with
      | some x => commandDone (bump d 0x2602 2 4 1) w 4 1 0x0502 x
      | none =>
        let d := ((ss.map (·.ring)).eraseDups).foldl (fun d i => touchRing d w i) d
        let held := d
        let d := updWc d w fun c => { c with stages := ss }
        let u := placementUnit d w (BitVec.ofNat 16 (fld h 72 16)) ss
        match admitUnit d u with
        | some (code, x) => commandDone (bump held 0x2602 2 4 1) w 4 1 code x
        | none =>
          let d := (ss.map (·.ring)).eraseDups.foldl (fun d i => let r := 8 * w + i
            let d := unfetch d r
            updRing d r fun x => { x with pre := (x.tail - x.head).toNat }) d
          let d := u.groups.foldl (bindGroup w ss) d
          let d := updWc d w fun c => { c with winModes := (unitWins u).map (fun v => (v.core, v.entry, !v.ring)), placement := BitVec.ofNat 40 a, lastTurn := (fld h 60 4 + 15) % 16, dirty := true }
          commandDone d w 4 1 0 0

/-- RELEASE (R266). -/
def runRelease (d : Dev) (w : Nat) : Dev :=
  let c := wcOf d w
  if (c.state = 1#4 ∨ c.state = 3#4) ∧ c.placement ≠ 0#40 then releaseSettle (updWc d w fun c => { c with releasePending := true }) w
  else wrongState d w 5 0x0810

/-- RESUME (R280). -/
def runResume (d : Dev) (w m : Nat) : Dev :=
  if (wcOf d w).state = 1#4 then
    commandDone (updWc d w fun c => { c with halted := c.halted &&& ~~~(BitVec.ofNat 8 m), dirty := true }) w 6 2 0 0
  else wrongState d w 6 0x0810

/-- Carry out one command whose entry is cached. -/
def runCmd (d : Dev) (c : W64) : Dev :=
  let w := cWc c
  match cOp c with
  | 1 => runEnable d w
  | 2 => runDisable d w
  | 3 => runCancel d w
  | 4 => runSubmit d w (cArg c)
  | 5 => runRelease d w
  | 6 => runResume d w (cArg c % 256)
  | _ => d

/-- Take commands from the queue in arrival order until one must wait: for a fill (R272), or for a free completion slot (R278). ENABLE of a Disabled work context reads its entry again (R263). -/
def cpRun : Nat → Dev → Dev
  | 0, d => d
  | k + 1, d =>
    match d.cp.cmds with
    | [] => d
    | c :: rest =>
      let w := cWc c
      let fresh := cOp c == 1 && (wcOf d w).cached && (wcOf d w).state == 0#4
      let d := if fresh then updWc d w fun x => { x with cached := false } else d
      let was := (wcOf d w).cached
      let (d, ok) := ensureCached d w
      let x := wcOf d w
      if !ok then d
      else if x.state ≠ 0#4 && freeSlots x = 0 && !(cOp c == 3) then d
      else
        let d := updCp d fun y => { y with cmds := rest }
        let d := if cOp c == 1 && !was && x.state = 3#4 then d else runCmd d c
        cpRun k d

/-- A write of CMD: discarded while CMD_FREE is zero, else queued and taken in turn (R266). -/
def cmdWrite (d : Dev) (op w arg : Nat) : Dev :=
  if 64 ≤ d.cp.cmds.length then postEventWc (bump d 0x2602 6 4 1) 0x0825 1 srcCp w 1
  else cpRun 64 (updCp d fun c => { c with cmds := c.cmds ++ [cmdWord op w arg] })

/-! ### Registers, doorbells and heads -/

/-- CTX_BASE (R266): bits [39:20], while every work context is Disabled. -/
def ctxBaseWrite (d : Dev) (v : W64) : Dev :=
  if d.cp.wcs.any fun e => e.2.state != 0#4 then d
  else updCp d fun c => { c with ctxBase := BitVec.ofNat 40 (fld v 20 20 * 2 ^ 20) }

/-- EVT_CTRL (Table 8.6). -/
def evtCtrlWrite (d : Dev) (v : W64) : Dev :=
  let old := d.cp.evtCtrl
  let v := BitVec.ofNat 64 (fld v 24 40 * 2 ^ 24 + fld v 16 5 * 2 ^ 16 + fld v 0 1)
  if bit old 0 && (fld old 24 40 != fld v 24 40 || fld old 16 5 != fld v 16 5) then d
  else updCp d fun c =>
    if !bit old 0 && bit v 0 then { c with evtCtrl := v, evtTail := 1#24, evtHead := 1#24 } else { c with evtCtrl := v }

/-- EVT_HEAD (R291). -/
def evtHeadWrite (d : Dev) (v : W64) : Dev :=
  let h := BitVec.ofNat 24 v.toNat
  if (h - d.cp.evtHead).toNat ≤ (d.cp.evtTail - d.cp.evtHead).toNat then updCp d fun c => { c with evtHead := h }
  else bump d 0x2602 7 4 1

/-- Refuse a doorbell (R274). -/
def refuseDoorbell (d : Dev) (r reason tail : Nat) : Dev :=
  postEventWc (bump d 0x2602 3 4 1) 0x0820 1 srcCp (r / 8) (r + reason * 65536 + tail % 2 ^ 32 * 2 ^ 32)

/-- A doorbell write (R273, R274); `whole` says that it is an aligned 8 B write. -/
def doorbell (d : Dev) (r : Nat) (v : W64) (whole : Bool) : Dev :=
  let d := (ensureCached d (r / 8)).1
  let c := wcOf d (r / 8)
  let x := ringOf d r
  let t := BitVec.ofNat 32 v.toNat
  if !whole then refuseDoorbell d r 1 t.toNat
  else if (c.state ≠ 1#4 && c.state ≠ 2#4) || !wRingEnable c (r % 8) then refuseDoorbell d r 2 t.toNat
  else if (t - x.tail).msb then refuseDoorbell d r 3 t.toNat
  else if 2 ^ wRingLog2 c (r % 8) < (t - x.head).toNat then refuseDoorbell d r 4 t.toNat
  else updRing d r fun y => { y with tail := t, since := if y.tail = y.head then d.clk.ns else y.since }

/-- A write of a completion-ring head (R284). -/
def complHeadWrite (d : Dev) (w : Nat) (v : W64) : Dev :=
  let d := (ensureCached d w).1
  let c := wcOf d w
  let h := BitVec.ofNat 32 v.toNat
  if (h - c.complHead).toNat ≤ (c.complTail - c.complHead).toNat then
    cpRun 64 (releaseSettle (updWc d w fun c => { c with complHead := h, dirty := true }) w)
  else postEventWc d 0x0821 1 srcCp w h.toNat

/-- CONTEXT_FILL (R271): the entry is read into the context cache, if it is not there. -/
def contextFill (d : Dev) (w : Nat) : Dev := cpRun 64 (ensureCached d w).1

/-- CONTEXT_WRITE_THROUGH (R264). -/
def contextWriteThrough (d : Dev) (w : Nat) : Dev := if (wcOf d w).dirty then writeThrough d w else d

/-! ### Fetch (R276, R278, R280) -/

/-- Position one beyond the last record fetched. -/
def fetchedTo (r : Ring) : W32 := r.head + BitVec.ofNat 32 ((r.ready.map (·.length)).sum - r.part)

/-- Read the record at a ring position, with whether it was read poisoned. -/
def readRecord (d : Dev) (w i : Nat) (pos : W32) : Dev × Line × Bool :=
  let c := wcOf d w
  let (d, bs, p) := memRead d (some agCp) srcCp (wRingBase c i + pos.toNat % 2 ^ wRingLog2 c i * 64) 64
  (d, BitVec.ofNat 512 (leNat bs), p)

/-- Read `k` records from a ring position. -/
def readRecords (w i : Nat) : Nat → Dev → W32 → Dev × List (Line × Bool)
  | 0, d, _ => (d, [])
  | k + 1, d, pos =>
    let (d, l, p) := readRecord d w i pos
    let (d, rest) := readRecords w i k d (pos + 1)
    (d, (l, p) :: rest)

/-- Records of the unit that are reduced to their centre tap (R206, R207). -/
def reducedCount (u : AUnit) : Nat := ((u.recs.filter fun r => uDegH r || uDegW r).map (·.idx)).eraseDups.length

/-- Report a refused unit once every record before it has been dispatched: the refusal's completion, RING_HEAD past the unit, the ring halted (R280). -/
def settleRefused (d : Dev) (w i : Nat) : Dev :=
  let r := ringOf d (8 * w + i)
  match r.ready, r.refused with
  | [], some (n, code, x, word) =>
    let d := updWc (bump d 0x2602 2 4 1) w fun c => { c with reserved := c.reserved - n, halted := c.halted ||| BitVec.ofNat 8 (2 ^ i), dirty := true }
    let d := recordDone d w word (wcOf d w).epoch.toNat i r.head code x 0
    updRing d (8 * w + i) fun y => { y with head := y.head + BitVec.ofNat 32 n, refused := none }
  | _, _ => d

/-- Fetch records and take in the units from ring i while records are left in the read of 16 and slots are free beyond the two of R278. -/
def fetchUnits (w i : Nat) : Nat → Nat → Dev → Dev
  | 0, _, d => d
  | k + 1, budget, d =>
    let c := wcOf d w
    let r := ringOf d (8 * w + i)
    let pos := fetchedTo r
    let avail := (r.tail - pos).toNat
    if budget = 0 ∨ avail = 0 ∨ r.refused.isSome = true ∨ freeSlots c < 2 then d
    else
      let (d, h, p) := readRecord d w i pos
      let n := if rOpcode h = 0x20 && (stageOf c i).isSome && decide (rIndex h ≤ 32) then rIndex h else 0
      if avail < n + 1 ∨ freeSlots c < n + 2 then d
      else
        let (d, rest) := readRecords w i n d (pos + 1)
        let ls := (h, p) :: rest
        let d := updWc d w fun c => { c with reserved := c.reserved + n + 1 }
        let d := touchDescs d (wcOf d w) (ls.map (·.1))
        let u := ringUnit d w i (ls.map (·.1))
        match if r.pre = 0 then admitUnit d u else none with
        | some (code, x) => settleRefused (updRing d (8 * w + i) fun y => { y with refused := some (n + 1, code, x, h) }) w i
        | none =>
          let d := bump d 0x22A0 1 4 (reducedCount u)
          let d := updRing d (8 * w + i) fun y => { y with ready := y.ready ++ [ls], pre := y.pre - (n + 1) }
          fetchUnits w i k (budget - (n + 1)) d

/-- A SUBMIT of the work context waits in the command queue (R268). -/
def submitPending (d : Dev) (w : Nat) : Bool := d.cp.cmds.any fun c => cOp c == 4 && cWc c == w

/-- RECORD_FETCH (R276): the CP fetches up to 16 records of ring i of work context w and admits them. -/
def recordFetch (d : Dev) (w i : Nat) : Dev :=
  let (d, ok) := ensureCached d w
  let c := wcOf d w
  if ok && c.state = 1#4 && wRingEnable c i && !bit c.halted i && !submitPending d w then fetchUnits w i 16 16 d else d

/-! ### Dispatch (R174, R179, R246, R248, R279) -/

/-- Queue, pool and list slots of a core in use. -/
def slotsUsed (c : Core) : List Nat := c.ops.map (·.slot)
def poolUsed (c : Core) : List Nat := c.ops.flatMap fun o => o.descs.map fun x => x.2.1
def listsUsed (c : Core) : List Nat := c.ops.flatMap fun o => o.lists.map fun x => x.2.1
/-- Numbers below `n` that are not in use. -/
def freeOf (n : Nat) (used : List Nat) : List Nat := (List.range n).filter fun k => !used.contains k

/-- Resident work contexts that core n may evict, the least recently dispatched to first (R174). -/
def evictResident (c : Core) : Option (Nat × Nat × Nat) :=
  bestOf (fun r => r.2.2) (c.resident.filter fun r => !(c.ops.any fun o => o.wc == r.1))

/-- Core n has room for `k` copies of records of work context w that name `nd` descriptors and `nl` lists in all (R174). -/
def coreRoom (d : Dev) (n w k nd nl : Nat) : Bool :=
  let c := coreOf d n
  !c.disabled && decide (c.ops.length + k ≤ 256) && decide (nd ≤ (freeOf 512 (poolUsed c)).length) && decide (nl ≤ (freeOf 64 (listsUsed c)).length)
    && ((lenSet c w).isSome || decide (c.resident.length < 8) || (evictResident c).isSome)

/-- Write bytes of core n's descriptor store from a word's start, word by word, with the poison of each (R118). -/
def dsStore (d : Dev) (n off : Nat) (bs : List (Byte × Bool)) : Dev :=
  (withPos (chunks 32 ((bs.length + 31) / 32) bs)).foldl (fun d x => dsPut d n (off + 32 * x.1) (x.2.map (·.1)) (x.2.any (·.2))) d

/-- Make work context w resident on core n, evicting if need be, and load its length registers from the master copy (R174, R177). -/
def makeResident (d : Dev) (n w : Nat) : Dev :=
  let stamp := (coreOf d n).stamp + 1
  let d := updCore d n fun c => { c with stamp := stamp }
  if (lenSet (coreOf d n) w).isSome then
    updCore d n fun c => { c with resident := c.resident.map fun r => if r.1 = w then (w, r.2.1, stamp) else r }
  else
    let d := if (coreOf d n).resident.length < 8 then d else match evictResident (coreOf d n) with
      | some r =>
        let d := updCore d n fun c => { c with resident := c.resident.filter (· ≠ r) }
        updWc d r.1 fun c => { c with resident := c.resident &&& ~~~(BitVec.ofNat 16 (2 ^ n)), dirty := true }
      | none => d
    let set := ((freeOf 8 ((coreOf d n).resident.map (·.2.1))).head?).getD 0
    let d := updCore d n fun c => { c with resident := c.resident ++ [(w, set, stamp)] }
    let d := updWc d w fun c => { c with resident := c.resident ||| BitVec.ofNat 16 (2 ^ n), dirty := true }
    let (d, bs) := memReadMarked d (some agCp) srcCp (wLenBlock (wcOf d w)) 256
    dsStore d n (0xE000 + set * 256) bs

/-- Copy the descriptors a record names into pool slots of core n; `patch` replaces REMOTE_CORE of an output (R159, R248). -/
def copyDescs (w n : Nat) (outs : List Nat) (patch : Option Nat) : List Nat → List Nat → Dev → Dev × List (Nat × Nat × Line)
  | i :: is, slot :: slots, d =>
    let (d, bs) := memReadMarked d (some agCp) srcCp (wDescTable (wcOf d w) + 64 * i) 64
    let v := leNat (bs.map (·.1))
    let v := match patch with
      | some r => if outs.contains i then setFld v 48 4 r else v
      | none => v
    let d := dsStore d n (0x4000 + 64 * slot) ((leBytes 64 v).zip (bs.map (·.2)))
    let (d, rest) := copyDescs w n outs patch is slots d
    (d, (i, slot, BitVec.ofNat 512 v) :: rest)
  | _, _, d => (d, [])

/-- Copy the outlier lists that descriptors name into list slots of core n (R159). -/
def copyLists (n : Nat) : List (Nat × Nat × Line) → List Nat → Dev → Dev × List (Nat × Nat × List Nat)
  | x :: xs, slots, d =>
    let t := descOf x.2.2
    if t.outlierCount = 0 then copyLists n xs slots d
    else match slots with
      | slot :: more =>
        let (d, bs) := memReadMarked d (some agCp) srcCp t.aux2 (2 * min 64 t.outlierCount)
        let d := dsStore d n (0xC000 + 128 * slot) bs
        let (d, rest) := copyLists n xs more d
        (d, (x.1, slot, listEntries (bs.map (·.1))) :: rest)
      | [] => copyLists n xs [] d
  | [], _, d => (d, [])

/-- One copy of a record as dispatch sends it to a core. -/
structure Copy where
  core : Nat := 0
  pos : W32 := 0#32
  word : Line := 0#512
  poison : Bool := false
  ctr : Option (Nat × BitVec 16) := none
  opens : List (Nat × Nat × Nat × Nat) := []
  closes : List Nat := []
  patch : Option Nat := none
  deriving DecidableEq, Repr

/-- Send a copy of a record of ring i of work context w to its core: residency, queue slot, descriptors and lists (R159, R174). -/
def sendCopy (w i : Nat) (d : Dev) (x : Copy) : Dev :=
  let n := x.core
  let d := makeResident d n w
  let slot := ((freeOf 256 (slotsUsed (coreOf d n))).head?).getD 0
  let d := dsStore d n (64 * slot) ((leBytes 64 x.word.toNat).map fun b => (b, x.poison))
  let outs := recOutputs x.word
  let (d, ds) := copyDescs w n outs x.patch ((namedIdx x.word).filter (· ≠ 0xFFF)) (freeOf 512 (poolUsed (coreOf d n))) d
  let (d, ls) := copyLists n ds (freeOf 64 (listsUsed (coreOf d n))) d
  let o : Op := { wc := w, epoch := (wcOf d w).epoch, ring := i, pos := x.pos, word := x.word, slot := slot, descs := ds, lists := ls
                  ctr := x.ctr, opens := x.opens, closes := x.closes }
  updCore d n fun c => { c with ops := c.ops ++ [o] }

/-- Send an MPCONV record to the MPE, with its descriptors (R214, R277). -/
def sendMpe (w i : Nat) (d : Dev) (pos : W32) (word : Line) (poison : Bool) : Dev :=
  let ix := (namedIdx word).filter (· ≠ 0xFFF)
  let (d, ds, bad) := ix.foldl (fun (s : Dev × List (Nat × Nat × Line) × Bool) k =>
    let (d, bs) := memReadMarked s.1 (some agCp) srcCp (wDescTable (wcOf s.1 w) + 64 * k) 64
    (d, s.2.1 ++ [(k, 0, BitVec.ofNat 512 (leNat (bs.map (·.1))))], s.2.2 || bs.any (·.2))) (d, [], false)
  let o : Op := { wc := w, epoch := (wcOf d w).epoch, ring := i, pos := pos, word := word, descs := ds, poisoned := poison || bad }
  { d with mpe := { d.mpe with recs := d.mpe.recs ++ [{ op := o }] } }

/-- Hub × 64 + counter bound to a group of work context w. -/
def groupCtr (c : Wc) (g : Nat) : Option Nat := (c.groups.find? fun x => x.1 == g).map (·.2)

/-- Arm a tile counter for an instruction: TOTAL, NEXT and DONE are set, the bitmap is cleared (R179). -/
def armCtr (d : Dev) (w k total : Nat) : Dev :=
  let t := ctrOf d k
  let d := (List.range (ceilDiv total 512)).foldl (fun d j => hubClear d (bitmapBase k t + 64 * j)) d
  setCtr d k { t with gen := t.gen + 1, state := 1, wc := w, total := total, next := 0, done := 0 }

/-- Stages, in chain order, of records 1 to n. -/
def unitStages (cs : List (List Nat × Option Stage)) : List Stage := cs.filterMap (·.2)

/-- Windows that the header's copy on core n opens: entry, paired core, mode, size (R247, R248). -/
def headerOpens (ss : List Stage) (n : Nat) : List (Nat × Nat × Nat × Nat) :=
  (ss.zip ss.tail).filterMap fun p =>
    if p.1.handover = 1 then match findIdxElem (· == n) (setCores p.2.cores) 0 with
      | some (j, _) => some (p.1.window, (setCores p.1.cores).getD j 0, p.1.wmode, p.1.wsize)
      | none => none
    else none

/-- The copies that dispatching a unit sends: records with their cores, in chain order (R246, R248). -/
def unitCopies (c : Wc) (d : Dev) (i : Nat) (head : W32) (ls : List (Line × Bool)) : List Copy :=
  let cs := unitCores c i (ls.map (·.1))
  let chain := match ls with | h :: _ :: _ => rOpcode h.1 == 0x20 | _ => false
  let ss := unitStages cs
  (withPos ls).flatMap fun x =>
    let ns := (cs.getD x.1 ([], none)).1
    (withPos ns).map fun m =>
      let base : Copy := { core := m.2, pos := head + BitVec.ofNat 32 x.1, word := x.2.1, poison := x.2.2
                           ctr := if isMatrixOp (rOpcode x.2.1) && rGroup x.2.1 ≠ 0 then (groupCtr c (rGroup x.2.1)).map fun k => (k, (ctrOf d k).gen) else none }
      if chain && x.1 = 0 then { base with opens := headerOpens ss m.2 }
      else if chain then
        let last := !((cs.drop (x.1 + 1)).any fun y => y.1.contains m.2)
        let nxt := match cs[x.1 + 1]? with
          | some (ns', _) => ns'[m.1]?
          | none => none
        { base with closes := if last then (headerOpens ss m.2).map (·.1) else [], patch := nxt }
      else base

/-- Records of a unit, from position `p` of `n`, that one dispatch may send: a record whose counter an earlier one of them takes waits for that one's completion (R179). -/
def batchEnd (cps : List Copy) : Nat → Nat → List Nat → Nat
  | 0, p, _ => p
  | k + 1, p, used =>
    match ((cps.filter fun x => x.pos == BitVec.ofNat 32 p).filterMap fun x => x.ctr.map (·.1)).head? with
    | some c => if used.contains c then p else batchEnd cps k (p + 1) (c :: used)
    | none => batchEnd cps k (p + 1) used

/-- The copies that the next dispatch of ring r's front unit sends, and the position in the unit where it ends. -/
def nextCopies (d : Dev) (r : Nat) (ls : List (Line × Bool)) : List Copy × Nat :=
  let p := (ringOf d r).part
  let cps := unitCopies (wcOf d (r / 8)) d (r % 8) 0#32 ls
  let e := batchEnd cps (ls.length - p) p []
  (cps.filter fun x => decide (p ≤ x.pos.toNat) && decide (x.pos.toNat < e), e)

/-- The unit at the front of ring r may be dispatched, or as much of it as its counters let go (R179, R279). -/
def unitReady (d : Dev) (r : Nat) : Bool :=
  let w := r / 8
  let c := wcOf d w
  match (ringOf d r).ready with
  | [] => false
  | ls :: _ =>
    let cps := (nextCopies d r ls).1
    let ctrs := cps.filterMap fun x => x.ctr.map (·.1)
    let mpe := (cps.filter fun x => x.core == 16).length
    c.cached && c.state == 1#4 && poolRuns d && (!(c.releasePending && (stageOf c (r % 8)).isSome) || (ringOf d r).part != 0)
      && ctrs.all (fun k => (ctrOf d k).state == 0 || (ctrOf d k).state == 3)
      && decide (d.mpe.recs.length + mpe ≤ 32)
      && (List.range 16).all fun n =>
        let here := cps.filter fun x => x.core == n
        here.isEmpty || coreRoom d n w here.length ((here.map fun x => (namedIdx x.word).length).sum)
          ((here.map fun x => ((namedIdx x.word).filter fun k => k ≠ 0xFFF &&
            (descOf (BitVec.ofNat 512 (leNat (cpBytes d (wDescTable c + 64 * k) 64)))).outlierCount ≠ 0).length).sum)

/-- Rings whose front unit may be dispatched. -/
def readyRings (d : Dev) : List Nat := (d.cp.rings.map (·.1)).filter fun r => unitReady d r

/-- The ring the CP takes: the lowest class, then round-robin in ring ID order after the one served last in that class (R279). -/
def chosenRing (d : Dev) : Option Nat :=
  bestOf (fun r => let k := wClass (wcOf d (r / 8)); k * 32768 + (r + 32768 - (sget (fun _ => 32767) d.cp.rr k + 1)) % 32768) (readyRings d)

/-- Work tiles of a record for its first member core (R167, R179). -/
def armTotal (d : Dev) (w i : Nat) (ls : List (Line × Bool)) (k : Nat) : Nat :=
  match (unitRecs d w i 0 (ls.map (·.1))).find? fun r => r.idx == k with
  | some r => uTiles r
  | none => 0

/-- Register a record with several copies, or with a tile counter (R183, R248, R252). -/
def registerShared (w i : Nat) (d : Dev) (pos : W32) (word : Line) (cps : List Copy) : Dev :=
  let k := (cps.filterMap fun x => x.ctr.map (·.1)).head?
  if cps.length ≤ 1 ∧ k = none then d
  else updCp d fun c => { c with shared := c.shared ++ [{ wc := w, ctr := k, ring := i, pos := pos, word := word, epoch := (wcOf d w).epoch, left := cps.length }] }

/-- Dispatch one record of a unit: its counter is armed, its copies go out, it counts as in flight (R179, R282). -/
def dispatchRecord (w i : Nat) (ls : List (Line × Bool)) (cps : List Copy) (d : Dev) (x : Nat × Line × Bool) : Dev :=
  let here := cps.filter fun c => c.pos == BitVec.ofNat 32 x.1
  let head := (ringOf d (8 * w + i)).head
  let pos := head + BitVec.ofNat 32 (x.1 - (ringOf d (8 * w + i)).part)
  let d := match (here.filterMap fun c => c.ctr.map (·.1)).head? with
    | some k => armCtr d w k (armTotal d w i ls x.1)
    | none => d
  let here := here.map fun c => { c with pos := pos, ctr := c.ctr.map fun k => (k.1, (ctrOf d k.1).gen) }
  let d := registerShared w i d pos x.2.1 here
  let d := bump (bump d 0x2602 1 8 1) (0x2620 + wClass (wcOf d w)) 1 8 1
  let d := updWc d w fun c => { c with inflight := c.inflight + 1, dirty := true }
  here.foldl (fun d c => if c.core = 16 then sendMpe w i d pos c.word c.poison else sendCopy w i d c) d

/-- Dispatch the front unit of ring r (R276, R279, R281). -/
def dispatchRing (d : Dev) (r : Nat) : Dev :=
  let w := r / 8
  let i := r % 8
  match (ringOf d r).ready with
  | [] => d
  | ls :: rest =>
    let p := (ringOf d r).part
    let (cps, e) := nextCopies d r ls
    let d := (((withPos ls).drop p).take (e - p)).foldl (dispatchRecord w i ls cps) d
    let whole := decide (ls.length ≤ e)
    let d := updRing d r fun y => { y with head := y.head + BitVec.ofNat 32 (e - p), ready := if whole then rest else y.ready, part := if whole then 0 else e, since := d.clk.ns, starved := false }
    let d := updCp d fun c => { c with rr := sset (fun _ => 32767) c.rr (wClass (wcOf d w)) r }
    settleRefused (updWc d w fun c => { c with dirty := true }) w i

/-- DISPATCH (R279). -/
def dispatch (d : Dev) : Dev :=
  match chosenRing d with
  | some r => dispatchRing d r
  | none => d

/-- RING_STARVED (R281). -/
def ringStarved (d : Dev) (r : Nat) : Dev :=
  let x := ringOf d r
  if 2 ≤ wClass (wcOf d (r / 8)) ∧ x.tail ≠ x.head ∧ x.starved = false ∧ setting d 0x2600 2 = 1 ∧ setting d 0x2600 1 * 1000 < d.clk.ns - x.since then
    postEventWc (updRing d r fun y => { y with starved := true }) 0x0823 1 srcCp (r / 8) r
  else d

/-! ### Cancellation (R292 to R294) -/

/-- Positions and instructions of work context w on core n that its new epoch cancels. -/
def staleOps (d : Dev) (n w : Nat) : List (Nat × Op) :=
  (withPos (coreOf d n).ops).filter fun x => x.2.wc == w && x.2.epoch != (wcOf d w).epoch

/-- Undefined bytes: a free value for each, numbered from `k`. -/
def undefBytes (k n : Nat) : List Byte := (List.range n).map fun j => Config.undefByte k j

/-- A cancelled SPILL to a PHYS address leaves its destination undefined (R256). -/
def smearSpill (d : Dev) (o : Op) : Dev :=
  let t := opDesc o (rDescDst o.word)
  if rOpcode o.word = 0x19 && o.issued && !o.done && t.space = 0 then
    (transfersOf (dFmt t) (opExt o (rDescSrc o.word)) (opDesc o (rDescSrc o.word)) t).foldl (fun d x =>
      let (k, d) := drawFree d
      (granulesOf (t.base + x.2.1) x.2.2).foldl (fun d g =>
        if agentMay d agFe true g then
          let lo := max g (t.base + x.2.1)
          let hi := min (g + 64) (t.base + x.2.1 + x.2.2)
          updMem d fun m => encWrite m (encSetting d g) lo (undefBytes (k * 65536 + (lo - t.base)) (hi - lo))
        else d) d) d
  else d

/-- Revoke a work context's windows on a node (R150). -/
def revokeWins (d : Dev) (node w : Nat) : Dev :=
  (List.range (if node < 16 then 20 else 8)).foldl (fun d i =>
    let x := winAt d node i
    if (x.state = 1 ∨ x.state = 2) ∧ x.wc = w ∧ x.epoch ≠ (wcOf d w).epoch then setWinAt d node i { x with state := 3, pendingCredits := 0, hollow := [] } else d) d

/-- A core receives the epoch of work context w: its instructions' rows, PM regions and sends are dropped, and they retire Cancelled (R109, R150, R257, R293). -/
def coreEpoch (d : Dev) (n w : Nat) : Dev :=
  let st := staleOps d n w
  let gone (a b : Nat) (p : W32) : Bool := st.any fun x => x.2.wc == a && x.2.ring == b && x.2.pos == p
  let d := st.foldl (fun d x => smearSpill d x.2) d
  let d := updCore d n fun c => { abandon c (fun u => st.any fun x => unitIs x.2 u) with
    fe := c.fe.filter (fun x => !gone x.wc x.ring x.pos), outbox := c.outbox.filter (fun u => !gone u.wc u.ring u.pos)
    remote := c.remote.filter (fun u => !gone u.wc u.ring u.pos)
    loadWaits := c.loadWaits.filter (fun x => !gone x.1 x.2.1 x.2.2), matrixWaits := c.matrixWaits.filter (fun x => !gone x.1 x.2.1 x.2.2)
    ops := c.ops.map fun o => if o.wc = w ∧ o.epoch ≠ (wcOf d w).epoch then { o with cancelled := true, closes := [] } else o }
  let d := updWc (updCp d fun c => { c with barriers := c.barriers.filter fun b => !gone b.wc b.ring b.pos }) w fun c =>
    { c with asks := c.asks &&& ~~~(BitVec.ofNat 16 (2 ^ n)) }
  let d := (List.range 16).foldl (fun d k =>
    let s := satSlot (coreOf d n) k
    if s.wc = some w then
      let d := bump (bump d (0x2230 + n) 1 8 s.narrowed) (0x2230 + n) 2 8 s.clipped
      updCore d n fun c => setSat c k { s with narrowed := 0, clipped := 0 }
    else d) d
  retireMany (revokeWins d n w) n (staleOps d n w)

/-- A frame that a cancelled channel drops: the SEND or END_STREAM of another work context that it came from retires Incomplete (log 196). -/
def dropChanFrame (w : Nat) (d : Dev) (f : Frame) : Dev :=
  match f.send with
  | some k =>
    if k.wc = w then d
    else match opAt (coreOf d k.core) k.wc k.ring k.pos with
      | some (i, _) => finishOp d k.core i fun o => { o with incomplete := true }
      | none => d
  | none => d

/-- A stream engine receives the epoch: channels of the work context enter cancelling (R258). -/
def seEpoch (d : Dev) (e w : Nat) : Dev :=
  (List.range 64).foldl (fun d k =>
    let c := chan d (64 * e + k)
    if c.state ≠ 0 ∧ c.state ≠ 4 ∧ chWc c = w then setChan (c.frames.foldl (dropChanFrame w) d) (64 * e + k) { c with state := 4, frames := [], credit := [], held := 0#4 } else d) d

/-- The MPE receives the epoch: its windows are revoked, its records retire Cancelled (R221). -/
def mpeEpoch (d : Dev) (w : Nat) : Dev :=
  let stale := d.mpe.recs.filter fun m => m.op.wc == w && m.op.epoch != (wcOf d w).epoch
  let d := revokeWins { d with mpe := { d.mpe with recs := d.mpe.recs.filter fun m => !stale.contains m } } 16 w
  stale.foldl (fun d m => retireMpe d { m.op with cancelled := true }) d

/-- A hub receives the epoch: armed counters of the work context become done (R293). -/
def hubEpoch (d : Dev) (h w : Nat) : Dev :=
  (List.range 64).foldl (fun d k =>
    let t := ctrOf d (64 * h + k)
    if (t.state = 1 ∨ t.state = 2) ∧ t.wc = w then setCtr d (64 * h + k) { t with state := 3 } else d) d

/-- EPOCH_RECEIVE (R293): node 0 to 15 a core, 16 the MPE, 17 to 24 a stream engine, 25 to 28 a hub; nothing is left to do unless the work context is Cancelling. -/
def epochReceive (d : Dev) (node w : Nat) : Dev :=
  if (wcOf d w).state ≠ 2#4 then d
  else if node < 16 then coreEpoch d node w
  else if node = 16 then mpeEpoch d w
  else if node < 25 then seEpoch d (node - 17) w
  else hubEpoch d (node - 25) w

/-- The counts of R259 are zero for work context w. -/
def countsClear (d : Dev) (w : Nat) : Bool :=
  d.cores.all (fun c => sget (fun _ => 0) c.2.feOut w == 0) && d.se.chans.all fun c => chWc c.2 != w || c.2.state != 4

/-- Write `k` further completions of a cancel, with DETAIL 0. -/
def cancelExtra (w : Nat) : Nat → Dev → Dev
  | 0, d => d
  | k + 1, d => cancelExtra w k (commandDone d w 3 2 0 0)

/-- CANCEL_COMPLETE (R294). -/
def cancelComplete (d : Dev) (w : Nat) : Dev :=
  let c := wcOf d w
  match c.cancel with
  | some x =>
    if c.state = 2#4 ∧ c.inflight = 0 ∧ countsClear d w = true ∧ x.extra < freeSlots c then
      let d := cancelExtra w x.extra (commandDone d w 3 2 0 (min x.skipped (2 ^ 32 - 1)))
      cpRun 64 (updWc d w fun c => { c with state := 1#4, cancel := none, dirty := true })
    else d
  | none => d

/-! ### The device event ring (R289, R290) -/

/-- Write one record into the event ring. -/
def ringWrite (d : Dev) (r : EvtRec) : Dev :=
  let c := d.cp
  let a := fld c.evtCtrl 24 40 + c.evtTail.toNat % 2 ^ fld c.evtCtrl 16 5 * 16
  let d := memWrite d (some agCp) srcCp a (eventBytes r c.evtTail) false
  raiseIrq (updCp d fun c => { c with evtTail := c.evtTail + 1 }) 1

/-- EVENT_RING_WRITE (R289, R290): when the ring is enabled and has a free record, the CP writes the Events lost record if any is owed, else the oldest waiting record. -/
def eventRingWrite (d : Dev) : Dev :=
  let c := d.cp
  if bit c.evtCtrl 0 && decide ((c.evtTail - c.evtHead).toNat < 2 ^ fld c.evtCtrl 16 5) then
    if c.lostSince ≠ 0 then ringWrite (updCp d fun c => { c with lostSince := 0 }) ⟨0x0822, 1, none, srcCp, c.lostSince⟩
    else match c.port with
      | r :: rest => ringWrite (updCp d fun c => { c with port := rest }) r
      | [] => d
  else d

/-! ### The commands -/

/-- ENABLE (R266). -/
def execEnable (w : BitVec 12) (s : State) : Host.Outcome State Fault Refusal := nextDev s fun d => cmdWrite d 1 w.toNat 0
/-- DISABLE (R266). -/
def execDisable (w : BitVec 12) (s : State) : Host.Outcome State Fault Refusal := nextDev s fun d => cmdWrite d 2 w.toNat 0
/-- CANCEL (R292). -/
def execCancel (w : BitVec 12) (s : State) : Host.Outcome State Fault Refusal := nextDev s fun d => cmdWrite d 3 w.toNat 0
/-- SUBMIT (R184, R556): ARG is the placement header's address. -/
def execSubmit (w : BitVec 12) (arg : Addr) (s : State) : Host.Outcome State Fault Refusal := nextDev s fun d => cmdWrite d 4 w.toNat arg.toNat
/-- RELEASE (R266). -/
def execRelease (w : BitVec 12) (s : State) : Host.Outcome State Fault Refusal := nextDev s fun d => cmdWrite d 5 w.toNat 0
/-- RESUME (R280): ARG is a mask of rings. -/
def execResume (w : BitVec 12) (mask : BitVec 8) (s : State) : Host.Outcome State Fault Refusal := nextDev s fun d => cmdWrite d 6 w.toNat mask.toNat
/-- CTX_BASE_WRITE (R266). -/
def execCtxBaseWrite (v : W64) (s : State) : Host.Outcome State Fault Refusal := nextDev s fun d => ctxBaseWrite d v
/-- EVT_CTRL_WRITE (R289). -/
def execEvtCtrlWrite (v : W64) (s : State) : Host.Outcome State Fault Refusal := nextDev s fun d => evtCtrlWrite d v
/-- EVT_HEAD_WRITE (R291). -/
def execEvtHeadWrite (v : W64) (s : State) : Host.Outcome State Fault Refusal := nextDev s fun d => evtHeadWrite d v
/-- DOORBELL_WRITE (R274). -/
def execDoorbellWrite (r : BitVec 15) (v : W64) (whole : Bool) (s : State) : Host.Outcome State Fault Refusal := nextDev s fun d => doorbell d r.toNat v whole
/-- COMPLETION_HEAD_WRITE (R284). -/
def execCompletionHeadWrite (w : BitVec 12) (v : W64) (s : State) : Host.Outcome State Fault Refusal := nextDev s fun d => complHeadWrite d w.toNat v
/-- CONTEXT_FILL (R271). -/
def execContextFill (w : BitVec 12) (s : State) : Host.Outcome State Fault Refusal := nextDev s fun d => contextFill d w.toNat
/-- CONTEXT_WRITE_THROUGH (R264). -/
def execContextWriteThrough (w : BitVec 12) (s : State) : Host.Outcome State Fault Refusal := nextDev s fun d => contextWriteThrough d w.toNat
/-- RECORD_FETCH (R276). -/
def execRecordFetch (w : BitVec 12) (i : Fin 8) (s : State) : Host.Outcome State Fault Refusal := nextDev s fun d => recordFetch d w.toNat i
/-- DISPATCH (R279). -/
def execDispatch (s : State) : Host.Outcome State Fault Refusal := nextDev s fun d => dispatch d
/-- RING_STARVED (R281). -/
def execRingStarved (r : BitVec 15) (s : State) : Host.Outcome State Fault Refusal := nextDev s fun d => ringStarved d r.toNat
/-- CANCEL_COMPLETE (R294). -/
def execCancelComplete (w : BitVec 12) (s : State) : Host.Outcome State Fault Refusal := nextDev s fun d => cancelComplete d w.toNat
/-- EVENT_RING_WRITE (R290). -/
def execEventRingWrite (s : State) : Host.Outcome State Fault Refusal := nextDev s fun d => eventRingWrite d

end Sys2Proof.Machine
end

