-- ==== Sys2Proof/Machine/Tile.lean ====
section
/-! DEFINITION. Shared tile counters: requests, grants and claims (R179 to R182, R199). -/

namespace Sys2Proof.Machine

open Sys2Proof

/-- Tiles that a core may hold granted and not yet claimed: as many as the instruction has PM regions (R168). -/
def tileRoom (o : Op) : Nat := if rPmDouble o.word && rOpcode o.word != 0x02 then 2 else 1

/-- The shared instruction of core n that draws tiles: issued, not exhausted, with PM room, and no retry is in progress on the core (R173, R181). -/
def drawingOp (c : Core) (p : Op → Bool) : Option (Nat × Op) :=
  findIdxElem (fun o => o.issued && o.ctr.isSome && !o.exhausted && !o.done && !o.cancelled && p o) c.ops 0

/-- TILE_REQUEST (R180): the hub serves the request of core n with t, Exhausted or Stale. A counter made done by a cancel answers Stale (R293). -/
def tileRequest (d : Dev) (n : Nat) : Dev :=
  match drawingOp (coreOf d n) fun o => o.reply.isNone && (coreOf d n).retry.isEmpty && decide (o.tiles.length < tileRoom o) with
  | some (i, o) =>
    match o.ctr with
    | some (k, gen) =>
      let t := ctrOf d k
      let reply (d : Dev) (r : TileReply) : Dev := setOp d n i { o with reply := some r }
      if t.gen ≠ gen ∨ t.state = 3 then reply (bump d (0x2270 + k / 64) 2 4 1) .stale
      else if t.next < t.total then
        reply (bump (setCtr d k { t with next := t.next + 1 }) (0x2270 + k / 64) 1 8 1) (.grant t.next)
      else reply (setCtr d k { t with state := 2 }) .exhausted
    | none => d
  | none => d

/-- Free the window lines that a shared convolution has passed: those last read by rows below its lowest tile in hand and, until Exhausted, below the row of its latest grant (R199). -/
def sharedFree (d : Dev) (n i : Nat) : Dev :=
  match (coreOf d n).ops[i]? with
  | some o =>
    if isConvOp (rOpcode o.word) then
      let x := cnvOf d n o (rOpcode o.word == 0x09)
      let per := max 1 (rowTiles x 0).length
      let passed := (o.tiles.map (· / per)).foldl min (if o.exhausted then x.oh else o.lastGrant / per)
      let fr := if x.a.space = 3 ∧ x.pa.win.block = false then linesFreed x passed * lineUnits x - o.freed else 0
      if fr = 0 then d
      else setOp (freeUnits d n { win := x.a.window, free := fr }) n i
        { o with freed := o.freed + fr, units := o.units.map fun u => if u.win = x.a.window then { u with free := u.free - fr } else u }
    else d
  | none => d

/-- A copy with no tile in hand, and none still draining, that has received Exhausted is complete (R181). -/
def settleShared (d : Dev) (n i : Nat) : Dev :=
  let d := sharedFree d n i
  match (coreOf d n).ops[i]? with
  | some o =>
    if o.exhausted && o.tiles.isEmpty && !((coreOf d n).released.any fun r => unitIs o r.unit) && !(rOpcode o.word == 0x02 && decide (0 < o.taken) && !o.done) then
      let t := opDesc o (rDescO o.word)
      let d := if isMatrix o then endOut d n o t (opExt o (rDescO o.word)) else d
      finishOp d n i fun o => { o with seqWords := if isMatrix o then seqGranule t else [] }
    else d
  | none => d

/-- A shared convolution on core n. -/
def sharedCnv (d : Dev) (n : Nat) (o : Op) : Cnv := cnvOf d n o (rOpcode o.word == 0x09)

/-- A granted tile may be worked: the window lines that its rows read have landed, unless it is skipped (R199, R200). -/
def tileReady (d : Dev) (n : Nat) (o : Op) (t : Nat) : Bool :=
  if isConvOp (rOpcode o.word) then let x := sharedCnv d n o; cnvSkipped x (cnvTile x t) || rowReady x (cnvTile x t).oy else true

/-- A granted tile reads a hollow unit, or its instruction has read one: it issues no row, and is never claimed (R236; log 191). -/
def tileHollow (d : Dev) (n : Nat) (o : Op) (t : Nat) : Bool :=
  isConvOp (rOpcode o.word) && (let x := sharedCnv d n o; !cnvSkipped x (cnvTile x t) && (o.incomplete || rowHollow x (cnvTile x t).oy))

/-- Hollow units in place of a tile's output (R236). -/
def blankTile (d : Dev) (n : Nat) (o : Op) (t : Nat) : Dev :=
  let x := sharedCnv d n o
  let tl := cnvTile x t
  cnvBlank d n x fun ix => ix.getD 2 0 == tl.oy && tl.cols.contains (ix.getD 1 0) && (drainCols x tl.nb).contains (ix.getD 0 0)

/-- Work a granted tile, the i-th that the core takes, up to its claim: it is accumulated into PM. -/
def workTile (d : Dev) (n : Nat) (o : Op) (i t : Nat) : Dev :=
  if isConvOp (rOpcode o.word) then let x := sharedCnv d n o; computeCnv d x i t (cnvTile x t)
  else if rOpcode o.word = 0x02 then d
  else computeTile d (matOf d n o) i t

/-- TILE_GRANT_RECEIVE (R181): core n receives the reply and works the tile, finishes, or retires its copy Cancelled; a Stale reply under a current epoch posts event 0x0522. -/
def tileReceive (d : Dev) (n : Nat) : Dev :=
  match drawingOp (coreOf d n) fun o => o.reply.isSome && (match o.reply with | some (.grant t) => tileReady d n o t | _ => true) with
  | some (i, o) =>
    match o.reply with
    | some (.grant t) =>
      if tileHollow d n o t then
        settleShared (setOp (blankTile d n o t) n i { o with reply := none, lastGrant := t, incomplete := true }) n i
      else
      let d := workTile d n o (o.taken + o.tiles.length) t
      sharedFree (setOp d n i { o with reply := none, tiles := o.tiles ++ [t], lastGrant := t }) n i
    | some .exhausted => settleShared (setOp d n i { o with reply := none, exhausted := true }) n i
    | some .stale =>
      let d := if o.epoch = (wcOf d o.wc).epoch then postEventWc d 0x0522 1 n o.wc 0 else d
      finishOp (setOp d n i { o with reply := none, tiles := [] }) n i fun o => { o with cancelled := true }
    | none => d
  | none => d

/-- Drain a claimed tile, the i-th that the core took, and write its output. -/
def finishTile (d : Dev) (n p : Nat) (o : Op) (i t : Nat) : Dev :=
  if isConvOp (rOpcode o.word) then
    let x := sharedCnv d n o
    let (d, m) := drainCnv d x i t (cnvTile x t) {}
    putMade d n p o x.o (rDescO o.word) m
  else if rOpcode o.word = 0x02 then streamAdvance d n p ((matOf d n o).lm + 2)
  else
    let x := matOf d n o
    let (d, m) := drainTile d x i t {}
    putMade d n p o x.o (rDescO o.word) m

/-- A claim that leaves no tile of its output row unclaimed completes the row, which the claiming core counts (R222; log 192). -/
def countRow (d : Dev) (n : Nat) (o : Op) (k t : Nat) : Dev :=
  if isConvOp (rOpcode o.word) then
    let x := sharedCnv d n o
    let per := max 1 (rowTiles x 0).length
    let base := bitmapBase k (ctrOf d k)
    let row := (List.range per).map (t / per * per + ·)
    if decide (t / per < x.oh) && row.all (fun j => bit (peek d.mem (base + j / 8)) (j % 8)) then bump d (0x2290 + n) 1 8 1 else d
  else d

/-- The PM region of a unit is given up. -/
def dropRegion (c : Core) (u : UnitTag) : Core := { c with
  pmRows := c.pmRows.filter fun e => !(e.2.unit == some u)
  released := c.released.filter fun r => !(r.unit == u) }

/-- TILE_CLAIM (R182): the hub tests and sets the tile's bit; on success DONE rises and the tile drains, row by row where its region has been released so (R61), else its region is discarded and event 0x0520 is posted. It waits while the tile is in a retry (R491), and while another instruction holds the VU (R204). -/
def tileClaim (d : Dev) (n : Nat) : Dev :=
  match findIdxElem (fun o => o.issued && !o.done && !o.cancelled && o.ctr.isSome && vuFree (coreOf d n) o
      && (match o.tiles with | t :: _ => !(coreOf d n).retry.contains (unitOf o t) | [] => false)) (coreOf d n).ops 0 with
  | some (i, o) =>
    match o.ctr, o.tiles with
    | some (k, _), t :: rest =>
      let (d, was) := testAndSet d k t
      let d := setOp d n i { o with tiles := rest, taken := o.taken + 1 }
      if was then
        let d := updCore d n fun c => dropRegion c (unitOf o t)
        settleShared (postEventWc (bump d (0x2270 + k / 64) 3 4 1) 0x0520 1 (srcHub (k / 64)) o.wc 0) n i
      else
        let c := ctrOf d k
        let d := countRow (setCtr d k { c with done := c.done + 1 }) n o k t
        if (coreOf d n).released.any fun r => r.unit == unitOf o t then settleShared d n i
        else settleShared (finishTile d n i { o with tiles := rest, taken := o.taken + 1 } o.taken t) n i
    | _, _ => d
  | none => d

/-- TILE_REQUEST (R180). -/
def execTileRequest (n : Fin 16) (s : State) : Host.Outcome State Fault Refusal := nextDev s fun d => tileRequest d n
/-- TILE_GRANT_RECEIVE (R181). -/
def execTileGrantReceive (n : Fin 16) (s : State) : Host.Outcome State Fault Refusal := nextDev s fun d => tileReceive d n
/-- TILE_CLAIM (R182). -/
def execTileClaim (n : Fin 16) (s : State) : Host.Outcome State Fault Refusal := nextDev s fun d => tileClaim d n

end Sys2Proof.Machine
end

