-- ==== Sys2Proof/Machine/Array.lean ====
section
/-! DEFINITION. The matrix array cycle by cycle: the weight registers and their loader, the rows that the feeder forms, the issue cycle with its bubbles, drone cycles and SWAPs, the ramps and the duty window (chapters 2 and 3). -/

namespace Sys2Proof.Machine

open Sys2Proof

/-! ### Values of a row and of the cells -/

def fmtAt (c : Nat) : Fmt := (fmtOf c).getD .int8

/-- Value of a weight code (R78). -/
def cellVal (fmt : Nat) (book : List Nat) (code : Nat) : Val :=
  if fmtAt fmt = .cb4 then decodeFloat f16 (book.getD code 0) else elemVal (fmtAt fmt) code

/-- The bits of a value as a column carries it: an exact integer, or FP32. -/
def outBits (float : Bool) (v : Val) : Int := if float then ((toF32 v).toNat : Int) else intVal v
/-- The value of column bits. -/
def bitsVal (float : Bool) (b : Int) : Val := if float then ofF32 (BitVec.ofInt 32 b) else ofInt b

/-- Exact sum of a list of values, rounded once to FP32 on the floating path (R112). -/
def onceSum (float : Bool) (vs : List Val) : Val :=
  let s := vs.foldl vadd (.zero false)
  if float then r32 s else s

/-! ### The weight registers (R26, R35, R36, R55) -/

/-- Row group with which data row k changes over: its own, or group 3 where the spare row serves it (R36, R55). -/
def groupOf (a : Arr) (k : Nat) : Nat := if spareRow a.repair = some k then 3 else k / 8

/-- The registers of data row k of a plane: the spare row's where it serves the row (R55). -/
def cellsOf (a : Arr) (t : Tile) (k : Nat) : CellRow :=
  if spareRow a.repair = some k then t.spare else sget (fun _ => {}) t.rows k

/-- The registers that a row issued now meets in data row k: those that the last SWAP brings, wherever its marker has come to (R35, R36). -/
def liveCells (a : Arr) (k : Nat) : CellRow := cellsOf a (if bit a.changing (groupOf a k) then a.shadow else a.active) k

/-- A plane with the registers of data row k written, or those of the spare row where it serves the row. -/
def putCells (a : Arr) (t : Tile) (k : Nat) (c : CellRow) : Tile :=
  if spareRow a.repair = some k then { t with spare := c } else { t with rows := sset (fun _ => {}) t.rows k c }

/-- Weights and checksum sum of every K row of the tile in force, K order. -/
def liveRows (a : Arr) (float : Bool) : List (List Val × Val) :=
  (List.range 32).flatMap fun k =>
    let c := liveCells a k
    (withPos c.codes).map fun r => (r.2.map (cellVal a.active.fmt (a.active.books.headD [])), bitsVal float (c.sums.getD r.1 0#32).toInt)

/-- Formats of a pass: streamed and held operands are activations and weights, or in input-stationary mode the reverse (R41). -/
def passFmts (a : Arr) (fmt : Nat) : Fmt × Fmt :=
  if a.active.act then (fmtAt a.active.fmt, fmtAt fmt) else (fmtAt fmt, fmtAt a.active.fmt)

/-- K elements of a row of the pass. -/
def passDepth (a : Arr) : Nat := if a.active.act then 32 else kPerPass (fmtAt a.active.fmt)

/-! ### The rows that the feeder forms (R27 to R31, R44, R59, R69) -/

/-- Codes of `k` elements of `w` bits in bytes, lowest first. -/
def codesOf (w k : Nat) (bs : List Byte) : List Nat := let v := leNat bs; (List.range k).map fun i => v / 2 ^ (w * i) % 2 ^ w

/-- Little-endian bytes of one element. -/
def elemBits (fmt : Nat) : Nat := max 8 (fmtBits (fmtAt fmt))

/-- Elements that a row streams, with whether a word it reads is poisoned: from its entry, from memory, or of its pixel in the window register, `kd` of them (R122, R192). -/
def rowCodes (d : Dev) (n kd : Nat) (r : FeedRow) : List Nat × Bool :=
  match r.src with
  | .codes xs => (xs, r.poison)
  | .mem wm off step k =>
    let b := elemBits r.fmt / 8
    let ms := (List.range k).map fun i => coreMarked d n wm (off + step * i) b
    (ms.map fun m => leNat (m.map (·.1)), r.poison || ms.any fun m => m.any (·.2))
  | .wreg h e _ =>
    let ws := (List.range (kd * elemBits r.fmt / 256)).map fun i => sget (fun _ => (0#256, false)) (coreOf d n).wreg (h.val * 1024 + (e.val + i) % 1024)
    (codesOf (elemBits r.fmt) kd (ws.flatMap fun w => leBytes 32 w.1.toNat), r.poison || ws.any (·.2))

/-- Codes of a row as they enter the cells: a listed outlier, and what the row does not fill, is the encoding of real zero (R69, R104, R172). -/
def cellCodes (r : FeedRow) (kd : Nat) (xs : List Nat) : List Nat :=
  (List.range kd).map fun i => if r.listed.contains i then r.zero else xs.getD i r.zero

/-- The words that a row reads from memory pass the correction stage (R126). -/
def touchRow (d : Dev) (n : Nat) (r : FeedRow) : Dev :=
  match r.src with
  | .mem wm off step k => if d.mem.latent.isEmpty then d else (List.range k).foldl (fun d i => readBytes d n wm (off + step * i) (elemBits r.fmt / 8)) d
  | _ => d

/-- Products of the beats of one column, for E (R111). -/
def partProducts (fa fw : Fmt) (avs wvs : List Val) : List Val :=
  (avs.zip wvs).flatMap fun p => (actParts fa fw p.1).flatMap fun a => (wgtParts fa fw p.2).map fun w => vmul a w

/-- Checksum-column outputs of the beats of a row of streamed values xs against the sums cs: x · c of each streamed part, in the last beat of the held parts (R57, R112). -/
def checkBeats (fa fw : Fmt) (act : Bool) (groups : List (List Nat)) (xs cs : List Val) : List (List Val) :=
  let na := (actParts fa fw (.zero false)).length
  let nw := (wgtParts fa fw (.zero false)).length
  let ps := xs.map fun x => if act then wgtParts fa fw x else actParts fa fw x
  (List.range na).flatMap fun i => (List.range nw).map fun j =>
    let (s, h, nh) := if act then (j, i, na) else (i, j, nw)
    if h + 1 = nh then [(columnSum (floatPair fa fw) groups (List.zipWith (fun p c => vmul (p.getD s (.zero false)) c) ps cs)).v] else []

/-- The row in flight that a data row or a limb of the checksum row makes: values xs, formats fa and fw (R29 to R31). -/
def fullRow (a : Arr) (r : FeedRow) (fa fw : Fmt) (xs : List Val) : PipeRow :=
  let fl := floatPair fa fw
  let act := a.active.act
  let rows := liveRows a fl
  let gs := groupKs a.repair (passDepth a / 32)
  let col (c : Nat) : List Val := rows.map fun w => w.1.getD c (.zero false)
  let avs (c : Nat) : List Val := if act then col c else xs
  let wvs (c : Nat) : List Val := if act then xs else col c
  let os := (List.range 32).map fun c => beatSums fa fw gs (avs c) (wvs c)
  let cs := rows.map (·.2)
  let chk := checkBeats fa fw act gs xs cs
  let mags := if fl then ((List.range 32).map fun c => max (magOf (partProducts fa fw (avs c) (wvs c))) (magOf ((os.getD c []).map (·.v))))
      ++ [max (magOf (List.zipWith vmul xs cs)) (max (magOf cs) (magOf chk.flatten))] else []
  let nb := chk.length
  { row := r, float := fl
    outs := (List.range nb).map fun b => os.map fun c => outBits fl (c.getD b {}).v
    ovf := (List.range nb).map fun b => os.map fun c => (c.getD b {}).ovf
    chk := chk.map fun l => l.map (outBits fl)
    mag := mags.foldl max (-1000), mags := mags }

/-- The row in flight that a piccolo cycle makes: each row group of the array has 32 columns of its own, and its checksum output; behind the four stands x · s over the whole array (R44, R60, R64). -/
def piccoloRow (a : Arr) (r : FeedRow) (xs : List Val) : PipeRow :=
  let fa := fmtAt r.fmt
  let fw := fmtAt a.active.fmt
  let fl := floatPair fa fw
  let rows (g : Nat) : List (List Val × Val) := (List.range 8).map fun k =>
    let c := liveCells a (8 * g + k)
    ((c.codes.headD []).map (cellVal a.active.fmt (a.active.books.getD g [])), bitsVal fl (c.sums.headD 0#32).toInt)
  let all := (List.range 4).map rows
  let col (g c : Nat) : List Val := (all.getD g []).map fun w => w.1.getD c (.zero false)
  let cols := (List.range 4).flatMap fun g => (List.range 32).map fun c => col g c
  let os := cols.map fun w => beatSums fa fw [List.range 8] xs w
  let ss := (List.range 8).map fun k => onceSum fl (all.flatMap fun g => (g.getD k ([], .zero false)).1)
  let sums := (all.map fun g => g.map (·.2)) ++ [ss]
  let each := sums.map fun cs => checkBeats fa fw false [List.range 8] xs cs
  let nb := (each.headD []).length
  let chk := (List.range nb).map fun b => each.flatMap fun e => e.getD b []
  let mag := if fl then ((cols.map fun w => magOf (partProducts fa fw xs w)) ++ os.map (fun o => magOf (o.map (·.v)))
      ++ sums.map (fun cs => max (magOf cs) (magOf (List.zipWith vmul xs cs))) ++ [magOf chk.flatten]).foldl max (-1000) else -1000
  { row := r, float := fl
    outs := (List.range nb).map fun b => os.map fun c => outBits fl (c.getD b {}).v
    ovf := (List.range nb).map fun b => os.map fun c => (c.getD b {}).ovf
    chk := chk.map fun l => l.map (outBits fl), mag := mag }

/-- Limbs of the checksum row with their weights, and the streamed format (Table 2.10): X mod 2^16 as a high limb in the streamed format and an unsigned low limb, as one INT16 row, or X as one BF16 row. -/
def checksumLimbs (float : Bool) (f : Fmt) (xs : List Int) : Fmt × List (Int × List Val) :=
  if float then (.bf16, [(1, xs.map fun x => decodeFloat bf16 (encodeFloat bf16 (ofF32 (BitVec.ofInt 32 x))).raw)])
  else if f = .int16 then (.int16, [(1, xs.map fun x => ofInt (BitVec.ofInt 16 x).toInt)])
  else (f, [(256, xs.map fun x => ofInt (let h := x % 65536 / 256; if f = .int8 then (BitVec.ofInt 8 h).toInt else h)), (1, xs.map fun x => ofInt (x % 256))])

/-- The row in flight that the checksum row of a pass makes (R59). -/
def checksumRow (a : Arr) (r : FeedRow) (p : PassRec) : PipeRow :=
  let (fa, fw) := passFmts a r.fmt
  let str := fmtAt r.fmt
  let (f, limbs) := checksumLimbs (floatPair fa fw) str p.xsum
  let (fa, fw) := if a.active.act then (fa, f) else (f, fw)
  let rs := limbs.map fun l =>
    let q := fullRow a r fa fw l.2
    { q with outs := q.outs.map fun o => o.map fun v => if q.float then v else l.1 * v
             chk := q.chk.map fun o => o.map fun v => if q.float then v else l.1 * v }
  match rs with
  | [] => {}
  | q :: more => more.foldl (fun q m => { q with outs := q.outs ++ m.outs, chk := q.chk ++ m.chk, ovf := q.ovf ++ m.ovf }) q

/-- Beats of an entry (Table 3.3, Table 2.10). -/
def entryBeats (a : Arr) (r : FeedRow) : Nat :=
  let (fa, fw) := passFmts a r.fmt
  if r.mark = 1 then 1
  else if r.mark = 2 then (if floatPair fa fw then 2 else if fmtAt r.fmt = .int16 then beatsOf fa fw else 2 * beatsOf fa fw)
  else beatsOf fa fw

/-! ### Activity and drone cycles (R52) -/

/-- Bits that differ between two codes, of 16. -/
def toggles (a b : Nat) : Nat := ((List.range 16).filter fun i => (a ^^^ b) / 2 ^ i % 2 == 1).length

/-- Toggle fraction of a row against the last one, in eighths of its operand bits (R52). -/
def toggleEighths (fmt : Nat) (last xs : List Nat) : Nat :=
  let n := ((withPos xs).map fun x => toggles x.2 (last.getD x.1 0)).sum
  if xs.isEmpty then 0 else n * 8 / (fmtBits (fmtAt fmt) * xs.length)

/-- The array's measured activity: the mean toggle fraction of the last 32 rows issued, in eighths. -/
def meanActivity (a : Arr) : Nat := a.activity.sum / max 1 a.activity.length

/-- A drone cycle drives the cells with the LFSR's operands, masked to the measured activity. -/
def drone (a : Arr) : Arr := let l := Config.lfsrNext a.lfsr; { a with lfsr := l, driven := l &&& Config.droneMask (meanActivity a) }

/-! ### Ramps and the duty window (R50, R53, R54) -/

/-- Density, in quarters, that the ramp permits rows (ramp-up) or drone cycles (ramp-down) (Table 2.9). -/
def density (ramp : Nat) : Nat := if ramp = 0 then 4 else if ramp ≤ 3 then 4 - ramp else if ramp = 4 then 0 else ramp - 4

/-- A gap of `gap` bubbles enters ramp-down (R53). -/
def gapEnds (d : Dev) (a : Arr) (gap : Nat) : Bool := (a.ramp == 0 || decide (5 ≤ a.ramp)) && decide (setting d 0x2200 2 ≤ gap)

/-- A ramp step begins. -/
def rampTo (a : Arr) (r : Nat) : Arr := { a with ramp := r, rampCyc := 0, rampCredit := 0 }

/-- A ramp-down step of RAMP_DOWN/4 cycles has ended, or a ramp-up step of RAMP_UP/4 (R53, R54): the next begins, and after the third the array is gated, or at full density. -/
def downDue (d : Dev) (a : Arr) : Bool := decide (1 ≤ a.ramp) && decide (a.ramp ≤ 3) && decide (setting d 0x2200 3 / 4 ≤ a.rampCyc)
def upDue (d : Dev) (a : Arr) : Bool := decide (5 ≤ a.ramp) && decide (setting d 0x2200 4 / 4 ≤ a.rampCyc)
def rampDue (d : Dev) (a : Arr) : Arr := if downDue d a then rampTo a (a.ramp + 1) else if upDue d a then rampTo a ((a.ramp + 1) % 8) else a

/-- A cycle of a ramp step earns its share of an issue slot, in quarters: an entry of `need` beats costs 4 for each (log 28). -/
def earn (need : Nat) (a : Arr) : Arr :=
  if a.ramp = 0 ∨ a.ramp = 4 then a else { a with rampCredit := min (4 * need + density a.ramp - 1) (a.rampCredit + density a.ramp) }

/-- The ramp lets an entry of `need` beats issue. -/
def rampLets (a : Arr) (need : Nat) : Bool := a.ramp == 0 || decide (4 * need ≤ a.rampCredit)

/-- The duty window has room for an entry of `need` beats (R50). -/
def dutyLets (a : Arr) (need : Nat) : Bool := decide (a.dutyUsed + min need (16 - a.dutyPos) ≤ a.duty)

/-- A window of 16 begins: the duty limit in force moves towards the core's limit by at most a quarter per ramp step (R50). -/
def dutyWindow (d : Dev) (limit : Nat) (a : Arr) : Arr :=
  let step := if limit < a.duty then setting d 0x2200 3 / 4 else setting d 0x2200 4 / 4
  let moves := limit ≠ a.duty && decide (step ≤ a.dutyCyc)
  let duty := if moves then (if limit < a.duty then max limit (a.duty - 4) else min limit (a.duty + 4)) else a.duty
  { a with dutyPos := 0, dutyUsed := 0, duty := duty, dutyCyc := if moves then 0 else a.dutyCyc }

/-- One cycle passes. -/
def tick (a : Arr) : Arr :=
  { a with cycle := a.cycle + 1, dutyPos := a.dutyPos + 1, dutyCyc := a.dutyCyc + 1, rampCyc := if a.ramp = 0 ∨ a.ramp = 4 then 0 else a.rampCyc + 1 }

/-- The SWAP of cycle s reaches group g: its registers change over, the spare row's with group 3 (R36). -/
def changeOver (a : Arr) (g : Nat) : Arr :=
  if !bit a.changing g then a
  else
    let ks := (List.range 8).map (8 * g + ·)
    let move (t u : Tile) : Tile :=
      let t := { t with rows := ks.foldl (fun r k => sset (fun _ => {}) r k (sget (fun _ => {}) u.rows k)) t.rows }
      if g = 3 then { t with spare := u.spare } else t
    { a with active := move a.active a.shadow, shadow := move a.shadow a.active, changing := a.changing &&& ~~~(BitVec.ofNat 4 (2 ^ g)) }

/-- Changeovers that have taken place in the cycles before this one. -/
def changeDue (a : Arr) : Arr :=
  match a.swapAt with
  | some s => (List.range 4).foldl (fun a g => if s + 1 + g < a.cycle then changeOver a g else a) a
  | none => a

/-! ### The issue cycle (R27, R28, R35, R37, R38, R49, R51) -/

/-- What falls due in a cycle before anything issues; then the sequencer's entry joins the queue if it has room. -/
def prepare (d : Dev) (limit : Nat) (push : Option FeedRow) (a : Arr) : Arr :=
  let a := changeDue (rampDue d (if a.dutyPos = 16 then dutyWindow d limit a else a))
  match push with
  | some r => if a.feeder.length < 8 then { a with feeder := a.feeder ++ [r] } else a
  | none => a

/-- PM rows of array `ai` that a row writes: its entry, or in piccolo form the four of its token (R44). -/
def rowTargets (ai : Nat) (r : FeedRow) : List Nat :=
  if r.mark = 3 then (List.range 4).map fun g => ai * 1024 + 4 * r.entry + g else [ai * 1024 + r.entry]

/-- A PM entry takes a row of unit u: nothing of another unit waits in it, and its own accumulation has not ended (R49). -/
def targetFree (c : Core) (u : UnitTag) (k : Nat) : Bool :=
  match (pmRowOf c k).unit with
  | none => true
  | some v => v == u && !(pmRowOf c k).done

/-- The shadow registers hold a complete tile, and no SWAP is under way (R37). -/
def shadowReady (a : Arr) : Bool := a.shadow.loaded == 32 && a.changing == 0#4 && decide (a.loadFree ≤ a.cycle)

/-- The half of the window register that a row reads is full (R192). -/
def halfFull (c : Core) (r : FeedRow) : Bool := match r.src with | .wreg h _ _ => bit c.wregFull h.val | _ => true

/-- The entry at the head of array `ai`'s queue has what it needs: a SWAP and a piccolo block a complete shadow tile (R37, R45), a row its elements and its PM entry (R49, R192). -/
def ownReady (c : Core) (ai : Nat) (a : Arr) : Bool :=
  match a.feeder with
  | [] => false
  | r :: _ => r.valid && (if r.mark = 1 then shadowReady a
    else if r.mark = 2 then true
    else halfFull c r && (rowTargets ai r).all (targetFree c r.unit) && (!(r.mark == 3 && r.block) || shadowReady a))

/-- The entry at the head of a queue. -/
def headRow (a : Arr) : Option FeedRow := a.feeder.head?

/-- Arrays that take the SWAP at the head of array `ai`'s queue in the same cycle: those that share the tile (R38). -/
def mates (c : Core) (ai : Nat) : List Nat :=
  match headRow (arr c ai) with
  | some r => if r.mark = 1 then ai :: (arraysOn c).filter fun b => b != ai && bit r.share b else [ai]
  | none => [ai]

/-- Every array of a list has its own entry ready, a SWAP where it is to swap with others. -/
def allReady (c : Core) (l : List Nat) : Bool :=
  l.all fun b => ownReady c b (arr c b) && (l.length == 1 || (match headRow (arr c b) with | some r => r.mark == 1 | none => false))

/-- A piccolo block passes from the shadow registers to the active ones (R45): the first cycle of a block takes it. -/
def takeBlock (a : Arr) (r : FeedRow) : Arr :=
  if r.mark = 3 ∧ r.block = true then { a with active := a.shadow, shadow := { a.active with loaded := 0 } } else a

/-- Beats of the entry at the head of a queue, at least 1. -/
def headNeed (a : Arr) : Nat := match headRow a with | some r => max 1 (entryBeats (takeBlock a r) r) | none => 1

/-- An entry in its first beat may issue in this cycle (R38, R50, R54). -/
def mayIssue (c : Core) (ai : Nat) : Bool :=
  allReady c (mates c ai) && (mates c ai).all fun b => rampLets (arr c b) (headNeed (arr c b)) && dutyLets (arr c b) (headNeed (arr c b))

/-- The check mode has pass or cycle number `count` of a work context checked (R62, R63). -/
def checkDue (d : Dev) (wc count : Nat) : Bool :=
  let c := wcOf d wc
  if wCheckMode c = 0 then true else if wCheckMode c = 1 then count % 2 ^ wCheckN c == 0 else false

/-- A SWAP: the planes change their parts, group by group as the marker reaches them; a new weight-tile pass begins (R35, R36, R63). Of the passes before it those stay whose column check is still due (R58). -/
def issueSwap (a : Arr) : Arr :=
  { a with
    active := { a.shadow with rows := a.active.rows, spare := a.active.spare }
    shadow := { a.active with rows := a.shadow.rows, spare := a.shadow.spare, loaded := 0 }
    swapAt := some a.cycle, changing := 15#4, passes := a.passes + 1
    openPasses := a.openPasses.filter (·.due) ++ [{ id := a.passes }] }

/-- A row of another unit without a SWAP before it begins a pass of its own on the weights that stand: the next pass of an MSTREAM (R63, R169). -/
def nextPass (a : Arr) (u : UnitTag) : Arr :=
  match a.openPasses.find? fun p => p.id + 1 == a.passes with
  | some p => if p.unit.isNone || p.unit == some u then a else { a with passes := a.passes + 1, openPasses := a.openPasses.filter (·.due) ++ [{ id := a.passes }] }
  | none => a

/-- Change the record of pass `id`. -/
def updPass (a : Arr) (id : Nat) (f : PassRec → PassRec) : Arr := { a with openPasses := a.openPasses.map fun p => if p.id = id then f p else p }

/-- X with a row added, element by element (R58, R59). -/
def addX (float : Bool) (xs : List Int) (vs : List Val) : List Int :=
  (withPos vs).map fun v => let s := xs.getD v.1 0; if float then outBits true (fadd (bitsVal true s) v.2) else s + intVal v.2

/-- A data row or a piccolo cycle in its first beat: it is read, its outputs are formed, it claims its PM entries (R27, R44, R49, R58). -/
def issueRow (d : Dev) (n ai : Nat) (a : Arr) (r : FeedRow) : Dev × Arr :=
  let d := touchRow d n r
  let pic := r.mark == 3
  let a := if pic then takeBlock a r else nextPass a r.unit
  let kd := if pic then 8 else passDepth a
  let (raw, poison) := rowCodes d n kd r
  let codes := cellCodes r kd raw
  let vs := codes.map (elemVal (fmtAt r.fmt))
  let (fa, fw) := passFmts a r.fmt
  let id := a.passes - 1
  let nb := entryBeats a r
  let due := if pic then (List.range nb).any fun b => checkDue d r.unit.wc (a.picCycles + b) else checkDue d r.unit.wc id
  let p := if pic then piccoloRow a r vs else fullRow a r fa fw vs
  let p := { p with taken := a.cycle, poison := poison || a.active.poison, pass := id, due := due }
  let a := { a with pipe := a.pipe ++ [p], lastXs := codes, activity := (toggleEighths r.fmt a.lastXs codes :: a.activity).take 32
                    picCycles := if pic then a.picCycles + nb else a.picCycles }
  let a := if pic then a else updPass a id fun q =>
    { q with xsum := addX p.float q.xsum vs, due := q.due || due, unit := some r.unit }
  let d := updCore (bump d (0x2210 + n) 4 8 1) n fun c => { c with
    actRows := c.actRows + 1, pmRows := (rowTargets ai r).foldl (fun t k => sset (fun _ => {}) t k { unit := some r.unit, done := false }) c.pmRows }
  (d, a)

/-- The checksum row in its first beat (R58, R59). -/
def issueChecksum (d : Dev) (a : Arr) (r : FeedRow) : Arr :=
  match a.openPasses.find? fun p => p.id + 1 == a.passes with
  | some p => { a with pipe := a.pipe ++ [{ checksumRow a r p with taken := a.cycle, pass := p.id, due := checkDue d r.unit.wc p.id }] }
  | none => a

/-- A row that is the last to read its fill frees that half of the window register (R192). -/
def freeHalf (d : Dev) (n : Nat) (r : FeedRow) : Dev :=
  match r.src with
  | .wreg h _ true => updCore d n fun c => { c with wregFull := c.wregFull &&& ~~~(BitVec.ofNat 2 (2 ^ h.val)) }
  | _ => d

/-- A beat takes its cycle: with the last one the entry leaves the queue (R27). -/
def beatDone (d : Dev) (n : Nat) (a : Arr) (r : FeedRow) (left : Nat) : Dev × Arr :=
  let a := { a with dutyUsed := a.dutyUsed + 1, gap := 0 }
  if left ≤ 1 then (freeHalf d n r, { a with beats := 0, feeder := a.feeder.drop 1 }) else (d, { a with beats := left - 1 })

/-- The entry at the head of the queue issues its first beat. -/
def issueHead (d : Dev) (n ai : Nat) (a : Arr) (r : FeedRow) : Dev × Arr :=
  let need := headNeed a
  let a := if a.ramp = 0 then a else { a with rampCredit := a.rampCredit - 4 * need }
  let (d, b) := if r.mark = 1 then (d, issueSwap a) else if r.mark = 2 then (d, issueChecksum d a r) else issueRow d n ai a r
  beatDone d n b r need

/-- A bubble (R28). One that the duty limit or a ramp imposes belongs to no gap, and neither counts in it nor ends it (log 193); one of a gap that has lasted DRONE_LIMIT cycles begins the ramp-down (R53); where a slot of the ramp and the duty limit allow it issues as a drone cycle (R51, R52). -/
def bubble (d : Dev) (n : Nat) (a : Arr) (held : Bool) : Dev × Arr :=
  let d := bump d (0x2210 + n) 5 8 1
  if held || !dutyLets a 1 || (decide (5 ≤ a.ramp) && !rampLets a 1) then (d, a)
  else
    let a := if gapEnds d a a.gap then { a with ramp := 1, rampCyc := 0, rampCredit := 3 } else a
    let a := { a with gap := a.gap + 1 }
    if a.ramp = 4 || !rampLets a 1 then (d, a)
    else
      let a := { a with dutyUsed := a.dutyUsed + 1, rampCredit := if a.ramp = 0 then a.rampCredit else a.rampCredit - 4 }
      if setting d 0x2200 1 = 1 then (updCore (bump d (0x2210 + n) 6 8 1) n fun c => { c with actDrones := c.actDrones + 1 }, drone a) else (d, a)

/-- Rows, SWAPs and checksum rows return to an array that is gated or in ramp-down (R54; log 194). -/
def rowsReturn (a : Arr) : Arr := if 1 ≤ a.ramp ∧ a.ramp ≤ 4 then rampTo a (if a.ramp = 4 then 5 else 8 - a.ramp) else a

/-- The ramps move on as the entry at the head of a queue has become ready or not. -/
def rampMoves (c : Core) (ai : Nat) (a : Arr) : Arr :=
  earn (headNeed a) (if a.beats ≠ 0 || allReady c (mates c ai) then rowsReturn a else a)

/-- What array `ai` issues in a cycle, `c` being the core as the cycle began: the next beat of its entry, the entry at its head, or a bubble (R27, R28). -/
def issueArray (c : Core) (n : Nat) (d : Dev) (ai : Nat) : Dev :=
  let a := arr c ai
  let (d, a) := match headRow a with
    | none => bubble d n a false
    | some r =>
      if a.beats ≠ 0 && r.valid then beatDone d n a r a.beats
      else if !r.valid then
        let left := if a.beats = 0 then headNeed a else a.beats
        bubble d n (if left ≤ 1 then { a with beats := 0, feeder := a.feeder.drop 1 } else { a with beats := left - 1 }) false
      else if mayIssue c ai then issueHead d n ai a r
      else bubble (if halfFull c r then d else bump d (0x2290 + n) 3 8 1) n a (allReady c (mates c ai))
  updArr d n ai fun _ => tick a

/-- Elements of the rows that enter the arrays in this cycle and are infinities or NaNs: a row that several arrays take counts once (R73, R122). -/
def issueInvalid (d : Dev) (n : Nat) (c : Core) : Nat :=
  let rows := (arraysOn c).filterMap fun b =>
    let a := arr c b
    match headRow a with
    | some r => if a.beats = 0 && r.valid && (r.mark == 0 || r.mark == 3) && mayIssue c b then some (r.src, r.fmt, r.listed, r.unit, if r.mark = 3 then 8 else passDepth a, r) else none
    | none => none
  let once := (rows.map fun x => (x.1, x.2.1, x.2.2.1, x.2.2.2.1, x.2.2.2.2.1)).eraseDups
  (once.map fun k => match rows.find? fun x => (x.1, x.2.1, x.2.2.1, x.2.2.2.1, x.2.2.2.2.1) == k with
    | some x =>
      let r := x.2.2.2.2.2
      (cellCodes r x.2.2.2.2.1 (rowCodes d n x.2.2.2.2.1 r).1).countP fun v => invalidVal (elemVal (fmtAt r.fmt) v)
    | none => 0).sum

/-- ISSUE_CYCLE (R27): one cycle of a core's clock. Each enabled array's queue may take an entry of the sequencer; then each issues one entry or beat, or a bubble. -/
def issueCycle (d : Dev) (n : Nat) (push : Nat → Option FeedRow) : Dev :=
  let c := coreOf d n
  if c.disabled || c.stopped then d
  else
    let on := arraysOn c
    let c := on.foldl (fun c a => setArr c a (prepare d c.dutyLimit (push a) (arr c a))) c
    let c := on.foldl (fun c' a => setArr c' a (rampMoves c a (arr c a))) c
    on.foldl (issueArray c n) (bump (updCore d n fun _ => c) (0x2230 + n) 3 4 (issueInvalid d n c))

/-! ### The weight loader (R34, R37, R42, R45, R55, R68, R95) -/

/-- Codes of the array row that a load writes, K row by K row: columns lo to hi - 1 from memory, the rest zero; a byte of 4-bit weights holds K rows 2j and 2j + 1 (R68, R203). -/
def loadCodes (d : Dev) (n : Nat) (r : RowLoad) : List (List Nat) :=
  let w := fmtBits (fmtAt r.fmt)
  let at' (c : Nat) : Nat := leNat ((coreMarked d n r.wm (r.off + (c - r.lo) * r.step) (max 1 (w / 8))).map (·.1))
  let col (c : Nat) : Nat := if r.lo ≤ c ∧ c < r.hi then at' c else 0
  let row := (List.range 32).map col
  if w = 4 then [row.map (· % 16), row.map (· / 16)] else [row]

/-- Offsets and lengths of the words that a load reads. -/
def loadSpans (r : RowLoad) (arrays : Nat) : List (Nat × Nat) :=
  let w := fmtBits (fmtAt r.fmt)
  if r.block then (List.range 8).map fun k => (r.off + k * r.pitch, 128 * arrays * w / 8)
  else (List.range (r.hi - r.lo)).map fun c => (r.off + c * r.step, max 1 (w / 8))

/-- Codes of K row k of a piccolo block for the array that is the i-th of those enabled, row group g: 32 columns of the 128 that lie together for it (R44). -/
def blockCodes (d : Dev) (n : Nat) (r : RowLoad) (i k g : Nat) : List Nat :=
  let w := fmtBits (fmtAt r.fmt)
  codesOf w 32 ((coreMarked d n r.wm (r.off + k * r.pitch + (128 * i + 32 * g) * w / 8) (32 * w / 8)).map (·.1))

/-- Codebooks that a load reads (R75, R77). -/
def loadBooks (d : Dev) (n : Nat) (r : RowLoad) : List (List Nat) :=
  if fmtAt r.fmt = .cb4 then r.books.map fun b => codesOf 16 16 ((coreMarked d n true b 32).map (·.1)) else []

/-- The registers of a row: its codes, and for each K row the sum that its checksum cell holds (R34, R112). -/
def cellRow (fmt : Nat) (book : List Nat) (codes : List (List Nat)) : CellRow :=
  let fl := fmtAt fmt == .cb4 || !(fmtIsInt (fmtAt fmt))
  { codes := codes, sums := codes.map fun r => BitVec.ofInt 32 (outBits fl (onceSum fl (r.map (cellVal fmt book)))) }

/-- An array may take a load in this cycle: the loader is free, the row is the next of its tile, and its registers have changed over since the last SWAP (R37). -/
def mayLoad (a : Arr) (r : RowLoad) : Bool :=
  let k := if a.shadow.loaded = 32 then 0 else a.shadow.loaded
  let g := groupOf a r.k
  decide (a.loadFree ≤ a.cycle)
    && (if r.block then a.changing == 0#4 else r.k == k && !bit a.changing g && (match a.swapAt with
      | some s => decide (s + 2 + g ≤ a.cycle)
      | none => true))

/-- One row of the shadow tile written, or a whole piccolo block, for the i-th enabled array. -/
def loadShadow (d : Dev) (n : Nat) (r : RowLoad) (i : Nat) (poison : Bool) (a : Arr) : Arr :=
  let books := loadBooks d n r
  let fresh : Tile := { fmt := r.fmt, books := books, act := r.act, rows := a.shadow.rows, spare := a.shadow.spare }
  let w := fmtBits (fmtAt r.fmt)
  if r.block then
    let t := (List.range 32).foldl (fun t k => putCells a t k (cellRow r.fmt (books.getD (k / 8) []) [blockCodes d n r i (k % 8) (k / 8)])) fresh
    { a with shadow := { t with loaded := 32, poison := poison }, loadFree := a.cycle + max 1 (w / 4) }
  else
    let t := if r.k = 0 then fresh else a.shadow
    let t := putCells a t r.k (cellRow r.fmt (t.books.headD []) (loadCodes d n r))
    { a with shadow := { t with loaded := r.k + 1, poison := t.poison || poison }, loadFree := a.cycle + (if w = 16 then 2 else 1) }

/-- Channels' scale codes that a load reads into a bank (R95). -/
def loadScales (d : Dev) (n : Nat) (s : ScaleLoad) : List Nat :=
  (List.range (min 128 s.n)).map fun j => leNat ((coreMarked d n true (s.off + 2 * (if s.gs = 31 then 0 else (s.ch + j) / 2 ^ s.gs)) 2).map (·.1))

/-- Invalid operands that a load meets: weights, or for CB4 codebook entries, once per load, and scales once per load into a bank (R73; log 189). -/
def loadInvalid (d : Dev) (n : Nat) (r : RowLoad) (arrays : Nat) : Nat :=
  let wts := if fmtAt r.fmt = .cb4 then []
    else if r.block then (List.range arrays).flatMap fun i => (List.range 8).flatMap fun k => (List.range 4).flatMap fun g => blockCodes d n r i k g
    else (loadCodes d n r).flatten
  let books := if r.k = 0 || r.block then (loadBooks d n r).flatten else []
  let scales : List Nat := (r.scale.toList.flatMap fun s => ((List.range s.n).map fun j => s.off + 2 * (if s.gs = 31 then 0 else (s.ch + j) / 2 ^ s.gs)).eraseDups).map fun a =>
    leNat ((coreMarked d n true a 2).map (·.1))
  (wts.map (elemVal (fmtAt r.fmt))).countP invalidVal + ((books ++ scales).map (decodeFloat f16)).countP invalidVal

/-- SHADOW_ROW_LOAD (R34): the weight loader reads one array row, or a piccolo block, and writes it into the shadow registers of every array that shares it, with its checksum sums; with the first K-block's tile it reads the scales (R95). Unless every one of them may take it, nothing is read. -/
def shadowRowLoad (d : Dev) (n : Nat) (r : RowLoad) : Dev :=
  let c := coreOf d n
  let on := arraysOn c
  let takers := on.filter fun a => bit r.arrays a
  if c.stopped || takers.isEmpty then d
  else
    let c := takers.foldl (fun c a => setArr c a (changeDue (arr c a))) c
    if !(takers.all fun a => mayLoad (arr c a) r) then d
    else
      let d := updCore d n fun _ => c
      let spans := loadSpans r on.length
      let books := if r.k = 0 || r.block then r.books.map fun b => (b, 32) else []
      let d := if d.mem.latent.isEmpty then d else books.foldl (fun d s => readBytes d n true s.1 s.2) (spans.foldl (fun d s => readBytes d n r.wm s.1 s.2) d)
      let poison := (spans.any fun s => (coreMarked d n r.wm s.1 s.2).any (·.2)) || books.any fun s => (coreMarked d n true s.1 s.2).any (·.2)
      let d := bump d (0x2230 + n) 3 4 (loadInvalid d n r on.length)
      takers.foldl (fun d a => updArr d n a fun v =>
        let v := loadShadow d n r (on.idxOf a) poison v
        match r.scale with
        | some s => loadBank v r.unit (loadScales d n s)
        | none => v) d

/-! ### Ramps, changeovers and the duty window by themselves -/

/-- GROUP_CHANGEOVER (R36): the marker reaches group g in cycle s + 1 + g. -/
def groupChangeover (d : Dev) (n ai g : Nat) : Dev :=
  updArr d n ai fun a =>
    match a.swapAt with
    | some s => if decide (s + 1 + g ≤ a.cycle) && (List.range g).all (fun h => !bit a.changing h) then changeOver a g else a
    | none => a

/-- RAMP_DOWN_START (R53): a gap has reached DRONE_LIMIT cycles. -/
def rampDownStart (d : Dev) (n ai : Nat) : Dev := updArr d n ai fun a => if 0 < a.gap ∧ gapEnds d a a.gap = true then rampTo a 1 else a
/-- RAMP_DOWN_STEP (R53): a step of RAMP_DOWN/4 cycles ends; after the third the array is gated. -/
def rampDownStep (d : Dev) (n ai : Nat) : Dev := updArr d n ai fun a => if downDue d a then rampTo a (a.ramp + 1) else a
/-- RAMP_UP_STEP (R54): a step of RAMP_UP/4 cycles ends; after the third the density is full. -/
def rampUpStep (d : Dev) (n ai : Nat) : Dev := updArr d n ai fun a => if upDue d a then rampTo a ((a.ramp + 1) % 8) else a
/-- DUTY_WINDOW (R50): at an aligned boundary. -/
def dutyBoundary (d : Dev) (n ai : Nat) : Dev :=
  updArr d n ai fun a => if a.dutyPos = 16 ∨ a.dutyPos = 0 then dutyWindow d (coreOf d n).dutyLimit a else a

/-! ### The commands -/

/-- ISSUE_CYCLE (R27): the entries that the sequencer puts into the four queues. -/
def execIssueCycle (n : Fin 16) (p q : Option FeedRow × Option FeedRow) (s : State) : Host.Outcome State Fault Refusal :=
  nextDev s fun d => issueCycle d n fun a => ([p.1, p.2, q.1, q.2].getD a none)
/-- GROUP_CHANGEOVER (R36). -/
def execGroupChangeover (n : Fin 16) (a g : Fin 4) (s : State) : Host.Outcome State Fault Refusal := nextDev s fun d => groupChangeover d n a g
/-- SHADOW_ROW_LOAD (R34). -/
def execShadowRowLoad (n : Fin 16) (a : BitVec 4) (k fmt off : Nat) (r : LoadForm) (s : State) : Host.Outcome State Fault Refusal :=
  nextDev s fun d => shadowRowLoad d n { r with arrays := a, k := k, fmt := fmt, off := off }
/-- RAMP_DOWN_START (R53). -/
def execRampDownStart (n : Fin 16) (a : Fin 4) (s : State) : Host.Outcome State Fault Refusal := nextDev s fun d => rampDownStart d n a
/-- RAMP_DOWN_STEP (R53). -/
def execRampDownStep (n : Fin 16) (a : Fin 4) (s : State) : Host.Outcome State Fault Refusal := nextDev s fun d => rampDownStep d n a
/-- RAMP_UP_STEP (R54). -/
def execRampUpStep (n : Fin 16) (a : Fin 4) (s : State) : Host.Outcome State Fault Refusal := nextDev s fun d => rampUpStep d n a
/-- DUTY_WINDOW (R50). -/
def execDutyWindow (n : Fin 16) (a : Fin 4) (s : State) : Host.Outcome State Fault Refusal := nextDev s fun d => dutyBoundary d n a

end Sys2Proof.Machine
end

