-- ==== Sys2Proof/Machine/Land.lean ====
section
/-! DEFINITION. What the arrays' rows leave behind: landing beat by beat with the row, column and piccolo checks, the release of PM regions, the drain with its check, and the outlier sums (chapters 2 and 3). -/

namespace Sys2Proof.Machine

open Sys2Proof

/-! ### Landing and its checks (R29 to R32, R57 to R60, R64, R83 to R87, R111 to R113) -/

/-- A column's output with the disturbance in it. -/
def upsetOut (float : Bool) (u : Option Upset) (col : Nat) (v : Int) : Int :=
  match u with
  | some x => if x.col = col then (if float then ((BitVec.ofInt 32 v ^^^ x.bits).toNat : Int) else v + x.bits.toInt) else v
  | none => v

/-- Exact sum of a list of column bits. -/
def sumBits (float : Bool) (l : List Int) : Val := l.foldl (fun s b => vadd s (bitsVal float b)) (.zero false)

/-- Largest magnitude of a list of column bits on the floating path, for E (R111). -/
def magBits (float : Bool) (l : List Int) : Int := if float then magOf (l.map (bitsVal true)) else -1000

/-- The row with the disturbance in the beat that lands, in a data column or in the checksum column behind them. -/
def disturb (p : PipeRow) (u : Option Upset) : PipeRow :=
  let w := (p.outs.getD p.landed []).length
  let last (l : List Int) : List Int := l.dropLast ++ (l.getLast?.map (upsetOut p.float u w)).toList
  { p with outs := modifyAt p.outs p.landed fun o => (withPos o).map fun c => upsetOut p.float u c.1 c.2
           chk := modifyAt p.chk p.landed last, landed := p.landed + 1 }

/-- PM key of column c of a row: column c of its array, or in piccolo form column c % 32, one of the four entries of its token (R32, R44). -/
def landKey (ai : Nat) (r : FeedRow) (c : Nat) : Nat :=
  if r.mark = 3 then (ai * 32 + c % 32) * 1024 + 4 * r.entry + c / 32 else (ai * 32 + c) * 1024 + r.entry

/-- Checksum accumulator after beat `b` of a row whose outputs and PM entries reach magnitude `mag` (R60, R113): the integer sum in 48 bits, or FP32 sum, E + 127 and B; the first beat of a K-block's first row initialises all three. -/
def accAdd (float first : Bool) (b : Nat) (acc : BitVec 48) (chk : List Int) (mag : Int) : BitVec 48 :=
  let init := first && b == 0
  if float then
    let v := chk.foldl (fun s c => fadd s (bitsVal true c)) (if init then .zero false else ofF32 (BitVec.ofNat 32 acc.toNat))
    let e := min 255 (max (if init then 0 else fld acc 40 8 : Int) (max mag (magOf [v]) + 127))
    let k := min 255 ((if init then 0 else fld acc 32 8) + (if b = 0 then 1 else 0))
    BitVec.ofNat 48 ((toF32 v).toNat + k * 2 ^ 32 + e.toNat * 2 ^ 40)
  else BitVec.ofInt 48 ((if init then 0 else acc.toInt) + chk.foldl (· + ·) 0)

/-- The beat that has just landed is added into PM, and its checksum outputs into the accumulators of its PM rows (R60, R85 to R87). -/
def landBeat (d : Dev) (n ai : Nat) (p : PipeRow) : Dev :=
  let b := p.landed - 1
  let outs := p.outs.getD b []
  let chk := p.chk.getD b []
  let keys := (List.range outs.length).map (landKey ai p.row)
  let d := pmWritten (if p.row.first && b == 0 then d else readPm d n keys) n keys
  let d := updCore d n fun c => { c with pm := (withPos outs).foldl (fun pm o =>
    let k := landKey ai p.row o.1
    sset (fun _ => {}) pm k (pmRow p.float (sget (fun _ => {}) pm k) (p.row.first && b == 0) p.poison
      [{ v := bitsVal p.float o.2, ovf := (p.ovf.getD b []).getD o.1 false }])) c.pm }
  (withPos (rowTargets ai p.row)).foldl (fun d k => updCore d n fun c =>
    let mag := if p.float then max p.mag (magOf ((pmRowEntries c k.2).map fun e => ofF32 e.bits)) else 0
    let mine := if p.row.mark = 3 then (chk[k.1]?).toList else chk
    setArr c ai { arr c ai with accs := supd (fun _ => 0#48) (arr c ai).accs (k.2 % 1024) fun v => accAdd p.float p.row.first b v mine mag }) d

/-- The outputs of column c of a row, the checksum column behind the others. -/
def colBits (p : PipeRow) (c : Nat) : List Int := if c = 32 then p.chk.flatten else p.outs.map fun o => o.getD c 0

/-- The sums of a pass with a whole row added: 33 columns, in row order (R58, R111). -/
def addSums (p : PipeRow) (q : PassRec) : PassRec :=
  let add (c : Nat) : Int := (colBits p c).foldl (fun s v => if p.float then outBits true (fadd (bitsVal true s) (bitsVal true v)) else s + v) (q.csums.getD c 0)
  let sums := (List.range 33).map add
  { q with csums := sums
           mags := (withPos sums).map fun s => max (max (q.mags.getD s.1 (-1000)) (p.mags.getD s.1 (-1000))) (magBits p.float (s.2 :: colBits p s.1)) }

/-- The first column whose sum over the pass differs from its output for the checksum row (R58, R59). -/
def badColumn (p : PipeRow) (q : PassRec) : Option Nat :=
  (List.range 33).find? fun c =>
    let e := max (max (q.mags.getD c (-1000)) (p.mags.getD c (-1000))) (magBits p.float (colBits p c ++ q.xsum))
    !colAgrees p.float (bitsVal p.float (q.csums.getD c 0)) (sumBits p.float (colBits p c)) e

/-- Outputs of the row check: the checksum column's, or in piccolo form those over the whole array (R57, R64). -/
def rowChecks (p : PipeRow) : List Int := if p.row.mark = 3 then p.chk.filterMap (·.getLast?) else p.chk.flatten

/-- The row check of a whole row: the sum of its column outputs against the checksum output (R57, R64). -/
def rowGood (p : PipeRow) : Bool :=
  rowAgrees p.float (sumBits p.float p.outs.flatten) (sumBits p.float (rowChecks p)) (max p.mag (magBits p.float (p.outs.flatten ++ rowChecks p)))

/-- The last beat of a row has landed: its sums are kept, its PM rows are complete after the last K-block, and what the check mode has checked is compared (R57 to R64). -/
def rowDone (d : Dev) (n ai : Nat) (p : PipeRow) (u : Option Upset) : Dev :=
  if p.row.mark = 2 then
    let q := (arr (coreOf d n) ai).openPasses.find? fun q => q.id == p.pass
    let d := updArr d n ai fun a => { a with openPasses := a.openPasses.filter fun q => q.id != p.pass }
    match if p.due then q.bind (badColumn p) else none with
    | some col => mismatch d n ai 1 0 col 0 p.row.unit
    | none => d
  else
    let d := if p.row.mark = 3 then d else updArr d n ai fun a => updPass a p.pass (addSums p)
    let d := if p.row.last then updCore d n fun c => { c with
        pmRows := (rowTargets ai p.row).foldl (fun t k => sset (fun _ => {}) t k { unit := some p.row.unit, done := true }) c.pmRows } else d
    if p.due && !rowGood p then
      let x := u.getD {}
      if p.row.mark = 3 then mismatch d n ai 3 0 x.row p.row.entry p.row.unit else mismatch d n ai 0 x.group 0 p.row.entry p.row.unit
    else d

/-- ROW_LANDS (R29 to R31): the oldest beat in flight has passed its stages, six issue cycles after its own or eight on the floating path; with its last beat the row is complete. -/
def rowLands (d : Dev) (n ai : Nat) (u : Option Upset) : Dev :=
  let a := arr (coreOf d n) ai
  match a.pipe with
  | [] => d
  | p :: rest =>
    if (coreOf d n).stopped || decide (a.cycle < p.taken + p.landed + (if p.float then 8 else 6)) then d
    else
      let p := disturb p u
      let d := updArr d n ai fun a => { a with pipe := if p.landed < p.outs.length then p :: rest else rest }
      let d := if p.row.mark = 2 then d else landBeat d n ai p
      if p.landed < p.outs.length then d else rowDone d n ai p u

/-! ### Release (R61, R106, R493) -/

/-- Rows of part p of unit t, where the unit's region lies. -/
def regionRows (d : Dev) (n : Nat) (o : Op) (t : Nat) (p : List Nat × List Nat) : List UnitRow := unitRows d n o t (unitRegion (coreOf d n) o (unitOf o t)) p

/-- No row of unit u is waiting or in flight, and no check of a pass that streamed it is still due. -/
def unitQuiet (c : Core) (u : UnitTag) : Bool := (List.range 4).all fun a =>
  let r := arr c a
  !((r.feeder ++ r.pipe.map (·.row)).any fun x => x.unit == u) && !(r.openPasses.any fun q => q.due && q.unit == some u)

/-- The outlier sums of every row of the region are complete (R106). -/
def summed (c : Core) (o : Op) (rows : List UnitRow) : Bool :=
  (opList o (rDescA o.word)).isEmpty || rows.all fun r => r.cells.all fun x => c.osums.any fun e => e.1 == osumKey o r.no x.ch

/-- Every PM row of the region has had its last K-block; with no pass to run, there is none to wait for (R170). -/
def regionFull (d : Dev) (n : Nat) (o : Op) (u : UnitTag) (keys : List Nat) : Bool :=
  unitPasses d n o u.tile == 0 || keys.all fun k => pmRowOf (coreOf d n) k == { unit := some u, done := true }

/-- Drain the parts of unit t one after another, the first from PM (R40, R495). -/
def drainUnit (d : Dev) (n i : Nat) (o : Op) (t : Nat) (p : List Nat × List Nat) (ps : List (List Nat × List Nat)) : Dev :=
  let u := unitOf o t
  let region := unitRegion (coreOf d n) o u
  if isConvOp (rOpcode o.word) then
    let x := cnvAt d n o
    let (d, m) := drainCnvPart d x u (cnvTile x t) region p.1 p.2 {}
    let (d, m) := runCnvParts d x u (cnvTile x t) region ps m
    putMade d n i o x.o (rDescO o.word) m
  else
    let x := matOf d n o
    let (d, m) := drainPart d x u region p.1 p.2 {}
    let (d, m) := runParts d x u region ps m
    putMade d n i o x.o (rDescO o.word) m

/-- A retry of unit u has passed (R493). -/
def retryPassed (d : Dev) (n : Nat) (u : UnitTag) : Dev :=
  if (coreOf d n).retry.contains u then updCore (bump d (0x2300 + n) 3 4 1) n fun c => { c with retry := c.retry.filter fun v => !(v == u) } else d

/-- REGION_RELEASE (R61, R106, R493): every check due on every pass of the unit has passed and its outlier sums are complete. The region is released to the drain; a unit that runs in several parts drains them one after another, once it is claimed (R182, R495). -/
def regionRelease (d : Dev) (n i t : Nat) : Dev :=
  let c := coreOf d n
  match c.ops[i]? with
  | some o =>
    let u := unitOf o t
    match unitParts d n o t with
    | p :: ps =>
      let rows := regionRows d n o t p
      let keys := pmRowsIn rows
      let held := o.ctr.isSome && o.tiles.contains t
      if !(o.issued && !o.done && isMatrix o) || (c.released.any fun r => r.unit == u) || !unitQuiet c u || !regionFull d n o u keys || !summed c o rows
        || (unitPasses d n o t == 0 && o.ctr.isSome && !held) then d
      else
        let d := if unitPasses d n o t = 0 then completeRows (putPm d n ((rows.flatMap (·.cells)).map fun x => (x.key, {}))) n o u keys else d
        if ps.isEmpty then
          updCore (retryPassed d n u) n fun c => { c with released := c.released ++ [{ unit := u, rows := rows.map (·.m), keys := keys }] }
        else if held then retryPassed d n u
        else if vuFree c o then settleShared (updCore (drainUnit (retryPassed d n u) n i o t p ps) n fun c => dropRegion c u) n i
        else d
    | [] => d
  | none => d

/-! ### Drain (R60, R97) -/

/-- PM entry as the drain reads it, with the disturbance in it. -/
def drainEntry (c : Core) (u : Option Upset) (key : Nat) : PmEntry :=
  let e := pmAt c key
  match u with
  | some x => if x.col = key / 1024 % 32 then { e with bits := e.bits ^^^ x.bits } else e
  | none => e

/-- The 32 entries of a PM row as the drain reads them. -/
def drainEntries (c : Core) (u : Option Upset) (k : Nat) : List PmEntry := (List.range 32).map fun col => drainEntry c u ((k / 1024 * 32 + col) * 1024 + k % 1024)

/-- The drain check of one PM row: its 32 entries against the accumulator, unless one is saturated (R60, R111). -/
def drainOk (c : Core) (float : Bool) (k : Nat) (es : List PmEntry) : Bool :=
  let acc := sget (fun _ => 0#48) (arr c (k / 1024)).accs (k % 1024)
  let vs := es.map fun e => if float then ofF32 e.bits else ofInt e.bits.toInt
  let a : Val := if float then ofF32 (BitVec.ofNat 32 acc.toNat) else ofInt acc.toInt
  es.any (·.sat) || drainAgrees float (vs.foldl vadd (.zero false)) a (max (fld acc 40 8 - 127 : Int) (if float then magOf (a :: vs) else 0)) (fld acc 32 8)

/-- Outlier sum of row `no` and channel ch, as it was formed. -/
def keptSum (c : Core) (o : Op) (no ch : Nat) : Option Val :=
  if (opList o (rDescA o.word)).isEmpty then none else some (ofF32 (sget (fun _ => 0#32) c.osums (osumKey o no ch)))

/-- Drain and write one row of unit t (R97 to R103). -/
def drainUnitRow (d : Dev) (n i : Nat) (o : Op) (t : Nat) (r : UnitRow) (u : Option Upset) : Dev :=
  let c := coreOf d n
  let es (keep : Cell → Bool) : List (Cell × PmEntry) := (r.cells.filter keep).map fun x => (x, drainEntry c u x.key)
  if isConvOp (rOpcode o.word) then
    let x := cnvAt d n o
    let ct := cnvTile x t
    let cells := es fun e => (drainCols x ct.nb).contains e.ch
    if cells.isEmpty then d
    else
      let (d, m) := cnvDrainPixel d x (unitOf o t) ct (livePasses x ct) r.m (keptSum c o r.no) cells {}
      putMade d n i o x.o (rDescO o.word) m
  else
    let x := matOf d n o
    let (d, m) := drainRow d x (unitOf o t) r.m (keptSum c o r.no) (es fun e => decide (e.ch < x.ln)) {}
    putMade d n i o x.o (rDescO o.word) m

/-- A row of a released region has drained: its outlier sums go, and the PM rows that no row still to drain shares (R49). -/
def rowDrained (c : Core) (o : Op) (u : UnitTag) (rows : List UnitRow) (r : UnitRow) (compared : List Nat) : Core :=
  let left := rows.filter fun x => x.m != r.m && c.released.any fun y => y.unit == u && y.rows.contains x.m
  let stay := pmRowsIn left
  { c with
    osums := c.osums.filter fun e => !(r.cells.any fun x => e.1 == osumKey o r.no x.ch)
    pmRows := c.pmRows.filter fun e => !(e.2.unit == some u) || stay.contains e.1
    released := (c.released.map fun y => if y.unit = u then { y with rows := left.map (·.m), compared := y.compared ++ compared } else y).filter fun y => !y.rows.isEmpty }

/-- DRAIN_ENTRY (R60, R97): row m of unit t of the instruction at position i drains: of its PM rows those not yet compared are checked, then it is rescaled, narrowed and written. A tile of a shared counter drains once it is claimed (R182). -/
def drainEntryCmd (d : Dev) (n i t m : Nat) (u : Option Upset) : Dev :=
  let c := coreOf d n
  match c.ops[i]? with
  | some o =>
    match c.released.find? fun r => r.unit == unitOf o t && r.rows.contains m, unitParts d n o t with
    | some rel, p :: _ =>
      let rows := regionRows d n o t p
      match rows.find? fun r => r.m == m with
      | some r =>
        if !(o.issued && !o.done) || (o.ctr.isSome && o.tiles.contains t) || !vuFree c o then d
        else
          let checks := wCheckMode (wcOf d o.wc) == 0
          let fresh := if checks then (pmRowsIn [r]).filter fun k => !rel.compared.contains k else []
          let d := readPm d n (r.cells.map (·.key))
          match fresh.find? fun k => !drainOk c (unitFloat o) k (drainEntries c u k) with
          | some k => mismatch d n (k / 1024) 2 0 0 (k % 1024) (unitOf o t)
          | none =>
            let d := bump d (0x2210 + n) 8 4 (uncheckedRows c fresh)
            let d := drainUnitRow d n i o t r u
            settleShared (updCore d n fun c => rowDrained c o (unitOf o t) rows r fresh) n i
      | none => d
    | _, _ => d
  | none => d

/-! ### Outlier sums (R105, R106) -/

/-- Outlier sum of row r and channel ch of unit t. -/
def osumOf (d : Dev) (n : Nat) (o : Op) (t : Nat) (r : UnitRow) (ch : Nat) : Val :=
  let v := if isConvOp (rOpcode o.word) then
      let x := cnvAt d n o
      cnvOutliers d x (cnvTile x t).oy r.m ch (livePasses x (cnvTile x t))
    else outlierSum d (matOf d n o) r.m ch
  v.getD (.zero false)

/-- Invalid operands that the VU reads for a row's outlier sums (R73). -/
def osumInvalid (d : Dev) (n : Nat) (o : Op) (t : Nat) (r : UnitRow) : Nat :=
  let chs := r.cells.map (·.ch)
  if isConvOp (rOpcode o.word) then
    let x := cnvAt d n o
    cnvOutlierInvalid d x (cnvTile x t).oy r.m chs (livePasses x (cnvTile x t))
  else outlierInvalid d (matOf d n o) r.m chs

/-- OUTLIER_SUM (R105, R106): the VU forms the outlier sums of row m of unit t of the instruction at position i, for the tile's channels. -/
def outlierSums (d : Dev) (n i t m : Nat) : Dev :=
  let c := coreOf d n
  match c.ops[i]? with
  | some o =>
    match ((unitParts d n o t).flatMap (regionRows d n o t)).filter fun r => r.m == m with
    | [] => d
    | rs =>
      if o.issued && !o.done && isMatrix o && vuFree c o && !(opList o (rDescA o.word)).isEmpty then
        let vs := rs.flatMap fun r => r.cells.map fun x => (osumKey o r.no x.ch, toF32 (osumOf d n o t r x.ch))
        let d := bump (bump d (0x2230 + n) 6 8 1) (0x2230 + n) 3 4 ((rs.map (osumInvalid d n o t)).sum)
        updCore d n fun c => { c with osums := vs.foldl (fun s v => sput s v.1 v.2) c.osums }
      else d
  | none => d

/-- CALIB_WINDOW_CLOSE (R108): the slot has counted 2^CALIB_WINDOW values. -/
def calibClose (d : Dev) (n k : Nat) : Dev := if 2 ^ setting d 0x2220 2 ≤ (satSlot (coreOf d n) k).narrowed then closeCalib d n k else d

/-! ### The commands -/

/-- ROW_LANDS (R29). -/
def execRowLands (n : Fin 16) (a : Fin 4) (u : Option Upset) (s : State) : Host.Outcome State Fault Refusal := nextDev s fun d => rowLands d n a u
/-- REGION_RELEASE (R61). -/
def execRegionRelease (n : Fin 16) (i : Fin 256) (t : BitVec 16) (s : State) : Host.Outcome State Fault Refusal := nextDev s fun d => regionRelease d n i t.toNat
/-- DRAIN_ENTRY (R97). -/
def execDrainEntry (n : Fin 16) (i : Fin 256) (t : BitVec 16) (m : W32) (u : Option Upset) (s : State) : Host.Outcome State Fault Refusal :=
  nextDev s fun d => drainEntryCmd d n i t.toNat m.toNat u
/-- OUTLIER_SUM (R105). -/
def execOutlierSum (n : Fin 16) (i : Fin 256) (t : BitVec 16 × W32) (s : State) : Host.Outcome State Fault Refusal :=
  nextDev s fun d => outlierSums d n i t.1.toNat t.2.toNat
/-- CALIB_WINDOW_CLOSE (R108). -/
def execCalibWindowClose (n k : Fin 16) (s : State) : Host.Outcome State Fault Refusal := nextDev s fun d => calibClose d n k

end Sys2Proof.Machine
end

