-- ==== Sys2Proof/Machine/CoreMem.lean ====
section
/-! DEFINITION. The core memories at work: the window-register fill, the correction stage, the scrubber, the gather buffers, arriving granules, windows' drain and credits, and partial writes of the SB (chapter 4, R190 to R193). -/

namespace Sys2Proof.Machine

open Sys2Proof

/-- A read of n bytes at offset o of core n's PM range: the 32 data bits of each entry, little-endian, without its flags (R117). -/
def pmRead (d : Dev) (c o n : Nat) : List Byte :=
  (List.range n).map fun i => BitVec.ofNat 8 ((pmAt (coreOf d c) (pmKeyOf ((o + i) / 4))).bits.toNat / 256 ^ ((o + i) % 4))

/-! ### WREG_FILL (R190 to R193) -/

/-- Span of a segment in input pixels, with the kernel that is left when its columns are reduced (R191, R206, R211). -/
def cnvSpan (x : Cnv) : Nat :=
  let w := x.op.word
  let seg := segOf w (dExt x.o 1)
  let kw := (tapCols x).length
  if x.trans then (seg - 1) + ceilDiv ((kw - 1) * rDilW w) (rStrideW w) + 1
  else (seg - 1) * rStrideW w + (kw - 1) * rDilW w + 1

/-- Line mode (R191). -/
def lineMode (x : Cnv) : Bool := decide (cnvSpan x * sliceEntries (cnvFa x) (cnvFw x) ≤ 1024)

/-- Input columns a fill reads, in entry order: in line mode the span from the first column that a tap reads, in tap mode the columns that tap kx reads (R191, R192). -/
def fillCols (x : Cnv) (cols : List Nat) (kx : Nat) : List Int :=
  if lineMode x then
    match (tapCols x).filterMap fun k => cols.head?.bind fun c => inCol x c k with
    | [] => []
    | s :: t => (List.range (cnvSpan x)).map fun (p : Nat) => t.foldl min s + (p : Int)
  else cols.filterMap fun c => inCol x c kx

/-- Words of one input pixel's slice, with their poison. -/
def fillWords (d : Dev) (x : Cnv) (sl : List Nat × Nat) (iy ix : Int) : List (BitVec 256 × Bool) :=
  let w := fmtBits (cnvFa x)
  let v := sl.1.foldr (fun c acc => sliceRaw d x sl.2 iy ix c % 2 ^ w + 2 ^ w * acc) 0
  let p := sl.1.any fun c => c < sl.2 && cnvPoison d x iy ix c
  (List.range (sliceEntries (cnvFa x) (cnvFw x))).map fun j => (BitVec.ofNat 256 (v / 2 ^ (256 * j)), p)

/-- The words of A that a fill reads pass the correction stage (R126). -/
def touchFill (d : Dev) (x : Cnv) (iy : Int) (cols : List Int) : Dev :=
  if inside iy x.ah then (cols.filter (inside · x.aw)).foldl (fun d ix =>
    touchData d x.pa x.a.base (elemOff x.a [0, ix.toNat, iy.toNat]) (elemBytes (cnvFa x) x.c)) d
  else d

/-- WREG_FILL (R192): the conv front of core n fills the half in turn with K-block kb of the input line that tap row ky of tile t reads. -/
def wregFill (d : Dev) (n i t ky kx kb : Nat) : Dev :=
  let c := coreOf d n
  match c.ops[i]? with
  | some o =>
    if !c.disabled && !c.stopped && o.issued && isConvOp (rOpcode o.word) && !bit c.wregFull c.wregHalf.toNat then
      let x := cnvAt d n o
      let tl := cnvTile x t
      match inRow x tl.oy ky, (blockSlices x tl.nb)[kb]? with
      | some iy, some sl =>
        let ws := (fillCols x tl.cols kx).flatMap fun ix => fillWords d x sl iy ix
        let h := c.wregHalf.toNat
        let put (r : Sparse (BitVec 256 × Bool)) (e : Nat × (BitVec 256 × Bool)) := sset (fun _ => (0#256, false)) r (h * 1024 + e.1) e.2
        updCore (touchFill d x iy (fillCols x tl.cols kx)) n fun c => { c with
          wreg := (withPos (ws.take 1024)).foldl put c.wreg
          wregFull := c.wregFull ||| BitVec.ofNat 2 (2 ^ h)
          wregHalf := c.wregHalf + 1 }
      | _, _ => d
    else d
  | none => d

/-- WREG_FILL (R192). -/
def execWregFill (n : Fin 16) (i : Fin 256) (t : W32) (ky kx : Fin 16) (kb : BitVec 12) (s : State) : Host.Outcome State Fault Refusal :=
  nextDev s fun d => wregFill d n i t.toNat ky kx kb.toNat

/-! ### The correction stage and the scrubber (R126 to R128, R131) -/

/-- SCRUB_WRITE (R127): the oldest corrected word of the queue is rewritten. -/
def scrubWrite (d : Dev) (n mem : Nat) : Dev :=
  match sget (fun _ => []) (coreOf d n).scrub mem with
  | [] => d
  | w :: rest =>
    let d := updCore d n fun c => { c with scrub := sset (fun _ => []) c.scrub mem rest }
    let d := updMem d fun m => { m with latent := sset (fun _ => 0) m.latent (latentKey n mem w) 0 }
    bump d (0x2250 + n) 6 4 1

/-- PATROL_READ (R127): the next word in address order, while SCRUB_ENABLE is set. -/
def patrolRead (d : Dev) (n mem u : Nat) : Dev :=
  if setting d 0x2240 1 = 1 then
    let w := sget (fun _ => 0) (coreOf d n).patrol mem
    let d := updCore d n fun c => { c with patrol := sset (fun _ => 0) c.patrol mem ((w + 1) % memWords mem) }
    coreMemRead d n mem w u
  else d

/-- CORE_MEMORY_READ (R126): word w of memory `mem` of core n, the word having suffered u. -/
def execCoreMemoryRead (n : Fin 16) (mem : Fin 4) (w : BitVec 17) (u : Fin 3) (s : State) : Host.Outcome State Fault Refusal :=
  nextDev s fun d => coreMemRead d n mem (w.toNat % memWords mem) u

/-- SCRUB_WRITE (R127). -/
def execScrubWrite (n : Fin 16) (mem : Fin 4) (s : State) : Host.Outcome State Fault Refusal := nextDev s fun d => scrubWrite d n mem

/-- PATROL_READ (R127). -/
def execPatrolRead (n : Fin 16) (mem : Fin 4) (u : Fin 3) (s : State) : Host.Outcome State Fault Refusal :=
  nextDev s fun d => patrolRead d n mem u

/-! ### Gather buffers (R132 to R134) -/

/-- NARROW_WRITE (R132, R133): a write of 4, 8 or 16 B by the instruction at position i of core n; into an open window's region it puts undefined bytes (R560). -/
def narrowWrite (d : Dev) (n i : Nat) (wm : Bool) (off mask : Nat) (bs : List Byte) (p : Bool) : Dev :=
  match (coreOf d n).ops[i]? with
  | some o =>
    if (coreOf d n).disabled then d
    else
      let (d, part) := spoil d n wm off mask (bs.map fun b => (b, p))
      narrowPut d n (opWriter o) wm off mask (part.map (·.1)) p
  | none => d

/-- Flush the k-th entry of a gather buffer. -/
def flushAt (d : Dev) (n : Nat) (wm : Bool) (k : Nat) : Dev :=
  match (gatherBuf (coreOf d n) wm)[k]? with
  | some g => flushGather d n wm g
  | none => d

/-- NARROW_WRITE (R132). -/
def execNarrowWrite (n : Fin 16) (i : Fin 256) (wm : Bool) (off : BitVec 20) (mask : BitVec 16) (bs : List Byte) (p : Bool) (s : State) :
    Host.Outcome State Fault Refusal :=
  nextDev s fun d => narrowWrite d n i wm off.toNat mask.toNat bs p

/-- GATHER_FLUSH (R133): the k-th oldest entry, whose instruction is about to retire. -/
def execGatherFlush (n : Fin 16) (wm : Bool) (k : Fin 4) (s : State) : Host.Outcome State Fault Refusal :=
  nextDev s fun d => flushAt d n wm k

/-- GATHER_TIMEOUT (R133): 64 cycles have passed since the last write to the k-th oldest entry. -/
def execGatherTimeout (n : Fin 16) (wm : Bool) (k : Fin 4) (s : State) : Host.Outcome State Fault Refusal :=
  nextDev s fun d => flushAt d n wm k

/-! ### Granules, windows and credits (R144 to R151, R235, R498) -/

/-- GRANULE_ARRIVE (R146, R147): one granule for core n at offset `off` of WM or AM, of unit u of its writer's stream; END lands the unit. What passes waits for an MTHIN where it is for WM (R120). -/
def granuleArrive (d : Dev) (n : Nat) (wm : Bool) (off u : Nat) (writer : BitVec 16) (epoch : BitVec 8) (bs : List (Byte × Bool)) (last hollow : Bool) : Dev :=
  match windowAt (coreOf d n) wm off with
  | none => if (coreOf d n).disabled then bump d (0x2300 + n) 6 8 1 else discardGranule d n false (coreAddr n wm off) writer
  | some j =>
    let w := winChecked d n j
    if (coreOf d n).disabled then
      let d := bump d (0x2300 + n) 6 8 1
      if last || hollow then giveCredits d n j writer 1 else d
    else if w.state = 3 ∨ w.epoch ≠ epoch then discardGranule d n true (coreAddr n wm off) writer
    else if w.writer = writer ∧ unitGranted w u = true ∧ landOffset w u 0 = off / 512 * 512 then landPart d n j u (off % 512) bs last hollow
    else discardGranule d n false (coreAddr n wm off) writer

/-- GRANULE_ARRIVE (R146). -/
def execGranuleArrive (n : Fin 16) (wm : Bool) (off : BitVec 20) (u : W32) (writer : BitVec 16) (epoch : BitVec 8) (bs : List (Byte × Bool))
    (last hollow : Bool) (s : State) : Host.Outcome State Fault Refusal :=
  nextDev s fun d => granuleArrive d n wm off.toNat u.toNat writer epoch bs last hollow

/-- WINDOW_DRAIN_TIMEOUT (R150, R151): a closing or revoked window of a node becomes closed. -/
def windowDrain (d : Dev) (node i : Nat) : Dev :=
  let w := winAt d node i
  if w.state = 2 ∨ w.state = 3 then setWinAt d node i (shutWin w) else d

/-- WINDOW_DRAIN_TIMEOUT (R151): node 0 to 15 a core, 16 the MPE, 17 + n the back end of image context n. -/
def execWindowDrainTimeout (node : Fin 33) (i : Fin 20) (s : State) : Host.Outcome State Fault Refusal :=
  nextDev s fun d => windowDrain d node i

/-- CREDIT_RETURN (R149): the freed credits of an open window go to its writer in one message; a waiting core goes on sending. -/
def creditReturn (d : Dev) (node i : Nat) : Dev :=
  let w := winAt d node i
  if w.state = 1 ∧ w.pendingCredits ≠ 0 ∧ ¬ (node < 16 ∧ (coreOf d node).disabled = true) then
    let d := setWinAt d node i { w with granted := w.granted + BitVec.ofNat 12 w.pendingCredits, pendingCredits := 0 }
    let d := giveCredits d node i w.writer w.pendingCredits
    if w.writer.toNat / 4096 = 1 then pump d (w.writer.toNat % 16) else d
  else d

/-- CREDIT_RETURN (R149). -/
def execCreditReturn (node : Fin 33) (i : Fin 20) (s : State) : Host.Outcome State Fault Refusal :=
  nextDev s fun d => creditReturn d node i

/-! ### SB_PARTIAL_WRITE (R153) -/

/-- Agent of an operand: 0 to 7 of Table 14.6, or the application cluster. -/
def agentOf (g : Option (Fin 8)) : Option Nat := g.map (·.val)
/-- Event source of an agent where its unit raises an address error. -/
def agentSource (g : Option (Fin 8)) (a : Nat) : Nat :=
  match g with
  | some 0 => 0
  | some 1 => srcSe 0
  | some 2 => srcIpl
  | some 3 => srcMpe
  | some 4 => srcAfe
  | some 5 => srcPorts
  | some 6 => srcMgc
  | some _ => srcCp
  | none => (Config.hartSource a).toNat

/-- A write of fewer than 64 B within one SB granule, whose halves have suffered u0 and u1. -/
def sbPartialWrite (d : Dev) (g : Option (Fin 8)) (a : Nat) (bs : List Byte) (p : Bool) (u0 u1 : Nat) : Dev :=
  match areaOf d a with
  | .sb _ => memWrite (strike (strike d (a / 64 * 2) u0) (a / 64 * 2 + 1) u1) (agentOf g) (agentSource g a) a bs p
  | _ => addressError d (agentSource g a) a

/-- SB_PARTIAL_WRITE (R153). -/
def execSbPartialWrite (g : Option (Fin 8)) (a : Addr) (bs : List Byte) (p : Bool) (u0 u1 : Fin 3) (s : State) : Host.Outcome State Fault Refusal :=
  nextDev s fun d => sbPartialWrite d g a.toNat bs p u0 u1

end Sys2Proof.Machine
end

