-- ==== Sys2Proof/Machine/Stream.lean ====
section
/-! DEFINITION. The stream channels: descriptors, opening, units and hollow units, the stall timer, the end of a stream, and the load turns (chapter 7, R224 to R235, R243, R244). -/

namespace Sys2Proof.Machine

open Sys2Proof

/-- Reserved bits of the RW half, which read as zero: [405:384] of the descriptor, and [18:0] of each receiver word (Tables 7.1 and 7.2). -/
def chanRwMask : Nat := 2 ^ 256 - 1 - (2 ^ 150 - 2 ^ 128) - (2 ^ 19 - 1) * (1 + 2 ^ 32 + 2 ^ 64 + 2 ^ 96)

/-- CHANNEL_DESCRIPTOR_WRITE (R224): 8 B word k of channel c's descriptor; ignored while STATE is not idle, and words 0 to 3 are read-only. -/
def chanDescWrite (d : Dev) (ch k : Nat) (v : W64) (whole : Bool) : Dev :=
  if !whole then addressError d (srcSe (ch / 64)) (0x3000A00000 + ch / 64 * 0x100000 + ch % 64 * 0x40 + 8 * k)
  else
    let c := chan d ch
    if c.state = 0 ∧ 4 ≤ k then
      setChan d ch { c with rw := BitVec.ofNat 256 (setFld c.rw.toNat (64 * (k - 4)) 64 v.toNat) &&& BitVec.ofNat 256 chanRwMask }
    else d

/-- Receivers that are windows, and those of them that are attached (R231, R232). -/
def winRecvs (c : Chan) : List Nat := (List.range 4).filter fun r => isWinRecv c r
def attached (c : Chan) : List Nat := (winRecvs c).filter fun r => !bit c.detached r

/-- Writer number of a channel (Table 4.8). -/
def chanWriter (ch : Nat) : BitVec 16 := BitVec.ofNat 16 (0x2000 + ch)

/-- Receiver r of channel ch has opened its window for this stream, with the channel as writer (R225); a window that has had its STREAM_END still serves the stream before. -/
def recvOpen (d : Dev) (ch r : Nat) : Bool :=
  let w := chRecv (chan d ch) r
  let x := winAt d (rvNode w) (rvWindow w)
  x.state == 1 && x.writer == chanWriter ch && x.declared.isNone

/-- CHANNEL_ACTIVE (R225): every valid window receiver has opened its window; the channel reads its work context's epoch. -/
def chanActive (d : Dev) (ch : Nat) : Dev :=
  let c := chan d ch
  if c.state = 1 ∧ ((winRecvs c).all fun r => recvOpen d ch r) = true then
    setChan d ch { c with state := 2, epoch := (wcOf d (chWc c)).epoch }
  else d

/-- The next unit of a channel, if one is ready: its frame and bytes. -/
def nextUnit (c : Chan) : Option (Frame × List (Byte × Bool)) :=
  match c.frames with
  | f :: _ => f.units.head?.map fun u => (f, u)
  | [] => none

/-- The end of a stream stands at the front of the channel (R227). -/
def atEnd (c : Chan) : Bool := match c.frames with | f :: _ => f.ends | [] => false

/-- Detached receivers as they stand for the next unit: at FRAME_START those with nothing owed are attached again, but for those detached in this frame (R234). -/
def reattach (c : Chan) : Chan :=
  match nextUnit c with
  | some (f, _) => if f.first then
      { c with detached := (List.range 4).foldl (fun m r => if chOwed c r = 0 ∧ bit c.held r = false then m &&& ~~~(BitVec.ofNat 4 (2 ^ r)) else m) c.detached }
    else c
  | none => c

/-- Receivers that a frame's first unit waits for: detached before the frame, with hollow units owed, until the timer runs out (R234). -/
def owedRecvs (c : Chan) : List Nat :=
  match nextUnit c with
  | some (f, _) => if f.first then (List.range 4).filter fun r => bit c.detached r && chOwed c r != 0 && !bit c.held r else []
  | none => []

/-- Before a frame's first unit, detached receivers with hollow units owed are waited for (R234). -/
def waitsForOwed (c : Chan) : Bool := !(owedRecvs c).isEmpty

/-- The channel may send its next unit now: active, a unit ready, a credit from every attached window receiver (R225, R231). -/
def canSend (c : Chan) : Bool :=
  let c := reattach c
  c.state == 2 && (nextUnit c).isSome && !waitsForOwed c && (attached c).all fun r => chCredit c r != 0

/-- Send one unit to a receiver (R231, R233): an attached window takes it, a detached one is owed a hollow unit, the PHYS receiver's bytes are written by agent 1. -/
def chanCopy (ch : Nat) (f : Frame) (u : List (Byte × Bool)) (d : Dev) (r : Nat) : Dev :=
  let c := chan d ch
  let w := chRecv c r
  if isWinRecv c r then
    if bit c.detached r then setChan d ch (setOwed c r ((chOwed c r + 1) % 4096))
    else
      let no := sget (fun _ => 0) c.unitNo r
      let c := { setCredit c r (chCredit c r - 1) with unitNo := sset (fun _ => 0) c.unitNo r (no + 1) }
      let d := bump (setChan d ch c) (0x22C0 + ch / 64) 1 8 1
      deliverUnit d (rvNode w) (rvWindow w) (chanWriter ch) c.epoch no u false
  else if isPhysRecv c r then
    let a := match f.addrs with
      | a :: _ => a
      | [] => chPhysBase c + c.total % chPhysUnits c * 512
    physWriteMarked (bump d (0x22C0 + ch / 64) 1 8 1) agSe (srcSe (ch / 64)) (u.length / 64 + 2) a u
  else d

/-- The SEND of a frame is complete once its last unit has been read, an END_STREAM once the stream is over (R226, R227). -/
def sendDone (d : Dev) (s : Option OpRef) : Dev :=
  match s with
  | some k => match opAt (coreOf d k.core) k.wc k.ring k.pos with
    | some (i, _) => finishOp d k.core i id
    | none => d
  | none => d

/-- Send the next unit of channel ch to each of its receivers. -/
def sendUnit (d : Dev) (ch : Nat) : Dev :=
  let c := reattach (chan d ch)
  match c.frames with
  | f :: rest => match f.units with
    | u :: us =>
      let d := setChan d ch { c with frame := c.frame + (if f.first then 1 else 0) }
      let d := (List.range 4).foldl (chanCopy ch f u) d
      let f' := { f with units := us, addrs := f.addrs.drop 1, first := false }
      let fin := us.isEmpty && !f.more
      let c := chan d ch
      let d := setChan d ch { c with frames := if fin then rest else f' :: rest, sent := c.sent + 1, total := c.total + 1, held := if fin then 0#4 else c.held }
      if fin then sendDone d f.send else d
    | [] => d
  | [] => d

/-- Channel that engine e serves next: the lowest class, round-robin within it (R229). -/
def chosenChan (d : Dev) (e : Nat) : Option Nat :=
  let ready := ((List.range 64).map (64 * e + ·)).filter fun ch => canSend (chan d ch)
  let cls (ch : Nat) : Nat := wClass (wcOf d (chWc (chan d ch)))
  bestOf (fun ch => cls ch * 64 + (ch % 64 + 64 - (sget (fun _ => 63) d.se.rr (e * 4 + cls ch) + 1)) % 64) ready

/-- UNIT_SEND (R229): stream engine e sends one whole unit of the channel whose turn it is. -/
def unitSend (d : Dev) (e : Nat) : Dev :=
  match chosenChan d e with
  | some ch =>
    let cls := wClass (wcOf d (chWc (chan d ch)))
    let d := { d with se := { d.se with rr := sset (fun _ => 63) d.se.rr (e * 4 + cls) (ch % 64) } }
    sendUnit d ch
  | none => d

/-- Stall timeout in µs (Table 7.1). -/
def stallTimeout (d : Dev) (c : Chan) : Nat := if chStall c = 0 then setting d 0x22B0 1 else chStall c

/-- Detach one receiver and report it (R232). -/
def detach (ch : Nat) (d : Dev) (r : Nat) : Dev :=
  let c := chan d ch
  let d := setChan d ch { c with detached := c.detached ||| BitVec.ofNat 4 (2 ^ r), held := c.held ||| BitVec.ofNat 4 (2 ^ r) }
  let d := bump d (0x22C0 + ch / 64) 3 4 1
  postEventWc d 0x0701 0 (srcSe (ch / 64)) (chWc c) (ch + r * 4096 + c.frame.toNat * 2 ^ 32)

/-- STALL_TIMEOUT (R232, R234): the timer of a channel that waits has run out. -/
def stallTimeoutAt (d : Dev) (ch : Nat) : Dev :=
  let c := reattach (chan d ch)
  if c.state = 2 ∧ (nextUnit c).isSome = true then
    let lack := (attached c).filter fun r => chCredit c r == 0
    let holds := (attached c).filter fun r => chCredit c r != 0
    if lack.isEmpty && !waitsForOwed c then d
    else
      let held := (owedRecvs c).foldl (fun m r => m ||| BitVec.ofNat 4 (2 ^ r)) c.held
      let d := bump (setChan d ch { c with held := held }) (0x22C0 + ch / 64) 4 8 (1200 * stallTimeout d c)
      if holds.isEmpty then d else lack.foldl (detach ch) d
  else d

/-- HOLLOW_UNIT_SEND (R233): one owed hollow unit to receiver r, when it holds a credit. -/
def hollowSend (d : Dev) (ch r : Nat) : Dev :=
  let c := chan d ch
  if (c.state = 2 ∨ c.state = 3) ∧ isWinRecv c r = true ∧ chOwed c r ≠ 0 ∧ chCredit c r ≠ 0 then
    let w := chRecv c r
    let no := sget (fun _ => 0) c.unitNo r
    let c' := { setCredit (setOwed c r (chOwed c r - 1)) r (chCredit c r - 1) with unitNo := sset (fun _ => 0) c.unitNo r (no + 1) }
    let d := bump (setChan d ch c') (0x22C0 + ch / 64) 2 8 1
    deliverUnit d (rvNode w) (rvWindow w) (chanWriter ch) c.epoch no [] true
  else d

/-- A STREAM_END granule reaches window i of a node: the declared count is kept and a closing window may close (R151, R227). -/
def streamEndAt (d : Dev) (node i : Nat) (writer : BitVec 16) (epoch : BitVec 8) (sent : Nat) : Dev :=
  let w := winAt d node i
  if node < 16 && (coreOf d node).disabled then bump d (0x2300 + node) 6 8 1
  else if w.state = 3 ∨ ((w.state = 1 ∨ w.state = 2) ∧ w.epoch ≠ epoch) then discardGranule d node true (if node < 16 then coreAddr node w.wm (w.base * 512) else w.base * 512) writer
  else if (w.state = 1 ∨ w.state = 2) ∧ w.writer = writer then setWinAt d node i (closeIfDone { w with declared := some sent })
  else discardGranule d node false (if node < 16 then coreAddr node w.wm (w.base * 512) else w.base * 512) writer

/-- The stream has ended at every window receiver: its END_STREAM is complete and the channel returns to idle (R227); it leaves idle at once when a SEND or END_STREAM of the next stream waits behind (R225). -/
def streamOver (d : Dev) (ch : Nat) : Dev :=
  let c := chan d ch
  if ((winRecvs c).all fun r => bit c.ended r) = true then
    match c.frames with
    | f :: rest =>
      let idle := { c with state := 0, frames := rest }
      sendDone (setChan d ch (if rest.isEmpty then idle else leaveIdle idle)) f.send
    | [] => d
  else d

/-- STREAM_END_SEND (R227): after every earlier frame and every hollow unit owed, the channel sends STREAM_END to receiver r; the credits it held for the window that ends are of no more use. -/
def streamEndSend (d : Dev) (ch r : Nat) : Dev :=
  let c := chan d ch
  if (c.state = 2 ∨ c.state = 3) ∧ atEnd c = true then
    let d := setChan d ch { c with state := 3 }
    if isWinRecv c r = true ∧ bit c.ended r = false ∧ chOwed c r = 0 then
      let w := chRecv c r
      let d := setChan d ch { setCredit (chan d ch) r 0 with ended := c.ended ||| BitVec.ofNat 4 (2 ^ r) }
      streamOver (streamEndAt d (rvNode w) (rvWindow w) (chanWriter ch) c.epoch c.sent.toNat) ch
    else streamOver d ch
  else d

/-- CHANNEL_CANCEL_DONE (R258): every granule the channel sent has been acknowledged. -/
def chanCancelDone (d : Dev) (ch : Nat) : Dev :=
  let c := chan d ch
  if c.state = 4 then setChan d ch { c with state := 0, frames := [], owed := [] } else d

/-- Cores in the rotation after the one granted last (R244). -/
def turnOrder (last : Nat) : List Nat := (List.range 16).map fun k => (last + 1 + k) % 16

/-- LOAD_TURN_GRANT (R243, R244): the CP grants a turn of work context w to the requesting core next in the rotation, while fewer than LOAD_WIDTH hold one. -/
def loadTurnGrant (d : Dev) (w : Nat) : Dev :=
  let c := wcOf d w
  if wLoadWidth c ≠ 0 ∧ (coresIn c.turns).length < wLoadWidth c then
    match (turnOrder c.lastTurn).find? fun n => bit c.asks n with
    | some n => updWc d w fun c => { c with turns := c.turns ||| BitVec.ofNat 16 (2 ^ n), asks := c.asks &&& ~~~(BitVec.ofNat 16 (2 ^ n)), lastTurn := n }
    | none => d
  else d

/-- CHANNEL_DESCRIPTOR_WRITE (R224); `whole` says that it is an aligned 8 B write. -/
def execChannelDescriptorWrite (ch : BitVec 9) (k : Fin 8) (v : W64) (whole : Bool) (s : State) : Host.Outcome State Fault Refusal :=
  nextDev s fun d => chanDescWrite d ch.toNat k v whole
/-- CHANNEL_ACTIVE (R225). -/
def execChannelActive (ch : BitVec 9) (s : State) : Host.Outcome State Fault Refusal := nextDev s fun d => chanActive d ch.toNat
/-- UNIT_SEND (R229). -/
def execUnitSend (e : Fin 8) (s : State) : Host.Outcome State Fault Refusal := nextDev s fun d => unitSend d e
/-- STALL_TIMEOUT (R232). -/
def execStallTimeout (ch : BitVec 9) (s : State) : Host.Outcome State Fault Refusal := nextDev s fun d => stallTimeoutAt d ch.toNat
/-- HOLLOW_UNIT_SEND (R233). -/
def execHollowUnitSend (ch : BitVec 9) (r : Fin 4) (s : State) : Host.Outcome State Fault Refusal := nextDev s fun d => hollowSend d ch.toNat r
/-- STREAM_END_SEND (R227). -/
def execStreamEndSend (ch : BitVec 9) (r : Fin 4) (s : State) : Host.Outcome State Fault Refusal := nextDev s fun d => streamEndSend d ch.toNat r
/-- CHANNEL_CANCEL_DONE (R258). -/
def execChannelCancelDone (ch : BitVec 9) (s : State) : Host.Outcome State Fault Refusal := nextDev s fun d => chanCancelDone d ch.toNat
/-- LOAD_TURN_GRANT (R244). -/
def execLoadTurnGrant (w : BitVec 12) (s : State) : Host.Outcome State Fault Refusal := nextDev s fun d => loadTurnGrant d w.toNat

end Sys2Proof.Machine
end

