-- ==== Sys2Proof/Machine/Latch.lean ====
section
/-! DEFINITION. What a frame's opening decides: image-context settings, the line-memory pool, shadow and latched sets, crops and statistics grids (chapters 10 to 12). -/

namespace Sys2Proof.Machine

open Sys2Proof

/-! ### The line-memory pool (R375) -/

/-- Blocks that one line takes. -/
def lineBlocks (d : Dev) (n : Nat) : Nat := ceilDiv (2 * icWidth d n) 512
/-- Blocks of an image context's lines and latched sets now held. -/
def heldBlocks (d : Dev) (n : Nat) : Nat :=
  let c := ic d n
  18 * c.latched.length + (c.frames.map fun f => f.lm.length).sum * lineBlocks d n
/-- Blocks of its back-end window while that is open (R380). -/
def beBlocks (d : Dev) (n : Nat) : Nat := let w := (ic d n).beWin; if w.state = 0 ∨ w.state = 3 then 0 else w.size + 1
/-- Blocks an image context reserves for its lines and one latched set, and for its back-end window. -/
def lineReserve (d : Dev) (n : Nat) : Nat := if fnLive d (icFn n) then 18 + setting d (icX n) 3 * lineBlocks d n else 0
def beReserve (d : Dev) (n : Nat) : Nat := if fnLive d (icFn n) && icMode d n == 1 then setting d (icX n) 4 * uBe d n else 0
/-- Blocks in use, the shadow sets' 288 included (R253, R375). -/
def usedBlocks (d : Dev) : Nat := 288 + ((List.range 16).map fun n => heldBlocks d n + beBlocks d n).sum
/-- The pool can grant image context n another k blocks: from its reserve first, then from the blocks no reserve holds. -/
def canGrant (d : Dev) (n k : Nat) : Bool :=
  decide (((List.range 16).map fun m => max (lineReserve d m) (heldBlocks d m + if m = n then k else 0) + beReserve d m).sum ≤ 3808)
/-- Report LM_BLOCKS and its peak (Table 11.10). -/
def noteBlocks (d : Dev) (n : Nat) : Dev :=
  let b := heldBlocks d n + beBlocks d n
  setCnt (setCnt d (icX n + 0x20) 8 b) (icX n + 0x20) 9 (max (cnt d (icX n + 0x20) 9) b)

/-! ### Shadow and latched sets (R367 to R369, Tables 11.2 and 12.1) -/

/-- A 16-bit value at offset `o` seen at byte offset `off`. -/
def halfAt (v o off : Nat) : Byte := BitVec.ofNat 8 (if (off - o) % 2 = 0 then v else v / 256)

/-- Reset value of byte `off` of a shadow set. -/
def shadowReset (off : Nat) : Byte :=
  if 0x008 ≤ off && off < 0x010 then halfAt 0x1000 0x008 off
  else if off = 0x012 then 0x0F#8
  else if off = 0x021 || off = 0x029 || off = 0x031 then 0x10#8
  else if 0x058 ≤ off && off < 0x064 then BitVec.ofNat 8 (0x437F0000 / 256 ^ ((off - 0x058) % 4))
  else if off = 0x080 then 0x03#8
  else if off = 0x082 then 16#8
  else if off = 0x083 then 12#8
  else if off = 0x08D then 0xFF#8
  else if off = 0x08E then 1#8
  else if 0x100 ≤ off && off < 0x302 then halfAt (min (256 * ((off - 0x100) / 2)) 65535) 0x100 off
  else if 0x400 ≤ off && off < 0xAE8 then halfAt 0x1000 0x400 off
  else if 0xC00 ≤ off && off < 0x2400 then halfAt ((((off - 0xC00) / 2 % 1024) * 131070 + 1023) / 2046) 0xC00 off
  else 0#8

/-- Bytes of a shadow set that a write reaches: all but those its table marks read-only. -/
def shadowWritable (off : Nat) : Bool :=
  decide (off < 0x2400) && !(decide (0x014 ≤ off) && decide (off < 0x020)) && !(decide (0x038 ≤ off) && decide (off < 0x040))
    && !(decide (0x073 ≤ off) && decide (off < 0x080)) && !(decide (0x08F ≤ off) && decide (off < 0x100)) && !(decide (0x302 ≤ off) && decide (off < 0x400)) && !(decide (0xAE8 ≤ off) && decide (off < 0xC00))

/-- Bits of byte `off` of a shadow set that a write changes: a reserved bit reads as zero (R8, Tables 11.2 and 12.1). -/
def shadowMask (off : Nat) : Byte :=
  if shadowWritable off = false ∨ off = 0x013 ∨ off = 0x081 then 0#8
  else if off = 0x012 then 0x0F#8
  else if off = 0x080 then 0x03#8
  else 0xFF#8

/-- Write bytes into a shadow set. -/
def shadowPut (t : Sparse Byte) (off : Nat) : List Byte → Sparse Byte
  | [] => t
  | b :: bs => shadowPut (if shadowWritable off then sset shadowReset t off (b &&& shadowMask off) else t) (off + 1) bs

/-- The settings a frame uses: byte by offset of its latched set; a frame under HOLD before any latch has none (log 32). -/
def setOf (c : Ic) (n : Nat) (no : Option Nat) (off : Nat) : Byte :=
  match no.bind fun k => c.latched.find? fun l => l.frame == k with
  | some l => sget shadowReset l.bytes off
  | none => Config.unlatched n off

/-- Settings of 1, 2 and 4 bytes. -/
def get8 (g : Nat → Byte) (o : Nat) : Nat := (g o).toNat
def get16 (g : Nat → Byte) (o : Nat) : Nat := get8 g o + 256 * get8 g (o + 1)
def get32 (g : Nat → Byte) (o : Nat) : Nat := get16 g o + 65536 * get16 g (o + 2)

/-! ### Crops and grids (R386, R387, R399, R400) -/

/-- Offset of a formatter's crop in the set. -/
def cropOff (f : Nat) : Nat := 0x040 + 8 * f
/-- Target extent of a formatter (R386). -/
def fmtTarget (d : Dev) (n f : Nat) : Nat × Nat := if f = 2 then (fmtSet d n f 0x0D, fmtSet d n f 0x0E) else (fmtSet d n f 3, fmtSet d n f 4)
/-- A step of w source pixels to t target pixels lies from 0.5 to 8 (R387). -/
def stepOk (w t : Nat) : Bool := decide (t ≤ 2 * w) && decide (w ≤ 8 * t)

/-- The whole frame as a crop. -/
def wholeFrame (d : Dev) (n : Nat) : Crop := { w := icWidth d n, h := icHeight d n }

/-- Crop that settings ask for, and whether it is valid. -/
def cropAsked (d : Dev) (n f : Nat) (g : Nat → Byte) : Crop × Bool :=
  let o := cropOff f
  let c : Crop := { x := get16 g o, y := get16 g (o + 2), w := get16 g (o + 4), h := get16 g (o + 6) }
  let e := if c.w = 0 then wholeFrame d n else c
  let t := fmtTarget d n f
  let even := c.x % 2 == 0 && c.y % 2 == 0 && c.w % 2 == 0 && c.h % 2 == 0
  (e, even && decide (e.x + e.w ≤ icWidth d n) && decide (e.y + e.h ≤ icHeight d n) && stepOk e.w t.1 && stepOk e.h t.2)

/-- The automatic grid of cols × rows zones (R399). -/
def autoGrid (d : Dev) (n cols rows : Nat) : Grid :=
  let w := 2 * (icWidth d n / (2 * cols))
  let h := 2 * (icHeight d n / (2 * rows))
  { cols := cols, rows := rows, w := w, h := h, x0 := 2 * ((icWidth d n - cols * w) / 4), y0 := 2 * ((icHeight d n - rows * h) / 4) }

/-- Grid that settings ask for, and whether it is valid. -/
def gridAsked (d : Dev) (n : Nat) (g : Nat → Byte) : Grid × Bool :=
  let cols := get8 g 0x082
  let rows := get8 g 0x083
  let q : Grid := if get16 g 0x088 = 0 then autoGrid d n cols rows
    else { cols := cols, rows := rows, x0 := get16 g 0x084, y0 := get16 g 0x086, w := get16 g 0x088, h := get16 g 0x08A }
  (q, decide (1 ≤ cols) && decide (cols ≤ 64) && decide (1 ≤ rows) && decide (rows ≤ 48)
    && q.x0 % 2 == 0 && q.y0 % 2 == 0 && q.w % 2 == 0 && q.h % 2 == 0 && decide (2 ≤ q.w) && decide (2 ≤ q.h)
    && decide (q.x0 + cols * q.w ≤ icWidth d n) && decide (q.y0 + rows * q.h ≤ icHeight d n))

/-- Latch keys of events posted once per image context per breath. -/
def onceCrop (n : Nat) : Nat := 240 + n
def onceGrid (n : Nat) : Nat := 260 + n
def onceNeural (n : Nat) : Nat := 280 + n
/-- Latch key of a camera port's frame anomaly (R346). -/
def onceAnomaly (p : Nat) : Nat := 300 + p

/-- Refuse formatter f's crop for frame `no`: counted, and event 0x0B02 (R387). -/
def refuseCrop (d : Dev) (n no f : Nat) : Dev :=
  postOnce (bump d (icX n + 4 + f) 0x22 4 1) (onceCrop n) 0x0B02 0 srcIpl (no % 2 ^ 32 + n * 2 ^ 32 + f * 2 ^ 40)

/-- Refuse the grid for frame `no`: counted, and event 0x0C03 (R400). -/
def refuseGrid (d : Dev) (n no : Nat) : Dev :=
  postOnce (bump d (0x4800 + n) 7 4 1) (onceGrid n) 0x0C03 0 srcStats (no % 2 ^ 32 + n * 2 ^ 32)

/-- The latched set that frame `no` forms from the shadow set, with its crops and grid judged (R368, R387, R400). -/
def makeLatched (d : Dev) (n no : Nat) : Latched :=
  let c := ic d n
  let g := fun o => sget shadowReset c.shadow o
  let prev := c.latched.getLast?
  let asked := (List.range 3).map fun f => cropAsked d n f g
  let old (f : Nat) : Crop := (prev.bind fun l => l.crops[f]?).getD (wholeFrame d n)
  let q := gridAsked d n g
  { frame := no, bytes := c.shadow
    crops := (withPos asked).map fun a => if a.2.2 then a.2.1 else old a.1
    cropRefused := (withPos asked).map fun a => fmtOn d n a.1 && !a.2.2
    grid := if q.2 then q.1 else (prev.map (·.grid)).getD (autoGrid d n 16 12)
    gridRefused := !q.2 }

/-- Latch a new set for frame `no`, and begin the copy (R368). -/
def latchSet (d : Dev) (n no : Nat) : Dev :=
  let l := makeLatched d n no
  let d := updIc d n fun c => { c with latched := c.latched ++ [l], latchFrame := BitVec.ofNat 32 no, copying := true }
  let d := bump d (icX n + 0x20) 7 4 1
  let d := ((withPos l.cropRefused).filter (·.2)).foldl (fun d f => refuseCrop d n no f.1) d
  let d := if l.gridRefused then refuseGrid d n no else d
  noteBlocks d n

/-- Latched set of a frame. -/
def latchedOf (c : Ic) (f : IcFrame) : Option Latched := f.latch.bind fun k => c.latched.find? fun l => l.frame == k

/-- Free latched sets that no unfinished frame uses once a later frame has latched one (R369). -/
def freeLatched (d : Dev) (n : Nat) : Dev :=
  noteBlocks (updIc d n fun c =>
    let last := (c.latched.getLast?).map (·.frame)
    { c with latched := c.latched.filter fun l => some l.frame == last || c.frames.any fun f => f.latch == some l.frame }) n

/-! ### Frames -/

/-- Change frame `no` of image context n. -/
def updFrame (d : Dev) (n no : Nat) (g : IcFrame → IcFrame) : Dev :=
  updIc d n fun c => { c with frames := c.frames.map fun f => if f.no = no then g f else f }
/-- Frame `no` of image context n. -/
def frameOf (d : Dev) (n no : Nat) : Option IcFrame := (ic d n).frames.find? fun f => f.no == no
/-- The open frame of image context n. -/
def openFrame (d : Dev) (n : Nat) : Option IcFrame := (ic d n).frames.find? fun f => f.opened

/-- Forget frames of which nothing is left to do, and free their latched sets (R369). -/
def tidyFrames (d : Dev) (n : Nat) : Dev :=
  freeLatched (updIc d n fun c => { c with frames := c.frames.filter fun f => f.opened || !f.finished || f.statA || f.statB || f.embStamp }) n

/-- The frame stamp of Table 10.3. -/
def stampOf (p n : Nat) (f : IcFrame) : Nat :=
  pack [(224, 32, f.no), (192, 32, f.breath), (160, 32, f.offset), (144, 16, f.csi), (128, 16, f.lines), (112, 16, f.bad), (96, 16, f.extra),
    (89, 1, b2n f.gap), (88, 1, b2n (f.bad != 0)), (87, 1, b2n f.noFe), (86, 1, b2n f.incomplete), (85, 1, b2n f.long), (84, 1, b2n f.short),
    (80, 4, n), (78, 2, p), (32, 32, f.duration)]
/-- The stamp's 32 bytes. -/
def stampBytes (p n : Nat) (f : IcFrame) : List Byte := leBytes 32 (stampOf p n f)

/-- Add 1 to a signal counter that a device unit posts, while its work context is not Disabled (R346, R391, R405). -/
def postSignal (d : Dev) (w i : Nat) : Dev := if (wcOf d w).state = 0#4 then d else addSignal d w i 1#32
/-- Post the signal that a SIGNAL entry names: [31] enable, [27:16] work context, [5:0] signal. -/
def entrySignal (d : Dev) (v : Nat) : Dev := if v / 2 ^ 31 % 2 = 1 then postSignal d (v / 65536 % 4096) (v % 64) else d

end Sys2Proof.Machine
end

