-- ==== Sys2Proof/Machine/Audio.lean ====
section
/-! DEFINITION. The audio front end: microphone and TDM samples, audio blocks and rings, playback (chapter 13). -/

namespace Sys2Proof.Machine

open Sys2Proof

/-- Audio group g, and its change. -/
def agrp (d : Dev) (g : Nat) : AudioGroup := sget (fun _ => {}) d.afe.groups g
def updGrp (d : Dev) (g : Nat) (f : AudioGroup → AudioGroup) : Dev :=
  { d with afe := { d.afe with groups := supd (fun _ => {}) d.afe.groups g f } }
/-- TDM port t, and its change. -/
def tdmOf (d : Dev) (t : Nat) : Tdm := sget (fun _ => {}) d.afe.tdm t
def updTdm (d : Dev) (t : Nat) (f : Tdm → Tdm) : Dev := { d with afe := { d.afe with tdm := supd (fun _ => {}) d.afe.tdm t f } }

/-- Function of audio group g (Table 9.3). -/
def grpFn (g : Nat) : Nat := 0x15 + g
/-- A setting of audio group g, and of TDM port t (Table 13.12). -/
def grpSet (d : Dev) (g sub : Nat) : Nat := setting d (0x5010 + g) sub
def tdmSet (d : Dev) (t sub : Nat) : Nat := setting d (0x5001 + t) sub
/-- Numbers below n whose bit is set in v, ascending. -/
def setBits (n v : Nat) : List Nat := (List.range n).filter fun i => v.testBit i
/-- A group's microphones, and its slots of TDM port t (R423). -/
def grpMics (d : Dev) (g : Nat) : List Nat := setBits 32 (grpSet d g 1)
def grpSlots (d : Dev) (g t : Nat) : List Nat := setBits 16 (grpSet d g (2 + t))
/-- Channel count C. -/
def grpChans (d : Dev) (g : Nat) : Nat := (grpMics d g).length + (grpSlots d g 0).length + (grpSlots d g 1).length
/-- Bytes of a sample: 4 for S32, 2 for S16 (R423). -/
def sampleSize (fmt : Nat) : Nat := if fmt = 0 then 4 else 2
/-- Frames or samples per second of a RATE entry. -/
def rateHz (r : Nat) : Nat := if r = 0 then 48000 else 16000
/-- Group delay of the decimators in ns (Table 13.2). -/
def groupDelay (r : Nat) : Nat := if r = 0 then 375000 else 1125000
/-- The AFE takes a group's samples. -/
def grpLive (d : Dev) (g : Nat) : Bool := actual d (grpFn g) == 2 || actual d (grpFn g) == 3

/-! ### Samples (R419 to R421) -/

/-- Add a row of channel values to a block, at its instant after the block's boundary. -/
def AudioBlock.put (b : AudioBlock) (src : Nat) (at' : Nat) (row : List (BitVec 24)) : AudioBlock :=
  let b := { b with offset := some (match b.offset with | some o => min o at' | none => at') }
  if src = 0 then { b with pdm := b.pdm ++ [row] } else if src = 1 then { b with tdm0 := b.tdm0 ++ [row] } else { b with tdm1 := b.tdm1 ++ [row] }

/-- A row of source `src` whose instant is `t` ns after the present boundary goes into the block of its breath, while that block is not written (R424). -/
def groupTake (d : Dev) (g src : Nat) (t : Int) (row : List (BitVec 24)) : Dev :=
  if row.isEmpty then d
  else if 0 ≤ t then updGrp d g fun x => { x with cur := x.cur.map fun b => b.put src t.toNat row }
  else
    let past := d.breath.number - 1
    updGrp d g fun x => { x with closed := x.closed.map fun b => if b.breath = past then b.put src (t + d.breath.prevLen).toNat row else b }

/-- A microphone's sample after the high-pass filter of its group, when HPF_ENABLE is set (R420). -/
def micSample (d : Dev) (hp : Bool) (m : Nat) (x : BitVec 24) : Dev × BitVec 24 :=
  if hp then
    let z := sget (fun _ => (0#24, 0#24)) d.afe.hpf m
    let y := Config.highPass z.1 z.2 x
    ({ d with afe := { d.afe with hpf := sset (fun _ => (0#24, 0#24)) d.afe.hpf m (x, y) } }, y)
  else (d, x)

/-- The samples of several microphones, in order. -/
def micSamples (d : Dev) (hp : Bool) (v : List (BitVec 24)) : List Nat → Dev × List (BitVec 24)
  | [] => (d, [])
  | m :: ms =>
    let a := micSample d hp m (v.getD m 0#24)
    let r := micSamples a.1 hp v ms
    (r.1, a.2 :: r.2)

/-- One group takes a decimator output of its rate (R420). -/
def groupPdm (rate : Nat) (v : List (BitVec 24)) (d : Dev) (g : Nat) : Dev :=
  if grpLive d g && grpSet d g 4 == rate then
    let r := micSamples d (grpSet d g 6 == 1) v (grpMics d g)
    groupTake r.1 g 0 ((d.breath.ns : Int) - groupDelay rate) r.2
  else d

/-- PDM_SAMPLE (R420, R421): the decimators' outputs `v` of a rate, by microphone; their instant is the group delay before now. -/
def pdmSample (d : Dev) (rate : Nat) (v : List (BitVec 24)) : Dev := (List.range 8).foldl (groupPdm rate v) d

/-- The 24-bit sample of a TDM slot, MSB first; `w` is the slot as received, its first bit in bit 31 (R419). -/
def slotSample (bits : Nat) (w : W32) : BitVec 24 :=
  BitVec.ofNat 24 (if bits = 16 then w.toNat / 65536 * 256 else w.toNat / 256)

/-- TDM port t carries a Running group's channels, or plays. -/
def tdmUsed (d : Dev) (t : Nat) : Bool :=
  (List.range 8).any fun g => grpLive d g && !(grpSlots d g t).isEmpty

/-- One group takes a TDM frame (R421). -/
def groupTdm (t : Nat) (v : List W32) (d : Dev) (g : Nat) : Dev :=
  if grpLive d g then
    groupTake d g (1 + t) d.breath.ns ((grpSlots d g t).map fun k => slotSample (tdmSet d t 3) (v.getD k 0#32))
  else d

/-- TDM_FRAME_SYNC (R421, R428): a frame of port t begins now; its slots `v` arrive, and the next playback samples are sent. -/
def tdmFrame (d : Dev) (t : Nat) (v : List W32) : Dev :=
  if tdmUsed d t || tdmSet d t 7 == 1 then
    let d := updTdm d t fun x => { x with
      edges := x.edges + 1, first := if x.edges = 0 then d.breath.ns else x.first, latest := d.breath.ns
      out := if tdmSet d t 7 = 1 then x.play.headD (List.replicate (tdmSet d t 2) 0#24) else x.out
      play := x.play.drop 1 }
    (List.range 8).foldl (groupTdm t v) d
  else d

/-! ### Blocks (R422, R424 to R427) -/

/-- Deviation of a port's frame rate over the breath in ppm, from its first and last edges; without two edges there is no rate: -10^6 (R422). -/
def ratePpm (d : Dev) (t : Nat) : Int :=
  let x := tdmOf d t
  if x.edges < 2 ∨ x.latest = x.first then -1000000
  else (roundDiv ((x.edges - 1) * 10 ^ 15) ((x.latest - x.first) * rateHz (tdmSet d t 6)) : Int) - 1000000

/-- At a breath's end a target-role port off by more than 1,000 ppm slips (R422). -/
def tdmSlip (d : Dev) (t : Nat) : Dev :=
  if tdmSet d t 1 = 1 ∧ tdmUsed d t = true then
    let ppm := ratePpm d t
    let d := setCnt d (0x5001 + t) 0x0C (lowBits 32 ppm)
    if 1000 < ppm.natAbs then
      let d := ((List.range 8).filter fun g => !(grpSlots d g t).isEmpty && (agrp d g).cur.isSome).foldl (fun d g =>
        bump (updGrp d g fun x => { x with cur := x.cur.map fun b => { b with slip := true } }) (0x5010 + g) 0x13 4 1) d
      postEvent d 0x0D02 0 srcAfe (t + lowBits 32 ppm * 2 ^ 32)
    else d
  else d

/-- A boundary closes the block of each group, and opens the next; `b` is the breath that begins (R424, R425). -/
def groupBoundary (b : Nat) (d : Dev) (g : Nat) : Dev :=
  let a := actual d (grpFn g)
  if a = 1 then
    setCnt (updGrp (goRunning d (grpFn g)) g fun _ => { cur := some { breath := b } }) 0x5000 1 1
  else if a = 2 then
    updGrp d g fun x => match x.cur with
      | some c => { x with closed := x.closed ++ [c], cur := some { k := c.k + 1, breath := b } }
      | none => x
  else if a = 3 then
    updGrp d g fun x => match x.cur with
      | some c => { x with closed := x.closed ++ [{ c with last := true }], cur := none }
      | none => x
  else d

/-- Decode the samples of a playback slot: rows of `n` channels of `b` bytes. -/
def playRows (b n : Nat) : Nat → List Byte → List (List (BitVec 24))
  | 0, _ => []
  | k + 1, bs => ((List.range n).map fun c => BitVec.ofNat 24 (leNat ((bs.drop (c * b)).take b) * (if b = 2 then 256 else 1) / (if b = 4 then 256 else 1)))
      :: playRows b n k (bs.drop (n * b))

/-- Sample format of a port's slots: S16 for 16-bit slots, else S32. -/
def portFormat (d : Dev) (t : Nat) : Nat := b2n (tdmSet d t 3 == 16)

/-- At the boundary of breath b a port with TX_ENABLE reads its playback slot (R428). -/
def tdmPlay (b : Nat) (d : Dev) (t : Nat) : Dev :=
  if tdmSet d t 7 = 1 then
    let n := tdmSet d t 2
    let f := portFormat d t
    let a := tdmSet d t 8 + b % max 1 (tdmSet d t 9) * tdmSet d t 0x0A
    let r := memRead d (some agAfe) srcAfe a 64
    let h := leNat r.2.1
    let ok := !r.2.2 && h / 2 ^ 96 % 2 ^ 32 == b % 2 ^ 32 && h / 2 ^ 202 % 64 + 1 == n && h / 2 ^ 200 % 2 == tdmSet d t 6 && h / 2 ^ 201 % 2 == f
    if ok then
      let len := min (h / 2 ^ 208 % 65536 * n * sampleSize f) (tdmSet d t 0x0A - 64)
      let q := memRead r.1 (some agAfe) srcAfe (a + 64) len
      updTdm q.1 t fun x => { x with play := playRows (sampleSize f) n (len / (n * sampleSize f)) q.2.1 }
    else updTdm (bump r.1 (0x5001 + t) 0x0B 4 1) t fun x => { x with play := [] }
  else d

/-- What the AFE does at the boundary at which breath b begins. -/
def audioBoundary (d : Dev) (b : Nat) : Dev :=
  let d := [0, 1].foldl tdmSlip d
  let d := (List.range 8).foldl (groupBoundary b) d
  let d := [0, 1].foldl (fun d t => updTdm d t fun x => { x with edges := 0, first := 0, latest := 0 }) d
  [0, 1].foldl (tdmPlay b) d

/-- The 24-bit value as an integer. -/
def sampleInt (x : BitVec 24) : Int := sext 24 x.toNat
/-- Bytes of a sample in a format (R426). -/
def sampleBytes (fmt : Nat) (x : BitVec 24) : List Byte :=
  if fmt = 0 then leBytes 4 (x.toNat * 256)
  else leBytes 2 (lowBits 16 (min 32767 (roundAway (sampleInt x) (-8) 0)))
/-- A sample at either 24-bit limit. -/
def clippedSample (x : BitVec 24) : Bool := x == 0x7FFFFF#24 || x == 0x800000#24

/-- Rows of a block: sample i of every channel, for the samples that every source of the group has. -/
def blockRows (d : Dev) (g : Nat) (b : AudioBlock) : List (List (BitVec 24)) :=
  let srcs := (if (grpMics d g).isEmpty then [] else [b.pdm]) ++ (if (grpSlots d g 0).isEmpty then [] else [b.tdm0])
    ++ (if (grpSlots d g 1).isEmpty then [] else [b.tdm1])
  match srcs with
  | [] => []
  | s :: t => t.foldl (fun a r => (a.zip r).map fun p => p.1 ++ p.2) s

/-- Header of a block of `n` samples per channel (Table 13.3). -/
def audioHeader (d : Dev) (g : Nat) (b : AudioBlock) (n clipped : Nat) (dropped : Bool) : List Byte :=
  leBytes 64 (pack [(256, 32, clipped), (224, 32, b.offset.getD 0), (208, 16, n), (202, 6, grpChans d g - 1), (201, 1, grpSet d g 5), (200, 1, grpSet d g 4),
    (195, 1, b2n b.last), (194, 1, b2n b.slip), (193, 1, b2n dropped), (96, 32, b.breath), (0, 64, b.k)])

/-- Latch key of group g's overrun event. -/
def onceAudio (g : Nat) : Nat := 350 + g

/-- AUDIO_BLOCK_WRITE (R426, R427): the oldest closed block of group g is written: samples, header, signal. The staging has dropped the `lost` samples per channel from `first` on. -/
def audioWrite (d : Dev) (g first lost : Nat) : Dev :=
  match (agrp d g).closed with
  | [] => d
  | b :: rest =>
    let d := updGrp d g fun x => { x with closed := rest, lastDone := x.lastDone || b.last }
    let rows := blockRows d g b
    let c := grpChans d g
    let fmt := grpSet d g 5
    let sz := sampleSize fmt
    let a := grpSet d g 7 + b.k % max 1 (grpSet d g 8) * grpSet d g 9
    let cap := (grpSet d g 9 - 64) / sz
    let kept := min (rows.length * c) cap
    let lost := min lost (rows.length - first)
    let bytes := (rows.flatMap fun r => r.flatMap (sampleBytes fmt)).take (kept * sz)
    let d := memWrite d (some agAfe) srcAfe (a + 64) (bytes.take (first * c * sz)) false
    let skip := if lost = 0 then first else first + lost
    let d := memWrite d (some agAfe) srcAfe (a + 64 + skip * c * sz) (bytes.drop (skip * c * sz)) false
    let gone := rows.length * c - kept + min (lost * c) (kept - first * c)
    let clipped := (rows.flatMap id).countP clippedSample
    let d := memWrite d (some agAfe) srcAfe a (audioHeader d g b (kept / max 1 c) clipped (decide (gone ≠ 0))) false
    let d := bump (bump (bump d (0x5010 + g) 0x10 8 1) (0x5010 + g) 0x11 8 gone) (0x5010 + g) 0x12 8 clipped
    let d := if lost = 0 then d else postOnce d (onceAudio g) 0x0D01 0 srcAfe (g + b.k % 2 ^ 32 * 2 ^ 32)
    entrySignal d (grpSet d g 0x0A)

/-! ### Start validation (R423) -/

/-- Whether another Starting or Running group uses microphone m, or slot k of port t. -/
def micTaken (d : Dev) (g m : Nat) : Bool := (List.range 8).any fun h => h != g && fnUp d (grpFn h) && (grpMics d h).contains m
def slotTaken (d : Dev) (g t k : Nat) : Bool := (List.range 8).any fun h => h != g && fnUp d (grpFn h) && (grpSlots d h t).contains k
/-- Least SLOT_BYTES of a group for the period in force (R423). -/
def leastSlotBytes (d : Dev) (g : Nat) : Nat :=
  64 + grpChans d g * sampleSize (grpSet d g 5) * (ceilDiv (rateHz (grpSet d g 4) * d.breath.den) (max 1 d.breath.num) + 16)
/-- Whether entry 0x5010 + g.sub of a group is inconsistent with others (R423). -/
def groupBad (d : Dev) (g sub : Nat) : Bool :=
  let slots (t : Nat) := grpSlots d g t
  let bad (t : Nat) : Bool := (slots t).any (fun k => slotTaken d g t k || decide (tdmSet d t 2 ≤ k))
    || (!(slots t).isEmpty && tdmSet d t 1 == 1 && (!(grpMics d g).isEmpty || !(slots (1 - t)).isEmpty))
  if sub = 1 then grpChans d g == 0 || (grpMics d g).any (micTaken d g)
  else if sub = 2 then bad 0
  else if sub = 3 then bad 1
  else if sub = 4 then [0, 1].any fun t => !(slots t).isEmpty && tdmSet d t 6 != grpSet d g 4
  else if sub = 7 then grpSet d g 7 % 4096 != 0
  else if sub = 9 then decide (grpSet d g 9 < leastSlotBytes d g) || grpSet d g 9 % 4096 != 0
  else false

/-- PDM_SAMPLE (R420): `slow` for the 16 kHz outputs; the outputs by microphone. -/
def execPdmSample (slow : Bool) (v : List (BitVec 24)) (s : State) : Host.Outcome State Fault Refusal :=
  nextDev s fun d => pdmSample d (b2n slow) v
/-- TDM_FRAME_SYNC (R421): the slots of the frame, as received. -/
def execTdmFrameSync (t : Fin 2) (v : List W32) (s : State) : Host.Outcome State Fault Refusal := nextDev s fun d => tdmFrame d t v
/-- AUDIO_BLOCK_WRITE (R427): samples per channel dropped in the staging, from `first` on. -/
def execAudioBlockWrite (g : Fin 8) (first lost : BitVec 16) (s : State) : Host.Outcome State Fault Refusal :=
  nextDev s fun d => audioWrite d g first.toNat lost.toNat

end Sys2Proof.Machine
end

