-- ==== Sys2Proof/Machine/Transport.lean ====
section
/-! DEFINITION. The management controller's CAN FD transport: frames, the receive FIFO and the transmit queue (chapter 9). -/

namespace Sys2Proof.Machine

open Sys2Proof

/-- Change the management controller's part. -/
def updMgc (d : Dev) (f : Mgc → Mgc) : Dev := { d with mgc := f d.mgc }

/-- The active node ID (R317). -/
def nodeId (d : Dev) : Nat := cnt d 0x1300 3
/-- NODE_ID when it is not 0, else the straps (R317). -/
def nodeChosen (d : Dev) : Nat := if setting d 0x1300 1 = 0 then cnt d 0x1300 2 else setting d 0x1300 1
/-- The CAN FD controller is bus-off (R440). -/
def busOff (d : Dev) : Bool := cnt d 0x5B00 7 == 2

/-- The next valid CAN FD data length (R316). -/
def dlcLen (n : Nat) : Nat := ([0, 1, 2, 3, 4, 5, 6, 7, 8, 12, 16, 20, 24, 32, 48].find? fun k => n ≤ k).getD 64
/-- Pad a payload with 0x00 to a valid length (R316). -/
def padDlc (bs : List Byte) : List Byte := bs ++ List.replicate (dlcLen bs.length - bs.length) 0#8

/-- Queue a frame of the MGC: kind, base identifier, payload; none while both node IDs are 0, before the MGC has joined the bus, or at bus-off (R317, R440, R530). -/
def canQueue (d : Dev) (kind base : Nat) (bs : List Byte) : Dev :=
  if nodeId d = 0 ∨ d.mgc.joined = false ∨ busOff d = true then d
  else updMgc d fun m => { m with canTx := m.canTx ++ [{ kind := kind, id := base + nodeId d, data := padDlc bs }] }

/-- Header of a response (Table 9.8). -/
def respHeader (op txn index sub status len : Nat) : List Byte :=
  leBytes 8 (pack [(48, 16, len), (40, 8, status), (32, 8, sub), (16, 16, index), (8, 8, txn), (0, 8, op + 0x80)])
/-- Queue a response. -/
def canRespond (d : Dev) (bs : List Byte) : Dev := canQueue d 1 0x6C0 bs
/-- Queue an abort response: the request's OP, TXN, INDEX and SUB; then code, index and subindex (R310, Table 9.8). -/
def canAbort (d : Dev) (op txn index sub code : Nat) : Dev :=
  canRespond d (respHeader op txn index sub 1 0 ++ leBytes 2 code ++ leBytes 2 index ++ leBytes 1 sub)

/-- CAN FD requests in the receive FIFO (R321). -/
def canFifo (d : Dev) : Nat := d.mgc.odq.countP fun r => match r with | .can _ => true | .mailbox _ => false

/-- Latch key of event 0x0922. -/
def onceRequest : Nat := 233

/-- A request frame arrives (R321): it enters the 64-frame FIFO, or is answered 0x0909 from its first 5 B, or is lost. Before the MGC has joined the bus nothing is acknowledged (R530). -/
def requestIn (d : Dev) (bs : List Byte) : Dev :=
  if d.mgc.joined = false ∨ nodeId d = 0 then d
  else if canFifo d < 64 then updMgc d fun m => { m with odq := m.odq ++ [.can bs] }
  else
    let d := if bs.length < 5 then bump d 0x1300 8 4 1
      else
        let b (i : Nat) := (bs.getD i 0#8).toNat
        canAbort (bump d 0x1300 7 4 1) (b 0) (b 1) (b 2 + 256 * b 3) (b 4) 0x0909
    postOnce d onceRequest 0x0922 2 srcMgc 0

/-- The frame that the MGC holds ready: heartbeats before responses before event frames (R323). -/
def mgcNext (d : Dev) : Option MgcFrame :=
  match d.mgc.canTx.find? (·.kind == 0) with
  | some f => some f
  | none => match d.mgc.canTx.find? (·.kind == 1) with
    | some f => some f
    | none => d.mgc.canTx.head?

/-- Remove the first occurrence of a frame. -/
def dropMgcFrame (f : MgcFrame) : List MgcFrame → List MgcFrame
  | [] => []
  | x :: t => if x = f then t else x :: dropMgcFrame f t

/-- CAN_REQUEST_FRAME (R321): the payload of a frame with identifier 0x640 + the active node ID. -/
def execCanRequestFrame (bs : List Byte) (s : State) : Host.Outcome State Fault Refusal := nextMgc s fun d => requestIn d bs

end Sys2Proof.Machine
end

