-- ==== Sys2Proof/Machine/Power.lean ====
section
/-! DEFINITION. Clock islands, voltage, droop, the bellows and heat (chapter 15). -/

namespace Sys2Proof.Machine

open Sys2Proof

/-- Change the power loops' part. -/
def updPower (d : Dev) (f : Power → Power) : Dev := { d with power := f d.power }
/-- Core island n, and its change. -/
def island (d : Dev) (n : Nat) : Island := sget (fun _ => {}) d.power.islands n
def updIsland (d : Dev) (n : Nat) (f : Island → Island) : Dev := updPower d fun p => { p with islands := supd (fun _ => {}) p.islands n f }

/-! ### Frequency (R472, R473, R479) -/

/-- Frequency that a core island's limits allow: the lowest of them (R479). -/
def islandTarget (d : Dev) (n : Nat) : Nat :=
  let x := island d n
  min (min (setting d 0x2002 1) x.bellows) (min x.thermal x.avs)
/-- A voltage within 0.55 to 0.85 V (R474). -/
def voltClamp (v : Nat) : Nat := min 850 (max 550 v)
/-- Clock and voltage of an island that goes from f, v to the frequency t: up, the voltage first reaches the fused value; down, it is lowered afterwards (R472). -/
def freqStep (i f v t : Nat) : Nat × Nat :=
  let u := voltClamp (Config.fusedVolt i t)
  if f < t then (t, max v u) else if t < f then (t, u) else (f, v)

/-- FREQUENCY_STEP (R472): island i goes to the frequency its limits give; 16 is the APC's. -/
def frequencyStep (d : Dev) (i : Nat) : Dev :=
  if i = 16 then
    let r := freqStep 16 d.power.apcFreq d.power.apcVolt (setting d 0x2002 2)
    updPower d fun p => { p with apcFreq := r.1, apcVolt := r.2 }
  else
    let x := island d i
    let r := freqStep i x.freq x.volt (islandTarget d i)
    updIsland d i fun x => { x with freq := r.1, volt := r.2 }

/-- A core island is idle: no instruction, no granule awaited, every enabled array gated (R473). -/
def islandIdle (c : Core) : Bool := c.ops.isEmpty && c.fe.isEmpty && c.landing.isEmpty && (arraysOn c).all fun a => (arr c a).ramp == 4

/-- CLOCK_STOP (R473). -/
def clockStop (d : Dev) (n : Nat) : Dev :=
  if islandIdle (coreOf d n) && !(coreOf d n).disabled then updCore d n fun c => { c with stopped := true } else d

/-! ### Voltage and droop (R474 to R476) -/

/-- Highest frequency below which R475 may step. -/
def avsShort (d : Dev) (slack : Int) : Bool := decide (slack < (setting d 0x2002 3 : Int) - 10)

/-- Latch key of core n's AVS limit event. -/
def onceAvs (n : Nat) : Nat := 310 + n

/-- An island at 0.85 V and short of slack lowers its frequency by 50 MHz (R475). -/
def avsLimit (d : Dev) (n : Nat) : Dev :=
  let f := (island d n).freq
  if 650 ≤ f then
    let d := updIsland (bump d (0x2010 + n) 6 4 1) n fun x => { x with freq := f - 50, avs := f - 50 }
    postOnce d (onceAvs n) 0x0F07 0 n ((f - 50) % 65536)
  else d

/-- AVS_UPDATE (R474, R475): the least slack of the last 10 µs, in ps. -/
def avsUpdate (d : Dev) (n : Nat) (slack : Int) : Dev :=
  let v := (island d n).volt
  if (coreOf d n).disabled then d
  else if avsShort d slack then
    if 850 ≤ v then avsLimit d n else updIsland d n fun x => { x with volt := voltClamp (v + 5) }
  else if (setting d 0x2002 3 : Int) + 10 < slack then updIsland d n fun x => { x with volt := voltClamp (v - 5) }
  else d

/-- AVS_RECOVERY (R475): 10 ms have passed without a shortfall; the frequency rises a step, no higher than its limits. -/
def avsRecovery (d : Dev) (n : Nat) : Dev :=
  let x := island d n
  if x.avs < 1800 then
    let d := updIsland d n fun x => { x with avs := min 1800 (x.avs + 50) }
    frequencyStep d n
  else d

/-- DROOP_STRETCH (R476): the replica's slack in ps; each shortfall stretches the next period by a further quarter, up to double. -/
def droopStretch (d : Dev) (n : Nat) (slack : Int) : Dev :=
  if slack < (setting d 0x2002 4 : Int) then
    bump (updIsland d n fun x => { x with stretch := min 4 (x.stretch + 1) }) (0x2010 + n) 5 8 1
  else updIsland d n fun x => { x with stretch := 0 }

/-! ### The bellows (R477 to R482) -/

/-- Word k of MON_MAP: voltage register, current register, current LSB in µA (Table 15.5). -/
def monMap (d : Dev) (k : Nat) : Nat × Nat × Nat :=
  let e := (domOf d 0x2001 3).drop (8 * k)
  (leNat (e.take 1), leNat ((e.drop 1).take 1), leNat ((e.drop 4).take 4))

/-- MONITOR_READ (R477): the read of rail k gave a voltage in mV and a current count, or failed with a RESULT code; an unused rail is not read. -/
def monitorRead (d : Dev) (k : Nat) (ok : Bool) (mv count code : Nat) : Dev :=
  let lsb := (monMap d k).2.2
  if lsb = 0 then d
  else if ok then updPower d fun p => { p with sum := p.sum + mv * count * lsb }
  else updPower (bump d 0x2001 4 4 1) fun p => { p with failed := true, code := code }

/-- Telemetry mode after a window (R481). -/
def telemetry (d : Dev) : Dev :=
  let p := d.power
  let d := updPower d fun p => if p.failed then { p with failRun := p.failRun + 1, goodRun := 0 } else { p with goodRun := p.goodRun + 1, failRun := 0 }
  if p.failed then
    if d.power.failRun = 3 ∧ cnt d 0x2000 5 = 0 then postEvent (setCnt d 0x2000 5 1) 0x0F02 2 srcMgc (p.code % 16) else d
  else if 3 ≤ d.power.goodRun then setCnt d 0x2000 5 0 else d

/-- Activity counters that the model-mode estimate reads, each core's own, not the dictionary's: rows issued and drone cycles (R66, R481, Table 1.4). -/
def activity (d : Dev) : List Nat := (List.range 16).flatMap fun n => [(coreOf d n).actRows, (coreOf d n).actDrones]

/-- Limits of Table 15.2: frequency and duty. -/
def ladder (t : Nat) : Nat × Nat := if t ≤ 24 then (1800 - 50 * t, 16) else (600, 16 - (t - 24))

/-- The bellows writes a core's limits: its floor holds them up unless suspended; heat holds the duty to 4 (R478, R480, R483). -/
def writeLimits (d : Dev) (n : Nat) : Dev :=
  let l := ladder d.power.t
  let floor := setting d (0x2010 + n) 1
  let r := if floor ≠ 0 ∧ cnt d 0x2000 7 = 0 then (max floor l.1, 16) else l
  let d := updIsland d n fun x => { x with bellows := r.1 }
  updCore d n fun c => { c with dutyLimit := if d.power.critical then min 4 r.2 else r.2 }

/-- Next throttle index (R478); P and the cap in tenths of a milliwatt, the hysteresis in milliwatts. -/
def nextT (t p10 c10 hyst lowRun : Nat) : Nat :=
  if 11 * c10 < 10 * p10 then min 36 (t + 4)
  else if c10 < p10 then min 36 (t + 1)
  else if p10 + 10 * hyst < c10 ∧ 4 ≤ lowRun then t - 1
  else t

/-- Latch key of event 0x0F01. -/
def onceCap : Nat := 234

/-- Floors suspended or returned after a window (R480). -/
def floors (d : Dev) (p cap hyst : Nat) : Dev :=
  let hot := if d.power.t = 36 ∧ cap < p then d.power.hotRun + 1 else 0
  let d := updPower d fun x => { x with hotRun := hot }
  if 10 ≤ hot ∧ cnt d 0x2000 7 = 0 then
    postOnce (bump (setCnt d 0x2000 7 1) 0x2000 6 4 1) onceCap 0x0F01 2 srcMgc (p % 2 ^ 32 + cap % 2 ^ 32 * 2 ^ 32)
  else if cnt d 0x2000 7 = 1 ∧ 100 ≤ d.power.lowRun ∧ p + hyst < cap then setCnt d 0x2000 7 0
  else d

/-- BELLOWS_WINDOW (R478 to R482): in monitor mode P is the window's sum, in model mode the estimate, held to 0.9 × CAP_MW; a window whose read failed in monitor mode leaves T as it is. -/
def bellowsWindow (d : Dev) : Dev :=
  let failed := d.power.failed
  let sum := d.power.sum
  let d := telemetry d
  let model := cnt d 0x2000 5 == 1
  let cap := d.power.cap
  let hyst := setting d 0x2000 2
  let d := if failed && !model then d
    else
      let p := if model then Config.energyModel (activity d) else sum / 10 ^ 6
      let c10 := if model then 9 * cap else 10 * cap
      let d := updPower d fun x => { x with p := p, lowRun := if 10 * p + 10 * hyst < c10 then x.lowRun + 1 else 0 }
      let d := updPower d fun x => { x with t := nextT x.t (10 * p) c10 hyst x.lowRun }
      floors (setCnt d 0x2000 3 (min 65535 p)) p cap hyst
  let d := updPower d fun x => { x with cap := setting d 0x2000 1, sum := 0, failed := false }
  (List.range 16).foldl writeLimits d

/-! ### Heat (R483) -/

/-- Latch key of core n's throttle event. -/
def onceHeat (n : Nat) : Nat := 330 + n

/-- The thermal limit of core n after a sample of `t` tenths of a degree (R483). -/
def heatCore (d : Dev) (n : Nat) (t : Int) : Dev :=
  let x := island d n
  let c : Int := setting d 0x2030 1
  if c * 10 ≤ t then
    let d := if x.hot then d else bump d 0x2030 6 4 1
    let d := updIsland d n fun x => { x with hot := true, thermal := max 600 (x.thermal - 50) }
    if 600 < x.thermal then postOnce d (onceHeat n) 0x0F03 2 srcMgc (n + lowBits 16 t * 65536) else d
  else if t < (c - 2) * 10 && !d.power.critical then updIsland d n fun x => { x with hot := false, thermal := min 1800 (x.thermal + 50) }
  else d

/-- Hottest sensor of a list of readings: its number and reading. -/
def hottest : List Int → Nat → Option (Nat × Int)
  | [], _ => none
  | t :: ts, k => match hottest ts (k + 1) with
    | some (j, u) => some (if t < u then (j, u) else (k, t))
    | none => some (k, t)

/-- Thermal critical (R483): every core island drops to 600 MHz and duty 4 at once. -/
def thermalCritical (d : Dev) (k : Nat) (t : Int) : Dev :=
  let d := if d.power.critical then d else postEvent d 0x0F04 2 srcMgc (k + lowBits 16 t * 65536)
  let d := updPower d fun p => { p with critical := true }
  (List.range 16).foldl (fun d n => updCore (updIsland d n fun x => { x with thermal := 600, freq := min x.freq 600 }) n
    fun c => { c with dutyLimit := min c.dutyLimit 4 }) d

/-- What remains of a core in reset: its arrays' repair and disable causes and its own (R55, R502, R504). -/
def coreInReset (c : Core) : Core :=
  { disabled := c.disabled, disableCause := c.disableCause
    arrays := (List.range 4).foldl (fun l a => sset (fun _ => {}) l a { cause := (arr c a).cause, repair := (arr c a).repair }) [] }

/-- What a thermal trip leaves: the MGC's island, the timer logic, the memories, the CAN FD controller, and what the fuses and the self-tests say of the cores (R483). -/
def tripped (d : Dev) : Dev :=
  { clk := d.clk, breath := d.breath, od := d.od, mem := d.mem, mgc := d.mgc, power := d.power, boot := d.boot, tu := d.tu
    store0 := d.store0, store1 := d.store1, once := d.once, freeNo := d.freeNo
    ports := { qs := d.ports.qs.filter fun e => decide (96 ≤ e.1), rx := d.ports.rx.filter fun e => decide (96 ≤ e.1)
               canOwed := d.ports.canOwed, canSent := d.ports.canSent }
    cores := (List.range 16).foldl (fun l n => sset (fun _ => {}) l n (coreInReset (coreOf d n))) []
    ctl := { d.ctl with tripped := true } }

/-- Every function is Stopped (R507). -/
def stopAll (d : Dev) : Dev :=
  (List.range 34).foldl (fun d f => setSetting (setCnt d (0x1100 + f) 3 0) (0x1100 + f) 2 0) d

/-- Thermal trip (R483): event 0x0F08 goes directly into an event frame, the device is Failed, and every other island is held in reset. -/
def thermalTrip (d : Dev) (k : Nat) : Dev :=
  let d := canQueue d 2 0x0C0 (eventBytes ⟨0x0F08, 2, none, srcMgc, k⟩ (Config.canEventSeq d.freeNo))
  tripped (stopAll (setCnt { d with freeNo := d.freeNo + 1 } 0x1010 1 3))

/-- THERMAL_SAMPLE (R483): readings of sensors 0 to 19 in tenths of a degree. -/
def thermalSample (d : Dev) (ts : List Int) : Dev :=
  match hottest ts 0 with
  | none => d
  | some (k, t) =>
    let d := ((List.range 16).filter (· < ts.length)).foldl (fun d n => setCnt d (0x2010 + n) 4 (lowBits 16 (ts.getD n 0))) d
    let d := setCnt (setCnt d 0x2030 4 (lowBits 16 t)) 0x2030 5 k
    if d.ctl.tripped then d
    else if 1150 ≤ t then thermalTrip d k
    else
      let d := if d.power.critical && decide (t < 1030) then updPower d fun p => { p with critical := false } else d
      let d := ((List.range 16).filter (· < ts.length)).foldl (fun d n => heatCore d n (ts.getD n 0)) d
      if 1050 ≤ t then thermalCritical d k t else d

/-! ### Commands -/

/-- FREQUENCY_STEP (R472): island 0 to 15 a core's, 16 the APC's. -/
def execFrequencyStep (i : Fin 17) (s : State) : Host.Outcome State Fault Refusal := nextDev s fun d => frequencyStep d i
/-- CLOCK_STOP (R473). -/
def execClockStop (n : Fin 16) (s : State) : Host.Outcome State Fault Refusal := nextDev s fun d => clockStop d n
/-- CLOCK_RESTART (R473). -/
def execClockRestart (n : Fin 16) (s : State) : Host.Outcome State Fault Refusal :=
  nextDev s fun d => updCore d n fun c => { c with stopped := false }
/-- AVS_UPDATE (R474): least slack of the last 10 µs, a signed number of ps. -/
def execAvsUpdate (n : Fin 16) (slack : BitVec 16) (s : State) : Host.Outcome State Fault Refusal := nextDev s fun d => avsUpdate d n slack.toInt
/-- AVS_RECOVERY (R475). -/
def execAvsRecovery (n : Fin 16) (s : State) : Host.Outcome State Fault Refusal := nextDev s fun d => avsRecovery d n
/-- DROOP_STRETCH (R476): the replica's slack, a signed number of ps. -/
def execDroopStretch (n : Fin 16) (slack : BitVec 16) (s : State) : Host.Outcome State Fault Refusal := nextDev s fun d => droopStretch d n slack.toInt
/-- MONITOR_READ (R477): rail, whether the read was good, voltage in mV, current count, RESULT code of a failure. -/
def execMonitorRead (k : Fin 8) (ok : Bool) (mv count : BitVec 16) (code : Fin 5) (s : State) : Host.Outcome State Fault Refusal :=
  nextMgc s fun d => monitorRead d k ok mv.toNat count.toNat code
/-- BELLOWS_WINDOW (R478). -/
def execBellowsWindow (s : State) : Host.Outcome State Fault Refusal := nextMgc s bellowsWindow
/-- THERMAL_SAMPLE (R483): signed readings of sensors 0 to 19 in tenths of a degree. -/
def execThermalSample (ts : List (BitVec 16)) (s : State) : Host.Outcome State Fault Refusal :=
  nextMgc s fun d => thermalSample d (ts.map (·.toInt))

end Sys2Proof.Machine
end

