-- ==== Sys2Proof/Machine/Trust.lean ====
section
/-! DEFINITION. Identity and trust: image tests, measurements, the TU interface, fuses, attestation and debug tokens (chapter 17). -/

namespace Sys2Proof.Machine

open Sys2Proof

/-- Change the TU's part. -/
def updTu (d : Dev) (f : Tu → Tu) : Dev := { d with tu := f d.tu }
/-- A little-endian field of a byte list. -/
def bfield (bs : List Byte) (off n : Nat) : Nat := leNat ((bs.drop off).take n)
/-- Bytes of a byte list. -/
def bslice (bs : List Byte) (off n : Nat) : List Byte := (bs.drop off).take n
/-- Pad or cut a byte list to n bytes. -/
def fit (n : Nat) (bs : List Byte) : List Byte := bs.take n ++ List.replicate (n - bs.length) 0#8
/-- BOOT_STAGE (R529). -/
def bootStage (d : Dev) : Nat := cnt d 0x6000 4
def setStage (d : Dev) (v : Nat) : Dev := setCnt d 0x6000 4 v

/-! ### Derived keys (R532, R533) -/

/-- The key of a label of Table 17.8: KMAC256 of the label under the device-unique secret, customised by "Limesque" (R532). -/
def deriveKey (o : Otp) (label : String) : BitVec 256 := Config.kmac256 o.secret (asciiBytes label) (asciiBytes "Limesque")
/-- The identity's public keys (R533). -/
def identityEd (o : Otp) : List Byte := Config.edPub (deriveKey o "id-ed25519")
def identityMldsa (o : Otp) : List Byte := Config.mldsaPub (deriveKey o "id-mldsa65")
/-- The identity's signatures of a report: Ed25519, then ML-DSA-65 (R534). -/
def identitySign (o : Otp) (b : List Byte) : List Byte :=
  fit 64 (Config.edSign (deriveKey o "id-ed25519") b) ++ fit 3309 (Config.mldsaSign (deriveKey o "id-mldsa65") b)

/-! ### Image containers (R517, R518) -/

/-- Key slot s of the fuses. -/
def keySlot (o : Otp) (s : Nat) : KeySlot := sget (fun _ => {}) o.slots s
/-- The slot holds key hashes (R519). -/
def programmed (k : KeySlot) : Bool := !k.edHash.isEmpty || !k.mldsaHash.isEmpty
/-- The rollback counter: fuses blown (R521). -/
def rollbackCount (o : Otp) : Nat := (List.range 64).countP fun i => bit o.rollback i
/-- USE fuse of an image TYPE (R519). -/
def useBit (ty : Nat) : Nat := if ty < 0x80 then 0 else 1
/-- Test 2 for a key slot and a use. -/
def slotOk (o : Otp) (s use : Nat) : Bool :=
  decide (s < 4) && programmed (keySlot o s) && !(keySlot o s).revoked && bit (keySlot o s).use use
/-- Test 4 of two public keys against a slot. -/
def keysOk (o : Otp) (s : Nat) (ed ml : List Byte) : Bool :=
  Config.sha512 ed == (keySlot o s).edHash && Config.sha512 ml == (keySlot o s).mldsaHash

/-- Payload limit of a TYPE (Table 17.1). -/
def payloadLimit (ty : Nat) : Nat := if ty = 1 then 448 * 1024 else if ty = 2 then 0x200000 else 0x4000000
/-- Test 7: LENGTH and LOAD_ADDR; `at'` is the container's own address (Tables 17.1 and 17.3). -/
def loadOk (ty len load at' : Nat) : Bool :=
  decide (len ≤ payloadLimit ty)
    && (if ty = 1 then true else if ty = 2 then decide (sbBase ≤ load) && decide (load + len ≤ sbBase + 0x200000) else load == at' + 0x1600)

/-- Tests 1 to 7 of Table 17.4 on a header: the first failing reason; `want` says which TYPEs the request takes. -/
def headerTests (o : Otp) (want : Nat → Bool) (at' : Nat) (h : List Byte) : Option Nat :=
  let ty := bfield h 6 1
  let slot := bfield h 7 1
  let msg := bslice h 0 256
  let ed := bslice h 0x100 32
  let ml := bslice h 0x120 1952
  if bfield h 0 4 ≠ 0x4C51494D ∨ bfield h 4 2 ≠ 1 ∨ want ty = false then some 1
  else if slotOk o slot (useBit ty) = false then some 2
  else if bfield h 8 4 < rollbackCount o then some 3
  else if keysOk o slot ed ml = false then some 4
  else if Config.ed25519 ed msg (bslice h 0x8C0 64) = false then some 5
  else if Config.mldsa65 ml msg (bslice h 0x900 3309) = false then some 6
  else if loadOk ty (bfield h 0x10 4) (bfield h 0x18 8) at' = false then some 7
  else none

/-- Tests 8 and 9 of Table 17.4 on the payload. -/
def payloadTests (o : Otp) (h payload : List Byte) : Option Nat :=
  if Config.sha512 payload ≠ bslice h 0x40 64 then some 8
  else if bfield h 0x0C 4 % 2 = 1 ∧ bfield h 0x28 8 ≠ o.serial.toNat then some 9
  else none

/-- Event 0x1101: a refused image (Table 17.10). -/
def imageRefused (d : Dev) (h : List Byte) (copy source reason : Nat) : Dev :=
  postEvent d 0x1101 2 srcTu (pack [(0, 8, bfield h 6 1), (8, 1, copy), (9, 2, source), (12, 4, reason), (16, 2, bfield h 7 1), (32, 32, bfield h 8 4)])

/-- Measurement of a boot or software image (R535). -/
def measure (h : List Byte) : Meas := { ty := bfield h 6 1, slot := bfield h 7 1, svn := bfield h 8 4, digest := Config.sha512 (bslice h 0 256) }

/-! ### The TU interface (R527, R528) -/

/-- A write of TU_CMD: OP 1 to 4 starts an operation on TU_ADDR unless one is in progress (Table 17.5). -/
def tuStart (d : Dev) (op : Nat) : Dev :=
  if d.tu.op.isSome then d else updTu d fun t => { t with op := some (op, t.addr.toNat) }

/-- TU_STATUS (Table 17.5). -/
def tuStatus (d : Dev) : W64 :=
  BitVec.ofNat 64 (pack [(0, 1, b2n d.tu.op.isSome), (1, 1, b2n d.tu.passed), (4, 4, d.tu.reason), (8, 8, d.tu.meas.length), (16, 3, bootStage d)])

/-- The TU's read of memory as agent 6: the bytes, and whether it failed or returned poisoned data (R524). -/
def tuRead (d : Dev) (a n : Nat) : Dev × List Byte × Bool :=
  let r := memRead d (some agMgc) srcTu a n
  (r.1, r.2.1, r.2.2 || !spanGranted d agMgc false a n)

/-- A test of a container at address a for the TYPEs of `want`: the device, the header and the reason of a refusal. -/
def tuTest (o : Otp) (d : Dev) (want : Nat → Bool) (a : Nat) : Dev × List Byte × Option Nat :=
  let r := tuRead d a 0x1600
  let d := updTu r.1 fun t => { t with ram := r.2.1 }
  if r.2.2 then (d, r.2.1, some 10)
  else match headerTests o want a r.2.1 with
    | some k => (d, r.2.1, some k)
    | none =>
      let q := tuRead d (a + 0x1600) (bfield r.2.1 0x10 4)
      if q.2.2 then (q.1, r.2.1, some 10)
      else match payloadTests o r.2.1 q.2.1 with
        | some k => (q.1, r.2.1, some k)
        | none => (q.1, r.2.1, if 12 ≤ d.tu.meas.length then some 11 else none)

/-- End an operation: TU_STATUS, then DONE (R527). -/
def tuEnd (d : Dev) (reason : Nat) : Dev := updTu d fun t => { t with op := none, passed := reason == 0, reason := reason, done := true }

/-- Add an image's measurement: the loader's takes number 2, the others follow in order (R535). -/
def addMeas (t : Tu) (m : Meas) : Tu := if m.ty = 3 then { t with meas := t.meas.take 2 ++ m :: t.meas.drop 2 } else { t with meas := t.meas ++ [m] }

/-- An image operation of the TU interface ends (R528): a pass is measured, a refusal posts event 0x1101. -/
def tuImage (o : Otp) (d : Dev) (want : Nat → Bool) (a : Nat) : Dev × Bool :=
  let r := tuTest o d want a
  match r.2.2 with
  | some k => (tuEnd (imageRefused r.1 r.2.1 0 3 k) k, false)
  | none => (tuEnd (updTu r.1 fun t => addMeas t (measure r.2.1)) 0, true)

/-- TU_OPERATION_DONE (R528). -/
def tuDone (o : Otp) (d : Dev) : Dev :=
  match d.tu.op with
  | none => d
  | some (op, a) =>
    if op = 1 then
      if d.tu.loaderTried || decide (4 ≤ bootStage d) then tuEnd d 12
      else
        let r := tuImage o (updTu d fun t => { t with loaderTried := true }) (· == 3) a
        if r.2 then setStage r.1 3 else r.1
    else if op = 2 then (tuImage o d (fun t => decide (0x80 ≤ t) && decide (t ≤ 0xFE)) a).1
    else if op = 3 then
      let r := tuRead d a 72
      if r.2.2 then tuEnd r.1 10
      else if 12 ≤ d.tu.meas.length then tuEnd r.1 11
      else tuEnd (updTu r.1 fun t => { t with
        meas := t.meas ++ [{ ty := bfield r.2.1 0 1, slot := 0xFF, svn := bfield r.2.1 4 4, digest := bslice r.2.1 8 64 }] }) 0
    else if bootStage d = 3 then tuEnd (setStage d 4) 0
    else tuEnd d 12

/-! ### Fuses (R519 to R523) -/

/-- A write of s to REVOKE is out of range (R520). -/
def revokeBad (o : Otp) (d : Dev) (s : Nat) : Bool :=
  decide (3 < s) || (keySlot o s).revoked || d.tu.meas.any (·.slot == s)
    || !((List.range 4).any fun k => k != s && programmed (keySlot o k) && !(keySlot o k).revoked && bit (keySlot o k).use 0)
/-- A write of v to ROLLBACK_ADVANCE is out of range (R521). -/
def advanceBad (o : Otp) (d : Dev) (v : Nat) : Bool :=
  decide (v ≤ rollbackCount o) || decide (64 < v) || d.tu.meas.any fun m => decide (1 ≤ m.ty) && decide (m.ty ≤ 3) && decide (m.svn < v)

/-- Blow the REVOKED fuse of slot s. -/
def blowRevoked (o : Otp) (s : Nat) : Otp := { o with slots := supd (fun _ => {}) o.slots s fun k => { k with revoked := true } }
/-- Rollback fuses that are blown once the counter has reached v: the lowest unblown ones are taken, one by one. -/
def thermo (o : Otp) (v : Nat) : BitVec 64 :=
  (List.range 64).foldl (fun r i => if (List.range 64).countP (fun k => bit r k) < v then r ||| BitVec.ofNat 64 (2 ^ i) else r) o.rollback

/-- The fuses once a programming is complete. -/
def fuseDone (o : Otp) : FuseOp → Otp
  | .revoke s => blowRevoked o s
  | .advance v => { o with rollback := thermo o v }
/-- The fuses after a programming that was cut off: each fuse of `mask` that was to be blown is blown, no other (R522). -/
def fuseCut (o : Otp) (mask : BitVec 64) : FuseOp → Otp
  | .revoke s => if bit mask 0 then blowRevoked o s else o
  | .advance v => { o with rollback := o.rollback ||| (thermo o v &&& mask) }

/-- FUSE_PROGRAM_DONE (R520 to R522). -/
def fuseProgramDone (s : State) : State :=
  match s.dev.tu.fuse with
  | none => s
  | some f =>
    let o := fuseDone s.otp f
    let d := updTu s.dev fun t => { t with fuse := none }
    let d := match f with
      | .revoke k => postEvent d 0x1102 2 srcTu (k % 4)
      | .advance _ => postEvent d 0x1103 2 srcTu (rollbackCount s.otp + rollbackCount o * 256)
    { s with otp := o, dev := d }

/-! ### Attestation (R532 to R535) -/

/-- UPTIME_MS (Table 9.12). -/
def uptimeMs (d : Dev) : Nat := d.clk.ns / 10 ^ 6
/-- Arrays fused off at test: on an LQ4816-C one of each core, the failing one or M3; on an LQ6416-C none (R3). -/
def fusedMask (o : Otp) : BitVec 64 :=
  if o.grade = 0 then 0#64
  else BitVec.ofNat 64 ((List.range 16).map fun n => 2 ^ (4 * n + (((List.range 4).find? fun a => bit o.fusedOff (4 * n + a)).getD 3))).sum
/-- ARRAY_DISABLE_MAP (R502): the arrays that a cause disables. -/
def disableMap (d : Dev) : Nat :=
  ((List.range 64).map fun k => b2n ((arr (coreOf d (k / 4)) (k % 4)).cause != 0) * 2 ^ k).sum
/-- REVOKED bits. -/
def revokedBits (o : Otp) : Nat := ((List.range 4).map fun k => b2n (keySlot o k).revoked * 2 ^ k).sum
/-- The 80 B of a measurement (Table 17.9). -/
def measBytes (m : Meas) : List Byte := leBytes 16 (pack [(0, 8, m.ty), (8, 8, m.slot), (32, 32, m.svn)]) ++ fit 64 m.digest
/-- The signed part of a report (Table 17.9). -/
def reportBody (o : Otp) (d : Dev) : List Byte :=
  fit 1088 (leBytes 4 0x4C514154 ++ leBytes 2 1 ++ leBytes 2 d.tu.meas.length ++ leBytes 8 o.serial.toNat
    ++ leBytes 4 (pack [(0, 8, o.grade), (8, 8, o.siliconRev), (16, 8, 1), (24, 8, cnt d 0x6030 4)])
    ++ leBytes 4 (pack [(0, 8, revokedBits o), (16, 8, rollbackCount o)])
    ++ leBytes 8 (disableMap d) ++ leBytes 8 (uptimeMs d) ++ leBytes 8 d.breath.number ++ List.replicate 16 0#8
    ++ fit 32 d.tu.nonce ++ List.replicate 32 0#8 ++ d.tu.meas.flatMap measBytes)

/-- ATTEST_SIGNED (R534). -/
def attestSigned (o : Otp) (d : Dev) : Dev :=
  if cnt d 0x6021 2 = 1 then
    let b := reportBody o d
    setCnt (setDom d 0x6021 3 (b ++ identitySign o b)) 0x6021 2 2
  else d

/-! ### Debug tokens (R536 to R538) -/

/-- The TU draws a fresh DEBUG_NONCE from the TRNG. -/
def drawNonce (d : Dev) : Dev :=
  setDom { d with freeNo := d.freeNo + 1 } 0x6030 1 ((List.range 16).map (Config.trng d.freeNo))

/-- Cause for which a token fails (Table 17.10), none for a pass (R538). -/
def tokenFault (o : Otp) (d : Dev) (t : List Byte) : Option Nat :=
  let slot := bfield t 6 1
  let msg := bslice t 0 128
  let ed := bslice t 0x80 32
  let ml := bslice t 0xA0 1952
  if bfield t 0 4 ≠ 0x4C514442 ∨ bfield t 4 2 ≠ 1 ∨ 16 ≤ bfield t 7 1 then some 1
  else if bfield t 8 8 ≠ o.serial.toNat ∨ bslice t 0x10 16 ≠ fit 16 (domOf d 0x6030 1)
    ∨ bslice t 0x20 64 ≠ Config.sha512 (identityEd o ++ identityMldsa o) then some 2
  else if slotOk o slot 2 = false then some 3
  else if keysOk o slot ed ml = false then some 4
  else if Config.ed25519 ed msg (bslice t 0x840 64) = false then some 5
  else if Config.mldsa65 ml msg (bslice t 0x880 3309) = false then some 6
  else none

/-- DEBUG_TOKEN_TESTED (R538): the oldest waiting token; after the lock-out tokens are discarded unread. -/
def tokenTested (o : Otp) (d : Dev) : Dev :=
  match d.tu.tokens with
  | [] => d
  | t :: rest =>
    let d := updTu d fun u => { u with tokens := rest }
    if cnt d 0x6030 3 = 2 then d
    else match tokenFault o d t with
      | none =>
        let d := setCnt (setCnt d 0x6030 3 1) 0x6030 4 (cnt d 0x6030 4 ||| bfield t 7 1)
        drawNonce (postEvent d 0x1104 2 srcTu (bfield t 7 1 + bfield t 6 1 % 4 * 256))
      | some c =>
        let n := cnt d 0x6030 5 + 1
        let d := setCnt d 0x6030 5 n
        let d := if 8 ≤ n then setCnt d 0x6030 3 2 else d
        drawNonce (postEvent d 0x1105 2 srcTu (c + n * 256))

/-! ### Commands -/

/-- VERIFY_LOADER (R528). -/
def execVerifyLoader (s : State) : Host.Outcome State Fault Refusal := nextDev s fun d => tuStart d 1
/-- VERIFY (R528). -/
def execVerify (s : State) : Host.Outcome State Fault Refusal := nextDev s fun d => tuStart d 2
/-- EXTEND (R528). -/
def execExtend (s : State) : Host.Outcome State Fault Refusal := nextDev s fun d => tuStart d 3
/-- RELEASE_BOOT_PHASE (R528): OP 4, RELEASE. -/
def execReleaseBootPhase (s : State) : Host.Outcome State Fault Refusal := nextDev s fun d => tuStart d 4
/-- TU_OPERATION_DONE (R527). -/
def execTuOperationDone (s : State) : Host.Outcome State Fault Refusal := nextMgc s (tuDone s.otp)
/-- FUSE_PROGRAM_DONE (R522). -/
def execFuseProgramDone (s : State) : Host.Outcome State Fault Refusal := nextAll s fuseProgramDone
/-- ATTEST_SIGNED (R534). -/
def execAttestSigned (s : State) : Host.Outcome State Fault Refusal := nextMgc s (attestSigned s.otp)
/-- DEBUG_TOKEN_TESTED (R538). -/
def execDebugTokenTested (s : State) : Host.Outcome State Fault Refusal := nextMgc s (tokenTested s.otp)

end Sys2Proof.Machine
end

