-- ==== Sys2Proof/Machine/Boot.lean ====
section
/-! DEFINITION. Resets, the test access port and the boot chain up to Ready (chapters 16, 17 and 18). -/

namespace Sys2Proof.Machine

open Sys2Proof

/-! ### Resets (R546 to R549) -/

/-- The causes of fused arrays and the repair map, as the fuses give them (R55, R502, R504). -/
def fuseCore (o : Otp) (d : Dev) (n : Nat) : Dev :=
  (List.range 4).foldl (fun d a =>
    let f := bit (fusedMask o) (4 * n + a)
    let r := sget (fun _ => 0#8) o.repair (4 * n + a)
    if f || r != 0#8 then updArr d n a fun x => { x with cause := b2n f, repair := r } else d) d

/-- The device right after a reset: every block at its reset state; the boot media, the straps and the fuses' settings stay. -/
def freshDev (o : Otp) (d : Dev) : Dev :=
  let b : Dev := { store0 := d.store0, store1 := d.store1, freeNo := d.freeNo, ctl := { testMode := d.ctl.testMode, tap := d.ctl.tap }
                   boot := { mode := d.boot.mode, recovery := d.boot.mode == 3 } }
  let b := setCnt (setCnt (setCnt b 0x6000 2 d.boot.mode) 0x1300 2 (cnt d 0x1300 2)) 0x1300 3 (cnt d 0x1300 2)
  (List.range 16).foldl (fuseCore o) b

/-- The fuses when a reset cuts off a programming; `mask` says which of its fuses are blown (R522). -/
def cutFuses (s : State) (mask : BitVec 64) : Otp := match s.dev.tu.fuse with
  | some f => fuseCut s.otp mask f
  | none => s.otp

/-- PORST_N_FALL (R546): the device is held in its reset state, the test access port too (R549). -/
def porstFall (s : State) (mask : BitVec 64) : State :=
  let o := cutFuses s mask
  let d := freshDev o { s.dev with ctl := { s.dev.ctl with tap := .idcode } }
  { s with otp := o, dev := { d with ctl := { d.ctl with porstLow := true, sysrstLow := s.dev.ctl.sysrstLow } } }

/-- PORST_N_RISE (R546): the straps are sampled, and mtime counts from here; SYSRST_N still low keeps its hold (R548). -/
def porstRise (s : State) (mode node : Nat) (test : Bool) : State :=
  if s.dev.ctl.porstLow then
    let d := setCnt { s.dev with boot := { s.dev.boot with mode := mode }, ctl := { testMode := test, tap := .idcode } } 0x1300 2 node
    let d := freshDev s.otp d
    { s with dev := { d with ctl := { d.ctl with sysrstLow := s.dev.ctl.sysrstLow } } }
  else s

/-- A warm reset (R547): the timer logic keeps mtime, UPTIME_MS and RESET_CAUSE, here set to `cause`; a thermal trip ignores it (R548). -/
def warmReset (s : State) (cause : Nat) (mask : BitVec 64) (low : Bool) : State :=
  if s.dev.ctl.held then s
  else
    let o := cutFuses s mask
    let d := setCnt (freshDev o s.dev) 0x1010 3 cause
    { s with otp := o, dev := { d with clk := s.dev.clk, apc := { d.apc with mtimeOff := s.dev.apc.mtimeOff }, ctl := { d.ctl with sysrstLow := low } } }

/-- SYSRST_N_ASSERT (R547): a low level of `ns`: under 100 ns it is filtered, from 1 µs on it resets and holds until SYSRST_N rises. -/
def sysrstAssert (s : State) (ns : Nat) (mask : BitVec 64) : State :=
  let resets := decide (1000 ≤ ns) || (decide (100 ≤ ns) && Config.shortPulseResets ns)
  if resets then
    if s.dev.ctl.porstLow then { s with dev := { s.dev with ctl := { s.dev.ctl with sysrstLow := true } } } else warmReset s 1 mask true
  else s

/-- SYSRST_N_RISE (R547, R548). -/
def sysrstRise (s : State) : State := { s with dev := { s.dev with ctl := { s.dev.ctl with sysrstLow := false } } }

/-- IDCODE (R549). -/
def idcode (o : Otp) : W32 := BitVec.ofNat 32 (o.siliconRev % 16 * 2 ^ 28 + (if o.grade = 0 then 0x6416 else 0x4816) * 2 ^ 12 + 0xD67)

/-- TAP_INSTRUCTION (R536): an instruction that is not public reads as BYPASS until a token opens its scope. -/
def tapInstruction (d : Dev) (t : TapOp) : Dev :=
  if d.ctl.porstLow then d
  else
    let t := match t with
      | .debug k => if (cnt d 0x6030 4).testBit k.val && !d.ctl.testMode then .debug k else .bypass
      | x => x
    { d with ctl := { d.ctl with tap := t } }

/-! ### Media and images (R513 to R516) -/

/-- Media searched, in order (Table 17.2). -/
def mediaOrder (mode : Nat) : List Nat := if mode = 0 then [0, 1] else if mode = 1 then [1, 0] else if mode = 2 then [0] else []
/-- Change the boot chain's part. -/
def updBoot (d : Dev) (f : Boot → Boot) : Dev := { d with boot := f d.boot }
/-- The boot ROM is in UART recovery (R516). -/
def inRecovery (b : Boot) : Bool := b.recovery || b.kat == some false

/-- CRC-32 of IEEE 802.3: one byte. -/
def crcByte (c : BitVec 32) (b : Byte) : BitVec 32 :=
  (List.range 8).foldl (fun c _ => if c.getLsbD 0 then (c >>> 1) ^^^ 0xEDB88320#32 else c >>> 1) (c ^^^ b.setWidth 32)
/-- CRC-32 of IEEE 802.3 (R514). -/
def crc32 (bs : List Byte) : BitVec 32 := ~~~(bs.foldl crcByte 0xFFFFFFFF#32)

/-- Entry k of a directory. -/
def dirEntry (bs : List Byte) (k : Nat) : DirEntry :=
  { ty := bfield bs (8 + 16 * k) 1, copy := bfield bs (9 + 16 * k) 1, offset := bfield bs (12 + 16 * k) 4, length := bfield bs (16 + 16 * k) 4 }
/-- A directory's entries when MAGIC and CRC are right (R514). -/
def parseDir (bs : List Byte) : Option (List DirEntry) :=
  if bs.length = 512 ∧ bfield bs 0 4 = 0x4C514449 ∧ (crc32 (bs.take 508)).toNat = bfield bs 508 4 then
    some ((List.range (min 31 (bfield bs 4 2))).map (dirEntry bs))
  else none

/-- The directory of a medium: none when it has not been read. -/
def dirOf (b : Boot) (m : Nat) : Option (Option (List DirEntry)) := sget (fun _ => none) b.dirs m
/-- Entry of a TYPE and copy. -/
def dirFind (es : List DirEntry) (ty copy : Nat) : Option DirEntry := es.find? fun e => e.ty == ty && e.copy == copy
/-- Containers of a TYPE that the directories read so far name, medium after medium up to the first whose directory has not been read: medium, copy, entry (R515). -/
def candidates (b : Boot) (ty : Nat) : List (Nat × Nat × DirEntry) :=
  ((mediaOrder b.mode).takeWhile fun m => (dirOf b m).isSome).flatMap fun m => match dirOf b m with
    | some (some es) => [0, 1].filterMap fun c => (dirFind es ty c).map fun e => (m, c, e)
    | _ => []
/-- Every medium's directory has been read. -/
def allRead (b : Boot) : Bool := (mediaOrder b.mode).all fun m => (dirOf b m).isSome

/-- BOOT_DIRECTORY_READ (R514): the directory and its backup as the medium gives them; STORE_BASE comes from the first TYPE 0x10 entry. -/
def directoryRead (d : Dev) (m : Nat) (main backup : List Byte) : Dev :=
  if (mediaOrder d.boot.mode).contains m && (dirOf d.boot m).isNone && d.boot.kat == some true then
    let es := match parseDir main with
      | some es => some es
      | none => parseDir backup
    let d := updBoot d fun b => { b with dirs := sset (fun _ => none) b.dirs m (some es) }
    match (es.getD []).find? (·.ty == 0x10) with
    | some e => if cnt d 0x1400 5 = 0 then setCnt d 0x1400 5 e.offset else d
    | none => d
  else d

/-- TYPE that the boot ROM looks for next. -/
def bootType (b : Boot) : Nat := if b.passed1 then 2 else 1

/-- A boot container of the TYPE sought has passed: its measurement, its source, and where the first stage lies and enters. -/
def bootPass (d : Dev) (source : Nat) (h : List Byte) : Dev :=
  let d := updTu d fun t => { t with meas := t.meas ++ [measure h] }
  if d.boot.passed1 then updBoot d fun b => { b with passed2 := true, entry := BitVec.ofNat 64 (bfield h 0x20 8) }
  else setCnt (updBoot d fun b => { b with passed1 := true }) 0x6000 3 source

/-- The checks of a boot container read whole: `bad` 1 when the read of its header failed, 2 of its payload (R518). The image is loaded once tests 1 to 7 have passed: the MGC firmware into the MGC's RAM, the first stage into memory. -/
def bootTest (o : Otp) (d : Dev) (bs : List Byte) (bad : Nat) : Dev × Option Nat :=
  let h := bslice bs 0 0x1600
  let d := updTu d fun t => { t with ram := h }
  if bad = 1 then (d, some 10)
  else match headerTests o (· == bootType d.boot) 0 h with
    | some k => (d, some k)
    | none =>
      let p := bslice bs 0x1600 (bfield h 0x10 4)
      let d := if bootType d.boot = 2 then memWrite d (some agMgc) srcTu (bfield h 0x18 8) p false else updMgc d fun m => { m with ram := p }
      if bad = 2 then (d, some 10) else (d, payloadTests o h p)

/-- BOOT_IMAGE_VERIFY (R515, R518): the container that the next candidate's place holds. -/
def bootImage (o : Otp) (d : Dev) (bs : List Byte) (bad : Nat) : Dev :=
  let b := d.boot
  if b.mgc || b.passed2 || inRecovery b || b.kat != some true then d
  else
    let tried := if b.passed1 then b.tried2 else b.tried1
    let cs := candidates b (bootType b)
    match cs[tried]? with
    | some (m, c, e) =>
      let bs := bs.take e.length
      let r := bootTest o d bs bad
      match r.2 with
      | none => bootPass r.1 m bs
      | some k =>
        let d := imageRefused r.1 bs c m k
        let d := updBoot d fun b => if b.passed1 then { b with tried2 := tried + 1 } else { b with tried1 := tried + 1 }
        if cs.length ≤ tried + 1 && allRead b then updBoot d fun b => { b with recovery := true } else d
    | none => if allRead b then updBoot d fun b => { b with recovery := true } else d

/-- UART_RECOVERY_CONTAINER (R516): a container on the UART, in order of TYPE; with the TU's tests failed no image can pass (R525). -/
def uartImage (o : Otp) (d : Dev) (bs : List Byte) (bad : Nat) : Dev :=
  let b := d.boot
  if !inRecovery b || b.mgc || b.passed2 || b.kat != some true then d
  else
    let r := bootTest o d bs bad
    match r.2 with
    | none => bootPass r.1 2 bs
    | some k => imageRefused r.1 bs 0 2 k

/-! ### Training, firmware and Ready (R500 to R507, R525 to R530) -/

/-- 512 bits of draw k of the TRNG. -/
def drawKey (k : Nat) : BitVec 512 := BitVec.ofNat 512 (leNat ((List.range 64).map (Config.trng k)))
/-- The TU loads the eight DMC key slots, each with 512 bits from the TRNG, once training is complete and its own tests have passed (R525). -/
def loadKeys (d : Dev) : Dev :=
  if d.boot.training = some true ∧ d.boot.kat = some true then
    { d with dmc := { d.dmc with keyLoaded := 0xFF#8, keys := (List.range 8).map fun i => drawKey (d.freeNo + i) }, freeNo := d.freeNo + 8 }
  else d

/-- TU_KNOWN_ANSWER_TESTS (R525). -/
def knownAnswer (d : Dev) (ok : Bool) : Dev :=
  if d.boot.kat.isSome then d else loadKeys (updBoot d fun b => { b with kat := some ok, failed := b.failed || !ok })

/-- TRAINING_COMPLETE (R525): DRAM_SIZE, DATA_RATE, packages and ranks as training found them. -/
def trainingDone (d : Dev) (ok : Bool) (size rate packages ranks : Nat) : Dev :=
  if d.boot.training.isSome then d
  else
    let d := updBoot d fun b => { b with training := some ok, failed := b.failed || !ok }
    if ok then
      let d := setCnt (setCnt (setCnt (setCnt d 0x2400 1 size) 0x2400 2 rate) 0x2400 3 packages) 0x2400 4 ranks
      loadKeys { d with dmc := { d.dmc with trained := true } }
    else d

/-- MGC_FIRMWARE_START (R526, R482): once the first stage has passed; the bellows starts with T = 36. -/
def mgcStart (d : Dev) (version : Nat) : Dev :=
  if d.boot.passed2 && !d.boot.mgc then
    let d := setStage (setCnt (updBoot d fun b => { b with mgc := true }) 0x1000 7 version) 1
    (List.range 16).foldl writeLimits d
  else d

/-- AC0_RELEASE (R526): no earlier than the end of training. -/
def ac0Release (d : Dev) : Dev :=
  if d.boot.mgc && !d.boot.ac0 && d.boot.training.isSome then
    setStage { updBoot d (fun b => { b with ac0 := true }) with apc := { d.apc with harts := d.apc.harts ||| 1#6 } } 2
  else d

/-- CAN_JOIN (R530). -/
def canJoin (d : Dev) : Dev := if d.boot.mgc then updMgc d fun m => { m with joined := true } else d

/-- SELF_TEST_START (R529): at the later of the restore and RELEASE. -/
def selfTestStart (d : Dev) : Dev :=
  if d.boot.restored && bootStage d == 4 && !d.boot.tested then updBoot d fun b => { b with testing := true } else d

/-- Start-up cause of array a of core n (R502). -/
def startCause (o : Otp) (fail : BitVec 64) (health : List Byte) (n a : Nat) : Nat :=
  if bit (fusedMask o) (4 * n + a) then 1 else if bit fail (4 * n + a) then 2 else if (bfield health (4 * n) 1).testBit a then 3 else 0
/-- The start-up map of core n (R502). -/
def mapCore (o : Otp) (fail : BitVec 64) (badMem : BitVec 16) (health : List Byte) (d : Dev) (n : Nat) : Dev :=
  let cs := (List.range 4).map (startCause o fail health n)
  let d := (List.range 4).foldl (fun d a => updArr d n a fun x => { x with cause := cs.getD a 0 }) d
  let two := decide (2 ≤ cs.countP (· != 0))
  if two || bit badMem n then updCore d n fun c => { c with disabled := true, disableCause := if bit badMem n then 2 else 1 } else d
/-- Cores not disabled: CORES_ENABLED. -/
def coresEnabled (d : Dev) : Nat := (List.range 16).countP fun n => !(coreOf d n).disabled

/-- SELF_TEST_COMPLETE (R500 to R502, R507): the arrays and the core memories that failed; the device becomes Ready, or Failed. -/
def selfTestDone (o : Otp) (d : Dev) (fail : BitVec 64) (badMem : BitVec 16) : Dev :=
  if d.boot.testing && !d.boot.tested then
    let d := (List.range 16).foldl (mapCore o fail badMem (domOf d 0x2310 1)) d
    let d := setCnt d 0x2310 4 (fail &&& ~~~(fusedMask o)).toNat
    let d := updBoot d fun b => { b with testing := false, tested := true }
    if coresEnabled d = 0 || d.boot.failed then setCnt d 0x1010 1 3
    else
      let d := setCnt (setCnt d 0x1010 1 1) 0x1010 5 (min 65535 (uptimeMs d))
      let d := drawNonce d
      if disableMap d = (fusedMask o).toNat then d else postEvent d 0x1004 2 srcMgc (disableMap d)
  else d

/-! ### Commands -/

/-- PORST_N_FALL (R546): `mask` names the fuses that a programming in progress has blown (R522). -/
def execPorstNFall (mask : BitVec 64) (s : State) : Host.Outcome State Fault Refusal := .next (porstFall s mask)
/-- PORST_N_RISE (R546): BOOT_MODE, node-ID straps and TESTMODE. -/
def execPorstNRise (mode : Fin 4) (node : BitVec 6) (test : Bool) (s : State) : Host.Outcome State Fault Refusal := .next (porstRise s mode node.toNat test)
/-- SYSRST_N_ASSERT (R547): width of the low level in ns. -/
def execSysrstNAssert (ns : BitVec 32) (mask : BitVec 64) (s : State) : Host.Outcome State Fault Refusal := .next (sysrstAssert s ns.toNat mask)
/-- SYSRST_N_RISE (R547). -/
def execSysrstNRise (s : State) : Host.Outcome State Fault Refusal := .next (sysrstRise s)
/-- WATCHDOG_RESET (R547). -/
def execWatchdogReset (mask : BitVec 64) (s : State) : Host.Outcome State Fault Refusal := .next (warmReset s 2 mask false)
/-- SOFTWARE_RESET (R547). -/
def execSoftwareReset (mask : BitVec 64) (s : State) : Host.Outcome State Fault Refusal := .next (warmReset s 3 mask false)
/-- TAP_RESET (R549). -/
def execTapReset (s : State) : Host.Outcome State Fault Refusal := .next (onDev s fun d => { d with ctl := { d.ctl with tap := .idcode } })
/-- TAP_INSTRUCTION (R536). -/
def execTapInstruction (t : TapOp) (s : State) : Host.Outcome State Fault Refusal := .next (onDev s fun d => tapInstruction d t)
/-- TU_KNOWN_ANSWER_TESTS (R525). -/
def execTuKnownAnswerTests (ok : Bool) (s : State) : Host.Outcome State Fault Refusal := nextMgc s fun d => knownAnswer d ok
/-- BOOT_DIRECTORY_READ (R514): medium 0 xSPI, 1 eMMC. -/
def execBootDirectoryRead (m : Fin 2) (main backup : List Byte) (s : State) : Host.Outcome State Fault Refusal :=
  nextDev s fun d => directoryRead d m main backup
/-- BOOT_IMAGE_VERIFY (R518). -/
def execBootImageVerify (bs : List Byte) (bad : Fin 3) (s : State) : Host.Outcome State Fault Refusal := nextDev s fun d => bootImage s.otp d bs bad
/-- UART_RECOVERY_CONTAINER (R516). -/
def execUartRecoveryContainer (bs : List Byte) (bad : Fin 3) (s : State) : Host.Outcome State Fault Refusal := nextDev s fun d => uartImage s.otp d bs bad
/-- TRAINING_COMPLETE (R525). -/
def execTrainingComplete (ok : Bool) (size : BitVec 36) (rate : BitVec 16) (packages ranks : Byte) (s : State) : Host.Outcome State Fault Refusal :=
  nextDev s fun d => trainingDone d ok size.toNat rate.toNat packages.toNat ranks.toNat
/-- MGC_FIRMWARE_START (R526): the firmware's version. -/
def execMgcFirmwareStart (version : W32) (s : State) : Host.Outcome State Fault Refusal := nextMgc s fun d => mgcStart d version.toNat
/-- AC0_RELEASE (R526). -/
def execAc0Release (s : State) : Host.Outcome State Fault Refusal := nextDev s ac0Release
/-- CAN_JOIN (R530). -/
def execCanJoin (s : State) : Host.Outcome State Fault Refusal := nextMgc s canJoin
/-- SELF_TEST_START (R529). -/
def execSelfTestStart (s : State) : Host.Outcome State Fault Refusal := nextDev s selfTestStart
/-- SELF_TEST_COMPLETE (R500): the arrays that failed, and the cores whose memories failed. -/
def execSelfTestComplete (fail : BitVec 64) (badMem : BitVec 16) (s : State) : Host.Outcome State Fault Refusal :=
  nextDev s fun d => selfTestDone s.otp d fail badMem

end Sys2Proof.Machine
end

