-- ==== Sys2Proof/Machine/Ledger.lean ====
section
/-! DEFINITION. Sensor control and the exposure ledger: software commands, in-band interrupts, arming, issuing and the end of ledger transfers, and the entry in force (chapters 10 and 12). -/

namespace Sys2Proof.Machine

open Sys2Proof

/-! ### The bus (R350 to R354) -/

/-- Change camera port p's controller. -/
def updI3c (d : Dev) (p : Nat) (g : I3c → I3c) : Dev := updCam d p fun c => { c with i3c := g c.i3c }

/-- A ledger write is due or running (R353). -/
def ledgerBusy (c : Cam) : Bool := !c.issuing.isEmpty

/-- STATUS of the controller (Table 10.4). -/
def i3cStatus (c : Cam) : W64 := BitVec.ofNat 64 (b2n c.i3c.busy + 2 * b2n (ledgerBusy c))

/-- The CMD word of Table 10.5. -/
def i3cWord (kind addr wlen rlen ccc : Nat) (direct : Bool) : W64 :=
  BitVec.ofNat 64 (pack [(56, 8, ccc), (30, 2, kind), (23, 7, addr), (15, 8, wlen), (7, 8, rlen), (0, 1, b2n direct)])

/-- A write to CMD (R352): discarded and counted while BUSY is set; otherwise the command takes the bus, or waits behind the ledger. -/
def i3cCommand (d : Dev) (p : Nat) (v : W64) : Dev :=
  let c := cam d p
  if c.i3c.busy then bump d (camB p + 3) 9 4 1
  else updI3c d p fun x => { x with busy := true, running := !ledgerBusy c, cmd := v }

/-- The fields of the running command are out of range (Table 10.5). -/
def i3cBadFields (v : W64) : Bool := decide (128 < fld v 15 8) || decide (128 < fld v 7 8)

/-- Write bytes into a buffer of at most 128. -/
def i3cPut (t : Sparse Byte) (k : Nat) : List Byte → Sparse Byte
  | [] => t
  | b :: bs => i3cPut (if k < 128 then sset (fun _ => 0#8) t k b else t) (k + 1) bs

/-- Bytes that a software command sends: WLEN bytes of TX_BUF, a CCC's code ahead of them; a read sends none (R352, Table 10.5). -/
def i3cSent (x : I3c) : List (Nat × List Byte) :=
  let bs := (List.range (fld x.cmd 15 8)).map fun k => sget (fun _ => 0#8) x.tx k
  let kind := fld x.cmd 30 2
  if kind = 1 then [] else [(fld x.cmd 23 7, if kind = 3 then BitVec.ofNat 8 (fld x.cmd 56 8) :: bs else bs)]

/-- Most bytes that a software command reads: RLEN, none for a write (Table 10.5). -/
def i3cReads (v : W64) : Nat := if fld v 30 2 = 0 then 0 else fld v 7 8

/-- I3C_COMMAND_DONE (R352): RX_BUF, then RESULT, then DONE. A command whose fields are out of range ends with code 5 and no bytes. -/
def i3cDone (d : Dev) (p code bytes : Nat) (rx : List Byte) : Dev :=
  let x := (cam d p).i3c
  if x.running then
    let bad := i3cBadFields x.cmd
    let code := if bad then 5 else code
    let bytes := if bad then 0 else bytes
    let d := updI3c d p fun x => { x with
      rx := if bad then x.rx else i3cPut x.rx 0 (rx.take (i3cReads x.cmd))
      sent := if code = 0 then i3cSent x else x.sent
      result := BitVec.ofNat 64 (bytes % 65536 * 65536 + code % 16)
      irq := x.irq ||| 1#3, busy := false, running := false }
    if code = 0 then d else bump d (camB p + 3) 9 4 1
  else d

/-- IBI (R354): in I3C mode the interrupt is acknowledged and its payload byte, if any, taken into IBI_INFO. -/
def ibi (d : Dev) (p addr : Nat) (payload : Option Byte) : Dev :=
  if setting d (camB p + 1) 1 = 0 then
    updI3c d p fun x => { x with
      irq := x.irq ||| 2#3
      ibi := BitVec.ofNat 64 (b2n payload.isSome * 65536 + addr % 256 * 256 + (payload.getD 0#8).toNat) }
  else d

/-! ### Ledger entries (R406 to R416) -/

/-- Entry e of port p. -/
def ledgerAt (c : Cam) (e : Nat) : LedgerEntry := sget (fun _ => {}) c.ledger e
/-- Change entry e of port p. -/
def updLedger (d : Dev) (p e : Nat) (g : LedgerEntry → LedgerEntry) : Dev :=
  updCam d p fun c => { c with ledger := supd (fun _ => {}) c.ledger e g }
/-- The ledger image context of port p, and its line time in ns. -/
def ledgerIc (d : Dev) (p : Nat) : Nat := setting d (0x4840 + p) 1
def lineTime (d : Dev) (p : Nat) : Nat := setting d (0x4840 + p) 2

/-- Frame n of image context k has opened, or been dropped, since its start (R340). -/
def frameStarted (d : Dev) (k n : Nat) : Bool := fnLive d (icFn k) && decide (n < (ic d k).count)

/-- Issue moment of an entry for frame n, once it is known: the close of the frame before, or for frame 0 the start, plus VB_LINE lines (R408). -/
def issueMoment (d : Dev) (p : Nat) (x : LedgerEntry) : Option Nat :=
  let k := ledgerIc d p
  let c := ic d k
  let n := x.frame.toNat
  if !fnLive d (icFn k) then none
  else if n = 0 then (if c.count = 0 then some (c.closeNs + x.vbLine.toNat * lineTime d p) else none)
  else if c.count = n && !c.dropping && (openFrame d k).isNone then some (c.closeNs + x.vbLine.toNat * lineTime d p)
  else none

/-- An entry is Missed: counted, and event 0x0C01 (R413). -/
def missEntry (d : Dev) (p e : Nat) : Dev :=
  let x := ledgerAt (cam d p) e
  let d := updLedger d p e fun x => { x with state := 5#4 }
  postEvent (bump d (0x4840 + p) 5 4 1) 0x0C01 0 srcStats (p + e * 16 + x.frame.toNat * 2 ^ 32)

/-- An entry is armed too late: its frame has opened, or its issue moment has passed (R413). -/
def armedLate (d : Dev) (p : Nat) (x : LedgerEntry) : Bool :=
  frameStarted d (ledgerIc d p) x.frame.toNat || (match issueMoment d p x with
    | some t => decide (t < d.clk.ns)
    | none => false)

/-- LEDGER_ARM (R407, R413): a write of STATE 1 and TAG to word 0; discarded while the entry is Armed or Issuing. -/
def ledgerArm (d : Dev) (p e : Nat) (tag : Byte) : Dev :=
  let x := ledgerAt (cam d p) e
  if x.state = 1#4 ∨ x.state = 2#4 then d
  else
    let d := updLedger d p e fun x => { x with state := 1#4, tag := tag }
    if armedLate d p x then missEntry d p e else d

/-- LEDGER_DISARM (R407): a write of STATE 0 and TAG to word 0; discarded while the entry is Issuing. -/
def ledgerDisarm (d : Dev) (p e : Nat) (tag : Byte) : Dev :=
  if (ledgerAt (cam d p) e).state = 2#4 then d else updLedger d p e fun x => { x with state := 0#4, tag := tag }

/-- Whether the issue moment of an Armed entry can have come: its frame is frame 0, or the frame before has closed (R408). -/
def mayLedger (d : Dev) (p : Nat) (x : LedgerEntry) : Bool :=
  let k := ledgerIc d p
  x.state == 1#4 && fnLive d (icFn k) && (x.frame == 0#32 || frameStarted d k x.frame.toNat || (issueMoment d p x).isSome)

/-- Of the Armed entries due with entry e, the lowest (R409). -/
def issueChoice (c : Cam) (e : Nat) : Nat :=
  let x := ledgerAt c e
  ((List.range 16).find? fun k => let y := ledgerAt c k; y.state == 1#4 && y.frame == x.frame && y.vbLine == x.vbLine).getD e

/-- LEDGER_ISSUE (R409, R353): at its issue moment an Armed entry becomes Issuing with the port's next SEQ; behind a running software transfer it waits, and the delay is counted. -/
def ledgerIssue (d : Dev) (p e : Nat) : Dev :=
  let c := cam d p
  if mayLedger d p (ledgerAt c e) then
    let e := issueChoice c e
    let d := updLedger d p e fun x => { x with state := 2#4, seq := BitVec.ofNat 16 c.issues }
    let d := updCam d p fun c => { c with issues := c.issues + 1, issuing := c.issuing ++ [e] }
    let d := bump d (0x4840 + p) 3 4 1
    if c.i3c.running then updI3c (bump d (camB p + 3) 0x0A 4 1) p fun x => { x with irq := x.irq ||| 4#3 } else d
  else d

/-- A waiting software command takes the bus once no ledger write is due (R353). -/
def i3cResume (d : Dev) (p : Nat) : Dev :=
  updCam d p fun c => if c.i3c.busy && c.issuing.isEmpty then { c with i3c := { c.i3c with running := true } } else c

/-- The transfer of entry e ended well: Done, or Late when the frame has started (R411, R412). -/
def ledgerGood (d : Dev) (p e : Nat) (issue : Nat) : Dev :=
  let x := ledgerAt (cam d p) e
  let late := frameStarted d (ledgerIc d p) x.frame.toNat
  let app := x.frame.toNat + x.latency.toNat + b2n late
  let d := updLedger d p e fun x => { x with state := if late then 4#4 else 3#4, result := 0#4, applied := BitVec.ofNat 32 app }
  let d := updCam d p fun c => { c with issued := c.issued ++ [{ entry := e, seq := x.seq, tag := x.tag, applied := app, late := late, issue := issue }] }
  if late then postEvent (bump d (0x4840 + p) 4 4 1) 0x0C02 0 srcStats (p + e * 16 + x.seq.toNat * 256 + app % 2 ^ 32 * 2 ^ 32) else d

/-- The transfer of entry e failed (R353, R415). -/
def ledgerFail (d : Dev) (p e issue code : Nat) : Dev :=
  let x := ledgerAt (cam d p) e
  let d := updLedger d p e fun x => { x with state := 6#4, result := BitVec.ofNat 4 code }
  let d := updCam d p fun c => { c with doubts := c.doubts ++ [(x.frame.toNat + x.latency.toNat, issue)] }
  postEvent (bump d (0x4840 + p) 6 4 1) 0x0A04 0 (srcCrx p) (p + code % 16 * 256 + e * 65536)

/-- Target of the ledger's writes: DYN_ADDR when it is non-zero, SENSOR_ADDR otherwise (R351). -/
def ledgerTarget (d : Dev) (p : Nat) : Nat :=
  if setting d (camB p + 1) 5 = 0 then setting d (camB p + 1) 4 else setting d (camB p + 1) 5

/-- A register address or datum of a write word, most significant byte first; an 8-bit field is its low byte (R409, Table 12.4). -/
def ledgerField (wide : Bool) (v : Nat) : List Byte :=
  if wide then [BitVec.ofNat 8 (v / 256), BitVec.ofNat 8 v] else [BitVec.ofNat 8 v]

/-- The COUNT + 1 private writes of an entry's transfer: the register address, then the data (R409). -/
def ledgerSent (target : Nat) (x : LedgerEntry) : List (Nat × List Byte) :=
  (List.range (x.count.toNat + 1)).map fun i =>
    let w := (sget (fun _ => 0#32) x.writes i).toNat
    (target, ledgerField x.reg16 (w / 65536) ++ ledgerField x.data16 w)

/-- LEDGER_TRANSFER_STOP (R411, R412, R415): the STOP of the oldest Issuing entry's transfer, with its RESULT code. -/
def ledgerStop (d : Dev) (p code : Nat) : Dev :=
  let c := cam d p
  match c.issuing with
  | e :: rest =>
    if c.i3c.running then d
    else
      let issue := c.issues - c.issuing.length
      let d := updCam d p fun c => { c with
        issuing := rest
        i3c := { c.i3c with sent := if code = 0 then ledgerSent (ledgerTarget d p) (ledgerAt c e) else c.i3c.sent } }
      i3cResume (if code = 0 then ledgerGood d p e issue else ledgerFail d p e issue code) p
  | [] => d

/-- Best identity for frame m: the greatest APPLIED_FRAME no greater than m, the later issue among equals (R414). -/
def inForce (l : List LedgerId) (m : Nat) : Option LedgerId :=
  (l.filter fun x => decide (x.applied ≤ m)).foldl (fun b x => match b with
    | some y => if y.applied < x.applied || (y.applied == x.applied && decide (y.issue < x.issue)) then some x else some y
    | none => some x) none

/-- At the frame start of frame m of the ledger image context, the port fixes the entry in force; identities it replaces are forgotten (R414, R415). -/
def fixForce (m : Nat) (c : Cam) : Cam :=
  let b := inForce c.issued m
  let doubts := match b with
    | some x => c.doubts.filter fun q => decide (x.issue < q.2)
    | none => c.doubts
  { c with issued := c.issued.filter fun x => decide (m < x.applied) || some x == b
           doubts := doubts, force := { entry := b, unsure := doubts.any fun q => decide (q.1 ≤ m) } }

/-- Armed entries of a port become Missed when its ledger image context becomes Stopped (R413). -/
def missArmed (d : Dev) (p : Nat) : Dev :=
  ((List.range 16).filter fun e => (ledgerAt (cam d p) e).state == 1#4).foldl (fun d e => missEntry d p e) d

/-- IN_FORCE of a port (Table 12.6). -/
def inForceReg (c : Cam) : W64 := match c.force.entry with
  | some x => BitVec.ofNat 64 (pack [(32, 32, x.applied), (16, 16, x.seq.toNat), (12, 4, x.entry), (4, 8, x.tag.toNat), (3, 1, b2n c.force.unsure), (2, 1, b2n x.late), (0, 1, 1)])
  | none => BitVec.ofNat 64 (8 * b2n c.force.unsure)

/-- The two header words and the write words of an entry (Table 12.4). -/
def ledgerWord0 (x : LedgerEntry) : Nat := pack [(32, 32, x.applied.toNat), (28, 4, x.state.toNat), (24, 4, x.result.toNat), (8, 16, x.seq.toNat), (0, 8, x.tag.toNat)]
def ledgerWord1 (x : LedgerEntry) : Nat :=
  pack [(32, 32, x.frame.toNat), (20, 12, x.vbLine.toNat), (18, 2, x.latency.toNat), (12, 4, x.count.toNat), (11, 1, b2n x.reg16), (10, 1, b2n x.data16)]
/-- The 128 bytes of an entry. -/
def ledgerBytes (x : LedgerEntry) : List Byte :=
  leBytes 8 (ledgerWord0 x) ++ leBytes 8 (ledgerWord1 x) ++ List.replicate 48 0#8
    ++ (List.range 16).flatMap fun i => leBytes 4 (sget (fun _ => 0#32) x.writes i).toNat

/-- A write of word 1 of entry e (R407). -/
def ledgerWrite1 (d : Dev) (p e : Nat) (v : W64) : Dev :=
  updLedger d p e fun x => if x.state = 1#4 ∨ x.state = 2#4 then x else
    { x with frame := BitVec.ofNat 32 (fld v 32 32), vbLine := BitVec.ofNat 12 (fld v 20 12), latency := BitVec.ofNat 2 (fld v 18 2)
             count := BitVec.ofNat 4 (fld v 12 4), reg16 := bit v 11, data16 := bit v 10 }
/-- A write of write word i of entry e (R407). -/
def ledgerWriteW (d : Dev) (p e i : Nat) (v : W32) : Dev :=
  updLedger d p e fun x => if x.state = 1#4 ∨ x.state = 2#4 then x else { x with writes := sset (fun _ => 0#32) x.writes i v }
/-- A write of word 0 of entry e: STATE 1 arms, STATE 0 disarms, any other value is discarded (R407, Table 12.5). -/
def ledgerWrite0 (d : Dev) (p e : Nat) (v : W64) : Dev :=
  if fld v 28 4 = 1 then ledgerArm d p e (BitVec.ofNat 8 (fld v 0 8))
  else if fld v 28 4 = 0 then ledgerDisarm d p e (BitVec.ofNat 8 (fld v 0 8))
  else d

/-! ### Trigger outputs (R355) -/

/-- The trigger entries as they act from a boundary on. -/
def trigNow (d : Dev) (p : Nat) : Nat × Nat × Nat × Nat × Nat :=
  (setting d (camB p + 2) 1, setting d (camB p + 2) 2, setting d (camB p + 2) 3, setting d (camB p + 2) 4, setting d (camB p + 2) 5)

/-- At a breath boundary the trigger takes its settings and decides whether a pulse of this breath is sent or skipped. -/
def trigBoundary (periodNs : Nat) (d : Dev) (p : Nat) : Dev :=
  let t := trigNow d p
  let d := updCam d p fun c => { c with trig := t, pulseDue := false }
  if isReady d && t.1 == 1 && d.breath.number % max 1 t.2.2.2.2 == 0 then
    if (t.2.1 + t.2.2.1) * 1000 < periodNs then updCam d p fun c => { c with pulseDue := true }
    else bump d (camB p + 3) 0x0C 4 1
  else d

/-- TRIGGER_PULSE_START (R355). -/
def trigStart (d : Dev) (p : Nat) : Dev :=
  if (cam d p).pulseDue then bump (updCam d p fun c => { c with pulseDue := false, pulse := true }) (camB p + 3) 0x0B 4 1 else d
/-- TRIGGER_PULSE_END (R355). -/
def trigEnd (d : Dev) (p : Nat) : Dev := updCam d p fun c => { c with pulse := false }

/-- Level of CAMTRIGp (R355): low before Ready, then inactive but during a pulse. -/
def camTrigPin (d : Dev) (p : Nat) : Bool := isReady d && ((cam d p).pulse != ((cam d p).trig.2.2.2.1 == 1))
/-- Level of CAMRSTp_N (R335): low until Ready, then CAMRST_RELEASE. -/
def camRstPin (d : Dev) (p : Nat) : Bool := isReady d && setting d (camB p) 6 == 1

/-- I3C_WRITE (R352, Table 10.5). -/
def execI3cWrite (p : Fin 4) (addr : BitVec 7) (wlen : BitVec 8) (s : State) : Host.Outcome State Fault Refusal :=
  nextDev s fun d => i3cCommand d p (i3cWord 0 addr.toNat wlen.toNat 0 0 false)
/-- I3C_READ (R352). -/
def execI3cRead (p : Fin 4) (addr : BitVec 7) (rlen : BitVec 8) (s : State) : Host.Outcome State Fault Refusal :=
  nextDev s fun d => i3cCommand d p (i3cWord 1 addr.toNat 0 rlen.toNat 0 false)
/-- I3C_WRITE_THEN_READ (R352). -/
def execI3cWriteThenRead (p : Fin 4) (addr : BitVec 7) (wlen rlen : BitVec 8) (s : State) : Host.Outcome State Fault Refusal :=
  nextDev s fun d => i3cCommand d p (i3cWord 2 addr.toNat wlen.toNat rlen.toNat 0 false)
/-- I3C_CCC (R352). -/
def execI3cCcc (p : Fin 4) (ccc : Byte) (addr : BitVec 7) (wlen rlen : BitVec 8) (direct : Bool) (s : State) : Host.Outcome State Fault Refusal :=
  nextDev s fun d => i3cCommand d p (i3cWord 3 addr.toNat wlen.toNat rlen.toNat ccc.toNat direct)
/-- I3C_COMMAND_DONE (R352): its code, the bytes transferred and the bytes read. -/
def execI3cCommandDone (p : Fin 4) (code : Fin 5) (bytes : BitVec 9) (rx : List Byte) (s : State) : Host.Outcome State Fault Refusal :=
  nextDev s fun d => i3cDone d p code bytes.toNat rx
/-- IBI (R354): the target's dynamic address and its payload byte. -/
def execIbi (p : Fin 4) (addr : BitVec 7) (payload : Option Byte) (s : State) : Host.Outcome State Fault Refusal :=
  nextDev s fun d => ibi d p addr.toNat payload
/-- TRIGGER_PULSE_START (R355). -/
def execTriggerPulseStart (p : Fin 4) (s : State) : Host.Outcome State Fault Refusal := nextDev s fun d => trigStart d p
/-- TRIGGER_PULSE_END (R355). -/
def execTriggerPulseEnd (p : Fin 4) (s : State) : Host.Outcome State Fault Refusal := nextDev s fun d => trigEnd d p
/-- LEDGER_ARM (R407). -/
def execLedgerArm (p : Fin 4) (e : Fin 16) (tag : Byte) (s : State) : Host.Outcome State Fault Refusal := nextDev s fun d => ledgerArm d p e tag
/-- LEDGER_DISARM (R407). -/
def execLedgerDisarm (p : Fin 4) (e : Fin 16) (tag : Byte) (s : State) : Host.Outcome State Fault Refusal := nextDev s fun d => ledgerDisarm d p e tag
/-- LEDGER_ISSUE (R409). -/
def execLedgerIssue (p : Fin 4) (e : Fin 16) (s : State) : Host.Outcome State Fault Refusal := nextDev s fun d => ledgerIssue d p e
/-- LEDGER_TRANSFER_STOP (R411): with its RESULT code. -/
def execLedgerTransferStop (p : Fin 4) (code : Fin 6) (s : State) : Host.Outcome State Fault Refusal := nextDev s fun d => ledgerStop d p code

end Sys2Proof.Machine
end

