-- ==== Sys2Proof/Machine/Camera.lean ====
section
/-! DEFINITION. The camera receivers: bursts, packet headers, frame starts and ends, lines and embedded data (chapter 10), with the admission governor at the frame start (chapter 7). -/

namespace Sys2Proof.Machine

open Sys2Proof

/-! ### Link (R331, R333, R334) -/

/-- HS termination is on: the device is Ready and the port Running, or still Stopping (R331, R349). -/
def termOn (d : Dev) (p : Nat) : Bool := isReady d && (actual d (camFn p) == 2 || actual d (camFn p) == 3)

/-- Count a burst in LINK_ERRORS. -/
def linkError (d : Dev) (p : Nat) : Dev := updCam (bump d (camB p + 3) 8 4 1) p fun c => { c with brLink := c.brLink + 1 }

/-- HS_BURST: an unterminated port only counts it; a burst without sync on every lane, or before a required initial deskew, is discarded (R331, R333, R334). -/
def hsBurst (d : Dev) (p : Nat) (sync : Bool) : Dev :=
  if !termOn d p then bump d (camB p + 3) 7 4 1
  else
    let lost := !sync || (decide (1500 < setting d (camB p) 2) && !(cam d p).deskewed)
    let d := updCam d p fun c => { c with burst := true, skip := lost, header := none }
    if lost then linkError d p else d

/-- IDLE_BURSTS (R331). -/
def idleBurst (d : Dev) (p : Nat) : Dev := if termOn d p then d else bump d (camB p + 3) 7 4 1

/-- DESKEW_SEQUENCE (R333). -/
def deskew (d : Dev) (p : Nat) (initial : Bool) : Dev :=
  if termOn d p then updCam d p fun c => { c with deskewed := c.deskewed || initial } else d

/-! ### Routing (R337, R349) -/

/-- Image contexts of port p and virtual channel vc that take its packets: Starting or Running, or Stopping with a frame still open. -/
def routed (d : Dev) (p vc : Nat) : List Nat :=
  (List.range 16).filter fun n => icPort d n == p && icVc d n == vc && (fnUp d (icFn n) || (openFrame d n).isSome)

/-- Image context that image data of a type goes to. -/
def imageTarget (d : Dev) (p vc dt : Nat) : Option Nat := (routed d p vc).find? fun n => icType d n == dt

/-- Count a packet in UNROUTED. -/
def unrouted (d : Dev) (p : Nat) : Dev := bump d (camB p + 3) 6 4 1

/-! ### Lines (R336, R339, R341, R344, R345) -/

/-- Bits per pixel and pixels and bytes of a packing group (Table 10.2). -/
def rawBits (dt : Nat) : Nat := if dt = 0x2B then 10 else if dt = 0x2C then 12 else if dt = 0x2D then 14 else 16
/-- Bytes of a line (R339, Table 10.2). -/
def lineBytes (dt w : Nat) : Nat := if dt = 0x1E then 2 * w else w * rawBits dt / 8

/-- Pixels of a packing group of each RAW type, from its bytes (Table 10.2; places of the low bits as CSI-2 packs them, log 33). -/
def unpackGroup (dt : Nat) (b : List Byte) : List Nat :=
  let at' (i : Nat) : Nat := (b.getD i 0#8).toNat
  match dt with
  | 0x2B => (List.range 4).map fun i => at' i * 4 + at' 4 / 4 ^ i % 4
  | 0x2C => (List.range 2).map fun i => at' i * 16 + at' 2 / 16 ^ i % 16
  | 0x2D => let lo := at' 4 + 256 * at' 5 + 65536 * at' 6
            (List.range 4).map fun i => at' i * 64 + lo / 64 ^ i % 64
  | _ => [at' 0 * 256 + at' 1]
/-- Bytes of a packing group. -/
def groupBytes (dt : Nat) : Nat := if dt = 0x2B then 5 else if dt = 0x2C then 3 else if dt = 0x2D then 7 else 2

/-- Samples of a line: pixels, or for YUV422 the bytes. -/
def lineSamples (dt : Nat) (bs : List Byte) : List Nat :=
  if dt = 0x1E then bs.map (·.toNat) else (chunks (groupBytes dt) (bs.length / groupBytes dt) bs).flatMap (unpackGroup dt)

/-- Bytes of a port's lines now in its crossing FIFO (R341). -/
def fifoUsed (d : Dev) (p : Nat) : Nat := ((d.ipl.rx.filter fun x => x.port == p).map (·.bytes)).sum

/-- The frame's next line arrives: beyond HEIGHT it is dropped as extra, without room in the FIFO it begins the mid-frame overflow, otherwise it enters the FIFO (R341, R344, R345). -/
def takeLine (d : Dev) (p n : Nat) (f : IcFrame) (bad : Bool) (bytes : Nat) (px : List Nat) : Dev :=
  if f.incomplete then d
  else if icHeight d n ≤ f.lines then updFrame (bump d (icX n + 1) 0x12 4 1) n f.no fun f => { f with extra := f.extra + 1, long := true }
  else if 16384 < fifoUsed d p + bytes then updFrame d n f.no fun f => { f with incomplete := true }
  else
    let d := { d with ipl := { d.ipl with rx := d.ipl.rx ++ [{ port := p, ctx := n, frame := f.no, line := f.lines, bad := bad, bytes := bytes, px := px }] } }
    let d := if bad then bump d (icX n + 1) 0x11 4 1 else d
    updFrame d n f.no fun f => { f with lines := f.lines + 1, bad := f.bad + b2n bad }

/-- Samples of a line of the configured width. -/
def sampleCount (d : Dev) (n : Nat) : Nat := if icYuv d n then 2 * icWidth d n else icWidth d n

/-- An inserted bad line, whose pixel values are undefined (R336; log 11). -/
def insertBad (p : Nat) (d : Dev) (n : Nat) : Dev :=
  match openFrame d n with
  | some f =>
    let (k, d) := drawFree d
    let bits := if icYuv d n then 8 else rawBits (icType d n)
    takeLine d p n f true (lineBytes (icType d n) (icWidth d n)) ((List.range (sampleCount d n)).map fun x => Config.badPixel k x % 2 ^ bits)
  | none => d

/-! ### Packet headers (R330, R336) -/

/-- Image data types of Table 10.1. -/
def imageTypes : List Nat := [0x2B, 0x2C, 0x2D, 0x2E, 0x1E]

/-- PACKET_HEADER: ecc 0 clean, 1 a corrected bit, 2 uncorrectable. -/
def packetHeader (d : Dev) (p vc dt word ecc : Nat) : Dev :=
  let c := cam d p
  if !(termOn d p && c.burst && !c.skip) then d
  else if ecc = 2 then
    let d := updCam (bump d (camB p + 3) 3 4 1) p fun c => { c with skip := true, header := none, brHdr := c.brHdr + 1 }
    ((List.range 16).filter fun n => icPort d n == p).foldl (insertBad p) d
  else
    let d := bump (if ecc = 1 then bump d (camB p + 3) 2 4 1 else d) (camB p + 3) 1 8 1
    if dt = 0x00 ∨ dt = 0x01 ∨ dt = 0x12 ∨ imageTypes.contains dt = true then updCam d p fun c => { c with header := some (vc, dt, word) }
    else
      let d := updCam d p fun c => { c with header := none }
      if dt = 0x02 ∨ dt = 0x03 ∨ (0x08 ≤ dt ∧ dt ≤ 0x0F) then d else unrouted d p

/-- The pending header of port p, when its data type is `dt`'s kind. -/
def pendingHeader (d : Dev) (p : Nat) (kind : Nat → Bool) : Option (Nat × Nat × Nat) :=
  match (cam d p).header with
  | some h => if kind h.2.1 then some h else none
  | none => none
/-- The header has been used. -/
def dropHeader (d : Dev) (p : Nat) : Dev := updCam d p fun c => { c with header := none }

/-! ### The close of a frame (R342, R343, R346) -/

/-- Steps 3 and 4 of R346: length register and signal, or LEN_SKIPPED. -/
def closeLengths (d : Dev) (n lines : Nat) : Dev :=
  let c := icX n + 1
  let w := setting d c 6
  let reg := setting d c 7
  let sig := setting d c 8
  if reg < 128 ∧ sig < 128 then d
  else if (wcOf d w).state = 1#4 then
    let d := if 128 ≤ reg then setLen d w (reg % 64) (BitVec.ofNat 32 lines) else d
    if 128 ≤ sig then addSignal d w (sig % 64) 1#32 else d
  else bump d c 0x13 4 1

/-- Close the open frame of image context n. -/
def closeFrame (d : Dev) (n : Nat) (noFe : Bool) : Dev :=
  match openFrame d n with
  | none => d
  | some f =>
    let p := icPort d n
    let g := { f with opened := false, noFe := noFe, short := decide (f.lines < icHeight d n), duration := (d.clk.ns - f.startNs) % 2 ^ 32 }
    let d := updIc (updFrame d n f.no fun _ => g) n fun c => { c with closeNs := d.clk.ns }
    let c := icX n + 1
    let d := bump d c 0x0D 4 1
    let d := if g.short then bump d c 0x0E 4 1 else d
    let d := if g.long then bump d c 0x0F 4 1 else d
    let d := if g.incomplete then bump d c 0x10 4 1 else d
    let d := setDom d c 0x15 (stampBytes p n g)
    let d := closeLengths d n g.lines
    if g.short || g.long || g.incomplete || g.noFe then
      postOnce d (onceAnomaly p) 0x0A01 0 (srcCrx p)
        (pack [(0, 32, g.no), (32, 16, g.lines), (48, 6, stampOf p n g / 2 ^ 84), (56, 4, n)])
    else d

/-- A dropped frame's packets end: the moment that the ledger takes for its close (R254, R408). -/
def endDropped (d : Dev) (n : Nat) : Dev :=
  if (ic d n).dropping then updIc d n fun c => { c with dropping := false, closeNs := d.clk.ns } else d

/-! ### The frame start (R340, R253 to R255, R368, R370, R378, R414) -/

/-- The governor drops a frame of image context n (R253). -/
def governorDrops (d : Dev) (n : Nat) : Bool :=
  setting d (icX n + 0x3E) 1 == 1
    && (decide (setting d (icX n + 0x3E) 2 ≤ ((ic d n).frames.filter fun f => !f.finished).length) || decide (setting d (icX n + 0x3E) 3 * 16 ≤ usedBlocks d))

/-- Drop a frame whole (R254, R255). -/
def dropFrame (d : Dev) (n : Nat) : Dev :=
  let d := bump (updIc d n fun c => { c with dropping := true }) (icX n + 0x3E) 5 4 1
  let d := { d with ipl := { d.ipl with dropMask := d.ipl.dropMask ||| BitVec.ofNat 16 (2 ^ n) } }
  postOnce d onceIplOverload 0x0702 0 srcIpl (d.breath.number % 2 ^ 32 + d.ipl.dropMask.toNat * 2 ^ 32)

/-- An MPE window names IPL port n as its writer: its work context and epoch (R378). -/
def iplWindow (d : Dev) (n : Nat) : Option (Nat × BitVec 8) :=
  ((List.range 8).map fun i => winAt d 16 i).findSome? fun w =>
    if w.state == 1 && w.writer == BitVec.ofNat 16 (0x3000 + n) then some (w.wc, w.epoch) else none

/-- Open image context n's back-end window, if it is closed or was revoked (R380, R381). -/
def openBackEnd (d : Dev) (n wc : Nat) (epoch : BitVec 8) : Dev :=
  let w := (ic d n).beWin
  if w.state = 1 then d
  else
    let size := setting d (icX n) 4 * uBe d n - 1
    noteBlocks (updIc d n fun c => { c with beBuf := [], beTaken := 0, beWin :=
      { state := 1, writer := 0x4000#16, wc := wc, epoch := epoch, size := size, granted := BitVec.ofNat 12 (size + 1) } }) n

/-- Choose the frame's path once (R378): neural when MODE is 1 and its window stands, otherwise fallback. -/
def choosePath (d : Dev) (n no : Nat) : Dev :=
  match (if icMode d n = 1 then iplWindow d n else none) with
  | some (w, e) =>
    openBackEnd (bump (updFrame (updIc d n fun c => { c with path := true }) n no fun f => { f with neural := true }) (icX n + 0x20) 1 4 1) n w e
  | none => bump (updIc d n fun c => { c with path := false }) (icX n + 0x20) 2 4 1

/-- Statistics taps a frame runs (R397, R398, R404): tap A not for YUV422; no record without STATS_BASE. -/
def tapsOf (d : Dev) (n : Nat) (f : IcFrame) : Bool × Bool :=
  let en := get16 (setOf (ic d n) n f.latch) 0x080
  let on := setting d (0x4800 + n) 1 != 0
  (on && !icYuv d n && en % 2 == 1, on && en / 2 % 2 == 1)

/-- Enabled formatters' channels leave idle at the frame start (R225). -/
def startChannels (d : Dev) (n : Nat) : Dev :=
  (List.range 3).foldl (fun d f => if fmtOn d n f then setChan d (fmtSet d n f 6) (leaveIdle (chan d (fmtSet d n f 6))) else d) d

/-- Open frame `no` of image context n, which the governor has admitted. -/
def openIcFrame (d : Dev) (n no csi : Nat) (gap : Bool) (mark : LedgerMark) : Dev :=
  let d := bump d (icX n + 0x3E) 4 4 1
  let d := if actual d (icFn n) = 1 then goRunning d (icFn n) else d
  let c := ic d n
  let held := c.hold || c.odHold
  let room := canGrant d n 18
  let last := (c.latched.getLast?).map (·.frame)
  let f : IcFrame := { no := no, breath := d.breath.number, offset := d.breath.ns, startNs := d.clk.ns, csi := csi, gap := gap, mark := mark
                       incomplete := !held && !room, latch := if held || !room then last else some no, embStamp := setting d (icX n + 1) 9 == 1 }
  let d := updIc d n fun c => { c with frames := c.frames ++ [f] }
  let d := if held || !room then d else latchSet d n no
  let taps := tapsOf d n f
  let d := updFrame d n no fun f => { f with statA := taps.1, statB := taps.2 }
  freeLatched (startChannels (choosePath d n no) n) n

/-- GAP of Table 10.3. -/
def gapOf (csi prev : Nat) : Bool := csi != 0 && prev != 0 && csi != (prev + 1) && csi != 1

/-- A frame-start packet reaches an image context (R340, R342): an open frame closes; a Starting or Running one of a Running port numbers the new frame (R349). -/
def numberFrame (csi : Nat) (marks : Nat → LedgerMark) (d : Dev) (n : Nat) : Dev :=
  let d := endDropped (closeFrame d n true) n
  if !fnUp d (icFn n) || actual d (camFn (icPort d n)) != 2 then d
  else
    let c := ic d n
    let no := c.count
    let d := updIc d n fun c => { c with count := no + 1, prevCsi := csi }
    let p := icPort d n
    let d := (List.range 4).foldl (fun d q => if ledgerIc d q = n then updCam d q (fixForce no) else d) d
    let mark := if ledgerIc d p = n then (cam d p).force else marks p
    if governorDrops d n then dropFrame d n else openIcFrame d n no csi (gapOf csi c.prevCsi) mark

/-- FRAME_START_PACKET (R340, R342). -/
def frameStart (d : Dev) (p : Nat) : Dev :=
  match pendingHeader d p (· == 0x00) with
  | some (vc, _, csi) =>
    let d := dropHeader d p
    let ns := routed d p vc
    if ns.isEmpty then unrouted d p
    else
      let marks := fun q => (cam d q).force
      ns.foldl (numberFrame csi marks) d
  | none => d

/-- FRAME_END_PACKET (R342). -/
def frameEnd (d : Dev) (p : Nat) : Dev :=
  match pendingHeader d p (· == 0x01) with
  | some (vc, _, _) =>
    let d := dropHeader d p
    let ns := routed d p vc
    if ns.isEmpty then unrouted d p else ns.foldl (fun d n => endDropped (closeFrame d n false) n) d
  | none => d

/-- FRAME_TIMEOUT (R342): FRAME_TIMEOUT_MS have passed since the frame start without a frame end. -/
def frameTimeout (d : Dev) (n : Nat) : Dev := endDropped (closeFrame d n true) n

/-- IMAGE_LINE_PACKET (R339, R341): the payload has the word count of its header. -/
def imageLine (d : Dev) (p : Nat) (payload : List Byte) (crcOk : Bool) : Dev :=
  match pendingHeader d p (imageTypes.contains ·) with
  | some (vc, dt, word) =>
    let d := dropHeader d p
    match imageTarget d p vc dt with
    | some n =>
      let need := lineBytes dt (icWidth d n)
      let d := if crcOk then d else updCam (bump d (camB p + 3) 4 4 1) p fun c => { c with brCrc := c.brCrc + 1 }
      let d := if word = need then d else updCam (bump d (camB p + 3) 5 4 1) p fun c => { c with brLen := c.brLen + 1 }
      match openFrame d n with
      | some f =>
        let got := payload.take word
        let bs := (got ++ List.replicate (need - got.length) 0#8).take need
        takeLine d p n f (!crcOk || word != need) need (lineSamples dt bs)
      | none => unrouted d p
    | none => unrouted d p
  | none => d

/-! ### Embedded data (R348) -/

/-- Slot of a frame's embedded data. -/
def embSlot (d : Dev) (n no : Nat) : Nat := setting d (icX n + 1) 0x0A + no % max 1 (setting d (icX n + 1) 0x0C) * setting d (icX n + 1) 0x0B

/-- EMBEDDED_DATA_PACKET (R337, R348): a line of embedded data at the next 64 B boundary of the frame's slot; what passes its end is discarded and counted. -/
def embeddedData (d : Dev) (p : Nat) (payload : List Byte) : Dev :=
  match pendingHeader d p (· == 0x12) with
  | some (vc, _, word) =>
    let d := dropHeader d p
    match (routed d p vc).find? fun n => setting d (icX n + 1) 9 == 1 with
    | some n => match openFrame d n with
      | some f =>
        let size := setting d (icX n + 1) 0x0B
        let bs := payload.take word
        let room := size - f.embOff
        let d := bump d (icX n + 1) 0x14 4 (bs.length - room)
        let d := memWrite d (some agIpl) (srcCrx p) (embSlot d n f.no + f.embOff) (bs.take room) false
        updFrame d n f.no fun f => { f with embOff := ceilDiv (f.embOff + min bs.length room) 64 * 64 }
      | none => unrouted d p
    | none => unrouted d p
  | none => d

/-- EMBEDDED_STAMP_WRITE (R348): the stamp of the oldest closed frame of image context n that still waits for it. -/
def embeddedStamp (d : Dev) (n : Nat) : Dev :=
  match (ic d n).frames.find? fun f => f.embStamp && !f.opened with
  | some f =>
    let p := icPort d n
    tidyFrames (updFrame (memWrite d (some agIpl) (srcCrx p) (embSlot d n f.no) (stampBytes p n f) false) n f.no fun f => { f with embStamp := false }) n
  | none => d

/-! ### Breath boundary (Table 10.8) -/

/-- Events 0x0A02 and 0x0A03 of a port at a breath boundary. -/
def camBoundary (d : Dev) (p : Nat) : Dev :=
  let c := cam d p
  let sat (v : Nat) : Nat := min v 65535
  let d := if c.brHdr + c.brCrc + c.brLen = 0 then d
    else postEvent d 0x0A02 0 (srcCrx p) (sat c.brHdr + sat c.brCrc * 2 ^ 16 + sat c.brLen * 2 ^ 32)
  let d := if c.brLink = 0 then d else postEvent d 0x0A03 0 (srcCrx p) c.brLink
  updCam d p fun c => { c with brHdr := 0, brCrc := 0, brLen := 0, brLink := 0 }

/-- HS_BURST (R334). -/
def execHsBurst (p : Fin 4) (sync : Bool) (s : State) : Host.Outcome State Fault Refusal := nextDev s fun d => hsBurst d p sync
/-- IDLE_BURSTS (R331). -/
def execIdleBursts (p : Fin 4) (s : State) : Host.Outcome State Fault Refusal := nextDev s fun d => idleBurst d p
/-- DESKEW_SEQUENCE (R333). -/
def execDeskewSequence (p : Fin 4) (initial : Bool) (s : State) : Host.Outcome State Fault Refusal := nextDev s fun d => deskew d p initial
/-- PACKET_HEADER (R336). -/
def execPacketHeader (p : Fin 4) (vc : Fin 16) (dt : BitVec 6) (word : BitVec 16) (ecc : Fin 3) (s : State) : Host.Outcome State Fault Refusal :=
  nextDev s fun d => packetHeader d p vc dt.toNat word.toNat ecc
/-- FRAME_START_PACKET (R340). -/
def execFrameStartPacket (p : Fin 4) (s : State) : Host.Outcome State Fault Refusal := nextDev s fun d => frameStart d p
/-- FRAME_END_PACKET (R342). -/
def execFrameEndPacket (p : Fin 4) (s : State) : Host.Outcome State Fault Refusal := nextDev s fun d => frameEnd d p
/-- FRAME_TIMEOUT (R342). -/
def execFrameTimeout (n : Fin 16) (s : State) : Host.Outcome State Fault Refusal := nextDev s fun d => frameTimeout d n
/-- IMAGE_LINE_PACKET (R341). -/
def execImageLinePacket (p : Fin 4) (payload : List Byte) (crcOk : Bool) (s : State) : Host.Outcome State Fault Refusal :=
  nextDev s fun d => imageLine d p payload crcOk
/-- EMBEDDED_DATA_PACKET (R348). -/
def execEmbeddedDataPacket (p : Fin 4) (payload : List Byte) (s : State) : Host.Outcome State Fault Refusal := nextDev s fun d => embeddedData d p payload
/-- EMBEDDED_STAMP_WRITE (R348). -/
def execEmbeddedStampWrite (n : Fin 16) (s : State) : Host.Outcome State Fault Refusal := nextDev s fun d => embeddedStamp d n

end Sys2Proof.Machine
end

