-- ==== Sys2Proof/Machine/Dmc.lean ====
section
/-! DEFINITION. The memory controller and the application cluster's caches: region entries, accesses, unmapped addresses, refresh and retraining (chapter 14). -/

namespace Sys2Proof.Machine

open Sys2Proof

/-- Bits of a region entry that are not reserved (Table 14.7). -/
def regionMask : Nat := 0xF9 + 0xFFFF * 2 ^ 144 + (2 ^ 56 - 1) * 2 ^ 200

/-- BASE, LIMIT, ENCRYPT and KEY_SLOT of an entry. -/
def regionShape (e : BitVec 256) : Nat × Nat × Nat := (fld e 200 56, fld e 4 1, fld e 5 3)

/-- A region entry may enable: with ENCRYPT set its range lies wholly within the fitted DRAM (R463). -/
def encryptFits (d : Dev) (e : BitVec 256) : Bool :=
  !bit e 0 || !bit e 4 || decide (fld e 228 28 ≤ fld e 200 28) || decide (fld e 228 28 * 4096 ≤ dramSize d)

/-- REGION_ENTRY_WRITE (R463): 8 B word k of entry r. -/
def regionWrite (d : Dev) (r k : Nat) (v : W64) (fromMgc whole : Bool) : Dev :=
  let a := 0x3000100800 + r * 0x20 + 8 * k
  if !whole then addressError d (if fromMgc then srcMgc else (Config.hartSource a).toNat) a
  else
    let e := region d r
    let e' := BitVec.ofNat 256 (setFld e.toNat (64 * k) 64 v.toNat) &&& BitVec.ofNat 256 regionMask
    if fromMgc || bit e 3 || (bit e 0 && regionShape e' != regionShape e) || !encryptFits d e' then d
    else { d with dmc := { d.dmc with regions := sset (fun _ => 0#256) d.dmc.regions r e', everEnabled := d.dmc.everEnabled || bit e' 0 } }

/-- DRAM_ACCESS (R462 to R467, R457): a read of `n` bytes, or a write of bytes, by an agent or by the application cluster; err is the link error that the first granule's read meets (1 single-bit, 2 or 3 multi-bit in the low or high half). -/
def dramAccess (d : Dev) (g : Option (Fin 8)) (a n : Nat) (write : Bool) (bs : List Byte) (p : Bool) (err : Nat) : Dev :=
  if write then memWrite d (agentOf g) (agentSource g a) a bs p
  else
    let d := if err = 0 then d else { d with dmc := { d.dmc with linkErr := sset (fun _ => 0) d.dmc.linkErr (a / 64) err } }
    (memRead d (agentOf g) (agentSource g a) a n).1

/-- An access that no block takes: unmapped, a write to PM or the descriptor store, or one of a size that its range does not accept (R21, R22, R118, R265). -/
def accessRefused (d : Dev) (a : Nat) (write whole : Bool) : Bool :=
  match areaOf d a with
  | .unmapped => true
  | .pm _ _ => write
  | .ds _ _ => write
  | .cpPage _ => !whole
  | .periph _ _ => !whole
  | _ => false

/-- UNMAPPED_ACCESS (R21). -/
def unmappedAccess (d : Dev) (g : Option (Fin 8)) (a : Nat) (write whole : Bool) : Dev :=
  if accessRefused d a write whole then addressError d (agentSource g a) a else d

/-- REFRESH (R458): channel c refreshes its next bank. -/
def refresh (d : Dev) (c : Nat) : Dev := { d with dmc := { d.dmc with refreshes := supd (fun _ => 0) d.dmc.refreshes c (· + 1) } }

/-- RETRAIN_DUE (R459). -/
def retrainDue (d : Dev) (c : Nat) : Dev := { d with dmc := { d.dmc with due := d.dmc.due ||| BitVec.ofNat 8 (2 ^ c) } }

/-- Lowest channel of a set. -/
def lowestChan (m : BitVec 8) : Option Nat := (List.range 8).find? fun c => bit m c

/-- The channel that is closed while `sched` remains: the lowest of it. -/
def closeNext (m : Dmc) : Dmc :=
  { m with retraining := match lowestChan m.sched with | some c => BitVec.ofNat 8 (2 ^ c) | none => 0#8 }

/-- A breath boundary begins the retrainings that are due (R459). -/
def retrainStart (d : Dev) : Dev :=
  if d.dmc.sched = 0#8 ∧ d.dmc.due ≠ 0#8 then { d with dmc := closeNext { d.dmc with sched := d.dmc.due, due := 0#8 } } else d

/-- Link errors that a channel's DRAM corrected, read at retraining (R457). -/
def linkCorrected (d : Dev) (c k : Nat) : Dev :=
  let d := bump d (0x2410 + c) 1 4 k
  if k = 0 then d
  else
    let d := { d with dmc := { d.dmc with ceSince := d.dmc.ceSince + k, ceMask := d.dmc.ceMask ||| BitVec.ofNat 8 (2 ^ c) } }
    if setting d 0x2401 5 = 1 && !latched d onceLinkCe then
      let d := postEvent (latch d onceLinkCe) 0x0E02 0 srcDmc (d.dmc.ceMask.toNat + d.dmc.ceSince % 2 ^ 32 * 2 ^ 32)
      { d with dmc := { d.dmc with ceSince := 0, ceMask := 0#8 } }
    else d

/-- RETRAIN_CHANNEL_DONE (R459): the closed channel's retraining has passed or failed after `ns`; its DRAM reports `k` corrected write errors; the next channel of the pass is closed. -/
def retrainDone (d : Dev) (ok : Bool) (ns k : Nat) : Dev :=
  match lowestChan d.dmc.retraining with
  | none => d
  | some c =>
    let d := linkCorrected d c k
    let d := setCnt d 0x2401 4 (max (cnt d 0x2401 4) ns)
    let d := if ok then bump d 0x2401 3 4 1 else retrainDue (postEvent d 0x0E04 0 srcDmc c) c
    { d with dmc := closeNext { d.dmc with sched := d.dmc.sched &&& ~~~(BitVec.ofNat 8 (2 ^ c)) } }

/-- APC_CACHE_UNCORRECTABLE (R448): the line that holds address a is marked poisoned and PLIC source 23 is raised. -/
def cacheUncorrectable (d : Dev) (a : Nat) : Dev :=
  raiseIrq { d with apc := { d.apc with poisonLines := insNat (a / 64) d.apc.poisonLines } } 23

/-- REGION_ENTRY_WRITE (R463); `whole` says that it is an aligned 8 B write. -/
def execRegionEntryWrite (r : Fin 16) (k : Fin 4) (v : W64) (fromMgc whole : Bool) (s : State) : Host.Outcome State Fault Refusal :=
  nextDev s fun d => regionWrite d r k v fromMgc whole
/-- DRAM_ACCESS (R462). -/
def execDramAccess (g : Option (Fin 8)) (a : Addr) (n : BitVec 16) (write : Bool) (bs : List Byte) (p : Bool) (err : Fin 4) (s : State) :
    Host.Outcome State Fault Refusal :=
  nextDev s fun d => dramAccess d g a.toNat n.toNat write bs p err
/-- UNMAPPED_ACCESS (R21). -/
def execUnmappedAccess (g : Option (Fin 8)) (a : Addr) (write whole : Bool) (s : State) : Host.Outcome State Fault Refusal :=
  nextDev s fun d => unmappedAccess d g a.toNat write whole
/-- REFRESH (R458). -/
def execRefresh (c : Fin 8) (s : State) : Host.Outcome State Fault Refusal := nextDev s fun d => refresh d c
/-- RETRAIN_DUE (R459). -/
def execRetrainDue (c : Fin 8) (s : State) : Host.Outcome State Fault Refusal := nextDev s fun d => retrainDue d c
/-- RETRAIN_CHANNEL_DONE (R459). -/
def execRetrainChannelDone (ok : Bool) (ns : BitVec 32) (k : BitVec 32) (s : State) : Host.Outcome State Fault Refusal :=
  nextDev s fun d => retrainDone d ok ns.toNat k.toNat
/-- APC_CACHE_UNCORRECTABLE (R448). -/
def execApcCacheUncorrectable (a : Addr) (s : State) : Host.Outcome State Fault Refusal := nextDev s fun d => cacheUncorrectable d a.toNat

end Sys2Proof.Machine
end

