-- ==== Sys2Proof/Machine/Net.lean ====
section
/-! DEFINITION. Internet checksums over Ethernet frames: the checks on receive and the insertion on transmit (R434). The formats are those of IPv4, TCP and UDP (log 37). -/

namespace Sys2Proof.Machine

open Sys2Proof

/-- Big-endian 16-bit words of bytes, an odd last byte padded with 0. -/
def beWords : List Byte → List Nat
  | a :: b :: t => (a.toNat * 256 + b.toNat) :: beWords t
  | [a] => [a.toNat * 256]
  | [] => []

/-- Fold the carries of a sum into 16 bits. -/
def fold16 (n : Nat) : Nat :=
  let a := n / 65536 + n % 65536
  a / 65536 + a % 65536

/-- One's complement sum. -/
def onesSum (bs : List Byte) : Nat := fold16 ((beWords bs).sum)

/-- Big-endian number of two bytes. -/
def be16 (bs : List Byte) (k : Nat) : Nat := (bs.getD k 0#8).toNat * 256 + (bs.getD (k + 1) 0#8).toNat

/-- Start of the layer-3 header: after the addresses, one 802.1Q tag if any, and the EtherType. -/
def l3At (f : List Byte) : Nat := if be16 f 12 = 0x8100 then 18 else 14
/-- The frame carries IPv4, with a header that lies in it. -/
def isIpv4 (f : List Byte) : Bool :=
  let k := l3At f
  be16 f (k - 2) == 0x0800 && (f.getD k 0#8).toNat / 16 == 4 && decide (5 ≤ (f.getD k 0#8).toNat % 16) && decide (k + (f.getD k 0#8).toNat % 16 * 4 ≤ f.length)
/-- Bytes of the IPv4 header. -/
def ipHeader (f : List Byte) : List Byte := (f.drop (l3At f)).take ((f.getD (l3At f) 0#8).toNat % 16 * 4)
/-- Start and length of the layer-4 part. -/
def l4At (f : List Byte) : Nat := l3At f + (ipHeader f).length
def l4Len (f : List Byte) : Nat := be16 f (l3At f + 2) - (ipHeader f).length
/-- Protocol: 6 TCP, 17 UDP. -/
def ipProto (f : List Byte) : Nat := (f.getD (l3At f + 9) 0#8).toNat
/-- The frame carries an unfragmented TCP or UDP segment that lies in it. -/
def hasL4 (f : List Byte) : Bool :=
  isIpv4 f && (ipProto f == 6 || ipProto f == 17) && be16 f (l3At f + 6) % 16384 == 0 && decide (l4At f + l4Len f ≤ f.length)
    && decide ((if ipProto f = 6 then 20 else 8) ≤ l4Len f)
/-- Sum of the pseudo-header and the segment. -/
def l4Sum (f : List Byte) : Nat :=
  fold16 (((beWords ((f.drop (l3At f + 12)).take 8)).sum) + ipProto f + l4Len f + (beWords ((f.drop (l4At f)).take (l4Len f))).sum)
/-- IP checksum good (Table 13.6). -/
def ipGood (f : List Byte) : Bool := isIpv4 f && onesSum (ipHeader f) == 0xFFFF
/-- TCP or UDP checksum good; a UDP checksum of 0 is none. -/
def l4Good (f : List Byte) : Bool := hasL4 f && (l4Sum f == 0xFFFF || (ipProto f == 17 && be16 f (l4At f + 6) == 0))

/-- Put a big-endian 16-bit word at byte k. -/
def put16 (f : List Byte) (k v : Nat) : List Byte := f.take k ++ [BitVec.ofNat 8 (v / 256), BitVec.ofNat 8 v] ++ f.drop (k + 2)
/-- Insert the IPv4 header checksum. -/
def insertIp (f : List Byte) : List Byte :=
  if isIpv4 f then
    let g := put16 f (l3At f + 10) 0
    put16 g (l3At f + 10) (0xFFFF - onesSum (ipHeader g))
  else f
/-- Insert the TCP or UDP checksum; UDP sends 0 as 0xFFFF. -/
def insertL4 (f : List Byte) : List Byte :=
  if hasL4 f then
    let k := l4At f + (if ipProto f = 6 then 16 else 6)
    let g := put16 f k 0
    let c := 0xFFFF - l4Sum g
    put16 g k (if ipProto f = 17 ∧ c = 0 then 0xFFFF else c)
  else f

end Sys2Proof.Machine
end

