-- ==== Sys2Proof/Machine/Ports.lean ====
section
/-! DEFINITION. The port DMA and the external ports: queues and descriptors, USB, Ethernet, the PTP clock, CAN FD, UART and GPIO (chapter 13). -/

namespace Sys2Proof.Machine

open Sys2Proof

/-! ### Queues (R429 to R431) -/

/-- Change the ports' part. -/
def updPorts (d : Dev) (f : Ports → Ports) : Dev := { d with ports := f d.ports }
/-- Function of port p (Table 9.3). -/
def portFn (p : Nat) : Nat := 0x1D + p
/-- Queues of port p (Table 13.4). -/
def queueCount (p : Nat) : Nat := if p = 0 then 32 else if p = 3 then 2 else 8
/-- Queue q of port p, and its change. -/
def pq (d : Dev) (p q : Nat) : PortQ := sget (fun _ => {}) d.ports.qs (p * 32 + q)
def updQ (d : Dev) (p q : Nat) (f : PortQ → PortQ) : Dev :=
  updPorts d fun x => { x with qs := supd (fun _ => {}) x.qs (p * 32 + q) f }
/-- Received frames waiting for queue q, and their change. -/
def rxOf (d : Dev) (p q : Nat) : List RxFrame := sget (fun _ => []) d.ports.rx (p * 32 + q)
def setRx (d : Dev) (p q : Nat) (l : List RxFrame) : Dev := updPorts d fun x => { x with rx := sset (fun _ => []) x.rx (p * 32 + q) l }
/-- The frame begun on queue q, and its change. -/
def txOf (d : Dev) (p q : Nat) : Option TxFrame := sget (fun _ => none) d.ports.tx (p * 32 + q)
def setTx (d : Dev) (p q : Nat) (t : Option TxFrame) : Dev := updPorts d fun x => { x with tx := sset (fun _ => none) x.tx (p * 32 + q) t }
/-- Put a frame on port p's link. -/
def sendOut (d : Dev) (p : Nat) (f : TxFrame) : Dev := updPorts d fun x => { x with sent := sset (fun _ => {}) x.sent p f }
/-- Set the status bit of PLIC level source i. -/
def raiseLevel (d : Dev) (i : Nat) : Dev := updPorts d fun x => { x with status := x.status ||| BitVec.ofNat 32 (2 ^ i) }

/-- Address of the descriptor at HEAD (R429). -/
def descAt (x : PortQ) : Nat := fld x.base 0 40 + x.head.toNat % 2 ^ x.log2.toNat * 32

/-- The device reads the descriptor at HEAD: it becomes the buffer in use, or with OWN clear it halts the queue (R430). -/
def queueLoad (d : Dev) (p q : Nat) : Dev :=
  let x := pq d p q
  if x.enable && !x.halted && x.cur.isNone && x.head != x.tail && fnUp d (portFn p) then
    let r := memRead d (some agPort) srcPorts (descAt x) 32
    let v := BitVec.ofNat 256 (leNat r.2.1)
    if bit v 7 && !r.2.2 then updQ r.1 p q fun y => { y with cur := some v }
    else postEvent (updQ r.1 p q fun y => { y with halted := true }) 0x0D03 0 srcPorts (p + q * 256 + x.head.toNat * 2 ^ 32)
  else d

/-- Fields of a descriptor (Table 13.6). -/
def descBuf (v : BitVec 256) : Nat := fld v 216 40
def descLen (v : BitVec 256) : Nat := fld v 192 20

/-- Complete the buffer in use (R431): the descriptor with status, bytes moved and further fields `fs` (low bit, width, value) is written with OWN clear, HEAD advances, and the queue interrupt is raised; then the next descriptor is read. -/
def queueDone (d : Dev) (p q status len : Nat) (fs : List (Nat × Nat × Nat)) : Dev :=
  let x := pq d p q
  match x.cur with
  | none => d
  | some v =>
    let w := ((88, 8, status) :: (108, 20, len) :: (7, 1, 0) :: fs).foldl (fun a f => setFld a f.1 f.2.1 f.2.2) v.toNat
    let d := memWrite d (some agPort) srcPorts (descAt x) (leBytes 32 w) false
    let d := updQ d p q fun y => { y with head := y.head + 1#32, cur := none }
    let d := if bit v 4 && x.irqEn then raiseIrq d (11 + p) else d
    queueLoad d p q

/-- Abort the buffer in use of a queue: status Aborted, nothing moved (Table 13.7). -/
def queueAbort (d : Dev) (p q : Nat) : Dev :=
  let d := updQ (setTx (setRx d p q []) p q none) p q fun x => { x with mid := false }
  let d := if p = 3 then updPorts d fun x => { x with canSent := false } else d
  queueDone d p q 4 0 []
/-- Abort every buffer in use of a port. -/
def portAbort (d : Dev) (p : Nat) : Dev := (List.range (queueCount p)).foldl (fun d q => queueAbort d p q) d

/-- QUEUE_TAIL_WRITE (R430). -/
def tailWrite (d : Dev) (p q : Nat) (v : W64) : Dev :=
  if q < queueCount p then queueLoad (updQ d p q fun x => { x with tail := BitVec.ofNat 32 (fld v 0 32) }) p q else d

/-- QCTRL_WRITE (R430, R431): clearing ENABLE aborts the buffer in use and clears HALTED. -/
def qctrlWrite (d : Dev) (p q : Nat) (v : W64) : Dev :=
  if q < queueCount p then
    let on := bit v 0
    let d := if on then d else queueAbort (updQ d p q fun x => { x with enable := false }) p q
    let d := updQ d p q fun x => { x with enable := on, log2 := BitVec.ofNat 5 (fld v 4 5), irqEn := bit v 16, halted := x.halted && on }
    queueLoad d p q
  else d

/-! ### Time stamps -/

/-- The PTP clock as seconds and ns (R436). -/
def ptpSec (t : Nat) : Nat := t / 2 ^ 32 / 10 ^ 9
def ptpNs (t : Nat) : Nat := t / 2 ^ 32 % 10 ^ 9
/-- Modulus of the PTP clock. -/
def ptpMod : Nat := 2 ^ 48 * 10 ^ 9 * 2 ^ 32
/-- The PTP clock moved by a signed number of ns. -/
def ptpShift (t : Nat) (k : Int) : Nat := (((t : Int) + k * 2 ^ 32) % (ptpMod : Int)).toNat
/-- Setting of ETH e. -/
def ethSet (d : Dev) (e sub : Nat) : Nat := setting d (0x5900 + 0x100 * e) sub
/-- Captured time of a port's frame: for Ethernet the PTP clock corrected by `k` ns, else the breath (Table 13.6). -/
def stampFields (d : Dev) (p : Nat) (k : Int) : Nat × Nat :=
  if p = 1 ∨ p = 2 then
    let t := ptpShift d.ports.ptp k
    (ptpSec t % 2 ^ 32, ptpNs t)
  else (d.breath.number % 2 ^ 32, d.breath.ns % 2 ^ 32)
/-- TIMESTAMP of a completed transmit buffer, when TS_REQ asks for it. -/
def txStamp (d : Dev) (p : Nat) (v : BitVec 256) : List (Nat × Nat × Nat) :=
  if bit v 3 then
    let t := stampFields d p (if p = 1 ∨ p = 2 then (ethSet d (p - 1) 4 : Int) else 0)
    [(160, 32, t.1), (128, 32, t.2)]
  else []

/-! ### Transmit -/

/-- A transmit queue: USB IN endpoints, Ethernet 0 to 3, CAN 0 (Table 13.4). -/
def isTx (p q : Nat) : Bool := if p = 0 then decide (16 ≤ q) else if p = 3 then q == 0 else decide (q < 4)

/-- The Ethernet transmit queue that is served: the one whose frame has begun, else the highest with a buffer (Table 13.4). -/
def ethTurn (d : Dev) (p : Nat) : Option Nat :=
  match [3, 2, 1, 0].find? fun q => (txOf d p q).isSome with
  | some q => some q
  | none => [3, 2, 1, 0].find? fun q => (pq d p q).cur.isSome

/-- Endpoint register of queue q; the endpoint is enabled and not stalled, and the device is connected (R433). Endpoint 0 needs no configuration. -/
def epReady (d : Dev) (q : Nat) : Bool :=
  let e := sget (fun _ => 0#64) d.ports.ep q
  d.ports.term && !bit e 25 && (bit e 24 || q % 16 == 0)

/-- Finish a frame: insertions of PORT_INFO, then the link. -/
def finishTx (d : Dev) (p q : Nat) (v : BitVec 256) (f : TxFrame) : Dev :=
  let bs := if p = 0 then f.bytes else
    let a := if bit v 64 then insertIp f.bytes else f.bytes
    if bit v 65 then insertL4 a else a
  let m := fld (sget (fun _ => 0#64) d.ports.ep q) 2 11
  sendOut d p { f with bytes := bs, zlp := p == 0 && bit v 64 && bs.length % max 1 m == 0 }

/-- A transmit frame is malformed: SOP out of place, a buffer of no bytes, or an Ethernet frame outside 64 B to MAX_FRAME with its FCS. -/
def txMalformed (d : Dev) (p q : Nat) (v : BitVec 256) : Bool :=
  let before := match txOf d p q with | some f => f.bytes.length | none => 0
  bit v 6 == (txOf d p q).isSome || descLen v == 0
    || (p != 0 && (decide (ethSet d (p - 1) 2 < before + descLen v + 4) || (bit v 5 && decide (before + descLen v + 4 < 64))))

/-- Complete a transmit buffer of USB or Ethernet (R431). -/
def txComplete (d : Dev) (p q : Nat) : Dev :=
  match (pq d p q).cur with
  | none => d
  | some v =>
    if (p ≠ 0 ∧ ethTurn d p ≠ some q) ∨ (p = 0 ∧ epReady d q = false) then d
    else if txMalformed d p q v then queueDone (setTx d p q none) p q 5 0 []
    else if spanGranted d agPort false (descBuf v) (descLen v) = false then queueDone (setTx d p q none) p q 1 0 []
    else
      let r := memRead d (some agPort) srcPorts (descBuf v) (descLen v)
      let f := (txOf d p q).getD { queue := q }
      let f := { f with bytes := f.bytes ++ r.2.1, bad := f.bad || r.2.2 }
      let st := txStamp d p v
      let d := if bit v 5 then setTx (finishTx r.1 p q v f) p q none else setTx r.1 p q (some f)
      queueDone d p q (if r.2.2 then 4 else 0) (descLen v) st

/-! ### Receive -/

/-- Complete a receive buffer with the next bytes of the frame at the front (R431, Table 13.7); `more` says that the queue holds a further descriptor. -/
def rxComplete (d : Dev) (p q : Nat) : Dev :=
  match (pq d p q).cur, rxOf d p q with
  | some v, f :: rest =>
    let n := min f.bytes.length (descLen v)
    if spanGranted d agPort true (descBuf v) n = false ∨ (p = 3 ∧ descLen v < 72) then queueDone d p q 1 0 []
    else
      let x := pq d p q
      let d := memWrite d (some agPort) srcPorts (descBuf v) (f.bytes.take n) false
      let left := f.bytes.drop n
      let more := x.tail - x.head != 1#32
      let last := left.isEmpty || !more
      let status := if left.isEmpty then (if f.bad then 3 else 0) else if more then 0 else 2
      let fs := [(160, 32, f.hi), (128, 32, f.lo), (6, 1, b2n (!x.mid)), (5, 1, b2n last)]
        ++ (if p = 3 then [] else [(66, 1, b2n f.ipOk), (67, 1, b2n f.l4Ok), (68, 4, q)])
      let d := setRx d p q (if last then rest else { f with bytes := left } :: rest)
      let d := updQ d p q fun y => { y with mid := !last }
      queueDone d p q status n fs
  | _, _ => d

/-- Complete a USB OUT buffer with the bytes of a transfer that it takes; `eop` ends the transfer, `bad` says that a CRC failed (R431). -/
def usbOut (d : Dev) (q : Nat) (bs : List Byte) (eop bad : Bool) : Dev :=
  match (pq d 0 q).cur with
  | none => d
  | some v =>
    if epReady d q = false then d
    else
      let n := min bs.length (descLen v)
      if spanGranted d agPort true (descBuf v) n = false then queueDone d 0 q 1 0 []
      else
        let x := pq d 0 q
        let long := decide (descLen v < bs.length)
        let t := stampFields d 0 0
        let d := memWrite d (some agPort) srcPorts (descBuf v) (bs.take n) false
        let d := updQ d 0 q fun y => { y with mid := !(eop || long) }
        queueDone d 0 q (if long then 2 else if bad then 3 else 0) n
          [(160, 32, t.1), (128, 32, t.2), (6, 1, b2n (!x.mid)), (5, 1, b2n (eop || long))]

/-- A queue holds a descriptor that no waiting frame takes. -/
def hasBuffer (d : Dev) (p q : Nat) : Bool :=
  (pq d p q).cur.isSome && decide ((rxOf d p q).length < ((pq d p q).tail - (pq d p q).head).toNat)

/-! ### Ethernet (R434, R436) -/

/-- Receive queue of a frame: by the priority of its 802.1Q tag, else 4 (R434). -/
def rxQueue (d : Dev) (e : Nat) (f : List Byte) : Nat :=
  if be16 f 12 = 0x8100 then 4 + ethSet d e 3 / 2 ^ (4 * (be16 f 14 / 8192)) % 4 else 4
/-- A pause frame ends in the MAC (R434). -/
def isPause (f : List Byte) : Bool := be16 f 12 == 0x8808
/-- Level of ETHe_RST_N (R435). -/
def ethRstPin (d : Dev) (e : Nat) : Bool := isReady d && ethSet d e 6 == 1

/-- ETH_FRAME_RECEIVE (R434): `f` is the frame without its FCS. -/
def ethReceive (d : Dev) (e : Nat) (f : List Byte) (fcsBad : Bool) : Dev :=
  let p := 1 + e
  if fnUp d (portFn p) = false ∨ cnt d (0x5900 + 0x100 * e) 7 = 0 ∨ f.length + 4 < 64 ∨ ethSet d e 2 < f.length + 4 then d
  else
    let d := if fcsBad then bump d (0x5900 + 0x100 * e) 8 4 1 else d
    if isPause f && !fcsBad then d
    else
      let q := rxQueue d e f
      if hasBuffer d p q then
        let t := stampFields d p (-(ethSet d e 5 : Int))
        setRx d p q (rxOf d p q ++ [{ bytes := f, bad := fcsBad, ipOk := ipGood f, l4Ok := l4Good f, hi := t.1, lo := t.2 }])
      else bump d (0x5900 + 0x100 * e) 9 4 1

/-- ETH_LINK_CHANGE (R434, R431): LINK as MODE allows it; a lost link aborts the buffers in use. -/
def ethLink (d : Dev) (e link : Nat) : Dev :=
  if link ≠ 0 ∧ (ethSet d e 1 == 1) ≠ (link == 4) then d
  else
    let d := raiseLevel (setCnt d (0x5900 + 0x100 * e) 7 link) (16 + e)
    if link = 0 then portAbort d (1 + e) else d

/-- PTP_TICK (R436). -/
def ptpTick (d : Dev) : Dev := updPorts d fun x => { x with ptp := (x.ptp + x.ptpIncr.toNat) % ptpMod }
/-- PTP_STEP (R436): signed ns and seconds. -/
def ptpStep (d : Dev) (v : W64) : Dev :=
  updPorts d fun x => { x with ptp := ptpShift x.ptp (sext 32 (fld v 0 32) + sext 32 (fld v 32 32) * 10 ^ 9) }
/-- PTP_CAPTURE (R436): writing 1 copies the clock. -/
def ptpCapture (d : Dev) (v : W64) : Dev :=
  if v = 1#64 then updPorts d fun x => { x with snap := ptpSec x.ptp, snapNs := ptpNs x.ptp } else d
/-- PTP_BREATH and PTP_BREATH_NS at the boundary at which breath b begins (R436). -/
def ptpBoundary (d : Dev) (b : Nat) : Dev :=
  updPorts d fun x => { x with ptpBreath := BitVec.ofNat 64 (b % 2 ^ 32 * 2 ^ 32 + ptpSec x.ptp % 2 ^ 32), ptpBreathNs := ptpNs x.ptp }

/-! ### USB (R433) -/

/-- The terminations or pull-up are connected only while the USB function is Running and USB_VBUS is valid; losing them aborts the buffers in use. -/
def usbSettle (d : Dev) : Dev :=
  let on := actual d (portFn 0) == 2 && d.ports.vbus
  if d.ports.term && !on then setCnt (portAbort (updPorts d fun x => { x with term := false }) 0) 0x5800 4 0
  else updPorts d fun x => { x with term := on }
/-- USB_VBUS_CHANGE (R433). -/
def usbVbus (d : Dev) (valid : Bool) : Dev := raiseLevel (usbSettle (updPorts d fun x => { x with vbus := valid })) 15
/-- USB_BUS_RESET (R433). -/
def usbReset (d : Dev) : Dev :=
  if d.ports.term then
    let d := updPorts d fun x => { x with ep := x.ep.filter fun e => e.1 % 16 == 0 }
    raiseLevel (portAbort (bump d 0x5800 5 4 1) 0) 15
  else d
/-- USB_SOF (R433): the breath number and the offset at which the packet arrived. -/
def usbSof (d : Dev) : Dev :=
  if d.ports.term then updPorts d fun x => { x with sofBreath := d.breath.number % 2 ^ 32, sofNs := d.breath.ns % 2 ^ 32 } else d
/-- USB_LINK_SPEED_CHANGE (R433): LINK_SPEED, no more than SPEED_MAX offers; a lost link aborts the buffers in use. -/
def usbSpeed (d : Dev) (v : Nat) : Dev :=
  if v ≠ 0 ∧ (d.ports.term = false ∨ (v = 3 ∧ setting d 0x5800 1 = 1)) then d
  else
    let d := raiseLevel (setCnt d 0x5800 4 v) 15
    if v = 0 then portAbort d 0 else d

/-! ### CAN FD (R437 to R442) -/

/-- The frame word of Table 13.10. -/
def canWord (f : CanFrame) : Nat :=
  pack [(40, 7, f.data.length), (33, 1, b2n f.rtr), (32, 1, b2n f.esi), (31, 1, b2n f.brs), (30, 1, b2n f.fdf), (29, 1, b2n f.ide), (0, 29, f.id.toNat)]
/-- Filter i accepts an identifier (R438). -/
def filterHits (d : Dev) (id i : Nat) : Bool :=
  let f := domOf d 0x5B00 6
  id &&& leNat ((f.drop (8 * i + 4)).take 4) == leNat ((f.drop (8 * i)).take 4)

/-- CAN_FRAME_RECEIVE (R438). -/
def canReceive (d : Dev) (f : CanFrame) : Dev :=
  if busOff d then d
  else if f.ide = false ∧ nodeId d ≠ 0 ∧ f.id.toNat = 0x640 + nodeId d then requestIn d f.data
  else if fnUp d (portFn 3) = false then d
  else if (List.range 16).any (filterHits d f.id.toNat) then
    if hasBuffer d 3 1 then
      let t := stampFields d 3 0
      setRx d 3 1 (rxOf d 3 1 ++ [{ bytes := leBytes 8 (canWord f) ++ f.data, hi := t.1, lo := t.2 }])
    else d
  else bump d 0x5B00 9 4 1

/-- A CAN transmit frame that R442 refuses; `n` bytes of buffer hold its data. -/
def canRefused (d : Dev) (w n : Nat) : Bool :=
  let b (i : Nat) : Bool := w.testBit i
  let len := w / 2 ^ 40 % 128
  (!b 29 && nodeId d != 0 && [0x6C0, 0x7C0, 0x0C0].any fun k => w % 2048 == k + nodeId d)
    || (!b 30 && decide (8 < len)) || (b 31 && !b 30) || (b 33 && b 30) || (b 31 && setting d 0x5B00 2 == 0)
    || decide (64 < len) || decide (n < 8 + len)

/-- The APC frame in queue 0's buffer as read from memory: status 1 or 5, or the frame word, its data and whether it was poisoned. -/
def canHeld (d : Dev) (v : BitVec 256) : Dev × Nat × Nat × List Byte × Bool :=
  if spanGranted d agPort false (descBuf v) (descLen v) = false then (d, 1, 0, [], false)
  else
    let r := memRead d (some agPort) srcPorts (descBuf v) (min (descLen v) 72)
    let w := leNat (r.2.1.take 8)
    if canRefused d w (descLen v) then (r.1, 5, 0, [], false)
    else (r.1, 0, w, (r.2.1.drop 8).take (w / 2 ^ 40 % 128), r.2.2)

/-- Arbitration order of identifiers: 11 bits, then IDE, then the rest; lower wins. -/
def arbKey (ide : Bool) (id : Nat) : Nat := if ide then id / 2 ^ 18 * 2 ^ 19 + 2 ^ 18 + id % 2 ^ 18 else id * 2 ^ 19

/-- The APC's frame that can be offered: not yet sent, allowed, not poisoned. -/
def canApc (d : Dev) : Option (Nat × List Byte) :=
  if fnLive d (portFn 3) && !d.ports.canSent then
    (pq d 3 0).cur.bind fun v =>
      let h := canHeld d v
      if h.2.1 = 0 ∧ h.2.2.2.2 = false then some (h.2.2.1, h.2.2.2.1) else none
  else none

/-- CAN_ARBITRATION (R439): the held frame with the lower identifier is offered, or the one that is owed its turn; `won` says that it won the bus. A loser is retried. -/
def canArbitrate (d : Dev) (won : Bool) : Dev :=
  if busOff d || !won then d
  else
    let apc := canApc d
    let pick : Option Bool := match mgcNext d, apc with
      | some m, some a =>
        some (match d.ports.canOwed with
          | some o => o
          | none => decide (arbKey (a.1.testBit 29) (if a.1.testBit 29 then a.1 % 2 ^ 29 else a.1 % 2048) < arbKey false m.id))
      | some _, none => some false
      | none, some _ => some true
      | none, none => none
    match pick, mgcNext d, apc with
    | some false, some m, _ =>
      let d := updMgc d fun x => { x with canTx := dropMgcFrame m x.canTx }
      let d := if m.kind = 2 then bump d 0x1200 3 4 1 else d
      updPorts (sendOut d 3 { queue := 32, bytes := m.data }) fun x => { x with canOwed := if apc.isSome then some true else none }
    | some true, o, some a =>
      updPorts (sendOut d 3 { bytes := padDlc a.2 }) fun x => { x with canSent := true, canOwed := if o.isSome then some false else none }
    | _, _, _ => d

/-- Complete the CAN transmit buffer once its frame has been sent, or refused (R431, R442). -/
def canTxComplete (d : Dev) : Dev :=
  match (pq d 3 0).cur with
  | none => d
  | some v =>
    let h := canHeld d v
    if h.2.1 ≠ 0 then queueDone h.1 3 0 h.2.1 0 []
    else if h.2.2.2.2 then queueDone (sendOut h.1 3 { bytes := h.2.2.2.1, bad := true }) 3 0 4 (8 + h.2.2.2.1.length) (txStamp d 3 v)
    else if d.ports.canSent then
      queueDone (updPorts h.1 fun x => { x with canSent := false }) 3 0 0 (8 + h.2.2.2.1.length) (txStamp d 3 v)
    else d

/-- CAN_BUS_OFF (R440): the MGC's frames are discarded. -/
def canBusOff (d : Dev) (tec : Nat) : Dev :=
  if busOff d then d
  else
    let d := raiseLevel (bump (setCnt d 0x5B00 7 2) 0x5B00 8 4 1) 18
    postEvent (updMgc d fun m => { m with canTx := [] }) 0x0D04 0 srcPorts tec
/-- CAN_BUS_RECOVERY (R440): the controller rejoins with AUTO_RECOVER set. -/
def canRecover (d : Dev) : Dev :=
  if busOff d && setting d 0x5B00 5 == 1 then raiseLevel (setCnt d 0x5B00 7 0) 18 else d
/-- CAN_ERROR_STATE_CHANGE (R437). -/
def canErrorState (d : Dev) (passive : Bool) : Dev :=
  if busOff d then d else raiseLevel (setCnt d 0x5B00 7 (b2n passive)) 18

/-! ### UART and GPIO (R444, R445) -/

/-- UART_DATA_READ (R444): of the bytes that have `arrived`, those that fit enter the 64-byte FIFO; the read removes the oldest byte. -/
def uartRead (d : Dev) (arrived : List Byte) : Dev :=
  let fifo := (d.ports.uartRx ++ (if fnLive d 0x21 then arrived else [])).take 64
  updPorts d fun x => { x with uartRx := fifo.drop 1 }

/-- GPIO_EDGE (R445): pin i goes to `level`; a selected edge sets IRQ_STATUS. -/
def gpioEdge (d : Dev) (i : Nat) (level : Bool) : Dev :=
  let x := d.ports
  if bit x.gpioIn i = level then d
  else
    let sel := bit x.gpioEdge (2 * i + if level then 0 else 1)
    updPorts d fun x => { x with
      gpioIn := x.gpioIn ^^^ BitVec.ofNat 64 (2 ^ i)
      gpioStatus := if sel then x.gpioStatus ||| BitVec.ofNat 64 (2 ^ i) else x.gpioStatus }

/-! ### Commands -/

/-- DESCRIPTOR_COMPLETE (R431): the buffer in use of a queue completes. For a USB OUT endpoint the operands give the transfer's bytes for the buffer, whether it ends there, and whether a CRC failed. -/
def execDescriptorComplete (p : Fin 4) (q : Fin 32) (bs : List Byte) (eop bad : Bool) (s : State) : Host.Outcome State Fault Refusal :=
  nextDev s fun d =>
    if queueCount p ≤ q ∨ fnLive d (portFn p) = false then d
    else if p = 3 ∧ q = 0 then canTxComplete d
    else if isTx p q then txComplete d p q
    else if p = 0 then usbOut d q bs eop bad
    else rxComplete d p q
/-- QUEUE_TAIL_WRITE (R430). -/
def execQueueTailWrite (p : Fin 4) (q : Fin 32) (v : W64) (s : State) : Host.Outcome State Fault Refusal := nextDev s fun d => tailWrite d p q v
/-- QCTRL_WRITE (R431). -/
def execQctrlWrite (p : Fin 4) (q : Fin 32) (v : W64) (s : State) : Host.Outcome State Fault Refusal := nextDev s fun d => qctrlWrite d p q v
/-- USB_VBUS_CHANGE (R433). -/
def execUsbVbusChange (valid : Bool) (s : State) : Host.Outcome State Fault Refusal := nextDev s fun d => usbVbus d valid
/-- USB_BUS_RESET (R433). -/
def execUsbBusReset (s : State) : Host.Outcome State Fault Refusal := nextDev s usbReset
/-- USB_SOF (R433). -/
def execUsbSof (s : State) : Host.Outcome State Fault Refusal := nextDev s usbSof
/-- USB_LINK_SPEED_CHANGE (R433). -/
def execUsbLinkSpeedChange (v : Fin 4) (s : State) : Host.Outcome State Fault Refusal := nextDev s fun d => usbSpeed d v
/-- ETH_FRAME_RECEIVE (R434). -/
def execEthFrameReceive (e : Fin 2) (f : List Byte) (fcsBad : Bool) (s : State) : Host.Outcome State Fault Refusal :=
  nextDev s fun d => ethReceive d e f fcsBad
/-- ETH_LINK_CHANGE (R434). -/
def execEthLinkChange (e : Fin 2) (link : Fin 5) (s : State) : Host.Outcome State Fault Refusal := nextDev s fun d => ethLink d e link
/-- MDIO_DONE (R434). -/
def execMdioDone (e : Fin 2) (s : State) : Host.Outcome State Fault Refusal := nextDev s fun d => raiseLevel d (16 + e)
/-- PTP_TICK (R436). -/
def execPtpTick (s : State) : Host.Outcome State Fault Refusal := nextDev s ptpTick
/-- PTP_STEP (R436). -/
def execPtpStep (v : W64) (s : State) : Host.Outcome State Fault Refusal := nextDev s fun d => ptpStep d v
/-- PTP_CAPTURE (R436). -/
def execPtpCapture (v : W64) (s : State) : Host.Outcome State Fault Refusal := nextDev s fun d => ptpCapture d v
/-- PTP_PPS (R445): a 1 ms pulse begins. -/
def execPtpPps (s : State) : Host.Outcome State Fault Refusal :=
  nextDev s fun d => updPorts d fun x => { x with ppsUntil := d.clk.ns + 1000000 }
/-- CAN_FRAME_RECEIVE (R438). -/
def execCanFrameReceive (f : CanFrame) (s : State) : Host.Outcome State Fault Refusal := nextMgc s fun d => canReceive d f
/-- CAN_ARBITRATION (R439). -/
def execCanArbitration (won : Bool) (s : State) : Host.Outcome State Fault Refusal := nextMgc s fun d => canArbitrate d won
/-- CAN_BUS_OFF (R440): with the transmit error count. -/
def execCanBusOff (tec : Byte) (s : State) : Host.Outcome State Fault Refusal := nextMgc s fun d => canBusOff d tec.toNat
/-- CAN_BUS_RECOVERY (R440). -/
def execCanBusRecovery (s : State) : Host.Outcome State Fault Refusal := nextMgc s canRecover
/-- CAN_ERROR_STATE_CHANGE (R437). -/
def execCanErrorStateChange (passive : Bool) (s : State) : Host.Outcome State Fault Refusal := nextMgc s fun d => canErrorState d passive
/-- UART_DATA_READ (R444). -/
def execUartDataRead (arrived : List Byte) (s : State) : Host.Outcome State Fault Refusal := nextDev s fun d => uartRead d arrived
/-- GPIO_EDGE (R445). -/
def execGpioEdge (i : Fin 32) (level : Bool) (s : State) : Host.Outcome State Fault Refusal := nextDev s fun d => gpioEdge d i level

end Sys2Proof.Machine
end

