-- ==== Sys2Proof/Machine/Breath.lean ====
section
/-! DEFINITION. The breath generator, its reference events, and what the blocks do at a breath boundary (chapter 15). -/

namespace Sys2Proof.Machine

open Sys2Proof

/-- Change the generator's part. -/
def updBreath (d : Dev) (f : Breath → Breath) : Dev := { d with breath := f d.breath }

/-- Offset of boundary k after the epoch: round(k × DEN × 10^9 / NUM) ns (R485). -/
def boundaryAt (b : Breath) (k : Nat) : Nat := roundDiv (k * b.den * 10 ^ 9) (max 1 b.num)
/-- Length of the breath in progress, with the correction of its end (R485, R487); it cannot end before it began. -/
def breathLen (b : Breath) : Nat := ((boundaryAt b (b.k + 1) : Int) - boundaryAt b b.k + b.adj).toNat

/-- Twice the error does not exceed the period: the event lies within half a period (R486). -/
def withinHalf (b : Breath) (e : Int) : Bool := decide (2 * e.natAbs * b.num ≤ b.den * 10 ^ 9)
/-- A reference event is due at breath n (R486). -/
def isDue (b : Breath) (n : Nat) : Bool := b.source != 0 && n % max 1 b.divider == 0

/-- The breath that an event at the present time is taken for, 0 this one or 1 the next, and its error: the nearer of the due ones within half a period that have no event yet (R486). -/
def eventFor (b : Breath) : Option (Nat × Int) :=
  let e0 : Int := (b.ns : Int) - b.offset
  let e1 : Int := e0 - breathLen b
  let c0 := isDue b b.number && !b.took && withinHalf b e0
  let c1 := isDue b (b.number + 1) && !b.tookNext && withinHalf b e1
  if c0 && (!c1 || decide (e0.natAbs ≤ e1.natAbs)) then some (0, e0) else if c1 then some (1, e1) else none

/-- LOCK_STATE (Table 15.3). -/
def lockState (d : Dev) : Nat := cnt d 0x2101 2
def setLock (d : Dev) (v : Nat) : Dev := setCnt d 0x2101 2 v

/-- e clamped to plus or minus `s`. -/
def clampSlew (s : Nat) (e : Int) : Int := max (-(s : Int)) (min (s : Int) e)
/-- The first boundary after the event moves by `a` (R487). -/
def moveBoundary (d : Dev) (a : Int) : Dev := updBreath d fun b => { b with adj := b.adj + a }

/-- e wrapped into the range from minus half a period to plus half a period (R487). -/
def wrapHalf (b : Breath) (e : Int) : Int :=
  let p : Int := boundaryAt b 1
  (e + p / 2) % p - p / 2

/-- A signed number of ns as the nearest number of µs. -/
def microseconds (e : Int) : Int := if e < 0 then -(roundDiv e.natAbs 1000 : Int) else roundDiv e.natAbs 1000

/-- A due event with error e (Table 15.3). -/
def dueEvent (d : Dev) (n : Nat) (e : Int) : Dev :=
  let slew := setting d 0x2100 6
  let d := setCnt (updBreath d fun b => { b with missed := 0 }) 0x2101 3 (lowBits 32 e)
  if e.natAbs ≤ 2000000 then moveBoundary (setLock d 1) (clampSlew slew e)
  else if lockState d = 1 then
    let d := postEvent d 0x0F05 2 srcMgc (n % 2 ^ 32 + lowBits 32 (microseconds e) * 2 ^ 32)
    setLock (updBreath d fun b => { b with firstErr := e }) 2
  else if lockState d = 2 ∧ (e - d.breath.firstErr).natAbs ≤ slew then
    bump (moveBoundary (setLock d 1) (wrapHalf d.breath e)) 0x2101 4 4 1
  else setLock (updBreath d fun b => { b with firstErr := e }) 2

/-- SYNC_REFERENCE_EVENT (R486, R487): an edge of SYNC_IN, or a frame-start packet of an image context, arrives now. -/
def syncEvent (d : Dev) (icn : Option Nat) : Dev :=
  let b := d.breath
  let mine : Bool := match icn with
    | none => b.source == 1
    | some n => b.source == 2 && b.ic == n && fnLive d (icFn n)
  if mine then
    match eventFor b with
    | some (k, e) => dueEvent (updBreath d fun b => if k = 0 then { b with took := true } else { b with tookNext := true }) (b.number + k) e
    | none => d
  else d

/-- A due breath ends without an event while the source is locked or confirming (R487). -/
def eventMissed (d : Dev) : Bool :=
  let b := d.breath
  isDue b b.number && !b.took && (lockState d == 1 || lockState d == 2)
/-- The breath that ends is the last of LOSS_BREATHS in a row without their event (R487). -/
def sourceLost (d : Dev) : Bool := eventMissed d && decide (setting d 0x2100 7 ≤ d.breath.missed + 1)
/-- At the end of a due breath without an event it is counted; LOSS_BREATHS in a row lose the source (R487). -/
def judgeMissing (d : Dev) : Dev :=
  let e := if eventMissed d then updBreath d fun b => { b with missed := b.missed + 1 } else d
  if sourceLost d then bump (setLock e 3) 0x2101 5 4 1 else e

/-- Settings written since the last boundary act: they end Confirming, and an external source begins in Lost (R488). -/
def takeSettings (d : Dev) : Dev :=
  if d.breath.changed then
    let old := d.breath
    let rate := setting d 0x2100 1
    let d := updBreath d fun b => { b with
      changed := false, num := rate / 2 ^ 32, den := rate % 2 ^ 32, source := setting d 0x2100 2, ic := setting d 0x2100 3
      offset := sext 32 (setting d 0x2100 4), divider := setting d 0x2100 5, took := false, missed := 0
      k := if rate / 2 ^ 32 = old.num ∧ rate % 2 ^ 32 = old.den then b.k else 0 }
    if d.breath.source = 0 then setLock d 0
    else if old.source = 0 then setLock d 3
    else if lockState d = 2 then setLock d 1
    else d
  else d

/-- The generator passes a boundary: time has reached it, the number increments, and a correction that moved it makes it the epoch (R485, R487). -/
def turnBreath (d : Dev) : Dev :=
  let b := d.breath
  let len := breathLen b
  let d := { d with clk := { d.clk with ns := d.clk.ns + (len - b.ns) } }
  setCnt (updBreath d fun b => { b with
    number := b.number + 1, ns := b.ns - len, prevLen := len, k := if b.adj = 0 then b.k + 1 else 0, adj := 0
    took := b.tookNext, tookNext := false }) 0x2101 1 ((b.number + 1) % 2 ^ 64)

/-- Period in force in ns, rounded up. -/
def periodNs (d : Dev) : Nat := ceilDiv (d.breath.den * 10 ^ 9) (max 1 d.breath.num)

/-- What the blocks do at the boundary of the breath that has begun. -/
def blocksTurn (d : Dev) : Dev :=
  let d := [0, 1, 2, 3].foldl camBoundary d
  let d := [0, 1, 2, 3].foldl (trigBoundary (periodNs d)) d
  let d := audioBoundary d d.breath.number
  retrainStart (ptpBoundary d d.breath.number)

/-- BREATH_BOUNDARY (R485): the generator's part first, then every block that acts on the breath; event 0x0F06, of the management plane, follows the records of the data plane (R17). -/
def breathBoundary (s : Dev) : Dev :=
  let d := takeSettings (turnBreath (judgeMissing s))
  let d := updMgc { d with once := [], ipl := { d.ipl with dropMask := 0#16 } } fun m => { m with evSent := 0 }
  let d := if d.ctl.tripped then d else blocksTurn d
  if sourceLost s then postEvent d 0x0F06 2 srcMgc (s.breath.number % 2 ^ 32) else d

/-- BREATH_BOUNDARY (R485). -/
def execBreathBoundary (s : State) : Host.Outcome State Fault Refusal := nextMgc s breathBoundary
/-- SYNC_REFERENCE_EVENT (R487): an edge of SYNC_IN, or a frame-start packet of an image context. -/
def execSyncReferenceEvent (icn : Option (Fin 16)) (s : State) : Host.Outcome State Fault Refusal :=
  nextMgc s fun d => syncEvent d (icn.map (·.val))

end Sys2Proof.Machine
end

