-- ==== Sys2Proof/Machine/Ipl.lean ====
section
/-! DEFINITION. The image pipeline up to linear and tone-mapped RGB: raw front, line memories, stripes, fallback demosaic, back end and the loss of the neural path (chapter 11). -/

namespace Sys2Proof.Machine

open Sys2Proof

/-- A coordinate mirrored into 0 to n - 1 (R374). -/
def mirror (x : Int) (n : Nat) : Nat :=
  let v : Int := if x < 0 then -x else if (n : Int) ≤ x then 2 * n - 2 - x else x
  clampTo v n

/-- CFA channel of a pixel: 0 R, 1 Gr, 2 Gb, 3 B (Table 11.9). -/
def cfa (phase x y : Nat) : Nat := (x % 2 + 2 * (y % 2)) ^^^ (phase % 4)
/-- CFA_PHASE of image context n. -/
def icPhase (d : Dev) (n : Nat) : Nat := setting d (icX n) 2

/-! ### The raw front (R360 to R366) -/

/-- Black level of channel c: above 32,767 it is saturated (R362). -/
def blackLevel (g : Nat → Byte) (c : Nat) : Nat := min (get16 g (2 * c)) 32767

/-- Black level subtracted and the full range restored (R362). -/
def subBlack (bl p : Nat) : Nat := roundDiv ((p - bl) * 65535) (65535 - bl)

/-- Linearisation (R363). -/
def linearise (g : Nat → Byte) (y : Nat) : Nat :=
  let i := y / 256
  let f := y % 256
  roundDiv (get16 g (0x100 + 2 * i) * (256 - f) + get16 g (0x100 + 2 * (i + 1)) * f) 256

/-- Entries of the static defect table: those in ascending order that lie in the frame, as (row, column) (R364). -/
def defectEntries (w h : Nat) : List Nat → Option (Nat × Nat) → List (Nat × Nat)
  | [], _ => []
  | e :: t, prev =>
    let r := e / 65536 % 65536
    let c := e % 65536
    let rising : Bool := match prev with
      | some (a, b) => decide (a < r) || (a == r && decide (b < c))
      | none => true
    if rising && decide (r < h) && decide (c < w) then (r, c) :: defectEntries w h t (some (r, c)) else defectEntries w h t prev

/-- The 32-bit words that bytes spell. -/
def wordsOf : List Byte → List Nat
  | a :: b :: c :: e :: t => leNat [a, b, c, e] :: wordsOf t
  | _ => []

/-- The two middle values of four, averaged and rounded (R364). -/
def middleMean (a b c e : Nat) : Nat :=
  let s := a + b + c + e - max (max a b) (max c e) - min (min a b) (min c e)
  roundDiv s 2

/-- Defect correction of one pixel of a line: the pixel and whether it was corrected, 1 statically, 2 dynamically (R364). -/
def correctPixel (l : List Nat) (w thresh x : Nat) (listed : Bool) : Nat × Nat :=
  let at' (k : Int) : Nat := l.getD (mirror ((x : Int) + k) w) 0
  let v := l.getD x 0
  let a := at' (-2)
  let b := at' 2
  let m := middleMean (at' (-4)) a b (at' 4)
  if listed then (m, 1)
  else if thresh ≠ 0 ∧ (max a b + thresh < v ∨ v + thresh < min a b) then (m, 2)
  else (v, 0)

/-- An FP32 value of a natural. -/
def natVal (v : Nat) : Val := ofInt v

/-- Gain of lens shading at a pixel (R365), in FP32; the interpolation runs along columns, then rows (log 34). -/
def lscGain (g : Nat → Byte) (w h c x y : Nat) : Val :=
  let u := fdiv (natVal (x * 16)) (natVal (w - 1))
  let v := fdiv (natVal (y * 12)) (natVal (h - 1))
  let i := min (floorInt u).toNat 15
  let j := min (floorInt v).toNat 11
  let fu := fsub u (natVal i)
  let fv := fsub v (natVal j)
  let node (a b : Nat) : Val := natVal (get16 g (0x400 + 2 * (221 * c + 17 * b + a)))
  let mix (p q f : Val) : Val := fadd (fmul p (fsub (.num 1 0) f)) (fmul q f)
  mix (mix (node i j) (node (i + 1) j) fu) (mix (node i (j + 1)) (node (i + 1) (j + 1)) fu) fv

/-- Lens shading of one pixel (R365). -/
def shade (gain : Val) (y : Nat) : Nat := min (roundInt (vscale (fmul (natVal y) gain) (-12))).toNat 65535

/-- White balance of one pixel (R366). -/
def whiteBalance (gain y : Nat) : Nat := min (roundDiv (y * gain) 4096) 65535

/-- Replacement of a bad line: the last good line of its row parity, or BL of each channel (R361). -/
def concealed (g : Nat → Byte) (phase w y : Nat) (good : Option (List Nat)) : List Nat :=
  match good with
  | some l => l
  | none => (List.range w).map fun x => blackLevel g (cfa phase x y)

/-- The stages after unpacking of line y: the line and the numbers of static and dynamic corrections. -/
def rawStages (g : Nat → Byte) (phase w h y : Nat) (defects : List Nat) (l : List Nat) : List Nat × Nat × Nat :=
  let en := get16 g 0x012
  let l := (withPos l).map fun p => subBlack (blackLevel g (cfa phase p.1 y)) p.2
  let l := if en % 2 = 1 then l.map (linearise g) else l
  let fixed := (List.range w).map fun x => correctPixel l w (get16 g 0x010) x (en / 4 % 2 == 1 && defects.contains x)
  let l := fixed.map (·.1)
  let l := if en / 2 % 2 = 1 then (withPos l).map fun p => shade (lscGain g w h (cfa phase p.1 y) p.1 y) p.2 else l
  let l := (withPos l).map fun p => whiteBalance (get16 g (0x008 + 2 * cfa phase p.1 y)) p.2
  (l, fixed.countP (·.2 == 1), fixed.countP (·.2 == 2))

/-- Columns of the static defect table on row y, read as agent 2 when static correction is on (R364). -/
def defectRow (d : Dev) (n : Nat) (g : Nat → Byte) (y : Nat) : Dev × List Nat :=
  let k := setting d (icX n + 2) 2
  if get16 g 0x012 / 4 % 2 = 1 ∧ k ≠ 0 then
    let (d, bs, _) := memRead d (some agIpl) srcIpl (setting d (icX n + 2) 1) (4 * k)
    (d, ((defectEntries (icWidth d n) (icHeight d n) (wordsOf bs) none).filter fun e => e.1 == y).map (·.2))
  else (d, [])

/-- The heads of the ports' crossing FIFOs, in the order of completion (R359). -/
def fifoHeads : List RxLine → List Nat → List RxLine
  | [], _ => []
  | x :: t, seen => if seen.contains x.port then fifoHeads t seen else x :: fifoHeads t (x.port :: seen)

/-- A line may leave its FIFO: its frame's latched set is copied and the pool grants its blocks (R345, R368, R375). -/
def lineReady (d : Dev) (x : RxLine) : Bool :=
  let c := ic d x.ctx
  match frameOf d x.ctx x.frame with
  | some f => !(c.copying && f.latch == (c.latched.getLast?).map (·.frame)) && canGrant d x.ctx (lineBlocks d x.ctx)
  | none => true

/-- Store a line with its consumer mask (R376). -/
def storeLine (d : Dev) (n : Nat) (f : IcFrame) (y : Nat) (l : List Nat) : Dev :=
  let stripes := if f.neural && !f.lost then BitVec.ofNat 16 (2 ^ icStripes d n - 1) else 0#16
  let x : LmLine := { line := y, px := l, stripes := stripes, demosaic := !f.neural }
  let d := updFrame d n f.no fun f => { f with raw := f.raw ++ [l], lm := if x.stripes = 0#16 ∧ x.demosaic = false then f.lm else f.lm ++ [x] }
  noteBlocks d n

/-- The raw front processes a line of a frame (R358 to R366, R385). -/
def rawLine (d : Dev) (x : RxLine) (f : IcFrame) : Dev :=
  let n := x.ctx
  if icYuv d n then storeLine d n f x.line x.px
  else
    let g := setOf (ic d n) n f.latch
    let phase := icPhase d n
    let w := icWidth d n
    let wide := x.px.map (· * 2 ^ (16 - rawBits (icType d n)))
    let even := x.line % 2 == 0
    let src := if x.bad then concealed g phase w x.line (if even then f.goodEven else f.goodOdd) else wide
    let d := if x.bad then bump d (icX n + 0x20) 4 4 1
      else updFrame d n f.no fun f => if even then { f with goodEven := some wide } else { f with goodOdd := some wide }
    let (d, cols) := defectRow d n g x.line
    let (l, a, b) := rawStages g phase w (icHeight d n) x.line cols src
    let d := bump (bump d (icX n + 0x20) 5 8 a) (icX n + 0x20) 6 8 b
    storeLine d n f x.line l

/-- RAW_FRONT_LINE (R359): the first line, in order of completion, that may leave its FIFO. -/
def rawFront (d : Dev) : Dev :=
  match (fifoHeads d.ipl.rx []).find? (lineReady d) with
  | some x =>
    let d := { d with ipl := { d.ipl with rx := d.ipl.rx.erase x } }
    match frameOf d x.ctx x.frame with
    | some f => rawLine d x f
    | none => d
  | none => d

/-! ### Shadow-set writes (R367, R368, R371) -/

/-- Markers of held writes that are not shadow bytes: CTRL, and the end of a SHADOW_SCALARS write. -/
def heldCtrl : Nat := 0x10000
def heldOdEnd : Nat := 0x20000

/-- Apply one write to an image context's shadow set or CTRL. -/
def applyShadow (c : Ic) (w : Nat × List Byte) : Ic :=
  if w.1 = heldCtrl then { c with hold := (w.2.getD 0 0#8).toNat % 2 == 1 }
  else if w.1 = heldOdEnd then { c with odHold := false }
  else { c with shadow := shadowPut c.shadow w.1 w.2 }

/-- A write to the shadow set or CTRL is applied, or held until a latch copy completes (R368). -/
def shadowWrite (d : Dev) (n off : Nat) (bs : List Byte) : Dev :=
  updIc d n fun c => if c.copying then { c with held := c.held ++ [(off, bs)] } else applyShadow c (off, bs)

/-- A SHADOW_SCALARS write of the object dictionary: OD_HOLD stands from its first byte to its last (R371). -/
def shadowScalars (d : Dev) (n : Nat) (bs : List Byte) : Dev :=
  shadowWrite (shadowWrite (updIc d n fun c => { c with odHold := true }) n 0 (bs.take 256)) n heldOdEnd []

/-- LATCH_COPY_DONE (R368): the held writes are applied in order, and the frame's first line may proceed. -/
def copyDone (d : Dev) (n : Nat) : Dev :=
  updIc d n fun c => if c.copying then { c.held.foldl applyShadow { c with copying := false } with held := [] } else c

/-! ### Lines leaving the line memories (R376) -/

/-- Drop the lines that no consumer needs. -/
def freeLines (f : IcFrame) : IcFrame := { f with lm := f.lm.filter fun l => l.stripes != 0#16 || l.demosaic }

/-! ### The fallback demosaic (R382) -/

/-- Every line of a closed frame has passed the raw front. -/
def rawDone (f : IcFrame) : Bool := !f.opened && f.raw.length == f.lines

/-- Colour of a CFA channel: 0 red, 1 green, 2 blue. -/
def colourOf (c : Nat) : Nat := if c = 0 then 0 else if c = 3 then 2 else 1

/-- Mean of same-colour neighbours as FP16 value / 65,535, rounded once. -/
def meanF16 (l : List Nat) : Nat := (encodeFloat f16 (ratVal l.sum (l.length * 65535))).raw

/-- Offsets of the neighbours that form colour k at a pixel: itself, the row or column pair, the orthogonal or the diagonal four. -/
def neighbours (phase x y k : Nat) : List (Int × Int) :=
  let own := colourOf (cfa phase x y)
  if own = k then [(0, 0)]
  else if own = 1 then (if colourOf (cfa phase (x + 1) y) = k then [(-1, 0), (1, 0)] else [(0, -1), (0, 1)])
  else if k = 1 then [(-1, 0), (1, 0), (0, -1), (0, 1)]
  else [(-1, -1), (1, -1), (-1, 1), (1, 1)]

/-- Linear RGB of pixel (x, y) as FP16 codes. -/
def demosaicPixel (raw : List (List Nat)) (phase w h x y : Nat) : Nat × Nat × Nat :=
  let v (o : Int × Int) : Nat := (raw.getD (mirror (y + o.2) h) []).getD (mirror (x + o.1) w) 0
  let c (k : Nat) : Nat := meanF16 ((neighbours phase x y k).map v)
  (c 0, c 1, c 2)

/-- The demosaic can produce line y of a fallback frame: the line below has passed the raw front, or y is the last line of a closed frame. -/
def demosaicReady (f : IcFrame) : Bool :=
  !f.neural && (decide (f.demosaiced + 1 < f.raw.length) || (rawDone f && decide (f.demosaiced < f.lines)))

/-- DEMOSAIC_LINE (R382). -/
def demosaicLine (d : Dev) (n : Nat) : Dev :=
  if icYuv d n then d
  else match (ic d n).frames.find? demosaicReady with
  | some f =>
    let y := f.demosaiced
    let w := icWidth d n
    let h := if rawDone f then f.lines else f.raw.length + 1
    let l := (List.range w).map fun x => demosaicPixel f.raw (icPhase d n) w h x y
    let last := rawDone f && y + 1 == f.lines
    let d := updFrame d n f.no fun f => freeLines { f with
      demosaiced := y + 1, linear := f.linear ++ [l]
      lm := f.lm.map fun q => if q.line < y ∨ (last = true ∧ q.line = y) then { q with demosaic := false } else q }
    noteBlocks d n
  | none => d

/-! ### Stripes (R373, R377, R379) -/

/-- Segment of a raw line for stripe s, little-endian U16 (R373, R374). -/
def segment (d : Dev) (n s : Nat) (l : List Nat) : List Byte :=
  let h := icHalo d n
  (List.range (stripeWidth d n s + 2 * h)).flatMap fun k => leBytes 2 (l.getD (mirror ((s * icSw d n + k : Nat) - (h : Int)) (icWidth d n)) 0)

/-- The neural frame whose pair segments are being sent, with the raw lines of its next pair: two, or an odd final one. -/
def nextPair (d : Dev) (n : Nat) : Option (IcFrame × List (List Nat)) :=
  match (ic d n).frames.find? fun f => f.neural && !f.lost && (f.opened || decide (2 * f.pairQ < f.lines)) with
  | some f =>
    match f.raw.drop (2 * f.pairQ) with
    | a :: b :: _ => some (f, [a, b])
    | [a] => if rawDone f then some (f, [a]) else none
    | [] => none
  | none => none

/-- The MPE window whose writer is IPL port n: its entry (R378). -/
def iplEntry (d : Dev) (n : Nat) : Option Nat :=
  (List.range 8).find? fun i => let w := winAt d 16 i; w.state == 1 && w.writer == BitVec.ofNat 16 (0x3000 + n)

/-- Deliver units one after another into an MPE window as IPL port n. -/
def sendSegment (d : Dev) (n i : Nat) (us : List (List Byte)) : Dev :=
  us.foldl (fun d u => let w := winAt d 16 i; deliverUnit d 16 i (BitVec.ofNat 16 (0x3000 + n)) w.epoch w.fill.toNat (u.map fun b => (b, false)) false) d

/-- PAIR_SEGMENT_SEND (R379): the pair segment of the next stripe, once the window holds a credit for each of its units; the stripe's bit of both lines clears. -/
def pairSend (d : Dev) (n : Nat) : Dev :=
  match nextPair d n, iplEntry d n with
  | some (f, ls), some i =>
    let s := f.pairS
    let bs := ls.flatMap (segment d n s)
    let us := chunks 512 (ceilDiv bs.length 512) bs
    let w := winAt d 16 i
    if us.length ≤ (w.granted - w.fill).toNat then
      let d := sendSegment d n i us
      let next := if s + 1 = icStripes d n then (f.pairQ + 1, 0) else (f.pairQ, s + 1)
      let d := updFrame d n f.no fun f => freeLines { f with
        pairQ := next.1, pairS := next.2
        lm := f.lm.map fun q => if q.line / 2 = f.pairQ then { q with stripes := q.stripes &&& ~~~(BitVec.ofNat 16 (2 ^ s)) } else q }
      noteBlocks d n
    else d
  | _, _ => d

/-! ### The back end (R380, R383 to R385) -/

/-- Clamp to 0 to 1.0; NaN gives 0 (R383). -/
def clamp01 (v : Val) : Val := if v = .nan then .zero false else if vlt v (.zero false) then .zero false else if vlt (.num 1 0) v then .num 1 0 else v

/-- Colour matrix row r over R, G, B, products and sums rounded in the order written (R383). -/
def ccmRow (g : Nat → Byte) (r : Nat) (px : Val × Val × Val) : Val :=
  let m (k : Nat) : Val := vscale (ofInt (sext 16 (get16 g (0x020 + 2 * (3 * r + k))))) (-12)
  let s := fadd (fadd (fmul (m 0) px.1) (fmul (m 1) px.2.1)) (fmul (m 2) px.2.2)
  clamp01 (fadd s (vscale (ofInt (sext 16 (get16 g (0x032 + 2 * r)))) (-15)))

/-- Tone curve of channel c (R384). -/
def tone (g : Nat → Byte) (c : Nat) (v : Val) : Val :=
  let t := fmul v (natVal 1023)
  let i := min (floorInt t).toNat 1022
  let f := fsub t (natVal i)
  let e (k : Nat) : Val := natVal (get16 g (0xC00 + 2 * (1024 * c + k)))
  fdiv (fadd (e i) (fmul f (fsub (e (i + 1)) (e i)))) (natVal 65535)

/-- R'G'B' of a linear pixel. -/
def backPixel (g : Nat → Byte) (px : Nat × Nat × Nat) : W32 × W32 × W32 :=
  let v := (decodeFloat f16 px.1, decodeFloat f16 px.2.1, decodeFloat f16 px.2.2)
  let on := get16 g 0x012 / 8 % 2 == 1
  let o (r : Nat) : W32 := let x := ccmRow g r v; toF32 (if on then tone g r x else x)
  (o 0, o 1, o 2)

/-- Kr and Kb of a standard (Table 11.4), as FP32 values; the reserved code 3 acts as 2 (log 35). -/
def krKb (std : Nat) : Val × Val :=
  let q (a b : Nat) : Val := r32 (ratVal a b)
  match std % 4 with
  | 0 => (q 299 1000, q 114 1000)
  | 1 => (q 2126 10000, q 722 10000)
  | _ => (q 2627 10000, q 593 10000)

/-- R'G'B' of a YUV422 pixel: the inverse of Table 11.4 over the code ranges of Table 11.5 (R385). -/
def yuvPixel (csc y cb cr : Nat) : W32 × W32 × W32 :=
  let (kr, kb) := krKb csc
  let full := csc / 4 % 2 == 1
  let n (v z den : Nat) : Val := fdiv (ofInt ((v : Int) - z)) (natVal den)
  let yv := if full then n y 0 255 else n y 16 219
  let b := if full then n cb 128 255 else n cb 128 224
  let r := if full then n cr 128 255 else n cr 128 224
  let one : Val := .num 1 0
  let rv := fadd yv (fmul (vscale (fsub one kr) 1) r)
  let bv := fadd yv (fmul (vscale (fsub one kb) 1) b)
  let gv := fdiv (fsub (fsub yv (fmul kr rv)) (fmul kb bv)) (fsub (fsub one kr) kb)
  (toF32 (clamp01 rv), toF32 (clamp01 gv), toF32 (clamp01 bv))

/-- A line of YUV422 bytes, Cb Y0 Cr Y1 per pair (log 33). -/
def yuvLine (csc w : Nat) (px : List Nat) : List (W32 × W32 × W32) :=
  (List.range w).map fun x =>
    let k := x / 2 * 4
    yuvPixel csc (px.getD (k + 1 + 2 * (x % 2)) 0) (px.getD k 0) (px.getD (k + 2) 0)

/-- Lines a frame's back end expects, once that is known (R380). -/
def beExpected (f : IcFrame) : Option Nat := if f.opened then none else if f.neural then some (2 * (f.lines / 2)) else some f.lines
/-- The frame still owes the back end lines. -/
def beOwes (f : IcFrame) : Bool := match beExpected f with
  | some k => decide (f.rgb.length < k)
  | none => true

/-- FP16 pixels of the back-end line at the window's FREE (R380). -/
def beLine (d : Dev) (n : Nat) : List (Nat × Nat × Nat) :=
  let c := ic d n
  let w := c.beWin
  let byte (u b : Nat) : Nat := (sget (fun _ => (0#8, false)) c.beBuf (winOffset { w with base := 0 } u b)).1.toNat
  ((List.range (icStripes d n)).foldl (fun (a : List (Nat × Nat × Nat) × Nat) s =>
    let k := stripeWidth d n s
    let half (p j : Nat) : Nat := let o := 6 * p + 2 * j; byte (a.2 + o / 512) (o % 512) + 256 * byte (a.2 + (o + 1) / 512) ((o + 1) % 512)
    (a.1 ++ (List.range k).map (fun p => (half p 0, half p 1, half p 2)), a.2 + ceilDiv (6 * k) 512)) ([], w.freed)).1

/-- All units of the next back-end line have landed (R380). -/
def beLanded (d : Dev) (n : Nat) : Bool := let w := (ic d n).beWin; w.state != 0 && decide (uBe d n ≤ (w.fill - w.free).toNat)

/-- Append a line of R'G'B' to a frame. -/
def addRgb (d : Dev) (n no : Nat) (l : List (W32 × W32 × W32)) : Dev := updFrame d n no fun f => { f with rgb := f.rgb ++ [l] }

/-- The back end takes the next returned line of a neural frame and frees its units (R380, R383, R384). -/
def beNeural (d : Dev) (n : Nat) (f : IcFrame) : Dev :=
  if beLanded d n then
    let l := (beLine d n).map (backPixel (setOf (ic d n) n f.latch))
    let u := uBe d n
    let d := updIc d n fun c => { c with beTaken := c.beTaken + 1, beWin := { c.beWin with free := c.beWin.free + BitVec.ofNat 12 u, freed := c.beWin.freed + u, pendingCredits := c.beWin.pendingCredits + u } }
    addRgb d n f.no l
  else d

/-- The back end takes the next line of a fallback or YUV422 frame. -/
def beFallback (d : Dev) (n : Nat) (f : IcFrame) : Dev :=
  let y := f.rgb.length
  if icYuv d n then
    match f.raw[y]? with
    | some px =>
      let d := addRgb d n f.no (yuvLine (setting d (icX n) 6) (icWidth d n) px)
      noteBlocks (updFrame d n f.no fun f => freeLines { f with lm := f.lm.map fun q => if q.line = y then { q with demosaic := false } else q }) n
    | none => d
  else match f.linear[y]? with
    | some l => addRgb d n f.no (l.map (backPixel (setOf (ic d n) n f.latch)))
    | none => d

/-- BACK_END_LINE (R359, R380): the next line of the oldest frame that still owes one. -/
def backEndLine (d : Dev) (n : Nat) : Dev :=
  match (ic d n).frames.find? fun f => beOwes f && !f.lost with
  | some f => if f.neural then beNeural d n f else beFallback d n f
  | none => d

/-! ### The loss of the neural path (R381) -/

/-- Take every line of a frame whose units have all landed; `k` bounds them. -/
def drainBackEnd (n no : Nat) : Nat → Dev → Dev
  | 0, d => d
  | k + 1, d => match frameOf d n no with
    | some f => if beOwes f && beLanded d n then drainBackEnd n no k (beNeural d n f) else d
    | none => d

/-- The neural path of image context n is lost: cause 1 window revoked or closed, 2 back-end timeout (R381). -/
def neuralLost (d : Dev) (n cause : Nat) : Dev :=
  let fs := (ic d n).frames.filter fun f => f.neural && !f.finished && !f.lost
  match fs with
  | [] => d
  | f0 :: _ =>
    let d := fs.foldl (fun d f => drainBackEnd n f.no 8 d) d
    let d := fs.foldl (fun d f => updFrame d n f.no fun f => freeLines { f with lost := true, lm := f.lm.map fun q => { q with stripes := 0#16 } }) d
    let d := updIc d n fun c => if c.beWin.state = 0 then c else { c with beWin := { c.beWin with state := 3, pendingCredits := 0 } }
    let d := noteBlocks d n
    postOnce (bump d (icX n + 0x20) 3 4 1) (onceNeural n) 0x0B01 0 srcIpl (f0.no % 2 ^ 32 + n * 2 ^ 32 + cause * 2 ^ 40)

/-- BE_TIMEOUT (R381): the back-end window has received no unit for BE_TIMEOUT_MS while a neural frame owes it lines. -/
def beTimeout (d : Dev) (n : Nat) : Dev :=
  if (ic d n).frames.any fun f => f.neural && !f.lost && beOwes f then neuralLost d n 2 else d

/-- A frame of image context n still has pair segments to send. -/
def owesPairs (f : IcFrame) : Bool := f.neural && !f.lost && (f.opened || decide (2 * f.pairQ < f.lines))

/-- Neural paths whose MPE window is gone while pair segments remain are lost (R381). -/
def neuralCheck (d : Dev) : Dev :=
  (List.range 16).foldl (fun d n => if ((ic d n).frames.any owesPairs) && (iplEntry d n).isNone then neuralLost d n 1 else d) d

/-- RAW_FRONT_LINE (R358). -/
def execRawFrontLine (s : State) : Host.Outcome State Fault Refusal := nextDev s fun d => rawFront d
/-- SHADOW_WRITE (R367, R368): bytes at an aligned offset of image context n's shadow set. -/
def execShadowWrite (n : Fin 16) (off : BitVec 14) (bs : List Byte) (s : State) : Host.Outcome State Fault Refusal :=
  nextDev s fun d => shadowWrite d n off.toNat bs
/-- LATCH_COPY_DONE (R368). -/
def execLatchCopyDone (n : Fin 16) (s : State) : Host.Outcome State Fault Refusal := nextDev s fun d => copyDone d n
/-- PAIR_SEGMENT_SEND (R379). -/
def execPairSegmentSend (n : Fin 16) (s : State) : Host.Outcome State Fault Refusal := nextDev s fun d => pairSend d n
/-- BACK_END_LINE (R380). -/
def execBackEndLine (n : Fin 16) (s : State) : Host.Outcome State Fault Refusal := nextDev s fun d => backEndLine d n
/-- BE_TIMEOUT (R381). -/
def execBeTimeout (n : Fin 16) (s : State) : Host.Outcome State Fault Refusal := nextDev s fun d => beTimeout d n
/-- DEMOSAIC_LINE (R382). -/
def execDemosaicLine (n : Fin 16) (s : State) : Host.Outcome State Fault Refusal := nextDev s fun d => demosaicLine d n

end Sys2Proof.Machine
end

