-- ==== Sys2Proof/Machine/Format.lean ====
section
/-! DEFINITION. The output formatters: crop, scale, code conversion, layouts, headers, and the finish of a frame (chapter 11, R386 to R394). -/

namespace Sys2Proof.Machine

open Sys2Proof

/-! ### Scaling (R386) -/

/-- Source positions and FP32 weights of output position j, for a crop from x0 of w source pixels scaled to t: overlaps for a step of 1 or more, otherwise the bilinear pair (log 34). -/
def axisTaps (x0 w t j : Nat) : List (Nat × Val) :=
  if t ≤ w then
    let a := x0 * t + j * w
    let b := a + w
    let i0 := a / t
    (List.range (ceilDiv b t - i0)).map fun k =>
      let i := i0 + k
      (i, fdiv (natVal (min b ((i + 1) * t) - max a (i * t))) (natVal w))
  else
    let p := min (2 * t * x0 + (2 * j + 1) * w - t) (2 * t * (x0 + w - 1))
    let p := if 2 * t * x0 + (2 * j + 1) * w < 2 * t * x0 + t then 2 * t * x0 else p
    let i := p / (2 * t)
    let r := p % (2 * t)
    if r = 0 then [(i, .num 1 0)]
    else let f := fdiv (natVal r) (natVal (2 * t)); [(i, fsub (.num 1 0) f), (i + 1, f)]

/-- Weighted sum of three channels, rounded term by term. -/
def mixPx (l : List (Val × (Val × Val × Val))) : Val × Val × Val :=
  match l with
  | [] => (.zero false, .zero false, .zero false)
  | (w, p) :: t => t.foldl (fun s q => (fadd s.1 (fmul q.1 q.2.1), fadd s.2.1 (fmul q.1 q.2.2.1), fadd s.2.2 (fmul q.1 q.2.2.2)))
      (fmul w p.1, fmul w p.2.1, fmul w p.2.2)

/-- A source pixel's values. -/
def srcPx (l : List (W32 × W32 × W32)) (x : Nat) : Val × Val × Val :=
  let p := l.getD x (0#32, 0#32, 0#32)
  (ofF32 p.1, ofF32 p.2.1, ofF32 p.2.2)

/-- A scaled line: columns first, then rows (log 34). -/
def scaledLine (rgb : List (List (W32 × W32 × W32))) (c : Crop) (tw th j : Nat) : List (Val × Val × Val) :=
  let rows := axisTaps c.y c.h th j
  let cols := (List.range tw).map (axisTaps c.x c.w tw)
  let wide := rows.map fun r => (r.2, cols.map fun ts => mixPx (ts.map fun t => (t.2, srcPx (rgb.getD r.1 []) t.1)))
  (List.range tw).map fun x => mixPx (wide.map fun r => (r.1, r.2.getD x (.zero false, .zero false, .zero false)))

/-- Source lines that output line j needs: one past the last. -/
def needsLines (c : Crop) (th j : Nat) : Nat := (axisTaps c.y c.h th j).foldl (fun m t => max m (t.1 + 1)) 0

/-! ### Code conversion (R388) -/

/-- Round and saturate to the range lo to hi; an infinity saturates, and a NaN, which R388 does not name, gives zero (log 199). -/
def satCode (lo hi : Int) : Val → Int
  | .inf s => if s then lo else hi
  | v => max lo (min (roundInt v) hi)

/-- Round and saturate to 0 to m. -/
def codeOf (v : Val) (m : Nat) : Nat := (satCode 0 m v).toNat

/-- Y', Cb, Cr of a pixel (Table 11.4). -/
def yccOf (csc : Nat) (p : Val × Val × Val) : Val × Val × Val :=
  let (kr, kb) := krKb csc
  let one : Val := .num 1 0
  let kg := fsub (fsub one kr) kb
  let y := fadd (fadd (fmul kr p.1) (fmul kg p.2.1)) (fmul kb p.2.2)
  (y, fdiv (fsub p.2.2 y) (vscale (fsub one kb) 1), fdiv (fsub p.1 y) (vscale (fsub one kr) 1))

/-- Y code of `bits` bits (Table 11.5). -/
def yCode (csc bits : Nat) (v : Val) : Nat :=
  let m := 2 ^ bits - 1
  if csc / 4 % 2 = 1 then codeOf (fmul (natVal m) v) m
  else codeOf (fadd (natVal (2 ^ (bits - 4))) (fmul (natVal (219 * 2 ^ (bits - 8))) v)) m
/-- Cb or Cr code of `bits` bits (Table 11.5). -/
def cCode (csc bits : Nat) (v : Val) : Nat :=
  let m := 2 ^ bits - 1
  let k := if csc / 4 % 2 = 1 then m else 224 * 2 ^ (bits - 8)
  codeOf (fadd (natVal (2 ^ (bits - 1))) (fmul (natVal k) v)) m

/-- Mean of chroma values: pairs added, then the sums, then halved or quartered. -/
def mean2 (a b : Val) : Val := vscale (fadd a b) (-1)
def mean4 (a b c e : Val) : Val := vscale (fadd (fadd a b) (fadd c e)) (-2)

/-- Bytes of a byte-coded number. -/
def oneByte (v : Nat) : List Byte := [BitVec.ofNat 8 v]

/-! ### Layouts (R389, Table 11.6) -/

/-- Padded extents of the coding layouts. -/
def padTo64 (v : Nat) : Nat := ceilDiv v 64 * 64
/-- Bytes per sample of a coding format. -/
def codeBytes (fmt : Nat) : Nat := if fmt = 1 then 2 else 1
/-- Least line stride of a layout. -/
def leastStride (f fmt w : Nat) : Nat :=
  if f = 0 then (if fmt = 0 then padTo64 (3 * w) else if fmt = 1 then 4 * w else 2 * w)
  else if f = 1 then padTo64 w * codeBytes fmt
  else if fmt < 2 then padTo64 (3 * w) else padTo64 w
/-- Line stride of formatter f. -/
def fmtStride (d : Dev) (n f : Nat) : Nat :=
  let s := fmtSet d n f 5
  if f = 1 ∨ s = 0 then leastStride f (fmtSet d n f 2) (fmtSet d n f 3) else s
/-- Image size (R389). -/
def imageSize (d : Dev) (n f : Nat) : Nat :=
  let h := fmtSet d n f 4
  let s := fmtStride d n f
  if f = 1 then s * padTo64 h + s * (padTo64 h / 2) else if f = 2 ∧ 2 ≤ fmtSet d n f 2 then 3 * s * h else s * h
/-- BUF_BYTES (R390). -/
def bufBytes (d : Dev) (n f : Nat) : Nat := 4096 + ceilDiv (imageSize d n f) 4096 * 4096
/-- Start of the buffer of frame `no`. -/
def bufAddr (d : Dev) (n f no : Nat) : Nat := fmtSet d n f 7 + no % max 1 (fmtSet d n f 8) * bufBytes d n f

/-- A line of bytes at an offset of the image. -/
structure OutLine where
  off : Nat := 0
  data : List Byte := []
  deriving DecidableEq, Repr

/-- Lines of the display formatter for output line j. -/
def displayLine (d : Dev) (n j : Nat) (px : List (Val × Val × Val)) : List OutLine :=
  let fmt := fmtSet d n 0 2
  let csc := fmtSet d n 0 0x0B
  let c (v : Val) : Nat := codeOf (fmul (natVal 255) v) 255
  let data :=
    if fmt = 0 then px.flatMap fun p => oneByte (c p.1) ++ oneByte (c p.2.1) ++ oneByte (c p.2.2)
    else if fmt = 1 then px.flatMap fun p => oneByte (c p.2.2) ++ oneByte (c p.2.1) ++ oneByte (c p.1) ++ oneByte (fmtSet d n 0 0x0C)
    else (List.range (px.length / 2)).flatMap fun k =>
      let a := yccOf csc (px.getD (2 * k) default')
      let b := yccOf csc (px.getD (2 * k + 1) default')
      oneByte (yCode csc 8 a.1) ++ oneByte (cCode csc 8 (mean2 a.2.1 b.2.1)) ++ oneByte (yCode csc 8 b.1) ++ oneByte (cCode csc 8 (mean2 a.2.2 b.2.2))
  [{ off := j * fmtStride d n 0, data := data }]
where
  default' : Val × Val × Val := (.zero false, .zero false, .zero false)

/-- A coded sample: one byte, or P010's value in bits [15:6]. -/
def codeSample (fmt v : Nat) : List Byte := if fmt = 1 then leBytes 2 (v * 64) else oneByte v

/-- Lines of the coding formatter for output line j, `prev` being the line above: the luma line, and after an odd one its chroma line (R389, R393). -/
def codingLine (d : Dev) (n j : Nat) (px prev : List (Val × Val × Val)) : List OutLine :=
  let fmt := fmtSet d n 1 2
  let csc := fmtSet d n 1 0x0B
  let bits := if fmt = 1 then 10 else 8
  let s := fmtStride d n 1
  let cur := px.map (yccOf csc)
  let y : OutLine := { off := j * s, data := cur.flatMap fun p => codeSample fmt (yCode csc bits p.1) }
  if j % 2 = 0 then [y]
  else
    let up := prev.map (yccOf csc)
    let z : Val × Val × Val := (.zero false, .zero false, .zero false)
    let at' (l : List (Val × Val × Val)) (k : Nat) := l.getD k z
    let c := (List.range (px.length / 2)).flatMap fun k =>
      let q (g : Val × Val × Val → Val) : Val := mean4 (g (at' up (2 * k))) (g (at' up (2 * k + 1))) (g (at' cur (2 * k))) (g (at' cur (2 * k + 1)))
      codeSample fmt (cCode csc bits (q (·.2.1))) ++ codeSample fmt (cCode csc bits (q (·.2.2)))
    [y, { off := s * padTo64 (fmtSet d n 1 4) + j / 2 * s, data := c }]

/-- A machine-vision code (R388). -/
def mvCode (signed : Bool) (v mul add : Val) : List Byte :=
  let r := fadd (fmul v mul) add
  oneByte (if signed then lowBits 8 (satCode (-128) 127 r) else codeOf r 255)

/-- Lines of the machine-vision formatter for canvas line j; `px` is the placed line, or nothing outside the image. -/
def mvLine (d : Dev) (n j : Nat) (g : Nat → Byte) (px : Option (List (Val × Val × Val))) : List OutLine :=
  let fmt := fmtSet d n 2 2
  let w := fmtSet d n 2 3
  let x0 := fmtSet d n 2 0x0F
  let sw := fmtSet d n 2 0x0D
  let s := fmtStride d n 2
  let code (c x : Nat) : List Byte := match px with
    | some l => if x0 ≤ x ∧ x < x0 + sw then
        let p := l.getD (x - x0) (.zero false, .zero false, .zero false)
        mvCode (fmt % 2 == 0) (if c = 0 then p.1 else if c = 1 then p.2.1 else p.2.2)
          (ofF32 (BitVec.ofNat 32 (get32 g (0x058 + 4 * c)))) (ofF32 (BitVec.ofNat 32 (get32 g (0x064 + 4 * c))))
      else [g (0x070 + c)]
    | none => [g (0x070 + c)]
  if fmt < 2 then [{ off := j * s, data := (List.range w).flatMap fun x => code 0 x ++ code 1 x ++ code 2 x }]
  else (List.range 3).map fun c => { off := c * s * fmtSet d n 2 4 + j * s, data := (List.range w).flatMap (code c) }

/-- Crop that a formatter uses for a frame. -/
def cropOf (d : Dev) (n f : Nat) (fr : IcFrame) : Crop := ((latchedOf (ic d n) fr).bind fun l => l.crops[f]?).getD (wholeFrame d n)

/-- Row of the scaled image that output line j shows; none for a canvas line outside the placed image. -/
def imageRow (d : Dev) (n f j : Nat) : Option Nat :=
  if f = 2 then (let y := fmtSet d n 2 0x10; if y ≤ j ∧ j < y + fmtSet d n 2 0x0E then some (j - y) else none) else some j

/-- Output line j of formatter f can be written: every source line it needs is available (R392). -/
def outReady (d : Dev) (n f : Nat) (fr : IcFrame) (j : Nat) : Bool :=
  match imageRow d n f j with
  | some r => decide (needsLines (cropOf d n f fr) (fmtTarget d n f).2 r ≤ fr.rgb.length)
  | none => true

/-- The lines of bytes that output line j is made of. -/
def outLines (d : Dev) (n f : Nat) (fr : IcFrame) (j : Nat) : List OutLine :=
  let c := cropOf d n f fr
  let t := fmtTarget d n f
  let sc (r : Nat) := scaledLine fr.rgb c t.1 t.2 r
  match f with
  | 0 => displayLine d n j (sc j)
  | 1 => codingLine d n j (sc j) (sc (j - 1))
  | _ => mvLine d n j (setOf (ic d n) n fr.latch) ((imageRow d n 2 j).map sc)

/-! ### Lines and headers on the stream channel (R390 to R393) -/

/-- Progress of formatter f in a frame. -/
def fmtRun (fr : IcFrame) (f : Nat) : FmtRun := fr.fmts.getD f {}
/-- Change the progress of formatter f. -/
def setRun (f : Nat) (g : FmtRun → FmtRun) (fr : IcFrame) : IcFrame := { fr with fmts := modifyAt fr.fmts f g }

/-- The oldest frame whose header formatter f has not written. -/
def fmtFrame (d : Dev) (n f : Nat) : Option IcFrame := if fmtOn d n f then (ic d n).frames.find? fun fr => !(fmtRun fr f).header else none

/-- The channel takes a formatter's units: it has left idle, as one with an invalid descriptor never does, and is not cancelling (R224, R225). -/
def chanTakes (c : Chan) : Bool := c.state != 0 && c.state != 4

/-- Begin the formatter's frame on its channel, unless it has begun. -/
def beginFrame (d : Dev) (n f : Nat) (fr : IcFrame) : Dev :=
  if (fmtRun fr f).begun then d
  else
    let ch := fmtSet d n f 6
    let d := setChan d ch (leaveIdle (chan d ch))
    let c := chan d ch
    let d := if chanTakes c then setChan d ch { c with frames := c.frames ++ [{ more := true }] } else d
    updFrame d n fr.no (setRun f fun r => { r with begun := true })

/-- Append units with their addresses to the channel's last frame. -/
def appendUnits (us : List (List (Byte × Bool))) (as : List Nat) (more : Bool) (c : Chan) : Chan :=
  if chanTakes c then { c with frames := modifyAt c.frames (c.frames.length - 1) fun f => { f with units := f.units ++ us, addrs := f.addrs ++ as, more := more } } else c

/-- Units of a line of bytes, each with its buffer address. -/
def lineUnitsOf (base : Nat) (l : OutLine) : List (List (Byte × Bool)) × List Nat :=
  let k := ceilDiv l.data.length 512
  (chunks 512 k (l.data.map fun b => (b, false)), (List.range k).map fun i => base + 4096 + l.off + 512 * i)

/-- FORMATTER_LINE (R386 to R389, R392): the next output line of the oldest frame that formatter f has not finished. -/
def formatLine (d : Dev) (n f : Nat) : Dev :=
  match fmtFrame d n f with
  | some fr =>
    let j := (fmtRun fr f).lines
    if j < fmtSet d n f 4 ∧ outReady d n f fr j = true then
      let d := beginFrame d n f fr
      let base := bufAddr d n f fr.no
      let ch := fmtSet d n f 6
      let us := (outLines d n f fr j).map (lineUnitsOf base)
      let d := setChan d ch (appendUnits (us.flatMap (·.1)) (us.flatMap (·.2)) true (chan d ch))
      updFrame d n fr.no (setRun f fun r => { r with lines := j + 1 })
    else d
  | none => d

/-- No further line of R'G'B' will come: the frame has closed and owes the back end nothing, or its neural path is lost. -/
def rgbFinal (fr : IcFrame) : Bool := !fr.opened && (fr.lost || !beOwes fr)

/-- Every output line that can be written has been handed to the channel. -/
def linesDone (d : Dev) (n f : Nat) (fr : IcFrame) : Bool :=
  let j := (fmtRun fr f).lines
  decide (fmtSet d n f 4 ≤ j) && !fr.opened || (rgbFinal fr && !outReady d n f fr j)

/-- The output header (Table 11.7). -/
def headerBytes (d : Dev) (n f : Nat) (fr : IcFrame) : List Byte :=
  let c := cropOf d n f fr
  let l := (fmtRun fr f).lines
  let refused := ((latchedOf (ic d n) fr).bind fun x => x.cropRefused[f]?).getD false
  leBytes 64 (pack [(352, 32, fr.latch.getD (ic d n).latchFrame.toNat), (339, 1, b2n refused), (338, 1, b2n fr.lost), (337, 1, b2n (decide (l < fmtSet d n f 4))),
    (336, 1, b2n !fr.neural), (320, 16, c.h), (304, 16, c.w), (288, 16, c.y), (272, 16, c.x), (256, 16, l), (0, 256, stampOf (icPort d n) n fr)])

/-- Coding padding of a complete frame for its PHYS receiver: columns repeat the last column, lines the last line (R389, R392). -/
def codingPadding (d : Dev) (n : Nat) (fr : IcFrame) : List OutLine :=
  let w := fmtSet d n 1 3
  let h := fmtSet d n 1 4
  let b := codeBytes (fmtSet d n 1 2)
  let s := fmtStride d n 1
  let pad (l : OutLine) (px : Nat) : OutLine := { off := l.off + l.data.length, data := (List.replicate ((s - l.data.length) / px) (l.data.drop (l.data.length - px))).flatten }
  let whole (l : OutLine) (px : Nat) : List Byte := l.data ++ (pad l px).data
  let cols := (List.range h).flatMap fun j => (withPos (outLines d n 1 fr j)).map fun l => pad l.2 (if l.1 = 0 then b else 2 * b)
  let lastL := outLines d n 1 fr (h - 1)
  let rows := (withPos lastL).flatMap fun l =>
    let count := if l.1 = 0 then padTo64 h - h else padTo64 h / 2 - h / 2
    (List.range count).map fun k => ({ off := l.2.off + (k + 1) * s, data := whole l.2 (if l.1 = 0 then b else 2 * b) } : OutLine)
  if w = 0 then [] else (cols ++ rows).filter fun l => !l.data.isEmpty

/-- Write the coding padding into the PHYS receiver's buffer, as agent 1. -/
def writePadding (d : Dev) (n : Nat) (fr : IcFrame) : Dev :=
  let ch := fmtSet d n 1 6
  let c := chan d ch
  if (List.range 4).any (isPhysRecv c) then
    (codingPadding d n fr).foldl (fun d l => memWrite d (some agSe) (srcSe (ch / 64)) (bufAddr d n 1 fr.no + 4096 + l.off) l.data false) d
  else d

/-- The header has been written: counted, and the signal posted (R391). -/
def headerWritten (d : Dev) (n f : Nat) (fr : IcFrame) : Dev :=
  let d := bump d (icX n + 4 + f) 0x20 4 1
  let d := if (fmtRun fr f).lines < fmtSet d n f 4 then bump d (icX n + 4 + f) 0x21 4 1 else d
  entrySignal d (fmtSet d n f 0x0A)

/-- FORMATTER_HEADER (R391, R393): after every line has been sent, the header goes as the frame's last unit when it is the channel's turn (R229), and the signal follows. A frame whose channel was cancelled ends without a header (log 36). -/
def formatHeader (d : Dev) (n f : Nat) : Dev :=
  match fmtFrame d n f with
  | some fr =>
    if linesDone d n f fr then
      let done (d : Dev) : Dev := updFrame d n fr.no (setRun f fun r => { r with header := true })
      let d1 := beginFrame d n f fr
      let ch := fmtSet d n f 6
      let c := chan d1 ch
      if !chanTakes c || c.frames.isEmpty then done d1
      else
        let c := appendUnits [((headerBytes d n f fr).map fun b => (b, false))] [bufAddr d n f fr.no] false c
        let d2 := if f = 1 ∧ fmtSet d n f 4 ≤ (fmtRun fr f).lines then writePadding d1 n fr else d1
        let d2 := setChan d2 ch c
        if (c.frames.map fun x => x.units.length).sum = 1 ∧ chosenChan d2 (ch / 64) = some ch then done (headerWritten (unitSend d2 (ch / 64)) n f fr)
        else d
    else d
  | none => d

/-! ### The finish of a frame (R394) -/

/-- A closed frame is finished once every enabled formatter has written its header and every line has left the line memories. -/
def frameDone (d : Dev) (n : Nat) (fr : IcFrame) : Bool :=
  !fr.opened && !fr.finished && fr.lm.isEmpty && fr.raw.length == fr.lines && (List.range 3).all fun f => !fmtOn d n f || (fmtRun fr f).header

/-- FRAME_FINISHED (R394): the oldest frame that meets its conditions. -/
def frameFinished (d : Dev) (n : Nat) : Dev :=
  match (ic d n).frames.find? (frameDone d n) with
  | some fr => tidyFrames (updFrame d n fr.no fun f => { f with finished := true }) n
  | none => d

/-- FORMATTER_LINE (R386). -/
def execFormatterLine (n : Fin 16) (f : Fin 3) (s : State) : Host.Outcome State Fault Refusal := nextDev s fun d => formatLine d n f
/-- FORMATTER_HEADER (R391). -/
def execFormatterHeader (n : Fin 16) (f : Fin 3) (s : State) : Host.Outcome State Fault Refusal := nextDev s fun d => formatHeader d n f
/-- FRAME_FINISHED (R394). -/
def execFrameFinished (n : Fin 16) (s : State) : Host.Outcome State Fault Refusal := nextDev s fun d => frameFinished d n

end Sys2Proof.Machine
end

