-- ==== Sys2Proof/Machine/Functions.lean ====
section
/-! DEFINITION. Functions: owners and ranges of entries, start validation, and the transitions of Table 9.4 (chapter 9). -/

namespace Sys2Proof.Machine

open Sys2Proof

/-! ### Owners and ranges (R299, R302, R315) -/

/-- Function that owns the entries at index i; 0xFF for none (Table 9.3; R356, R357, R395, R418, R446, R468, R488, R489, R509, R539). -/
def odOwner (i : Nat) : Nat :=
  if (0x2200 ≤ i ∧ i < 0x2300) ∨ (0x2600 ≤ i ∧ i < 0x2700) then 0
  else if 0x3000 ≤ i ∧ i < 0x3400 then camFn ((i - 0x3000) / 0x100)
  else if 0x4000 ≤ i ∧ i < 0x4400 then icFn ((i - 0x4000) / 0x40)
  else if 0x4800 ≤ i ∧ i < 0x4810 then icFn (i - 0x4800)
  else if 0x4840 ≤ i ∧ i < 0x4844 then camFn (i - 0x4840)
  else if 0x5010 ≤ i ∧ i < 0x5018 then grpFn (i - 0x5010)
  else if i = 0x5800 then portFn 0
  else if i = 0x5900 ∨ i = 0x5A00 then portFn ((i - 0x5800) / 0x100)
  else if i = 0x5B00 then portFn 3
  else if i = 0x5B80 then 0x21
  else 0xFF

/-- A standard of Table 11.4 and a range bit. -/
def cscOk (v : Nat) : Bool := decide (v < 8) && v % 4 != 3

/-- Ranges of single entries that a row's limits do not say: BREATH_RATE (R485), SYNC_OFFSET_NS, and the image-context, CAN, Ethernet and UART entries. -/
def rangeExtra (d : Dev) (i sub v : Nat) : Bool :=
  if i = 0x2100 ∧ sub = 1 then
    let n := v / 2 ^ 32
    let m := v % 2 ^ 32
    decide (1 ≤ n) && decide (n ≤ 240000) && decide (1 ≤ m) && decide (m ≤ 240000) && decide (n ≤ 240 * m) && decide (m ≤ n)
  else if i = 0x2100 ∧ sub = 4 then withinHalf d.breath (sext 32 v)
  else if 0x4000 ≤ i ∧ i < 0x4400 then
    let x := i % 0x40
    if x = 0 ∧ sub = 2 then decide (v < 4)
    else if x = 0 ∧ sub = 6 then cscOk v
    else if x = 1 ∧ sub = 3 then imageTypes.contains v
    else if x = 1 ∧ sub = 4 then v % 2 == 0
    else if (x = 4 ∨ x = 5 ∨ x = 6) ∧ sub = 2 then decide (v ≤ (if x = 4 then 2 else if x = 5 then 1 else 3))
    else if (x = 4 ∨ x = 5 ∨ x = 6) ∧ sub = 0x0B then cscOk v
    else true
  else if (i = 0x5900 ∨ i = 0x5A00) ∧ sub = 3 then (List.range 8).all fun k => decide (v / 16 ^ k % 16 ≤ 3)
  else if i = 0x5B00 ∧ sub = 2 then v == 0 || (decide (125 ≤ v) && decide (v ≤ 5000))
  else if i = 0x5B80 ∧ sub = 2 then decide (v < 16) && v % 4 != 3
  else true

/-- The value of a numeric entry is in range (R299). -/
def rangeOk (d : Dev) (r : OdRow) (i sub v : Nat) : Bool := odInRange r v && rangeExtra d i sub v

/-! ### Start validation (R305) -/

/-- R332: the first LANES nibbles of LANE_MAP are distinct and at most 3. -/
def laneMapBad (d : Dev) (p : Nat) : Bool :=
  let l := (List.range (setting d (camB p) 1)).map fun k => setting d (camB p) 3 / 16 ^ k % 16
  l.any (3 < ·) || !l.Nodup

/-- R338: another Starting or Running image context uses the same PORT, VC and DATA_TYPE, or the same PORT and VC with embedded data in both. -/
def routeClash (d : Dev) (n : Nat) : Bool :=
  (List.range 16).any fun m => m != n && fnUp d (icFn m) && icPort d m == icPort d n && icVc d m == icVc d n
    && (icType d m == icType d n || (setting d (icX m + 1) 9 == 1 && setting d (icX n + 1) 9 == 1))

/-- Blocks that image context n reserves when it runs (R375). -/
def reserveOf (d : Dev) (n : Nat) : Nat :=
  18 + setting d (icX n) 3 * lineBlocks d n + (if icMode d n = 1 then setting d (icX n) 4 * uBe d n else 0)
/-- R375: the reserves of all Starting and Running image contexts with this one pass 3,808 blocks. -/
def poolShort (d : Dev) (n : Nat) : Bool :=
  decide (3808 < ((List.range 16).map fun m => if m = n ∨ fnUp d (icFn m) = true then reserveOf d m else 0).sum)

/-- WIDTH breaks Table 10.2, or a rule of R396 for the stripes. -/
def widthBad (d : Dev) (n : Nat) : Bool :=
  icWidth d n % (if icType d n = 0x2B ∨ icType d n = 0x2D then 4 else 2) != 0
    || decide (16 < icStripes d n) || decide (icWidth d n < 2 * icHalo d n + 2)

/-- STRIDE is not 0 and breaks Table 11.6; the coding formatter ignores it (R396). -/
def strideBad (d : Dev) (n f : Nat) : Bool :=
  let s := fmtSet d n f 5
  let fmt := fmtSet d n f 2
  f != 1 && s != 0 && (decide (s < leastStride f fmt (fmtSet d n f 3)) || ((f == 2 || fmt == 0) && s % 64 != 0))

/-- An enabled formatter's CHANNEL does not serve it (R396). -/
def channelBad (d : Dev) (n f : Nat) : Bool :=
  let ch := fmtSet d n f 6
  decide (512 ≤ ch) || chanInvalid (chan d ch) || chProdKind (chan d ch) != 2 || chProducer (chan d ch) != 4 * n + f

/-- Rules of R396 for entry F.sub of formatter f. -/
def formatterBad (d : Dev) (n f sub : Nat) : Bool :=
  let on := fmtOn d n f
  if sub = 3 then on && fmtSet d n f 3 % 2 != 0
  else if sub = 4 then (on && decide (fmtSet d n f 4 < 2)) || (f == 1 && fmtSet d n f 4 % 2 != 0)
  else if sub = 5 then strideBad d n f
  else if sub = 6 then on && channelBad d n f
  else if sub = 7 then fmtSet d n f 7 % 4096 != 0
  else if sub = 0x0D then f == 2 && decide (fmtSet d n f 3 < fmtSet d n f 0x0D + fmtSet d n f 0x0F)
  else if sub = 0x0E then f == 2 && decide (fmtSet d n f 4 < fmtSet d n f 0x0E + fmtSet d n f 0x10)
  else false

/-- Rules that join entries of image context n, at entry i.sub (R338, R375, R385, R396, R418). -/
def icBad (d : Dev) (n i sub : Nat) : Bool :=
  if i = 0x4800 + n then sub == 1 && setting d i 1 % 4096 != 0
  else
    let x := i - icX n
    if x = 0 ∧ sub = 1 then icYuv d n && icMode d n == 1
    else if x = 0 ∧ sub = 3 then poolShort d n
    else if x = 1 ∧ sub = 2 then routeClash d n
    else if x = 1 ∧ sub = 4 then widthBad d n
    else if x = 1 ∧ sub = 5 then !icYuv d n && icHeight d n % 2 != 0
    else if x = 4 ∨ x = 5 ∨ x = 6 then formatterBad d n (x - 4) sub
    else false

/-- Rules that join entries of function f, at entry i.sub: a break is 0x0907 (R332, R338, R375, R385, R396, R417, R418, R423, Table 13.12). -/
def jointBad (d : Dev) (f i sub : Nat) : Bool :=
  if 0x01 ≤ f ∧ f ≤ 0x04 then
    let p := f - 0x01
    (i == camB p && sub == 3 && laneMapBad d p) || (i == 0x4840 + p && sub == 1 && icPort d (setting d i 1) != p)
  else if 0x05 ≤ f ∧ f ≤ 0x14 then icBad d (f - 0x05) i sub
  else if 0x15 ≤ f ∧ f ≤ 0x1C then groupBad d (f - 0x15) sub
  else if f = portFn 3 then i == 0x5B00 && sub == 2 && setting d 0x5B00 2 != 0 && decide (setting d 0x5B00 2 < setting d 0x5B00 1)
  else false

/-- The RW and RWS entries that function f owns, in ascending order: index, subindex, row. -/
def ownedBy (f : Nat) : List (Nat × Nat × OdRow) :=
  odTable.flatMap fun r =>
    if r.acc = .rw ∨ r.acc = .rws then
      (List.range r.count).filterMap fun k => if odOwner (r.base + r.stride * k) = f then some (r.base + r.stride * k, r.sub, r) else none
    else []

/-- Abort code of one entry of function f at a start, none when it passes. -/
def entryAbort (d : Dev) (f : Nat) (e : Nat × Nat × OdRow) : Option Nat :=
  if odSize e.2.2.ty ≠ 0 ∧ rangeOk d e.2.2 e.1 e.2.1 (setting d e.1 e.2.1) = false then some 0x0906
  else if jointBad d f e.1 e.2.1 then some 0x0907
  else none

/-- First failure of the start validation of function f: code, index, subindex (R305). -/
def startFault (d : Dev) (f : Nat) : Option (Nat × Nat × Nat) :=
  (ownedBy f).findSome? fun e => (entryAbort d f e).map fun c => (c, e.1, e.2.1)

/-! ### Transitions (Table 9.4) -/

/-- Write ACTUAL of function f (R303). -/
def setActual (d : Dev) (f v : Nat) : Dev := setCnt d (0x1100 + f) 3 v
/-- Write REQUESTED of function f. -/
def setRequested (d : Dev) (f v : Nat) : Dev := setSetting d (0x1100 + f) 2 v
/-- Write ABORT_CODE, ABORT_INDEX and ABORT_SUB of function f. -/
def setAbort (d : Dev) (f code i sub : Nat) : Dev :=
  setCnt (setCnt (setCnt d (0x1100 + f) 4 code) (0x1100 + f) 5 i) (0x1100 + f) 6 sub

/-- What image context n's block does at its start (R340, R373, R390, R408): FRAME_COUNT 0, no frame, STRIPES and BUF_BYTES computed. -/
def icStart (d : Dev) (n : Nat) : Dev :=
  let d := updIc d n fun c => { c with count := 0, prevCsi := 0, dropping := false, frames := [], closeNs := d.clk.ns, latched := [], copying := false, held := [] }
  let d := setCnt d (icX n + 3) 3 (icStripes d n)
  let d := (List.range 3).foldl (fun d f => setCnt d (icX n + 4 + f) 9 (bufBytes d n f)) d
  noteBlocks (setCnt d (icX n + 0x20) 9 0) n

/-- What function f's block does as it enters Starting. -/
def blockStart (d : Dev) (f : Nat) : Dev :=
  if 0x01 ≤ f ∧ f ≤ 0x04 then updCam d (f - 0x01) fun c => { c with burst := false, skip := false, deskewed := false, header := none }
  else if 0x05 ≤ f ∧ f ≤ 0x14 then icStart d (f - 0x05)
  else if 0x15 ≤ f ∧ f ≤ 0x1C then updGrp d (f - 0x15) fun _ => {}
  else d

/-- REQUESTED set to Running on a Stopped function: the abort of R305, or the start. -/
def requestRunning (d : Dev) (f : Nat) : Dev × Option (Nat × Nat × Nat) :=
  match startFault d f with
  | some (c, i, sub) => (setAbort d f c i sub, some (c, i, sub))
  | none => (blockStart (setActual (setAbort (setRequested d f 2) f 0 0 0) f 1) f, none)

/-- REQUESTED set to Stopped on a Running or Faulted function (R306): the terminations of USB go, and the compute pool stops at once when nothing is in flight. -/
def requestStopped (d : Dev) (f : Nat) : Dev :=
  let d := setActual (setRequested d f 0) f 3
  if f = portFn 0 then usbSettle d else if f = 0 then poolSettle d else d

/-- A write of REQUESTED; `can` says that it came over CAN FD (R304, R305, R309, R507). -/
def writeRequested (d : Dev) (can : Bool) (f v : Nat) : Dev × Option (Nat × Nat × Nat) :=
  let a := actual d f
  if can && f == portFn 3 && v == 0 then (d, some (0x090C, 0x1100 + f, 2))
  else if a = 1 ∨ a = 3 ∨ (v = 2 ∧ a = 4) ∨ v = a ∨ (v = 2 ∧ deviceState d = 3) then (d, some (0x0904, 0x1100 + f, 2))
  else if v = 2 then requestRunning d f
  else (requestStopped d f, none)

/-- FUNCTION_RUNNING (R303, R305): the block runs with the validated set. An image context runs from its first admitted frame start (R340), and an audio group from the next boundary (R424). -/
def functionRunning (d : Dev) (f : Nat) : Dev :=
  if actual d f ≠ 1 ∨ (0x05 ≤ f ∧ f ≤ 0x1C) then d
  else
    let d := goRunning d f
    if portFn 0 ≤ f ∧ f ≤ portFn 3 then
      let p := f - portFn 0
      let d := (List.range (queueCount p)).foldl (fun d q => queueLoad d p q) d
      if p = 0 then usbSettle d else d
    else d

/-- START_FAILED (R305): ACTUAL Stopped, the ABORT entries, then REQUESTED Stopped. -/
def startFailed (d : Dev) (f : Nat) : Dev :=
  if actual d f = 1 then setRequested (setAbort (setActual d f 0) f 0x090F (0x1100 + f) 2) f 0 else d

/-- The stop condition of function f's chapter is met (R270, R349, R394, R425, R433, R435, R442); the UART's chapter gives none. -/
def mayStop (d : Dev) (f : Nat) : Bool :=
  if f = 0 then !anyInflight d
  else if f ≤ 0x04 then (List.range 16).all fun n => icPort d n != f - 0x01 || (openFrame d n).isNone
  else if f ≤ 0x14 then (ic d (f - 0x05)).frames.all (·.finished)
  else if f ≤ 0x1C then (agrp d (f - 0x15)).lastDone || ((agrp d (f - 0x15)).cur.isNone && (agrp d (f - 0x15)).closed.isEmpty)
  else if f ≤ 0x20 then
    (List.range (queueCount (f - portFn 0))).all (fun q => (pq d (f - portFn 0) q).cur.isNone) && (f != portFn 0 || !d.ports.term)
  else true

/-- Image context n has become Stopped: its back-end window closes, latched sets that no statistics record still needs are freed, its formatters' streams end (R394), and Armed entries of its ledger ports become Missed (R413). -/
def icStopped (d : Dev) (n : Nat) : Dev :=
  let d := updIc d n fun c => { c with beWin := {}, beBuf := [], beTaken := 0, latched := c.latched.filter fun l => c.frames.any fun f => f.latch == some l.frame }
  let d := (List.range 3).foldl (fun d f =>
    let ch := fmtSet d n f 6
    let c := chan d ch
    if fmtOn d n f && chanTakes c && !(c.frames.any (·.ends)) then setChan d ch { c with frames := c.frames ++ [{ ends := true }] } else d) (noteBlocks d n)
  (List.range 4).foldl (fun d p => if ledgerIc d p = n then missArmed d p else d) d

/-- FUNCTION_STOPPED (R306). -/
def functionStopped (d : Dev) (f : Nat) : Dev :=
  if actual d f = 3 && mayStop d f then
    let d := setActual d f 0
    if 0x05 ≤ f ∧ f ≤ 0x14 then icStopped d (f - 0x05)
    else if 0x15 ≤ f ∧ f ≤ 0x1C then updGrp d (f - 0x15) fun _ => {}
    else d
  else d

/-- A function enters Faulted: ACTUAL, FAULTS. -/
def toFaulted (d : Dev) (f : Nat) : Dev :=
  let d := bump (setActual d f 4) (0x1100 + f) 8 4 1
  if f = portFn 0 then usbSettle d else d

/-- STOP_TIMEOUT (R306): STOP_TIMEOUT has passed before the stop condition. -/
def stopTimeout (d : Dev) (f : Nat) : Dev :=
  if actual d f = 3 then postEvent (toFaulted d f) 0x0921 2 srcCp f else d

/-- FUNCTION_FAULTED (R307): the block of a Running or Starting function reports a fault with a cause code. -/
def functionFaulted (d : Dev) (f cause : Nat) : Dev :=
  if fnUp d f then postEvent (toFaulted d f) 0x0920 2 srcCp (f + cause * 65536) else d

/-- FUNCTION_RUNNING (R303). -/
def execFunctionRunning (f : Fin 34) (s : State) : Host.Outcome State Fault Refusal := nextDev s fun d => functionRunning d f
/-- START_FAILED (R305). -/
def execStartFailed (f : Fin 34) (s : State) : Host.Outcome State Fault Refusal := nextDev s fun d => startFailed d f
/-- FUNCTION_STOPPED (R306). -/
def execFunctionStopped (f : Fin 34) (s : State) : Host.Outcome State Fault Refusal := nextDev s fun d => functionStopped d f
/-- STOP_TIMEOUT (R306). -/
def execStopTimeout (f : Fin 34) (s : State) : Host.Outcome State Fault Refusal := nextDev s fun d => stopTimeout d f
/-- FUNCTION_FAULTED (R307): with the block's cause code. -/
def execFunctionFaulted (f : Fin 34) (cause : BitVec 16) (s : State) : Host.Outcome State Fault Refusal :=
  nextDev s fun d => functionFaulted d f cause.toNat

end Sys2Proof.Machine
end

