-- ==== Sys2Proof/Machine/Stats.lean ====
section
/-! DEFINITION. Statistics: the two taps, zones, histograms and records (chapter 12, R397 to R405). -/

namespace Sys2Proof.Machine

open Sys2Proof

/-- Grid that a frame's statistics use, and whether the latched one was refused (R400). -/
def gridOf (d : Dev) (n : Nat) (f : IcFrame) : Grid × Bool :=
  match latchedOf (ic d n) f with
  | some l => (l.grid, l.gridRefused)
  | none => (gridAsked d n (setOf (ic d n) n f.latch)) |> fun q => (if q.2 then q.1 else autoGrid d n 16 12, !q.2)

/-- Coordinates of zone (i, j) that lie in the first `h` lines (R400, R403). -/
def zonePixels (g : Grid) (h i j : Nat) : List (Nat × Nat) :=
  ((List.range g.h).filter fun y => decide (g.y0 + j * g.h + y < h)).flatMap fun y =>
    (List.range g.w).map fun x => (g.x0 + i * g.w + x, g.y0 + j * g.h + y)

/-- Coordinates of the whole grid that lie in the first `h` lines. -/
def gridPixels (g : Grid) (h : Nat) : List (Nat × Nat) :=
  ((List.range (g.rows * g.h)).filter fun y => decide (g.y0 + y < h)).flatMap fun y => (List.range (g.cols * g.w)).map fun x => (g.x0 + x, g.y0 + y)

/-- 256-bin histogram of bin numbers, as U32 words. -/
def histogram (bins : List Nat) : List Byte :=
  let t := bins.foldl (fun (t : Sparse Nat) b => supd (fun _ => 0) t b (· + 1)) []
  (List.range 256).flatMap fun b => leBytes 4 (sget (fun _ => 0) t b)

/-! ### Tap A (R401) -/

/-- Value of a raw pixel at tap A. -/
def tapAPx (f : IcFrame) (q : Nat × Nat) : Nat := (f.raw.getD q.2 []).getD q.1 0

/-- The 12 bytes of a tap A zone: four averages and CLIPPED. -/
def zoneA (phase clip : Nat) (f : IcFrame) (ps : List (Nat × Nat)) : List Byte :=
  let ch (c : Nat) : List Nat := (ps.filter fun q => cfa phase q.1 q.2 == c).map (tapAPx f)
  let avg (l : List Nat) : Nat := if l.isEmpty then 0 else roundDiv l.sum l.length
  (List.range 4).flatMap (fun c => leBytes 2 (avg (ch c))) ++ leBytes 4 (ps.countP fun q => decide (clip ≤ tapAPx f q))

/-! ### Tap B (R402) -/

/-- Exact sum of values. -/
def sumVal (l : List Val) : Val := l.foldl vadd (.zero false)

/-- Average of `count` values of sum s, in units of 1/65,535, rounded (R402). -/
def avgB (s : Val) (count : Nat) : Nat :=
  match s with
  | .num m e => if count = 0 then 0 else min 65535 (roundDiv (m.toNat * 65535 * 2 ^ e.toNat) (count * 2 ^ (-e).toNat))
  | _ => 0

/-- R'G'B' of a pixel at tap B. -/
def tapBPx (f : IcFrame) (q : Nat × Nat) : Val × Val × Val := srcPx (f.rgb.getD q.2 []) q.1

/-- The 8 bytes of a tap B zone. -/
def zoneB (f : IcFrame) (ps : List (Nat × Nat)) : List Byte :=
  let px := ps.map (tapBPx f)
  leBytes 2 (avgB (sumVal (px.map (·.1))) ps.length) ++ leBytes 2 (avgB (sumVal (px.map (·.2.1))) ps.length)
    ++ leBytes 2 (avgB (sumVal (px.map (·.2.2))) ps.length) ++ leBytes 2 0

/-- Luma bin of a pixel. -/
def lumaBin (std : Nat) (p : Val × Val × Val) : Nat := min (floorInt (fmul (yccOf (std % 4) p).1 (natVal 256))).toNat 255

/-! ### Records (R404, R405) -/

/-- Slot of a frame's record. -/
def statsSlot (d : Dev) (n no : Nat) : Nat := setting d (0x4800 + n) 1 + no % max 1 (setting d (0x4800 + n) 2) * 0x18000

/-- Zone rows that received at least one line. -/
def rowsValid (g : Grid) (h : Nat) : Nat := (List.range g.rows).countP fun j => decide (g.y0 + j * g.h < h)

/-- The record header of a tap (Table 12.3). -/
def statsHeader (d : Dev) (n tap : Nat) (f : IcFrame) (h : Nat) : List Byte :=
  let g := gridOf d n f
  let e := f.mark.entry.getD {}
  leBytes 64 (pack [(496, 16, e.seq.toNat), (492, 4, e.entry), (484, 8, e.tag.toNat), (483, 1, b2n f.mark.entry.isSome), (482, 1, b2n f.mark.unsure),
    (481, 1, b2n e.late), (480, 1, b2n g.2), (476, 4, tap), (469, 7, g.1.cols), (463, 6, g.1.rows), (457, 6, rowsValid g.1 h),
    (416, 32, e.applied), (384, 32, f.latch.getD (ic d n).latchFrame.toNat), (368, 16, g.1.x0), (352, 16, g.1.y0), (336, 16, g.1.w), (320, 16, g.1.h),
    (0, 256, stampOf (icPort d n) n f)])

/-- A write of the statistics unit. -/
def statsWrite (d : Dev) (a : Nat) (bs : List Byte) : Dev := memWrite d (some agIpl) srcStats a bs false

/-- Zones of a grid, row by row, `size` bytes each (Table 12.2). -/
def writeZones (d : Dev) (a size : Nat) (g : Grid) (h : Nat) (zone : List (Nat × Nat) → List Byte) : Dev :=
  (List.range g.rows).foldl (fun d j => statsWrite d (a + size * 64 * j) ((List.range g.cols).flatMap fun i => zone (zonePixels g h i j))) d

/-- Write tap A's record. -/
def recordA (d : Dev) (n : Nat) (f : IcFrame) : Dev :=
  let s := statsSlot d n f.no
  let g := (gridOf d n f).1
  let h := f.raw.length
  let px := gridPixels g h
  let phase := icPhase d n
  let d := (List.range 4).foldl (fun d c => statsWrite d (s + 0x40 + 0x400 * c)
    (histogram ((px.filter fun q => cfa phase q.1 q.2 == c).map fun q => tapAPx f q / 256))) d
  let d := writeZones d (s + 0x1040) 12 g h (zoneA phase (get16 (setOf (ic d n) n f.latch) 0x08C) f)
  statsWrite d s (statsHeader d n 1 f h)

/-- Write tap B's record. -/
def recordB (d : Dev) (n : Nat) (f : IcFrame) : Dev :=
  let s := statsSlot d n f.no
  let g := (gridOf d n f).1
  let h := f.rgb.length
  let std := get8 (setOf (ic d n) n f.latch) 0x08E
  let d := statsWrite d (s + 0xC040) (histogram ((gridPixels g h).map fun q => lumaBin std (tapBPx f q)))
  let d := writeZones d (s + 0xC440) 8 g h (zoneB f)
  statsWrite d (s + 0xC000) (statsHeader d n 2 f h)

/-- STATS_RECORD (R405): the record of tap `tap` (0 A, 1 B) of the oldest frame that has closed and whose last line has passed it. -/
def statsRecord (d : Dev) (n tap : Nat) : Dev :=
  if tap = 0 then
    match (ic d n).frames.find? fun f => f.statA && rawDone f with
    | some f =>
      let d := entrySignal (bump (recordA d n f) (0x4800 + n) 5 4 1) (setting d (0x4800 + n) 3)
      tidyFrames (updFrame d n f.no fun f => { f with statA := false }) n
    | none => d
  else
    match (ic d n).frames.find? fun f => f.statB && rgbFinal f with
    | some f =>
      let d := entrySignal (bump (recordB d n f) (0x4800 + n) 6 4 1) (setting d (0x4800 + n) 4)
      tidyFrames (updFrame d n f.no fun f => { f with statB := false }) n
    | none => d

/-- STATS_RECORD (R405). -/
def execStatsRecord (n : Fin 16) (tap : Fin 2) (s : State) : Host.Outcome State Fault Refusal := nextDev s fun d => statsRecord d n tap

end Sys2Proof.Machine
end

