-- ==== Sys2Proof/Machine/Mpe.lean ====
section
/-! DEFINITION. The mouthpiece engine: issue and residency of its records, output lines with their checks, retirement, and what of it the epoch and the image pipeline see (chapter 6, R213 to R222). -/

namespace Sys2Proof.Machine

open Sys2Proof

/-! ### Geometry (R216, R218, R219; log 31) -/

/-- KIND is TCONV. -/
def mpeTrans (w : Line) : Bool := rMpeMode w / 16 % 4 == 1
/-- A and O of a record. -/
def mpeA (o : Op) : Desc := opDesc o (rDescA o.word)
def mpeO (o : Op) : Desc := if rDescO o.word = 0xFFF then {} else opDesc o (rDescO o.word)
/-- The record works on the stripes of an image context. -/
def mpeStriped (w : Line) : Bool := mpeFrom w || mpeTo w
/-- Stripes a record interleaves: output line y of stripe s is its row y × S + s. -/
def mpeStripes (d : Dev) (w : Line) : Nat := if mpeStriped w then max 1 (icStripes d (mpeIc w)) else 1
/-- Columns of stripe s's segment, and of the widest. -/
def segWidth (d : Dev) (k s : Nat) : Nat := stripeWidth d k s + 2 * icHalo d k
def segWidest (d : Dev) (k : Nat) : Nat := min (icSw d k) (icWidth d k) + 2 * icHalo d k
/-- Input width of stripe s. -/
def mpeInWidth (d : Dev) (o : Op) (s : Nat) : Nat :=
  let a := mpeA o
  let k := mpeIc o.word
  if mpeFrom o.word then segWidth d k s / 2
  else if mpeTo o.word then dExt a 1 * segWidth d k s / max 1 (segWidest d k)
  else (opExt o (rDescA o.word)).getD 1 1
/-- Input height in lines: with FROM_IPL and a bound register, half the actual line count once the frame has closed (R218). -/
def mpeInHeight (d : Dev) (o : Op) : Nat :=
  let a := mpeA o
  let l := a.len.getD 2 0
  if mpeFrom o.word then
    if 64 ≤ l ∧ (openFrame d (mpeIc o.word)).isNone then min (dExt a 2) (lenReg d 16 o.wc (l % 64) / 2) else dExt a 2
  else (opExt o (rDescA o.word)).getD 2 1
/-- Units of one input line of stripe s. -/
def mpeLineUnits (d : Dev) (o : Op) (s : Nat) : Nat :=
  if mpeFrom o.word then pairUnit d (mpeIc o.word) s
  else if mpeTo o.word then ceilDiv (mpeInWidth d o s * dStride (mpeA o) 1) 512
  else ceilDiv (dStride (mpeA o) 2) 512
/-- Units of one input line of all stripes. -/
def mpeAllUnits (d : Dev) (o : Op) : Nat := ((List.range (mpeStripes d o.word)).map (mpeLineUnits d o)).sum
/-- First unit of line i of stripe s, counted from the tensor's base. -/
def mpeLineStart (d : Dev) (o : Op) (i s : Nat) : Nat := i * mpeAllUnits d o + ((List.range s).map (mpeLineUnits d o)).sum

/-- Unit of the buffer from which slot k's weights and scales lie. -/
def mpeSlotUnit (k : Nat) : Nat := 16384 + 512 * k

/-- A record's weight descriptor as loaded: main data from unit 0 of its slot, then the scales. -/
def loadedW (o : Op) : Desc := { opDesc o (rDescW o.word) with space := 3, base := 0 }

/-- A record's output as it goes into a remote window: the rows of every stripe (log 31). -/
def mpeStream (d : Dev) (o : Op) : Desc :=
  let t := mpeO o
  { t with ext := t.ext.take 2 ++ [dExt t 2 * mpeStripes d o.word] ++ t.ext.drop 3 }

/-- The convolution that a record is, for stripe s. -/
def mpeCnv (d : Dev) (r : MpeRec) (s : Nat) : Cnv :=
  let o := r.op
  let w := o.word
  let x := cnvOf d 16 o (mpeTrans w)
  let f := if mpeTrans w then tconvExtent else convExtent
  let aw := mpeInWidth d o s
  let ah := mpeInHeight d o
  let ow := f aw (rPadLeft w) (rPadRight w) 1 (rKw w) (rStrideW w)
  let oh := f ah (rPadTop w) (rPadBottom w) 1 (rKh w) (rStrideH w)
  { x with w := loadedW o, pw := { core := 16, space := 3, win := { base := mpeSlotUnit r.slot, size := 511 } }, o := mpeO o, po := placeOf d 16 (mpeO o) 0
           dw := if mpeStriped w then aw else x.dw, aw := aw, ah := ah, ow := ow, oh := oh }

/-! ### Input elements -/

/-- Byte of an input element within its line of a stripe: the quad's place in the pair of raw lines (R218), or its offset in the pixel. -/
def mpeByte (d : Dev) (o : Op) (s ix c : Nat) : Nat :=
  if mpeFrom o.word then
    let p := (c % 4) ^^^ (icPhase d (mpeIc o.word) % 4)
    p / 2 * (2 * segWidth d (mpeIc o.word) s) + 2 * (2 * ix + p % 2)
  else ix * dStride (mpeA o) 1 + c * fmtBits (dFmt (mpeA o)) / 8

/-- Byte offset of an input element from the tensor's base. -/
def mpeOff (d : Dev) (o : Op) (s iy ix c : Nat) : Nat :=
  (if mpeStriped o.word then mpeLineStart d o iy s * 512 else iy * dStride (mpeA o) 2) + mpeByte d o s ix c

/-- Code of an input element, padding included (R193, R209, Table 6.2). -/
def mpeRaw (d : Dev) (x : Cnv) (s : Nat) (iy ix : Int) (c : Nat) : Nat × Bool :=
  let read (y z : Nat) : Nat × Bool :=
    let off := mpeOff d x.op s y z c
    (tNum d x.pa x.a.base off (fmtBits (cnvFa x) / 8), tPoison d x.pa x.a.base off)
  if inside iy x.ah && inside ix x.aw then read iy.toNat ix.toNat
  else if x.trans || rPadMode x.op.word = 1 then (realZero (cnvFa x) (dZp x.a), false)
  else if rPadMode x.op.word = 2 then read (clampTo iy x.ah) (clampTo ix x.aw)
  else (0, false)

/-- Taps of an output pixel that run: row, column and the input pixel each reads (R195, R209). -/
def mpeTaps (x : Cnv) (oy ox : Nat) : List (Nat × Nat × Int × Int) :=
  (List.range (rKh x.op.word)).flatMap fun ky => (List.range (rKw x.op.word)).filterMap fun kx =>
    match inRow x oy ky, inCol x ox kx with
    | some iy, some ix => some (ky, kx, iy, ix)
    | _, _ => none

/-- A weight as an integer. -/
def mpeWgt (d : Dev) (x : Cnv) (ch c kx ky : Nat) : Int := intOf .int8 (elemRaw d x.pw x.w [ch, c, kx, ky])

/-- Activations of a pixel, tap by tap: the tap, and each channel's stored integer with its poison. -/
def mpeActs (d : Dev) (x : Cnv) (s oy ox : Nat) : List ((Nat × Nat) × List (Int × Bool)) :=
  (mpeTaps x oy ox).map fun t => ((t.1, t.2.1), (List.range x.c).map fun c =>
    let r := mpeRaw d x s t.2.2.1 t.2.2.2 c
    (intOf (cnvFa x) r.1, r.2))

/-- Accumulator of one output channel: each tap's sum of products is added with saturation, with the poison of what it reads (R82, R85, R129, R213). -/
def mpeAcc (d : Dev) (x : Cnv) (acts : List ((Nat × Nat) × List (Int × Bool))) (ch : Nat) : PmEntry :=
  (acts.foldl (fun (e : PmEntry × Bool) t =>
    let v := ((withPos t.2).map fun a => a.2.1 * mpeWgt d x ch a.1 t.1.2 t.1.1).sum
    let p := t.2.any (·.2) || (List.range x.c).any fun c => elemPoison d x.pw x.w [ch, c, t.1.2, t.1.1]
    (pmInt e.1 e.2 v p, false)) (({} : PmEntry), true)).1

/-- Sum of the weights of an output channel over the taps that run. -/
def mpeWsum (d : Dev) (x : Cnv) (acts : List ((Nat × Nat) × List (Int × Bool))) (ch : Nat) : Int :=
  (acts.map fun t => ((List.range x.c).map fun c => mpeWgt d x ch c t.1.2 t.1.1).sum).sum

/-- One output pixel: its activations and its accumulators, disturbed by an upset of the pixel (column), channel (group) and bits. -/
def mpePixel (d : Dev) (x : Cnv) (s oy ox : Nat) (u : Option Upset) : List ((Nat × Nat) × List (Int × Bool)) × List PmEntry :=
  let acts := mpeActs d x s oy ox
  (acts, (List.range x.no).map fun ch =>
    let e := mpeAcc d x acts ch
    match u with
    | some v => if v.col = ox ∧ v.group = ch then { e with bits := e.bits ^^^ v.bits } else e
    | none => e)

/-- The checksum lane agrees: the accumulators' sum equals the activations times the weight sums (R220). -/
def mpeAgrees (d : Dev) (x : Cnv) (p : List ((Nat × Nat) × List (Int × Bool)) × List PmEntry) : Bool :=
  let want := (p.1.map fun t => ((withPos t.2).map fun a =>
    a.2.1 * ((List.range x.no).map fun ch => mpeWgt d x ch a.1 t.1.2 t.1.1).sum).sum).sum
  (p.2.map fun e => e.bits.toInt).sum == want

/-! ### Output -/

/-- Rescaled values of a pixel (R97, R217). -/
def mpeRescale (d : Dev) (x : Cnv) (oy ox : Nat) (p : List ((Nat × Nat) × List (Int × Bool)) × List PmEntry) : List (Val × Bool) :=
  let z := dZp x.a
  (withPos p.2).map fun e =>
    let ws : Val := if z = 0 then .zero false else ofInt (mpeWsum d x p.1 e.1)
    (rescale true (ofInt e.2.bits.toInt) z ws (.zero false) 0 none (scaleOf d x.pw x.w e.1) (anchorExp d x oy ox), e.2.poison)

/-- Narrow a pixel's channels into O and record the pieces (R99, R217, R557). -/
def mpeEmit (d : Dev) (x : Cnv) (row : Nat) (ix : List Nat) (vals : List (Val × Bool)) (m : Made) : Made :=
  let t := x.o
  let e := outExp d x.po t row (vals.map (·.1))
  let ns := vals.map fun v => (narrow (dFmt t) (dZp t) e v.1, v.2)
  let main : Piece := { off := elemOff t ix, data := ns.flatMap fun n => elemData (dFmt t) n.1.raw n.2 }
  let pl := if t.expMode = 2 ∨ t.expMode = 3 then [({ plane := 1, off := row, data := elemData .uint8 (lowBits 8 e) false } : Piece)] else []
  { m with pieces := m.pieces ++ main :: pl, sat := m.sat || ns.any (·.1.clipped), poisoned := m.poisoned || vals.any (·.2) }

/-- Bytes of a pixel of linear RGB for the IPL (R219). -/
def mpeRgb (vals : List (Val × Bool)) : List (Byte × Bool) := vals.flatMap fun v => elemData .fp16 (narrow .fp16 0 0 v.1).raw v.2

/-- Interior columns of stripe s in an output line of `ow` pixels (R219). -/
def mpeInterior (d : Dev) (w : Line) (s ow : Nat) : List Nat :=
  let i := stripeWidth d (mpeIc w) s
  (List.range (min i ow)).map fun x => (ow - i) / 2 + x

/-- Writer number of the MPE (Table 4.8). -/
def mpeWriter : BitVec 16 := 0x4000#16

/-- Node and entry of the window that a record's output goes to, when it is one. -/
def mpeTarget (o : Op) : Option (Nat × Nat) :=
  if mpeTo o.word then some (17 + mpeIc o.word, 0)
  else if (mpeO o).space = 4 then some ((mpeO o).remote, (mpeO o).window) else none

/-- Rows of a record in all. -/
def mpeRows (d : Dev) (r : MpeRec) : Nat := (mpeCnv d r 0).oh * mpeStripes d r.op.word

/-- Actual extents of what a record sends into a remote window. -/
def mpeSent (d : Dev) (r : MpeRec) : List Nat := let x := mpeCnv d r 0; [x.no, x.ow, mpeRows d r]

/-- Units of a record's output that are whole once the bytes `held` wait, rising; after the last row every unit that is left (R145). -/
def mpeWhole (d : Dev) (r : MpeRec) (held : Sparse (Byte × Bool)) (row : Nat) : List Nat :=
  let t := mpeStream d r.op
  (wholeUnits t (mpeSent d r) held (decide (mpeRows d r ≤ row + 1)) ((filledUnits t (mpeSent d r)).drop r.sent)).filter fun u => held.any fun e => e.1 / 512 == u

/-- Pieces join the bytes held for a remote window. -/
def holdPieces (t : Desc) (held : Sparse (Byte × Bool)) (ps : List Piece) : Sparse (Byte × Bool) :=
  ps.foldl (fun h p => (withPos p.data).foldl (fun h b => sput h (planeStart t p.plane + p.off + b.1) b.2) h) held

/-- Pieces of row `row` as a hollow output counts them. -/
def mpeBlank (d : Dev) (r : MpeRec) (row : Nat) : List Piece := blankPieces (mpeStream d r.op) (mpeSent d r) fun ix => ix.getD 2 0 == row

/-- Units that row `row` completes in the output window. -/
def mpeOutUnits (d : Dev) (r : MpeRec) (row : Nat) : Nat :=
  let w := r.op.word
  if mpeTo w then ceilDiv (6 * stripeWidth d (mpeIc w) (row % mpeStripes d w)) 512
  else if (mpeO r.op).space = 4 then (mpeWhole d r (holdPieces (mpeStream d r.op) r.held (mpeBlank d r row)) row).length
  else 0

/-- Credits the output window holds for the MPE under a record's epoch. -/
def mpeCredit (d : Dev) (o : Op) : Nat :=
  match mpeTarget o with
  | some (node, i) =>
    let w := winAt d node i
    if w.state = 1 ∧ w.writer = mpeWriter ∧ w.epoch = o.epoch then (w.granted - w.fill).toNat else if node < 16 && (coreOf d node).disabled then 4096 else 0
  | none => 4096

/-- The input lines of row `row` have landed (R199, R214). -/
def mpeLanded (d : Dev) (r : MpeRec) (row : Nat) : Bool :=
  let s := row % mpeStripes d r.op.word
  let x := mpeCnv d r s
  let l := linesNeeded x (row / mpeStripes d r.op.word)
  decide ((if l = 0 then 0 else mpeLineStart d r.op (l - 1) s + mpeLineUnits d r.op s) ≤ landedFrom (winAt d 16 x.a.window) (x.a.base % 4096) r.op.freed)

/-- A unit of the lines that row `row` reads is hollow (R235, R236). -/
def mpeHollow (d : Dev) (r : MpeRec) (row : Nat) : Bool :=
  let s := row % mpeStripes d r.op.word
  let x := mpeCnv d r s
  (winAt d 16 x.a.window).hollow.any fun h =>
    let u := hollowFrom h (x.a.base % 4096) r.op.freed
    (linesRead x (row / mpeStripes d r.op.word)).any fun l =>
      let a := mpeLineStart d r.op l s
      decide (a ≤ u) && decide (u < a + mpeLineUnits d r.op s)

/-- The record may compute its next line: resident, lines left, input landed, and output credit held (R214). -/
def mpeReady (d : Dev) (r : MpeRec) : Bool :=
  r.resident && !r.op.done && decide (r.line < mpeRows d r) && mpeLanded d r r.line && decide (mpeOutUnits d r r.line ≤ mpeCredit d r.op)

/-- Change the record at position j. -/
def updRec (d : Dev) (j : Nat) (g : MpeRec → MpeRec) : Dev := { d with mpe := { d.mpe with recs := modifyAt d.mpe.recs j g } }

/-- Send a whole unit into a record's output window. -/
def mpeSend (o : Op) (d : Dev) (u : List (Byte × Bool)) (hollow : Bool) : Dev :=
  match mpeTarget o with
  | some (node, i) => deliverUnit d node i mpeWriter o.epoch (winAt d node i).fill.toNat u hollow
  | none => d

/-- Send the whole units of a REMOTE output, from the bytes held. -/
def sendHeld (d : Dev) (j : Nat) (r : MpeRec) (row : Nat) (hollow : Bool) : Dev :=
  let us := mpeWhole d r r.held row
  let d := us.foldl (fun d u => match mpeTarget r.op with
    | some (node, i) => deliverUnit d node i mpeWriter r.op.epoch ((mpeO r.op).base % 4096 + u) (if hollow then [] else unitData r.held u) hollow
    | none => d) d
  updRec d j fun r => { r with sent := r.sent + us.length, held := r.held.filter fun e => !us.contains (e.1 / 512) }

/-- Put a row's output where it goes: the IPL back end, a remote window unit by unit, or memory as agent 3. -/
def mpeWriteRow (d : Dev) (j : Nat) (r : MpeRec) (row : Nat) (rgb : List (Byte × Bool)) (m : Made) (hollow : Bool) : Dev :=
  let o := r.op
  if mpeTo o.word then
    let k := mpeOutUnits d r row
    (if hollow then List.replicate k [] else chunks 512 k rgb).foldl (fun d u => mpeSend o d u hollow) d
  else
    let t := mpeO o
    if t.space = 4 then
      let r := { r with held := holdPieces (mpeStream d o) r.held (if hollow then mpeBlank d r row else m.pieces) }
      sendHeld (updRec d j fun q => { q with held := r.held }) j r row hollow
    else if hollow then d
    else m.pieces.foldl (fun d p => physWriteMarked d agMpe srcMpe (p.data.length / 32 + 2) ((if p.plane = 0 then t.base else t.aux0) + p.off) p.data) d

/-- MPE cycles of the columns of a line that are computed (R213): one term per column phase. -/
def mpeCycles (x : Cnv) (oy : Nat) (cols : List Nat) : Nat :=
  let sw := if x.trans then rStrideW x.op.word else 1
  ((List.range sw).map fun ps =>
    let cols := cols.filter fun c => !x.trans || (c + rPadLeft x.op.word) % sw == ps
    match cols with
    | [] => 0
    | c :: _ => 8 + ceilDiv cols.length 16 * ceilDiv (x.c * (mpeTaps x oy c).length * x.no) 64).sum

/-- The check mode has the line checked (R220). -/
def mpeChecked (d : Dev) (wc line : Nat) : Bool :=
  let c := wcOf d wc
  wCheckMode c == 0 || (wCheckMode c == 1 && line % 2 ^ wCheckN c == 0)

/-- One computation of a line: its pixels. -/
def mpeCompute (d : Dev) (x : Cnv) (s oy : Nat) (cols : List Nat) (u : Option Upset) : List (Nat × List ((Nat × Nat) × List (Int × Bool)) × List PmEntry) :=
  cols.map fun ox => (ox, mpePixel d x s oy ox u)

/-- Compute, check and write the next line of the record at position j; u1 and u2 disturb the first computation and the retry (R213, R217 to R220). -/
def mpeLineAt (d : Dev) (j : Nat) (r : MpeRec) (u1 u2 : Option Upset) : Dev :=
  let o := r.op
  let ss := mpeStripes d o.word
  let s := r.line % ss
  let oy := r.line / ss
  let x := mpeCnv d r s
  let hollow := r.hollow || mpeHollow d r r.line
  let d := { d with mpe := { d.mpe with lineCount := d.mpe.lineCount + 1, rr := sset (fun _ => 4095) d.mpe.rr (wClass (wcOf d o.wc)) o.wc } }
  let cols := if mpeTo o.word then mpeInterior d o.word s x.ow else List.range x.ow
  let checked := mpeChecked d o.wc (d.mpe.lineCount - 1)
  let bad (l : List (Nat × List ((Nat × Nat) × List (Int × Bool)) × List PmEntry)) : Bool := checked && l.any fun p => !mpeAgrees d x p.2
  let l1 := if hollow then [] else mpeCompute d x s oy cols u1
  let retry := bad l1
  let l := if retry then mpeCompute d x s oy cols u2 else l1
  let failed := retry && bad l
  let d := if failed then postEventWc (bump d 0x22A0 5 4 1) 0x0601 0 srcMpe o.wc 0 else if retry then bump d 0x22A0 4 4 1 else d
  let d := if hollow then d else bump (bump d 0x22A0 2 8 1) 0x22A0 3 8 (mpeCycles x oy cols * (1 + b2n retry))
  let vals := l.map fun p => (p.1, mpeRescale d x oy p.1 p.2)
  let clip := mpeTo o.word && vals.any fun v => v.2.any fun y => (narrow .fp16 0 0 y.1).clipped
  let sat := clip || l.any fun p => p.2.2.any (·.sat)
  let read := !l.isEmpty && (List.range x.no).any (scalePoison d x.pw x.w)
  let m : Made := if mpeTo o.word then { poisoned := vals.any fun v => v.2.any (·.2) }
    else vals.foldl (fun m v => mpeEmit d x (v.1 + dExt x.o 1 * r.line) [0, v.1, r.line] v.2 m) {}
  let rgb := vals.flatMap fun v => mpeRgb v.2
  let d := updRec d j fun r => { r with op := madeFlags m { r.op with sat := r.op.sat || sat, incomplete := r.op.incomplete || failed || hollow, poisoned := r.op.poisoned || m.poisoned || read }, hollow := hollow }
  let r1 := (d.mpe.recs[j]?).getD r
  let d := mpeWriteRow d j r1 r.line rgb m hollow
  let rows := (r.line + 1) / ss
  let fr := linesFreed x rows * mpeAllUnits d o - o.freed
  let d := if fr = 0 then d else freeUnits d 16 { win := (mpeA o).window, free := fr }
  updRec d j fun r => { r with line := r.line + 1, op := { r.op with freed := r.op.freed + fr } }

/-- Records whose every line is done are complete (R214). -/
def mpeSettle (d : Dev) : Dev :=
  { d with mpe := { d.mpe with recs := d.mpe.recs.map fun r =>
      if r.resident && !r.op.done && decide (mpeRows d r ≤ r.line) then { r with op := { r.op with done := true, seqWords := seqGranule (mpeO r.op) } } else r } }

/-- MPE_LINE (R214): the next line of the ready record of the lowest class, round-robin over work contexts within a class, the oldest within a work context. -/
def mpeLine (d : Dev) (u1 u2 : Option Upset) : Dev :=
  let rank (x : Nat × MpeRec) : Nat :=
    let c := wClass (wcOf d x.2.op.wc)
    (c * 4096 + (x.2.op.wc + 4096 - (sget (fun _ => 4095) d.mpe.rr c + 1)) % 4096) * 64 + x.1
  match bestOf rank ((withPos d.mpe.recs).filter fun x => mpeReady d x.2) with
  | some (j, r) => mpeSettle (mpeLineAt d j r u1 u2)
  | none => mpeSettle d

/-! ### Issue and residency (R214, R216) -/

/-- Actual lengths of a record's descriptor, and whether a register was clamped (R175); A's height with FROM_IPL is half the line count of its register (R218). -/
def mpeExt (d : Dev) (o : Op) (k : Nat) : List Nat × Bool :=
  let t := opDesc o k
  let l := t.len.getD 2 0
  if mpeFrom o.word && k == rDescA o.word && decide (64 ≤ l) then
    let e := actualExt d 16 o.wc { t with len := t.len.set 2 0 }
    let v := lenReg d 16 o.wc (l % 64) / 2
    (e.1.set 2 (min v (dExt t 2)), e.2 || decide (dExt t 2 < v))
  else actualExt d 16 o.wc t

/-- Some length register that a record names is poisoned where the MPE reads it (R506). -/
def mpeLenPoison (d : Dev) (o : Op) : Bool := (lensNamed o).any fun r => isPoison d.mem (wLenBlock (wcOf d o.wc) + 4 * r)

/-- A record issues: its lengths are latched; one whose record, descriptors or length registers were read poisoned computes nothing and retires Poisoned (R506). -/
def mpeIssueAt (d : Dev) (j : Nat) : Dev :=
  updRec d j fun r =>
    let o := r.op
    let o := { o with poisoned := o.poisoned || mpeLenPoison d o }
    let ex := (recDescs o.word).map fun k => (k, mpeExt d o k)
    { r with op := { o with issued := true, lens := ex.map (fun x => (x.1, x.2.1)), clamped := ex.any fun x => x.2.2, done := o.poisoned } }

/-- MPCONV (R214, R215): the oldest record of the MPE's queue that has not issued reads its length registers, as agent 3, and latches its lengths. -/
def mpconv (d : Dev) : Dev :=
  match (withPos d.mpe.recs).find? fun x => !x.2.op.issued with
  | some (j, r) =>
    let d := (lensNamed r.op).foldl (fun d k => (memRead d (some agMpe) srcMpe (wLenBlock (wcOf d r.op.wc) + 4 * k) 4).1) d
    let d := mpeIssueAt d j
    let clamped := ((d.mpe.recs[j]?).map fun r => r.op.clamped).getD false
    if clamped then postEventWc d 0x0521 1 srcMpe r.op.wc 0 else d
  | none => d

/-- Buffer units now allocated. -/
def mpeUsed (d : Dev) : Nat := ((d.mpe.recs.filter (·.resident)).map (·.units)).sum
/-- Records now resident. -/
def mpeResidents (d : Dev) : List MpeRec := d.mpe.recs.filter (·.resident)
/-- Report MPE_RESIDENT and MPE_UNITS_USED (Table 6.8). -/
def mpeNote (d : Dev) : Dev := setCnt (setCnt d 0x22A0 6 (mpeResidents d).length) 0x22A0 7 (mpeUsed d)

/-- Units a record needs (R216). -/
def recUnits (d : Dev) (o : Op) : Nat := mpeUnits d o.word (mpeA o) (opDesc o (rDescW o.word))

/-- The record at position j may become resident: issued, none earlier of its work context waits, at most 7 resident, its window entry closed, and its units fit. -/
def mayReside (d : Dev) (j : Nat) (r : MpeRec) : Bool :=
  r.op.issued && !r.op.done && !r.resident
    && (d.mpe.recs.take j).all (fun q => q.op.wc != r.op.wc || q.resident || q.op.done)
    && decide ((mpeResidents d).length < 8)
    && (winAt d 16 (mpeA r.op).window).state == 0
    && decide (mpeUsed d + recUnits d r.op ≤ 512)

/-- Writer of a record's window: its IPL port, or the channel that names the window as a receiver (R216, R218, R223). -/
def mpeWinWriter (d : Dev) (o : Op) : BitVec 16 :=
  if mpeFrom o.word then BitVec.ofNat 16 (0x3000 + mpeIc o.word)
  else match d.se.chans.find? fun c => (recvOf c.2 16 (mpeA o).window).isSome && chWc c.2 == o.wc with
    | some (k, _) => chanWriter k
    | none => 0#16

/-- Load a record's weights and scales into its slot of the buffer, as agent 3 (R216). -/
def mpeLoad (d : Dev) (slot : Nat) (o : Op) : Dev :=
  let w := opDesc o (rDescW o.word)
  let put (d : Dev) (unit : Nat) (a n : Nat) : Dev :=
    let (d, bs) := memReadMarked d (some agMpe) srcMpe a n
    { d with mpe := { d.mpe with buf := putMarked d.mpe.buf ((mpeSlotUnit slot + unit) * 512) bs } }
  let d := put d 0 w.base (tensorBytes w)
  if w.aux0 = 0 then d else put d (ceilDiv (tensorBytes w) 512) w.aux0 (scaleBytes w (dExt w 0))

/-- MPE_RECORD_RESIDENT (R214, R216): the first queued record that fits becomes resident, its weights are loaded and its window opens. -/
def mpeReside (d : Dev) : Dev :=
  match (withPos d.mpe.recs).find? fun x => mayReside d x.1 x.2 with
  | some (j, r) =>
    let o := r.op
    let used := (mpeResidents d).map (·.slot)
    let slot := ((List.range 8).find? fun k => !used.contains k).getD 0
    let d := updRec d j fun r => { r with resident := true, slot := slot, units := recUnits d o }
    let d := mpeLoad d slot o
    let size := mpeWindow d o.word (mpeA o)
    mpeNote (openWindow d 16 (mpeA o).window false false (size - 1) 0 (mpeWinWriter d o) o.wc o.epoch)
  | none => d

/-! ### Retirement (R214, R216, R283) -/

/-- A closed frame of a FROM_IPL record's image context still has an odd raw line to hand over, which the MPE discards (R218, R379). -/
def mpeAwaitsOdd (d : Dev) (o : Op) : Bool :=
  mpeFrom o.word && (ic d (mpeIc o.word)).frames.any fun f => owesPairs f && !f.opened

/-- Close a record's window at retirement (R216): a stream's window waits for its declared count (R151). -/
def mpeCloseWin (d : Dev) (o : Op) : Dev :=
  let i := (mpeA o).window
  let w := winAt d 16 i
  if w.state = 1 then setWinAt d 16 i (if mpeFrom o.word then { w with state := 0 } else closeIfDone { w with state := 2 }) else d

/-- Retire the record at position j of the MPE's list, once it is complete; paths that lose their window with it are lost (R381). -/
def mpeRetireAt (d : Dev) (j : Nat) : Dev :=
  let d := mpeSettle d
  match d.mpe.recs[j]? with
  | some r =>
    if r.op.done && !mpeAwaitsOdd d r.op then
      let d := if r.resident then mpeCloseWin d r.op else d
      let d := { d with mpe := { d.mpe with recs := removeAt d.mpe.recs j } }
      neuralCheck (mpeNote (retireMpe d r.op))
    else d
  | none => d

/-- MPCONV (R214). -/
def execMpconv (s : State) : Host.Outcome State Fault Refusal := nextDev s mpconv

/-- MPE_RECORD_RESIDENT (R216). -/
def execMpeRecordResident (s : State) : Host.Outcome State Fault Refusal := nextDev s mpeReside

/-- MPE_LINE (R214): disturbances of the first computation and of the retry, if any. -/
def execMpeLine (u1 u2 : Option Upset) (s : State) : Host.Outcome State Fault Refusal := nextDev s fun d => mpeLine d u1 u2

/-- INSTRUCTION_RETIRE (R141, R283): the instruction at position i of core n's queue, or for n = 16 the record at position i of the MPE. -/
def execInstructionRetire (n : Fin 17) (i : Fin 256) (s : State) : Host.Outcome State Fault Refusal :=
  nextDev s fun d => if n.val < 16 then retireAt d n i else mpeRetireAt d i

/-- EPOCH_RECEIVE (R293, R381): node 0 to 15 a core, 16 the MPE, 17 to 24 a stream engine, 25 to 28 a hub. -/
def execEpochReceive (node : Fin 29) (w : BitVec 12) (s : State) : Host.Outcome State Fault Refusal :=
  nextDev s fun d => if node.val = 16 then neuralCheck (mpeNote (epochReceive d node w.toNat)) else epochReceive d node w.toNat

end Sys2Proof.Machine
end

