-- ==== Sys2Proof/Machine/Od.lean ====
section
/-! DEFINITION. The object dictionary: values as a read returns them, the checks and effects of a write, the description of an entry, and the persistent store (chapter 9). -/

namespace Sys2Proof.Machine

open Sys2Proof

/-! ### Reading (R295, R296, R301) -/

/-- NAME of function f (Table 9.3). -/
def fnName (f : Nat) : List Byte :=
  if f = 0 then asciiBytes "Compute pool"
  else if f ≤ 0x04 then asciiBytes ("Camera port " ++ Nat.repr (f - 0x01))
  else if f ≤ 0x14 then asciiBytes ("Image context " ++ Nat.repr (f - 0x05))
  else if f ≤ 0x1C then asciiBytes ("Audio group " ++ Nat.repr (f - 0x15))
  else if f = 0x1D then asciiBytes "USB port"
  else if f = 0x1E then asciiBytes "ETH0"
  else if f = 0x1F then asciiBytes "ETH1"
  else if f = 0x20 then asciiBytes "CAN FD port"
  else asciiBytes "UART"

/-- FAULTED_FUNCTIONS. -/
def faultedCount (d : Dev) : Nat := (List.range 34).countP fun f => actual d f == 4
/-- DEVICE_STATE as it is shown: Ready with a function Faulted is Degraded (R312). -/
def shownState (d : Dev) : Nat := if deviceState d = 1 ∧ faultedCount d ≠ 0 then 2 else deviceState d

/-- A sum of bits by position. -/
def bitSum (n : Nat) (p : Nat → Bool) : Nat := ((List.range n).map fun i => b2n (p i) * 2 ^ i).sum

/-- Entries of core n that report its arrays (Tables 2.12 and 16.5). -/
def coreNum (d : Dev) (i sub n : Nat) : Option Nat :=
  let c := coreOf d n
  if i = 0x2210 + n then
    if sub = 1 then some (bitSum 4 fun a => (arraysOn c).contains a)
    else if sub = 2 then some (((List.range 4).map fun a => (arr c a).repair.toNat * 256 ^ a).sum)
    else if sub = 3 then some (shapeLimit c)
    else none
  else if i = 0x2300 + n then
    if sub = 1 then some (bitSum 4 fun a => (arr c a).cause == 4)
    else if sub = 4 then some (((List.range 4).map fun a => (arr c a).cause % 16 * 16 ^ a).sum)
    else if sub = 5 then some c.disableCause
    else none
  else if i = 0x2010 + n then (if sub = 2 then some (island d n).freq else if sub = 3 then some (island d n).volt else none)
  else none

/-- Numbers that the device takes from its state when the entry is read. -/
def liveNum (o : Otp) (d : Dev) (i sub : Nat) : Option Nat :=
  if i = 0x1000 then (if sub = 3 then some o.grade else if sub = 4 then some o.siliconRev else if sub = 5 then some o.serial.toNat else none)
  else if i = 0x1010 then (if sub = 1 then some (shownState d) else if sub = 2 then some (uptimeMs d) else if sub = 4 then some (faultedCount d) else none)
  else if i = 0x2000 ∧ sub = 4 then some d.power.t
  else if (0x2010 ≤ i ∧ i < 0x2020) ∨ (0x2210 ≤ i ∧ i < 0x2220) ∨ (0x2300 ≤ i ∧ i < 0x2310) then coreNum d i sub (i % 16)
  else if i = 0x2310 then (if sub = 2 then some (disableMap d) else if sub = 3 then some (coresEnabled d) else none)
  else if i = 0x2610 ∧ sub = 2 then some (d.cp.wcs.countP fun e => e.2.state != 0#4)
  else if 0x4840 ≤ i ∧ i < 0x4844 ∧ sub = 8 then some (inForceReg (cam d (i - 0x4840))).toNat
  else if i = 0x6000 ∧ sub = 1 then some 1
  else if i = 0x6001 ∧ sub = 1 then
    some (((List.range 4).map fun k => let x := keySlot o k; (b2n (programmed x) + 2 * b2n x.revoked + 4 * x.use.toNat) * 256 ^ k).sum)
  else if i = 0x6001 ∧ sub = 2 then some (rollbackCount o)
  else if i = 0x6010 ∧ sub = 1 then some d.tu.meas.length
  else none

/-- Value of a numeric entry. -/
def odNum (o : Otp) (d : Dev) (r : OdRow) (i sub : Nat) : Nat :=
  match liveNum o d i sub with
  | some v => v
  | none => match r.acc with
    | .const => r.dflt
    | .ro => cnt d i sub
    | _ => setting d i sub

/-- A window table entry (Table 4.8). -/
def winWord (w : Win) : Nat :=
  pack [(124, 4, w.state), (123, 1, b2n w.wm), (122, 1, b2n w.block), (112, 8, w.epoch.toNat), (100, 12, w.wc), (84, 16, w.writer.toNat),
    (72, 12, w.fill.toNat), (60, 12, w.free.toNat), (48, 12, w.granted.toNat), (37, 11, w.size), (26, 11, w.base)]
/-- A tile counter (Table 5.11). -/
def ctrWord (t : TileCtr) : Nat :=
  pack [(112, 16, t.gen.toNat), (108, 4, t.state), (96, 12, t.wc), (80, 16, t.total), (64, 16, t.next), (48, 16, t.done), (32, 16, t.members.toNat), (17, 15, t.bitmap)]
/-- A channel descriptor (Table 7.1). -/
def chanWord (c : Chan) : Nat :=
  c.rw.toNat * 2 ^ 256 + pack ([(252, 4, c.state), (248, 4, c.detached.toNat), (236, 12, c.sent.toNat), (224, 12, c.frame.toNat)]
    ++ (List.range 4).flatMap fun r => [(176 + 12 * r, 12, chOwed c r), (128 + 12 * r, 12, chCredit c r)])

/-- Strings and snapshots that the device takes from its state when the entry is read (R301). -/
def liveDom (o : Otp) (d : Dev) (i sub : Nat) : Option (List Byte) :=
  if i = 0x1000 ∧ sub = 1 then some (asciiBytes "Oanepra")
  else if i = 0x1000 ∧ sub = 2 then some (asciiBytes (if o.grade = 0 then "LQ6416-C" else "LQ4816-C"))
  else if 0x1100 ≤ i ∧ i < 0x1122 ∧ sub = 1 then some (fnName (i - 0x1100))
  else if 0x2250 ≤ i ∧ i < 0x2260 ∧ sub = 0x10 then some ((List.range 20).flatMap fun k => leBytes 16 (winWord (win (coreOf d (i - 0x2250)) k)))
  else if 0x2270 ≤ i ∧ i < 0x2274 ∧ sub = 5 then some ((List.range 64).flatMap fun k => leBytes 16 (ctrWord (ctrOf d ((i - 0x2270) * 64 + k))))
  else if 0x22C0 ≤ i ∧ i < 0x22C8 ∧ sub = 5 then some ((List.range 64).flatMap fun k => leBytes 64 (chanWord (chan d ((i - 0x22C0) * 64 + k))))
  else if i = 0x2420 ∧ sub = 2 then some ((List.range 16).flatMap fun k => leBytes 32 (region d k).toNat)
  else if i = 0x2610 ∧ sub = 1 then some ((List.range 2048).map fun k => BitVec.ofNat 8 ((wcOf d (2 * k)).state.toNat + 16 * (wcOf d (2 * k + 1)).state.toNat))
  else if 0x4000 ≤ i ∧ i < 0x4400 ∧ i % 0x40 = 0x10 then some ((List.range 256).map fun k => sget shadowReset (ic d ((i - 0x4000) / 0x40)).shadow k)
  else if 0x4840 ≤ i ∧ i < 0x4844 ∧ sub = 7 then some ((List.range 16).flatMap fun e => ledgerBytes (ledgerAt (cam d (i - 0x4840)) e))
  else if i = 0x6010 ∧ sub = 2 then some (fit 960 (d.tu.meas.flatMap measBytes))
  else if i = 0x6020 then some (if sub = 1 then fit 32 (identityEd o) else fit 1952 (identityMldsa o))
  else none

/-- Value of a string or domain: an entry of fixed length that nothing has written holds zeros. -/
def odDom (o : Otp) (d : Dev) (r : OdRow) (i sub : Nat) : List Byte :=
  match liveDom o d i sub with
  | some v => v
  | none => if r.lo = r.hi then fit r.lo (domOf d i sub) else domOf d i sub

/-- Value of an entry, little-endian (R296). -/
def odBytes (o : Otp) (d : Dev) (r : OdRow) (i sub : Nat) : List Byte :=
  if odSize r.ty = 0 then odDom o d r i sub else leBytes (odSize r.ty) (odNum o d r i sub)

/-- Highest subindex of index i, none when the index is not implemented (R295). -/
def topSub (i : Nat) : Option Nat :=
  (odTable.filter fun r => odRowHas r i r.sub).foldl (fun m r => some (max (m.getD 0) r.sub)) none

/-- While Booting only OD 0x1000 and 0x1010 are served, for reads (R312). -/
def bootRefuses (d : Dev) (read : Bool) (i : Nat) : Bool := deviceState d == 0 && !(read && (i == 0x1000 || i == 0x1010))

/-- A READ: the value, or the abort code (R295, R297, R312). -/
def odRead (o : Otp) (d : Dev) (i sub : Nat) : Except Nat (List Byte) :=
  if bootRefuses d true i then .error 0x0908
  else match odRow i sub with
    | some r => if r.acc = .wo then .error 0x0902 else .ok (odBytes o d r i sub)
    | none => match topSub i with
      | some m => if sub = 0 then .ok (leBytes 1 m) else .error 0x0901
      | none => .error 0x0901

/-- Type and access codes (Tables 9.1 and 9.2). -/
def typeCode : OdTy → Nat
  | .bool => 0x01 | .u8 => 0x02 | .u16 => 0x03 | .u32 => 0x04 | .u64 => 0x05 | .i16 => 0x07 | .i32 => 0x08 | .str => 0x0A | .dom => 0x0B
def accCode : OdAcc → Nat
  | .const => 0 | .ro => 1 | .rw => 2 | .wo => 3 | .rws => 4

/-- A DESCRIBE (R315). -/
def odDescribe (o : Otp) (d : Dev) (i sub : Nat) : Except Nat (List Byte) :=
  let say (ty acc len owner : Nat) : List Byte := leBytes 1 ty ++ leBytes 1 acc ++ leBytes 4 len ++ leBytes 2 owner
  if bootRefuses d false i then .error 0x0908
  else match odRow i sub with
    | some r => .ok (say (typeCode r.ty) (accCode r.acc) (odBytes o d r i sub).length (odOwner i))
    | none => if sub = 0 ∧ (topSub i).isSome = true then .ok (say 0x02 0 1 0xFF) else .error 0x0901

/-! ### The persistent list (R324) -/

/-- Index and subindex of the entries a list names. -/
def listed (bs : List Byte) : List (Nat × Nat) :=
  (chunks 4 (bs.length / 4) bs).map fun b => (bfield b 0 2, bfield b 2 1)

/-- Largest length of an entry. -/
def largestLen (r : OdRow) : Nat := if odSize r.ty = 0 then r.hi else odSize r.ty

/-- An entry may be kept: RW or RWS, not a trust entry nor a REQUESTED one, and no domain of more than 1,024 B. -/
def persistable (i sub : Nat) : Bool :=
  match odRow i sub with
  | some r => (r.acc == .rw || r.acc == .rws) && !(decide (0x6000 ≤ i) && decide (i < 0x6100))
      && !(decide (0x1100 ≤ i) && decide (i < 0x1122) && sub == 2) && decide (largestLen r ≤ 1024)
  | none => false

/-- Bytes of a record of the store: 6 B and the value, in whole words (Table 9.11). -/
def recordLen (i sub : Nat) : Nat := match odRow i sub with
  | some r => ceilDiv (6 + largestLen r) 4 * 4
  | none => 0

/-- A list that a write of PERSIST_LIST refuses with 0x090E. -/
def keepListBad (l : List (Nat × Nat)) : Bool :=
  l.any (fun e => !persistable e.1 e.2) || decide (65472 < (l.map fun e => recordLen e.1 e.2).sum)

/-- Snapshot of every listed entry (R325). -/
def snapshot (o : Otp) (d : Dev) : List StoreRec :=
  (listed (domOf d 0x1410 1)).filterMap fun e => (odRow e.1 e.2).map fun r =>
    { index := e.1, sub := e.2, ty := typeCode r.ty, value := odBytes o d r e.1 e.2 }

/-! ### Writing (R299) -/

/-- Access right of a write: abort code, none when it is granted (R297, R446, R523). -/
def accessAbort (d : Dev) (r : OdRow) (i sub : Nat) : Option Nat :=
  match r.acc with
  | .const | .ro => some 0x0902
  | .rws =>
    let stopped := if i = 0x5001 ∨ i = 0x5002 then (List.range 8).all fun g => actual d (grpFn g) == 0 else actual d (odOwner i) == 0
    if stopped then none else some 0x0903
  | _ => if i = 0x6001 ∧ (sub = 3 ∨ sub = 4) ∧ d.tu.fuseLock = true then some 0x0902 else none

/-- The length does not fit the type or the entry. -/
def lengthBad (r : OdRow) (len : Nat) : Bool :=
  if r.ty = .dom then decide (len < r.lo) || decide (r.hi < len) || (r.base == 0x1410 && len % 4 != 0)
  else if r.ty = .str then len == 0 || decide (r.hi < len)
  else len != odSize r.ty

/-- The entry's block is busy: a store, a fuse programming or a report is in progress (R325, R522, R534). -/
def entryBusy (d : Dev) (i sub : Nat) : Bool :=
  (i == 0x1400 && sub == 1 && d.mgc.storing.isSome) || (i == 0x6001 && decide (3 ≤ sub) && d.tu.fuse.isSome)
    || (i == 0x6021 && sub == 1 && cnt d 0x6021 2 == 1)

/-- The checks of a write of `len` bytes but the range check, in the order of R299; `can` says that it came over CAN FD (R311). -/
def checkAbort (d : Dev) (can : Bool) (i sub len : Nat) : Option Nat :=
  let far := can && decide (0x6000 ≤ i) && decide (i < 0x6100)
  match odRow i sub with
  | none => if sub = 0 ∧ (topSub i).isSome = true then (if far then some 0x0910 else some 0x0902) else some 0x0901
  | some r =>
    if far then some 0x0910
    else match accessAbort d r i sub with
      | some c => some c
      | none => if lengthBad r len then some 0x0905 else if entryBusy d i sub then some 0x0909 else none
/-- The checks of a WRITE request but the range check (R299, R312). -/
def writeAbort (d : Dev) (can : Bool) (i sub len : Nat) : Option Nat :=
  if bootRefuses d false i then some 0x0908 else checkAbort d can i sub len

/-- Effect of a write of number v to an entry that passed its checks. -/
def putNum (d : Dev) (i sub v : Nat) : Dev :=
  if i = 0x2100 ∧ sub ≤ 5 then updBreath (setSetting d i sub v) fun b => { b with changed := true }
  else if i = 0x5B00 ∧ sub = 5 then
    let old := setting d i sub
    let d := setSetting d i sub v
    if old = 0 ∧ v = 1 ∧ busOff d = true then raiseLevel (setCnt d 0x5B00 7 0) 18 else d
  else if i = 0x6001 then
    if sub = 3 then updTu d fun t => { t with fuse := some (.revoke v) }
    else if sub = 4 then updTu d fun t => { t with fuse := some (.advance v) }
    else updTu d fun t => { t with fuseLock := true }
  else setSetting d i sub v

/-- STORE_CMD (R325): 1 takes the snapshot and starts writing, 2 starts erasing. -/
def storeCommand (o : Otp) (d : Dev) (v : Nat) : Dev :=
  setCnt (updMgc d fun m => { m with storing := some (if v = 1 then some (snapshot o d) else none) }) 0x1400 2 1

/-- Range check of a number (R299, R520, R521). -/
def numOk (o : Otp) (d : Dev) (r : OdRow) (i sub v : Nat) : Bool :=
  rangeOk d r i sub v && !(i == 0x6001 && sub == 3 && revokeBad o d v) && !(i == 0x6001 && sub == 4 && advanceBad o d v)

/-- A written domain with its reserved bits zero (R8): MON_MAP (Table 15.5), HEALTH_RECORD (Table 16.1), PERSIST_LIST (Table 9.12). -/
def domMasked (i : Nat) (bs : List Byte) : List Byte :=
  let keep (p : Nat → Byte) : List Byte := bs.mapIdx fun k b => b &&& p k
  if i = 0x2001 then keep fun k => if k % 8 = 2 ∨ k % 8 = 3 then 0#8 else 0xFF#8
  else if i = 0x2310 then keep fun k => if k % 4 = 0 then 0x0F#8 else if k % 4 = 1 then 0xFF#8 else 0#8
  else if i = 0x1410 then keep fun k => if k % 4 = 3 then 0#8 else 0xFF#8
  else bs

/-- Effect of a write of a domain. -/
def putDom (d : Dev) (i sub : Nat) (bs : List Byte) : Dev :=
  if 0x4000 ≤ i ∧ i < 0x4400 then shadowScalars d ((i - 0x4000) / 0x40) bs
  else if i = 0x6021 then setCnt (updTu d fun t => { t with nonce := bs }) 0x6021 2 1
  else if i = 0x6030 then (if cnt d 0x6030 3 = 2 then d else updTu d fun t => { t with tokens := t.tokens ++ [bs] })
  else setDom d i sub (domMasked i bs)

/-- A checked write: the device, and what refuses it: code, index and subindex (R299, R310). -/
def odWrite (o : Otp) (d : Dev) (can : Bool) (i sub : Nat) (bs : List Byte) : Dev × Option (Nat × Nat × Nat) :=
  match checkAbort d can i sub bs.length, odRow i sub with
  | some c, _ => (d, some (c, i, sub))
  | none, none => (d, some (0x0901, i, sub))
  | none, some r =>
    if odSize r.ty = 0 then
      if i = 0x1410 ∧ keepListBad (listed bs) = true then (d, some (0x090E, i, sub)) else (putDom d i sub bs, none)
    else
      let v := leNat bs
      if numOk o d r i sub v = false then (d, some (0x0906, i, sub))
      else if 0x1100 ≤ i ∧ i < 0x1122 ∧ sub = 2 then writeRequested d can (i - 0x1100) v
      else if i = 0x1400 then (storeCommand o d v, none)
      else (putNum d i sub v, none)

/-! ### The persistent store (R325, R326) -/

/-- A record of a copy: INDEX, SUB, TYPE, LENGTH and value, padded to 4 B (Table 9.11). -/
def recordBytes (r : StoreRec) : List Byte :=
  let n := 6 + r.value.length
  leBytes 2 r.index ++ leBytes 1 r.sub ++ leBytes 1 r.ty ++ leBytes 2 r.value.length ++ r.value ++ List.replicate (ceilDiv n 4 * 4 - n) 0#8
/-- Header and records of a copy (Table 9.11). -/
def copyBytes (c : StoreCopy) : List Byte :=
  let recs := c.recs.flatMap recordBytes
  leBytes 4 0x4C515344 ++ leBytes 4 c.gen ++ leBytes 2 c.recs.length ++ leBytes 2 0 ++ leBytes 4 recs.length ++ List.replicate 16 0#8 ++ recs
/-- Tag of a copy: KMAC256 over its header and records under the od-store key (Tables 9.11 and 17.8). -/
def storeTag (o : Otp) (c : StoreCopy) : BitVec 256 := Config.kmac256 (deriveKey o "od-store") (copyBytes c) []
/-- A copy that the TU finds whole: it has been written and its tag verifies (R326). -/
def copyValid (o : Otp) (c : StoreCopy) : Bool := c.valid && c.tag == storeTag o c
/-- A copy of generation g with its tag. -/
def sealCopy (o : Otp) (g : Nat) (recs : List StoreRec) : StoreCopy :=
  let c : StoreCopy := { valid := true, gen := g, recs := recs }
  { c with tag := storeTag o c }
/-- A sealed copy verifies. -/
theorem copyValid_sealCopy (o : Otp) (g : Nat) (recs : List StoreRec) : copyValid o (sealCopy o g recs) = true := by
  simp [copyValid, sealCopy, storeTag, copyBytes]

/-- The copy that a store writes is copy 0: the one with the lower generation; a copy whose tag does not verify is the lower. -/
def writesCopy0 (o : Otp) (d : Dev) : Bool := !copyValid o d.store0 || (copyValid o d.store1 && decide (d.store0.gen ≤ d.store1.gen))
/-- Highest generation of a valid copy. -/
def topGen (o : Otp) (d : Dev) : Nat := max (if copyValid o d.store0 then d.store0.gen else 0) (if copyValid o d.store1 then d.store1.gen else 0)
/-- Write a copy. -/
def putCopy (o : Otp) (d : Dev) (c : StoreCopy) : Dev := if writesCopy0 o d then { d with store0 := c } else { d with store1 := c }

/-- STORE_COMPLETE (R325): the write and read-back, or the erase, has ended; a failed write spoils the copy it wrote. -/
def storeComplete (o : Otp) (d : Dev) (ok : Bool) : Dev :=
  match d.mgc.storing with
  | none => d
  | some job =>
    let e := updMgc d fun m => { m with storing := none }
    if !ok then setCnt (if job.isSome then putCopy o e {} else e) 0x1400 2 3
    else match job with
      | some recs =>
        let g := (topGen o d + 1) % 2 ^ 32
        bump (setCnt (setCnt (putCopy o e (sealCopy o g recs)) 0x1400 2 2) 0x1400 3 g) 0x1400 4 4 1
      | none => setCnt { e with store0 := {}, store1 := {} } 0x1400 2 2

/-- Apply one record of a copy as a checked write (R326); the result says whether it was applied. -/
def applyRecord (o : Otp) (d : Dev) (r : StoreRec) : Dev × Bool :=
  match odRow r.index r.sub with
  | none => (d, false)
  | some row =>
    if typeCode row.ty ≠ r.ty then (d, false)
    else
      let x := odWrite o d false r.index r.sub r.value
      (x.1, x.2.isNone)

/-- Apply the records of a copy in order, collecting those applied. -/
def applyRecords (o : Otp) (d : Dev) : List StoreRec → Dev × List StoreRec
  | [] => (d, [])
  | r :: rest =>
    let x := applyRecord o d r
    let y := applyRecords o x.1 rest
    (y.1, if x.2 then r :: y.2 else y.2)

/-- STORE_RESTORE (R326). -/
def storeRestore (o : Otp) (d : Dev) : Dev :=
  if d.boot.restored || !d.boot.mgc then d
  else
    let d := updBoot d fun b => { b with restored := true }
    let one := copyValid o d.store1 && (!copyValid o d.store0 || decide (d.store0.gen < d.store1.gen))
    let c := if one then d.store1 else d.store0
    if copyValid o c then
      let x := applyRecords o d c.recs
      let skipped := c.recs.length - x.2.length
      let d := setDom x.1 0x1410 1 (x.2.flatMap fun r => leBytes 2 r.index ++ leBytes 2 r.sub)
      let d := setCnt (setCnt (setCnt d 0x1400 3 c.gen) 0x1400 6 x.2.length) 0x1400 7 skipped
      let d := setCnt d 0x1300 3 (nodeChosen d)
      if skipped = 0 then d else postEvent d 0x0923 2 srcMgc (2 + skipped % 65536 * 65536)
    else postEvent d 0x0923 2 srcMgc 1

/-- STORE_COMPLETE (R325). -/
def execStoreComplete (ok : Bool) (s : State) : Host.Outcome State Fault Refusal := nextMgc s fun d => storeComplete s.otp d ok
/-- STORE_RESTORE (R326). -/
def execStoreRestore (s : State) : Host.Outcome State Fault Refusal := nextMgc s (storeRestore s.otp)

end Sys2Proof.Machine
end

