-- ==== Sys2Proof/Machine/Plic.lean ====
section
/-! DEFINITION. The application cluster's interrupt controller and timer: PLIC claim and completion, and the ACLINT registers (chapter 14). -/

namespace Sys2Proof.Machine

open Sys2Proof

/-- Change the application cluster's part. -/
def updApc (d : Dev) (f : Apc → Apc) : Dev := { d with apc := f d.apc }

/-- Level source i is pending while its block's status bit and enable are set (R450, Table 14.2). -/
def levelPending (d : Dev) (i : Nat) : Bool :=
  if 7 ≤ i && i ≤ 10 then
    let x := (cam d (i - 7)).i3c
    fld x.irq 0 3 &&& fld x.irqEnable 0 3 != 0
  else if i = 20 then d.ports.gpioStatus != 0#64
  else if i = 24 then d.tu.done && d.tu.irqEn
  else if (15 ≤ i && i ≤ 19) || i = 21 || i = 22 then bit d.ports.status i
  else false

/-- Source i is pending (R450): sources 1 to 6, 11 to 14 and 23 by their edge, the level sources by their level, 25 to 31 never. -/
def plicPending (d : Dev) (i : Nat) : Bool :=
  if (1 ≤ i && i ≤ 6) || (11 ≤ i && i ≤ 14) || i = 23 then bit d.apc.pending i else levelPending d i

/-- Source i has been claimed by some context and not completed. -/
def inService (d : Dev) (i : Nat) : Bool := d.apc.claimed.any fun e => bit e.2 i

/-- Priority of source i, enables and threshold of a context. -/
def plicPrio (d : Dev) (i : Nat) : Nat := sget (fun _ => 0) d.apc.prio i
def plicEnable (d : Dev) (c : Nat) : BitVec 32 := sget (fun _ => 0#32) d.apc.enable c
def plicThreshold (d : Dev) (c : Nat) : Nat := sget (fun _ => 0) d.apc.threshold c

/-- Context c may claim source i (R449; the RISC-V PLIC). -/
def claimable (d : Dev) (c i : Nat) : Bool :=
  plicPending d i && bit (plicEnable d c) i && decide (plicThreshold d c < plicPrio d i) && !inService d i

/-- The source that a claim by context c returns: of the claimable ones the highest in priority, and of equals the lowest number. -/
def claimChoice (d : Dev) (c : Nat) : Option Nat :=
  ((List.range 25).filter (claimable d c)).foldl (fun b i => match b with
    | some j => if plicPrio d j < plicPrio d i then some i else some j
    | none => some i) none

/-- PLIC_CLAIM (R450): the source's edge is cleared and the source is in service until its completion. -/
def plicClaim (d : Dev) (c : Nat) : Dev :=
  match claimChoice d c with
  | some i => updApc d fun x => { x with
      pending := x.pending &&& ~~~(BitVec.ofNat 32 (2 ^ i))
      claimed := supd (fun _ => 0#32) x.claimed c (· ||| BitVec.ofNat 32 (2 ^ i)) }
  | none => d

/-- A completion by context c of source i that it has enabled. -/
def plicComplete (d : Dev) (c i : Nat) : Dev :=
  if i < 32 && bit (plicEnable d c) i then
    updApc d fun x => { x with claimed := (List.range 12).foldl (fun t k => supd (fun _ => 0#32) t k (· &&& ~~~(BitVec.ofNat 32 (2 ^ i)))) x.claimed }
  else d

/-- A 32-bit write to the PLIC at offset `o`, in the register layout of the RISC-V PLIC (log 29). -/
def plicWrite (d : Dev) (o v : Nat) : Dev :=
  if o < 0x80 then (if o = 0 then d else updApc d fun x => { x with prio := sset (fun _ => 0) x.prio (o / 4) (v % 8) })
  else if 0x2000 ≤ o && o < 0x2000 + 12 * 0x80 then
    (if o % 0x80 = 0 then updApc d fun x => { x with enable := sset (fun _ => 0#32) x.enable ((o - 0x2000) / 0x80) (BitVec.ofNat 32 (v / 2 * 2)) } else d)
  else if 0x200000 ≤ o && o < 0x200000 + 12 * 0x1000 then
    let c := (o - 0x200000) / 0x1000
    if o % 0x1000 = 0 then updApc d fun x => { x with threshold := sset (fun _ => 0) x.threshold c (v % 8) }
    else if o % 0x1000 = 4 then plicComplete d c v
    else d
  else d

/-- MTIME: 25 MHz from the rise of PORST_N, moved by what software has written (R447). -/
def mtime (d : Dev) : Nat := (d.clk.ns / 40 + d.apc.mtimeOff) % 2 ^ 64

/-- A 32-bit write to the ACLINT at offset `o` (R449; log 29): MSWI, MTIMER and SSWI. AC1 to AC5 leave reset at their MSWI (R526). -/
def aclintWrite (d : Dev) (o v : Nat) : Dev :=
  if o < 24 then
    updApc d fun x => { x with
      msip := sset (fun _ => 0) x.msip (o / 4) (v % 2)
      harts := if v % 2 = 1 ∧ bit x.harts 0 = true then x.harts ||| BitVec.ofNat 6 (2 ^ (o / 4)) else x.harts }
  else if 0x4000 ≤ o && o < 0x4030 then
    updApc d fun x => { x with mtimecmp := supd (fun _ => 0) x.mtimecmp ((o - 0x4000) / 8) fun t => setFld t (8 * (o % 8)) 32 v }
  else if 0xBFF8 ≤ o && o < 0xC000 then
    let t := setFld (mtime d) (8 * (o % 8)) 32 v
    updApc d fun x => { x with mtimeOff := (t + 2 ^ 64 - d.clk.ns / 40 % 2 ^ 64) % 2 ^ 64 }
  else if 0xC000 ≤ o && o < 0xC018 then
    (if v % 2 = 1 then updApc d fun x => { x with ssip := sset (fun _ => 0) x.ssip ((o - 0xC000) / 4) 1 } else d)
  else d

/-- A write to the interrupt-controller range: aligned 4 B words, an aligned 8 B write as two; the rest is discarded (R449; log 29). -/
def irqRangeWrite (d : Dev) (o n v : Nat) : Dev :=
  let one (d : Dev) (o v : Nat) : Dev := if 0x2000000 ≤ o then aclintWrite d (o - 0x2000000) v else plicWrite d o v
  if n = 4 ∧ o % 4 = 0 then one d o (v % 2 ^ 32)
  else if n = 8 ∧ o % 8 = 0 then one (one d o (v % 2 ^ 32)) (o + 4) (v / 2 ^ 32 % 2 ^ 32)
  else d

/-- PLIC_CLAIM (R450): by context 2h for M mode or 2h + 1 for S mode of hart h. -/
def execPlicClaim (c : Fin 12) (s : State) : Host.Outcome State Fault Refusal := nextDev s fun d => plicClaim d c

end Sys2Proof.Machine
end

