-- ==== Sys2Proof/Machine/Serve.lean ====
section
/-! DEFINITION. The management controller's request server: mailbox slots, CAN FD requests and segments, heartbeats and event frames (chapter 9). -/

namespace Sys2Proof.Machine

open Sys2Proof

/-! ### The mailbox (R313, R314) -/

/-- Bytes of slot n from offset `off`. -/
def mboxBytes (d : Dev) (n off len : Nat) : List Byte := (List.range len).map fun k => sget (fun _ => 0#8) d.mgc.mbox (n * 4096 + off + k)
/-- Write bytes into slot n. -/
def mboxPut (d : Dev) (n off : Nat) : List Byte → Dev
  | [] => d
  | b :: bs => mboxPut (updMgc d fun m => { m with mbox := sset (fun _ => 0#8) m.mbox (n * 4096 + off) b }) n (off + 1) bs

/-- The header of slot n (Table 9.6), and its fields. -/
def mboxHeader (d : Dev) (n : Nat) : BitVec 256 := BitVec.ofNat 256 (leNat (mboxBytes d n 0 32))
def mbState (h : BitVec 256) : Nat := fld h 0 4
def mbOp (h : BitVec 256) : Nat := fld h 8 8
def mbSub (h : BitVec 256) : Nat := fld h 72 8
def mbIndex (h : BitVec 256) : Nat := fld h 80 16
def mbLength (h : BitVec 256) : Nat := fld h 96 32
def mbBuf (h : BitVec 256) : Nat := fld h 216 40
/-- Change fields of slot n's header: low bit, width, value. -/
def mboxSet (d : Dev) (n : Nat) (fs : List (Nat × Nat × Nat)) : Dev :=
  mboxPut d n 0 (leBytes 32 (fs.foldl (fun a f => setFld a f.1 f.2.1 f.2.2) (mboxHeader d n).toNat))

/-- A write of STATE Posted to slot n (R314): discarded and counted while the slot is Taken; otherwise the slot becomes Taken and its request is queued. -/
def mailboxPost (d : Dev) (n : Nat) : Dev :=
  if mbState (mboxHeader d n) = 2 then bump d 0x1300 0x0A 4 1
  else updMgc (mboxSet d n [(0, 4, 2)]) fun m => { m with odq := m.odq ++ [.mailbox n] }

/-- The end of slot n's request: LENGTH, the ABORT fields, then STATE; then the interrupt (R314). -/
def mailboxDone (d : Dev) (n len : Nat) (fail : Option (Nat × Nat × Nat)) : Dev :=
  let f := fail.getD (0, 0, 0)
  let d := mboxSet d n [(96, 32, len), (176, 16, f.1), (160, 16, f.2.1), (152, 8, f.2.2), (0, 4, if fail.isSome then 4 else 3)]
  raiseIrq (bump d 0x1300 9 4 1) 6

/-- The most bytes that lie inline. -/
def inlineMax : Nat := 4032

/-- Answer a READ or DESCRIBE of slot n with a value: inline, or in the buffer (R313). -/
def mailboxAnswer (d : Dev) (n : Nat) (h : BitVec 256) (v : List Byte) : Dev :=
  let fail (c : Nat) := some (c, mbIndex h, mbSub h)
  if mbBuf h = 0 then
    if inlineMax < v.length then mailboxDone d n v.length (fail 0x0905) else mailboxDone (mboxPut d n 64 v) n v.length none
  else if spanGranted d agMgc true (mbBuf h) v.length then mailboxDone (memWrite d (some agMgc) srcMgc (mbBuf h) v false) n v.length none
  else mailboxDone d n 0 (fail 0x0911)

/-- Serve a WRITE of slot n: the value inline or from the buffer (R299, R313). -/
def mailboxWrite (o : Otp) (d : Dev) (n : Nat) (h : BitVec 256) : Dev :=
  let i := mbIndex h
  let sub := mbSub h
  let len := mbLength h
  let fail (c : Nat) := mailboxDone d n len (some (c, i, sub))
  match writeAbort d false i sub len with
  | some c => fail c
  | none =>
    if mbBuf h = 0 ∧ inlineMax < len then fail 0x0905
    else if mbBuf h ≠ 0 ∧ spanGranted d agMgc false (mbBuf h) len = false then fail 0x0911
    else
      let r := if mbBuf h = 0 then (d, mboxBytes d n 64 len) else (let q := memRead d (some agMgc) srcMgc (mbBuf h) len; (q.1, q.2.1))
      let w := odWrite o r.1 false i sub r.2
      mailboxDone w.1 n len w.2

/-- Serve slot n's request; an OP that Table 9.6 does not list is refused. -/
def mailboxServe (o : Otp) (d : Dev) (n : Nat) : Dev :=
  let h := mboxHeader d n
  let answer (x : Except Nat (List Byte)) : Dev := match x with
    | .ok v => mailboxAnswer d n h v
    | .error c => mailboxDone d n 0 (some (c, mbIndex h, mbSub h))
  if mbOp h = 1 then answer (odRead o d (mbIndex h) (mbSub h))
  else if mbOp h = 2 then mailboxWrite o d n h
  else if mbOp h = 3 then answer (odDescribe o d (mbIndex h) (mbSub h))
  else answer (.error (if bootRefuses d false (mbIndex h) then 0x0908 else 0x090A))

/-! ### CAN FD requests (R316 to R320) -/

/-- A request's fields (Table 9.8). -/
structure CanReq where
  op : Nat := 0
  txn : Nat := 0
  index : Nat := 0
  sub : Nat := 0
  more : Bool := false
  len : Nat := 0
  deriving DecidableEq, Repr
def canReqOf (bs : List Byte) : CanReq :=
  { op := bfield bs 0 1, txn := bfield bs 1 1, index := bfield bs 2 2, sub := bfield bs 4 1, more := bfield bs 5 1 % 2 == 1, len := bfield bs 6 2 }

/-- Answer OK with value bytes; LENGTH is the total of a READ (Table 9.8). -/
def canOk (d : Dev) (r : CanReq) (len : Nat) (v : List Byte) : Dev := canRespond d (respHeader r.op r.txn r.index r.sub 0 len ++ v)
/-- Answer an abort: code, and the index and subindex it applies to (R310). -/
def canFail (d : Dev) (r : CanReq) (f : Nat × Nat × Nat) : Dev :=
  canRespond d (respHeader r.op r.txn r.index r.sub 1 0 ++ leBytes 2 f.1 ++ leBytes 2 f.2.1 ++ leBytes 1 f.2.2)
/-- The open transfer (R320). -/
def setSeg (d : Dev) (x : Option Seg) : Dev := updMgc d fun m => { m with seg := x }

/-- A WRITE that is whole in its frame. -/
def canWriteWhole (o : Otp) (d : Dev) (r : CanReq) (v : List Byte) : Dev :=
  match writeAbort d true r.index r.sub r.len with
  | some c => canFail d r (c, r.index, r.sub)
  | none =>
    if v.length < r.len then canFail d r (0x0905, r.index, r.sub)
    else
      let w := odWrite o d true r.index r.sub (v.take r.len)
      match w.2 with
      | some f => canFail w.1 r f
      | none => canOk w.1 r 0 []

/-- A WRITE with MORE set opens a segmented write (R318). -/
def canWriteOpen (o : Otp) (d : Dev) (r : CanReq) (v : List Byte) : Dev :=
  let at' (c : Nat) := canFail d r (c, r.index, r.sub)
  if d.mgc.seg.isSome then at' 0x0909
  else if r.len ≤ 56 then canWriteWhole o d r v
  else match writeAbort d true r.index r.sub r.len with
    | some c => at' c
    | none =>
      if v.length < 56 then at' 0x0905
      else canOk (setSeg d (some { write := true, txn := BitVec.ofNat 8 r.txn, index := r.index, sub := r.sub, total := r.len, data := v.take 56 })) r 0 []

/-- A READ: the value, or its first 56 B with the transfer opened (R319). -/
def canRead (o : Otp) (d : Dev) (r : CanReq) : Dev :=
  match odRead o d r.index r.sub with
  | .error c => canFail d r (c, r.index, r.sub)
  | .ok v =>
    if v.length ≤ 56 then canOk d r v.length v
    else if d.mgc.seg.isSome then canFail d r (0x0909, r.index, r.sub)
    else canOk (setSeg d (some { txn := BitVec.ofNat 8 r.txn, index := r.index, sub := r.sub, total := v.length, data := v })) r v.length (v.take 56)

/-- Segment header of a response (Table 9.9). -/
def segHeader (op txn k : Nat) : List Byte := leBytes 4 (pack [(16, 16, k), (8, 8, txn), (0, 8, op + 0x80)])

/-- The last write segment has come: the entry is written, or the transfer's outcome is an abort (R318). -/
def segFinish (o : Otp) (d : Dev) (r : CanReq) (k : Nat) (x : Seg) (data : List Byte) : Dev :=
  let d := setSeg d none
  let f := match writeAbort d true x.index x.sub x.total with
    | some c => (d, some (c, x.index, x.sub))
    | none => odWrite o d true x.index x.sub data
  match f.2 with
  | some e => canFail f.1 { r with index := x.index, sub := x.sub } e
  | none => canRespond f.1 (segHeader r.op r.txn k)

/-- A segment out of order, of another transfer, or with none open: the transfer ends with 0x090A (R320). -/
def segBroken (d : Dev) (r : CanReq) (x : Option Seg) : Dev :=
  let i := (x.map (·.index)).getD 0
  let sub := (x.map (·.sub)).getD 0
  canFail (setSeg d none) { r with index := i, sub := sub } (0x090A, i, sub)

/-- WRITE_SEG k in order: acknowledged, or the end of the transfer; a repeat of the last one acknowledged has no other effect (R318, R320). -/
def segWrite (o : Otp) (d : Dev) (r : CanReq) (k : Nat) (x : Seg) (v : List Byte) : Dev :=
  if k = x.seg then canRespond d (segHeader r.op r.txn k)
  else
    let n := min 60 (x.total - x.data.length)
    if v.length < n then canFail (setSeg d none) { r with index := x.index, sub := x.sub } (0x0905, x.index, x.sub)
    else
      let data := x.data ++ v.take n
      if data.length < x.total then canRespond (setSeg d (some { x with seg := k, data := data })) (segHeader r.op r.txn k)
      else segFinish o d r k x data

/-- READ_SEG k in order: its part of the value; the last part ends the transfer (R319). -/
def segRead (d : Dev) (r : CanReq) (k : Nat) (x : Seg) : Dev :=
  let d := setSeg d (if x.total ≤ 56 + 60 * k then none else some { x with seg := k })
  canRespond d (segHeader r.op r.txn k ++ (x.data.drop (60 * k - 4)).take 60)

/-- A segment frame (Table 9.9, R320). -/
def canSegment (o : Otp) (d : Dev) (r : CanReq) (bs : List Byte) : Dev :=
  let k := bfield bs 2 2
  match d.mgc.seg with
  | some x =>
    if x.txn.toNat = r.txn ∧ x.write = (r.op == 4) ∧ 1 ≤ k ∧ (k = x.seg ∨ k = x.seg + 1) then
      if x.write then segWrite o d r k x (bs.drop 4) else segRead d r k x
    else segBroken d r (some x)
  | none => segBroken d r none

/-- Serve a CAN FD request frame. -/
def canServe (o : Otp) (d : Dev) (bs : List Byte) : Dev :=
  let r := canReqOf bs
  let d := bump d 0x1300 6 4 1
  if r.op = 1 then canRead o d r
  else if r.op = 2 then (if r.more then canWriteOpen o d r (bs.drop 8) else canWriteWhole o d r (bs.drop 8))
  else if r.op = 3 then (match odDescribe o d r.index r.sub with
    | .ok v => canOk d r 0 v
    | .error c => canFail d r (c, r.index, r.sub))
  else if r.op = 4 ∨ r.op = 5 then canSegment o d r bs
  else if r.op = 6 then (if d.mgc.seg.any fun x => x.txn.toNat == r.txn then setSeg d none else d)
  else canFail d r (if bootRefuses d false r.index then 0x0908 else 0x090A, r.index, r.sub)

/-- SEG_TIMEOUT (R320): 0x090B, unprompted. -/
def segTimeout (d : Dev) : Dev :=
  match d.mgc.seg with
  | some x => canFail (setSeg d none) { op := if x.write then 2 else 1, txn := x.txn.toNat, index := x.index, sub := x.sub } (0x090B, x.index, x.sub)
  | none => d

/-! ### The queue (R300) -/

/-- Operation, index, subindex and first value byte of a request. -/
def reqKind (d : Dev) : OdReq → Nat × Nat × Nat × Nat
  | .mailbox n =>
    let h := mboxHeader d n
    (mbOp h, mbIndex h, mbSub h, if mbBuf h = 0 then bfield (mboxBytes d n 64 1) 0 1 else (decByte d.mem (encSetting d (mbBuf h)) (mbBuf h)).toNat)
  | .can bs => (bfield bs 0 1, bfield bs 2 2, bfield bs 4 1, bfield bs 8 1)

/-- A queued MGC frame under a new node ID. -/
def renumbered (can : Bool) (old new : Nat) (f : MgcFrame) : Option MgcFrame :=
  if can && (f.kind != 2) then some f else if new = 0 then none else some { f with id := f.id - old + new }

/-- The active node ID follows NODE_ID after the answer to its write (R317): queued frames that go out after that answer, event frames or after a mailbox request all, take the new identifier, or are dropped when there is none. -/
def renumber (d : Dev) (can : Bool) : Dev :=
  let old := nodeId d
  let new := nodeChosen d
  if old = new then d
  else
    let d := updMgc d fun m => { m with canTx := m.canTx.filterMap (renumbered can old new) }
    setCnt d 0x1300 3 new

/-- Serve the request at the front of the queue, when it is of the wanted kind; a NODE_ID written by it applies after its answer (R317). -/
def serveFront (want : Bool → Nat × Nat × Nat × Nat → Bool) (o : Otp) (d : Dev) : Dev :=
  match d.mgc.odq with
  | [] => d
  | r :: rest =>
    let can : Bool := match r with | .can _ => true | .mailbox _ => false
    if want can (reqKind d r) then
      let d := updMgc d fun m => { m with odq := rest }
      let d := match r with | .can bs => canServe o d bs | .mailbox n => mailboxServe o d n
      renumber d can
    else d

/-- The request is a WRITE of entry i.sub. -/
def isWrite (i sub : Nat) (k : Nat × Nat × Nat × Nat) : Bool := k.1 == 2 && k.2.1 == i && k.2.2.1 == sub
/-- The request is a WRITE of some REQUESTED with value v. -/
def isRequested (v : Nat) (k : Nat × Nat × Nat × Nat) : Bool :=
  k.1 == 2 && decide (0x1100 ≤ k.2.1) && decide (k.2.1 < 0x1122) && k.2.2.1 == 2 && k.2.2.2 == v
/-- A READ, or an OP that the tables do not list. -/
def isRead (can : Bool) (k : Nat × Nat × Nat × Nat) : Bool :=
  k.1 != 2 && k.1 != 3 && !(can && (k.1 == 4 || k.1 == 5 || k.1 == 6))

/-! ### Heartbeats and event frames (R322, R323) -/

/-- HEARTBEAT (Table 9.10). -/
def heartbeat (d : Dev) : Dev :=
  if d.mgc.joined = false ∨ nodeId d = 0 then d
  else
    let p := pack [(32, 32, d.breath.number), (24, 8, faultedCount d), (8, 8, d.mgc.hb), (0, 8, shownState d)]
    updMgc (canQueue d 0 0x7C0 (leBytes 8 p)) fun m => { m with hb := m.hb + 1 }

/-- CAN_EVENT_FRAME (R323): the oldest copied record is sent, or dropped beyond CAN_EVENT_LIMIT. -/
def canEventFrame (d : Dev) : Dev :=
  if d.mgc.joined = false ∨ nodeId d = 0 then d
  else match d.mgc.canEvq with
    | [] => d
    | r :: rest =>
      let d := updMgc d fun m => { m with canEvq := rest }
      if setting d 0x1200 2 ≤ d.mgc.evSent then bump d 0x1200 4 4 1
      else
        let d := updMgc d fun m => { m with evSent := m.evSent + 1 }
        canQueue { d with freeNo := d.freeNo + 1 } 2 0x0C0 (eventBytes r (Config.canEventSeq d.freeNo))

/-! ### Commands -/

/-- MAILBOX_POST (R314). -/
def execMailboxPost (n : Fin 8) (s : State) : Host.Outcome State Fault Refusal := nextMgc s fun d => mailboxPost d n
/-- OD_READ (R300): the request at the front of the queue is a READ, or one whose OP is refused. -/
def execOdRead (s : State) : Host.Outcome State Fault Refusal := nextMgc s (serveFront isRead s.otp)
/-- OD_WRITE (R299): the request at the front is a WRITE. -/
def execOdWrite (s : State) : Host.Outcome State Fault Refusal := nextMgc s (serveFront (fun _ k => k.1 == 2) s.otp)
/-- OD_DESCRIBE (R315): the request at the front is a DESCRIBE. -/
def execOdDescribe (s : State) : Host.Outcome State Fault Refusal := nextMgc s (serveFront (fun _ k => k.1 == 3) s.otp)
/-- WRITE_SEG (R318). -/
def execWriteSeg (s : State) : Host.Outcome State Fault Refusal := nextMgc s (serveFront (fun c k => c && k.1 == 4) s.otp)
/-- READ_SEG (R319). -/
def execReadSeg (s : State) : Host.Outcome State Fault Refusal := nextMgc s (serveFront (fun c k => c && k.1 == 5) s.otp)
/-- ABANDON (R320). -/
def execAbandon (s : State) : Host.Outcome State Fault Refusal := nextMgc s (serveFront (fun c k => c && k.1 == 6) s.otp)
/-- SEG_TIMEOUT (R320). -/
def execSegTimeout (s : State) : Host.Outcome State Fault Refusal := nextMgc s segTimeout
/-- HEARTBEAT (R322). -/
def execHeartbeat (s : State) : Host.Outcome State Fault Refusal := nextMgc s heartbeat
/-- CAN_EVENT_FRAME (R323). -/
def execCanEventFrame (s : State) : Host.Outcome State Fault Refusal := nextMgc s canEventFrame
/-- REQUEST_RUNNING (R305): the request at the front writes Running to a REQUESTED. -/
def execRequestRunning (s : State) : Host.Outcome State Fault Refusal := nextMgc s (serveFront (fun _ k => isRequested 2 k) s.otp)
/-- REQUEST_STOPPED (R306): the request at the front writes Stopped to a REQUESTED. -/
def execRequestStopped (s : State) : Host.Outcome State Fault Refusal := nextMgc s (serveFront (fun _ k => isRequested 0 k) s.otp)
/-- STORE (R325): the request at the front writes 1 to STORE_CMD. -/
def execStore (s : State) : Host.Outcome State Fault Refusal := nextMgc s (serveFront (fun _ k => isWrite 0x1400 1 k && k.2.2.2 == 1) s.otp)
/-- STORE_ERASE (R325): the request at the front writes 2 to STORE_CMD. -/
def execStoreErase (s : State) : Host.Outcome State Fault Refusal := nextMgc s (serveFront (fun _ k => isWrite 0x1400 1 k && k.2.2.2 == 2) s.otp)
/-- REVOKE (R520). -/
def execRevoke (s : State) : Host.Outcome State Fault Refusal := nextMgc s (serveFront (fun _ k => isWrite 0x6001 3 k) s.otp)
/-- ROLLBACK_ADVANCE (R521). -/
def execRollbackAdvance (s : State) : Host.Outcome State Fault Refusal := nextMgc s (serveFront (fun _ k => isWrite 0x6001 4 k) s.otp)
/-- FUSE_LOCK (R523). -/
def execFuseLock (s : State) : Host.Outcome State Fault Refusal := nextMgc s (serveFront (fun _ k => isWrite 0x6001 5 k) s.otp)
/-- ATTEST_NONCE (R534). -/
def execAttestNonce (s : State) : Host.Outcome State Fault Refusal := nextMgc s (serveFront (fun _ k => isWrite 0x6021 1 k) s.otp)
/-- DEBUG_TOKEN (R538). -/
def execDebugToken (s : State) : Host.Outcome State Fault Refusal := nextMgc s (serveFront (fun _ k => isWrite 0x6030 2 k) s.otp)

end Sys2Proof.Machine
end

