-- ==== Sys2Proof/Machine/Registers.lean ====
section
/-! DEFINITION. A write by the application cluster at a physical address: the registers of every block whose map the spec gives (chapters 1, 7 to 14 and 17). -/

namespace Sys2Proof.Machine

open Sys2Proof

/-- An access that its range does not take: the address error of R21. -/
def apcAddressError (d : Dev) (a : Nat) : Dev := addressError d (Config.hartSource a).toNat a

/-- An APC write to WM or AM: no window names the APC as its writer, so the granule is discarded (R22, R144, R147). -/
def apcCoreWrite (d : Dev) (n a : Nat) : Dev :=
  if (coreOf d n).disabled then bump d (0x2300 + n) 6 8 1 else discardGranule d n false a (Config.hartWriter a)

/-- CP registers (Table 8.2): aligned 8 B writes. -/
def cpRegWrite (d : Dev) (o : Nat) (v : W64) : Dev :=
  if o = 0x000 then cmdWrite d (fld v 60 4) (fld v 48 12) (fld v 0 40)
  else if o = 0x010 then evtCtrlWrite d v
  else if o = 0x020 then evtHeadWrite d v
  else if o = 0x030 then ctxBaseWrite d v
  else d

/-- DMC registers (Table 14.8); region r at 0x800 + 0x20r. -/
def dmcRegWrite (d : Dev) (o : Nat) (v : W64) : Dev :=
  if 0x800 ≤ o && o < 0xA00 then regionWrite d ((o - 0x800) / 0x20) ((o - 0x800) % 0x20 / 8) v false true else d

/-- The IPL's registers: CTRL of image context n at 0x40n, its shadow set at 0x1_0000 + 0x4000n (R367); none: not an access the range takes. -/
def iplRegWrite (d : Dev) (o n : Nat) (bs : List Byte) : Option Dev :=
  if o < 0x400 then (if n = 8 ∧ o % 8 = 0 then some (if o % 0x40 = 0 then shadowWrite d (o / 0x40) heldCtrl bs else d) else none)
  else if 0x10000 ≤ o && o < 0x50000 then
    (if 2 ≤ n ∧ o % n = 0 then some (shadowWrite d ((o - 0x10000) / 0x4000) ((o - 0x10000) % 0x4000) bs) else none)
  else if n = 8 ∧ o % 8 = 0 then some d else none

/-- The statistics and exposure unit's registers: IN_FORCE, read-only, and the ledger entries (R406, R407, R416). -/
def ledgerRegWrite (d : Dev) (o n : Nat) (v : W64) : Option Dev :=
  if 0x1000 ≤ o && o < 0x3000 then
    let p := (o - 0x1000) / 0x800
    let e := (o - 0x1000) % 0x800 / 0x80
    let k := o % 0x80
    let whole := n = 8 ∧ o % 8 = 0
    if k < 0x40 then
      (if whole then some (if k = 0 then ledgerWrite0 d p e v else if k = 8 then ledgerWrite1 d p e v else d) else none)
    else if whole then some (ledgerWriteW (ledgerWriteW d p e ((k - 0x40) / 4) (BitVec.ofNat 32 (fld v 0 32))) p e ((k - 0x40) / 4 + 1) (BitVec.ofNat 32 (fld v 32 32)))
    else if n = 4 ∧ o % 4 = 0 then some (ledgerWriteW d p e ((k - 0x40) / 4) (BitVec.ofNat 32 (fld v 0 32)))
    else none
  else if n = 8 ∧ o % 8 = 0 then some d else none

/-- Sensor-control registers of port p (Table 10.4). -/
def i3cRegWrite (d : Dev) (p o n : Nat) (v : W64) (bs : List Byte) : Option Dev :=
  if 0x100 ≤ o && o < 0x200 then
    (if (n = 4 ∨ n = 8) ∧ o % n = 0 then some (if o < 0x180 then updI3c d p fun x => { x with tx := i3cPut x.tx (o - 0x100) bs } else d) else none)
  else if n = 8 ∧ o % 8 = 0 then
    some (if o = 0x008 then i3cCommand d p v
      else if o = 0x018 then updI3c d p fun x => { x with irq := x.irq &&& ~~~(BitVec.ofNat 3 (fld v 0 3)) }
      else if o = 0x020 then updI3c d p fun x => { x with irqEnable := BitVec.ofNat 64 (fld v 0 3) }
      else d)
  else none

/-- Registers of queue q of port p (Table 13.5). -/
def queueRegWrite (d : Dev) (p q k : Nat) (v : W64) : Dev :=
  if k = 0x00 then updQ d p q fun x => { x with base := BitVec.ofNat 64 (fld v 0 40) }
  else if k = 0x08 then qctrlWrite d p q v
  else if k = 0x10 then tailWrite d p q v
  else d

/-- PTP clock registers (Table 13.9), in ETH0's slot. -/
def ptpRegWrite (d : Dev) (o : Nat) (v : W64) : Dev :=
  if o = 0x400 then updPorts d fun x => { x with ptpIncr := BitVec.ofNat 40 (fld v 0 40) }
  else if o = 0x408 then ptpStep d v
  else if o = 0x410 then ptpCapture d v
  else d

/-- What a register write comes to. -/
inductive RegEffect where
  /-- The device after the write. -/
  | done (d : Dev)
  /-- An access the range does not take: an address error. -/
  | refused
  deriving DecidableEq, Repr

/-- An optional effect: an access the range does not take where there is none. -/
def regEffect (x : Option Dev) : RegEffect := match x with
  | some d => .done d
  | none => .refused

/-- A write at an offset for which the spec gives no register: the bytes are kept and nothing else happens (DESIGN CHOICE, log 48: R24 lets the APC reach every range, and no table says what the register does). -/
def blankRegWrite (d : Dev) (k o : Nat) (bs : List Byte) : RegEffect :=
  .done { d with regs := ((List.range bs.length).zip bs).foldl (fun l x => sset (fun _ => 0#8) l (k * 0x100000 + o + x.1) x.2) d.regs }

/-- Port registers that the spec places: the queues (R429), SOF_TIME and the endpoint registers (R433), the PTP clock (R436); the other offsets of the port's slot have no table (log 48). -/
def portRegWrite (d : Dev) (p o n : Nat) (v : W64) : RegEffect :=
  let whole := n = 8 ∧ o % 8 = 0
  if 0x1000 ≤ o && o < 0x1000 + 0x20 * queueCount p then
    (if whole then .done (queueRegWrite d p ((o - 0x1000) / 0x20) (o % 0x20) v) else .refused)
  else if p = 0 ∧ 0x200 ≤ o ∧ o < 0x300 then
    (if whole then .done (updPorts d fun x => { x with ep := sset (fun _ => 0#64) x.ep ((o - 0x200) / 8) (BitVec.ofNat 64 (fld v 0 26)) }) else .refused)
  else if p = 0 ∧ o / 8 = 0x20 then (if whole then .done d else .refused)
  else if p = 1 ∧ 0x400 ≤ o ∧ o < 0x438 then (if whole then .done (ptpRegWrite d o v) else .refused)
  else blankRegWrite d (0x12 + p) o (leBytes n v.toNat)

/-- GPIO registers (R445). -/
def gpioRegWrite (d : Dev) (o : Nat) (v : W64) : Dev :=
  if o = 0x00 then updPorts d fun x => { x with gpioDir := v }
  else if o = 0x08 then updPorts d fun x => { x with gpioOut := BitVec.ofNat 64 (fld v 0 32) }
  else if o = 0x18 then updPorts d fun x => { x with gpioEdge := v }
  else if o = 0x20 then updPorts d fun x => { x with gpioStatus := x.gpioStatus &&& ~~~v }
  else d

/-- TU interface registers (Table 17.5). -/
def tuRegWrite (d : Dev) (o : Nat) (v : W64) : Dev :=
  if o = 0x008 then (if 1 ≤ fld v 0 4 ∧ fld v 0 4 ≤ 4 then tuStart d (fld v 0 4) else d)
  else if o = 0x010 then updTu d fun t => { t with addr := BitVec.ofNat 40 (fld v 0 40) }
  else if o = 0x018 then (if bit v 0 then updTu d fun t => { t with done := false } else d)
  else if o = 0x020 then updTu d fun t => { t with irqEn := bit v 0 }
  else d

/-- A write of `n` bytes, the low ones of v, at offset `o` of peripheral slot k (Table 1.6). -/
def periphWrite (d : Dev) (k o n : Nat) (v : W64) : RegEffect :=
  let bs := leBytes n v.toNat
  let whole (d' : Dev) : RegEffect := if n = 8 ∧ o % 8 = 0 then .done d' else .refused
  if k = 0x00 then whole (cpRegWrite d o v)
  else if k = 0x01 then whole (dmcRegWrite d o v)
  else if k = 0x06 then regEffect (iplRegWrite d o n bs)
  else if k = 0x07 then regEffect (ledgerRegWrite d o n v)
  else if 0x0A ≤ k && k ≤ 0x11 then whole (if o < 0x1000 then chanDescWrite d (64 * (k - 0x0A) + o / 0x40) (o % 0x40 / 8) v true else d)
  else if 0x12 ≤ k && k ≤ 0x15 then portRegWrite d (k - 0x12) o n v
  else if 0x18 ≤ k && k ≤ 0x1B then regEffect (i3cRegWrite d (k - 0x18) o n v bs)
  else if k = 0x1D then whole (gpioRegWrite d o v)
  else if k = 0x1E then whole (tuRegWrite d o v)
  else blankRegWrite d k o bs

/-- Bits of byte o of a mailbox slot that software writes (Table 9.6, R313). -/
def mboxMask (o : Nat) : Byte :=
  if o = 0 then 0x0F#8
  else if 64 ≤ o || o = 1 || o = 2 || (9 ≤ o && o ≤ 15) || (27 ≤ o && o ≤ 31) then 0xFF#8
  else 0#8

/-- Bytes that software writes into slot n: reserved and read-only bits keep their values. -/
def mboxStore (d : Dev) (n off : Nat) : List Byte → Dev
  | [] => d
  | b :: bs =>
    let old := sget (fun _ => 0#8) d.mgc.mbox (n * 4096 + off)
    mboxStore (mboxPut d n off [(old &&& ~~~(mboxMask off)) ||| (b &&& mboxMask off)]) n (off + 1) bs

/-- An APC write to mailbox slot n (R314): discarded and counted while the slot is Taken; a write of STATE Posted is the slot's doorbell. -/
def mboxWrite (d : Dev) (n off : Nat) (bs : List Byte) : Dev :=
  if mbState (mboxHeader d n) = 2 then bump d 0x1300 0x0A 4 1
  else
    let d := mboxStore d n off bs
    if off = 0 ∧ mbState (mboxHeader d n) = 1 then mailboxPost d n else d

/-- REGISTER_WRITE (R9, R20 to R22): the APC writes the low `n` bytes of v at address a. -/
def registerWrite (d : Dev) (a n : Nat) (v : W64) : RegEffect :=
  let bs := leBytes n v.toNat
  let whole := n = 8 ∧ a % 8 = 0
  match areaOf d a with
  | .dram => .done (memWrite d none (Config.hartSource a).toNat a bs false)
  | .sb _ => .done (memWrite d none (Config.hartSource a).toNat a bs false)
  | .wm c _ => .done (apcCoreWrite d c a)
  | .am c _ => .done (apcCoreWrite d c a)
  | .pm _ _ => .refused
  | .ds _ _ => .refused
  | .doorbell r => .done (doorbell d r v (decide whole))
  | .cpPage o => if whole then .done (complHeadWrite d (o / 8) v) else .refused
  | .mailbox k o => if o % n = 0 then .done (mboxWrite d k o bs) else .refused
  | .periph k o => periphWrite d k o n v
  | .plic o => .done (irqRangeWrite d o n v.toNat)
  | .unmapped => .refused

/-- REGISTER_WRITE (R9): a write of 2^k bytes at a by the application cluster. -/
def execRegisterWrite (a : Addr) (k : Fin 4) (v : W64) (s : State) : Host.Outcome State Fault Refusal :=
  if s.dev.ctl.held then .next s
  else match registerWrite s.dev a.toNat (2 ^ k.val) v with
    | .done d => .next { s with dev := d }
    | .refused => .next { s with dev := apcAddressError s.dev a.toNat }

end Sys2Proof.Machine
end

