-- ==== Sys2Proof/Machine/Vec.lean ====
section
/-! DEFINITION. VEC, REDUCE and QROW: the vector unit's functions (Table 5.7, R555, R559 to R563). -/

namespace Sys2Proof.Machine

open Sys2Proof

/-- Operands of a vector instruction: place, descriptor and actual extents. -/
structure VSrc where
  p : Place := {}
  t : Desc := {}
  ext : List Nat := []
  deriving DecidableEq, Repr

/-- Tensor i of an instruction on core n. -/
def vsrc (d : Dev) (n : Nat) (o : Op) (i : Nat) : VSrc := { p := placeOf d n (opDesc o i) 0, t := opDesc o i, ext := opExt o i }

/-- Value of an element as the VU takes it (R555). -/
def vAt (d : Dev) (x : VSrc) (ix : List Nat) : Val := vuVal d x.p x.t ix (rowOf x.t.ext ix)
/-- Poison of an element, or of the row exponent that its value takes (R129, R130). -/
def vBad (d : Dev) (x : VSrc) (ix : List Nat) : Bool :=
  elemPoison d x.p x.t ix || (fmtIsInt (dFmt x.t) && x.t.expMode % 2 == 1 && tPoison d x.p (expPlane x.t) (rowOf x.t.ext ix))

/-- A source in a window passes the correction stage as it is read (R126); one in the core's memories has passed it at issue. -/
def touchSrc (d : Dev) (x : VSrc) : Dev := if x.t.space = 3 then touchData d x.p x.t.base 0 (512 * tensorUnits x.t none) else d

/-- Row indices (dimensions 1, 2, 3) of the given extents, dimension 1 fastest. -/
def rowIxs (ext : List Nat) : List (List Nat) :=
  (List.range (ext.getD 3 1)).flatMap fun l => (List.range (ext.getD 2 1)).flatMap fun k => (List.range (ext.getD 1 1)).map fun j => [0, j, k, l]

/-- All indices of the given extents, dimension 0 fastest. -/
def allIxs (ext : List Nat) : List (List Nat) := (rowIxs ext).flatMap fun r => (List.range (ext.getD 0 1)).map fun i => r.set 0 i

/-- Index of a second source: 0 in each dimension of extent 1 (R559). -/
def bcast (ext ix : List Nat) : List Nat := List.zipWith (fun e i => if e = 1 then 0 else i) ext ix

/-- Maximum of two values; NaN when either is NaN (R561). -/
def vmax (a b : Val) : Val := if a = .nan ∨ b = .nan then .nan else if vlt a b then b else a
/-- Minimum of two values; NaN when either is NaN (R561). -/
def vmin (a b : Val) : Val := if a = .nan ∨ b = .nan then .nan else if vlt b a then b else a

/-- Element-wise functions of Table 5.7: FUNC, IMM, A, B; the result of each is rounded once to FP32, where subnormals are zero (R72, R555). -/
def vecFn (f : Nat) (imm : Val) (a b : Val) : Val :=
  r32 (match f with
  | 0x00 => vadd a b
  | 0x01 => vadd a (vneg b)
  | 0x02 => vmul a b
  | 0x03 => vmax a b
  | 0x04 => vmin a b
  | 0x05 => vadd a imm
  | 0x06 => vmul a imm
  | 0x10 => vneg a
  | 0x11 => vabs a
  | 0x12 => frsqrt a
  | 0x13 => fexp a
  | _ => a)

/-- Functions along an axis, whose formulas the spec does not give: FUNC, the line, the element (log 9). -/
def axisFn (f : Nat) (line : List Val) (i : Nat) : Val :=
  let l := line.map toF32
  ofF32 (match f with
    | 0x20 => Config.softmax l i
    | 0x21 => Config.layerNorm l i
    | _ => Config.rmsNorm l i)

/-- Whether a FUNC works along AXIS element by element. -/
def isAxisFn (f : Nat) : Bool := f == 0x20 || f == 0x21 || f == 0x22

/-- Value of an output element of an element-wise, axis or activation function. -/
def vecVal (d : Dev) (w : Line) (a b : VSrc) (ix : List Nat) : Val :=
  let f := rFunc w
  if isAxisFn f then
    axisFn f ((List.range (a.ext.getD (rAxis w) 1)).map fun k => vAt d a (ix.set (rAxis w) k)) (ix.getD (rAxis w) 0)
  else if f = 0x40 then ofF32 (Config.activation (rParam w) (toF32 (vAt d a ix)))
  else vecFn f (ofF32 (rImm w)) (vAt d a ix) (if f < 5 then vAt d b (bcast b.t.ext ix) else .zero false)

/-- Emit output rows: each row's values along dimension 0, narrowed together (R557); `split` for QROW, whose output splits listed outliers (R103). -/
def vecRows (d : Dev) (n : Nat) (o : Op) (di : Nat) (out : VSrc) (split : Bool) (len : Nat) (f : List Nat → Val × Bool) : List (List Nat) → Made → Dev × Made
  | [], m => (d, m)
  | r :: t, m =>
    let vals := (List.range len).map fun i => f (r.set 0 i)
    let (d, m) := emitRow d n o.wc out.p out.t (opDescRaw o di) (opList o di) split (rowOf out.t.ext r) r vals m
    vecRows d n o di out split len f t m

/-- Write the output tensor di that an instruction has made, whole: what a remote window's last unit holds is sent too. -/
def putOut (d : Dev) (n : Nat) (o : Op) (di : Nat) (m : Made) : Dev :=
  let t := opDesc o di
  endOut (writeOut d n o t (opExt o di) m.pieces) n o t (opExt o di)

/-- Invalid operands among the elements read (R73, R561). -/
def vecInvalid (d : Dev) (xs : List VSrc) : Nat :=
  (xs.map fun x => ((allIxs x.ext).map (vAt d x)).countP invalidVal).sum

/-- An element-wise VEC: output extents are A's (R559). -/
def runVec (d : Dev) (i n : Nat) (o : Op) : Dev :=
  let w := o.word
  let a := vsrc d n o (rDescA w)
  let b := vsrc d n o (rDescW w)
  let out := vsrc d n o (rDescO w)
  let two := decide (rFunc w < 5)
  let d0 := d
  let d := bump (touchSrc (if two then touchSrc d b else d) a) (0x2230 + n) 3 4 (vecInvalid d (if two then [a, b] else [a]))
  let (d, m) := vecRows d n o (rDescO w) out false (a.ext.getD 0 1)
    (fun ix => (vecVal d0 w a b ix, vBad d0 a ix || (two && vBad d0 b (bcast b.t.ext ix)))) (rowIxs a.ext) {}
  let d := putOut d n o (rDescO w) m
  finishOp d n i fun o => madeFlagsV m { o with seqWords := seqGranule out.t }
where
  madeFlagsV (m : Made) (o : Op) : Op := { o with sat := o.sat || m.sat, poisoned := o.poisoned || m.poisoned }

/-- Order of top-k: NaN above every value, greater first, equal values by position (R561, R562). -/
def ranksAbove (a b : Nat × Val) : Bool :=
  match a.2, b.2 with
  | .nan, .nan => decide (a.1 < b.1)
  | .nan, _ => true
  | _, .nan => false
  | x, y => vlt y x || (!vlt x y && decide (a.1 < b.1))

/-- Insert into a list ordered by `ranksAbove`. -/
def insRank (x : Nat × Val) : List (Nat × Val) → List (Nat × Val)
  | [] => [x]
  | y :: t => if ranksAbove x y then x :: y :: t else y :: insRank x t

/-- A line in top-k order. -/
def rankLine (l : List Val) : List (Nat × Val) := (withPos l).foldl (fun s x => insRank x s) []

/-- Top-k along AXIS: values to DESC_O, positions to DESC_B (R562). -/
def runTopK (d : Dev) (i n : Nat) (o : Op) : Dev :=
  let w := o.word
  let ax := rAxis w
  let k := rParam w
  let a := vsrc d n o (rDescA w)
  let ov := vsrc d n o (rDescO w)
  let oi := vsrc d n o (rDescW w)
  let d0 := d
  let line (ix : List Nat) := rankLine ((List.range (a.ext.getD ax 1)).map fun j => vAt d0 a (ix.set ax j))
  let bad (ix : List Nat) : Bool := (List.range (a.ext.getD ax 1)).any fun j => vBad d0 a (ix.set ax j)
  let ext := a.ext.set ax k
  let d := bump (touchSrc d a) (0x2230 + n) 3 4 (vecInvalid d [a])
  let (d, m) := vecRows d n o (rDescO w) ov false (ext.getD 0 1)
    (fun ix => (((line ix)[ix.getD ax 0]?.map fun x => r32 x.2).getD (.zero false), bad ix)) (rowIxs ext) {}
  let (d, m') := vecRows d n o (rDescW w) oi false (ext.getD 0 1)
    (fun ix => (ofInt (((line ix)[ix.getD ax 0]?.map fun x => (x.1 : Int)).getD (-1)), bad ix)) (rowIxs ext) {}
  let d := putOut (putOut d n o (rDescO w) m) n o (rDescW w) m'
  finishOp d n i fun o => { o with sat := o.sat || m.sat || m'.sat, poisoned := o.poisoned || m.poisoned, seqWords := seqGranule ov.t ++ seqGranule oi.t }

/-- Select where A > IMM (R563, R561). -/
def runSelect (d : Dev) (i n : Nat) (o : Op) : Dev :=
  let w := o.word
  let a := vsrc d n o (rDescA w)
  let out := vsrc d n o (rDescO w)
  let imm := ofF32 (rImm w)
  let hits := ((allIxs a.ext).map fun ix => (vAt d a ix, vBad d a ix)).filter fun v => vlt imm v.1
  let room := dExt out.t 0
  let kept := (hits.take room).map fun v => (r32 v.1, v.2)
  let d := bump (touchSrc d a) (0x2230 + n) 3 4 (vecInvalid d [a])
  let (d, m) := emitRow d n o.wc out.p out.t (opDescRaw o (rDescO w)) (opList o (rDescO w)) false 0 [0, 0, 0, 0] kept {}
  let d := putOut d n o (rDescO w) m
  finishOp d n i fun o => { o with
    sat := o.sat || m.sat, poisoned := o.poisoned || m.poisoned, clamped := o.clamped || decide (room < hits.length)
    lenOut := if 128 ≤ rLenOut w then some kept.length else none
    seqWords := seqGranule out.t }

/-- REDUCE of one line in index order (R164, R555, R561): a window has exactly one writer, whose units land in that order (R144, R145). -/
def reduceLine (f : Nat) (l : List Val) : Val :=
  match l with
  | [] => ofF32 (Config.emptyReduce f)
  | x :: t => match f with
    | 0x60 => t.foldl fadd x
    | 0x61 => r32 (t.foldl vmax x)
    | 0x62 => r32 (t.foldl vmin x)
    | _ => ofInt (((rankLine l).head?.map fun y => (y.1 : Int)).getD 0)

/-- REDUCE along AXIS: the output has extent 1 there (R164). -/
def runReduce (d : Dev) (i n : Nat) (o : Op) : Dev :=
  let w := o.word
  let ax := rAxis w
  let a := vsrc d n o (rDescA w)
  let out := vsrc d n o (rDescO w)
  let d0 := d
  let ext := a.ext.set ax 1
  let d := bump (touchSrc d a) (0x2230 + n) 3 4 (vecInvalid d [a])
  let (d, m) := vecRows d n o (rDescO w) out false (ext.getD 0 1)
    (fun ix => (reduceLine (rFunc w) ((List.range (a.ext.getD ax 1)).map fun j => vAt d0 a (ix.set ax j)),
      (List.range (a.ext.getD ax 1)).any fun j => vBad d0 a (ix.set ax j))) (rowIxs ext) {}
  let d := putOut d n o (rDescO w) m
  finishOp d n i fun o => { o with sat := o.sat || m.sat, poisoned := o.poisoned || m.poisoned, seqWords := seqGranule out.t }

/-- QROW: each row quantised with an exponent of its own, read whole before it is narrowed (R101). -/
def runQrow (d : Dev) (i n : Nat) (o : Op) : Dev :=
  let w := o.word
  let a := vsrc d n o (rDescA w)
  let out := vsrc d n o (rDescO w)
  let d0 := d
  let d := bump (touchSrc d a) (0x2230 + n) 3 4 (vecInvalid d [a])
  let (d, m) := vecRows d n o (rDescO w) out true (a.ext.getD 0 1) (fun ix => (vAt d0 a ix, vBad d0 a ix)) (rowIxs a.ext) {}
  let d := putOut d n o (rDescO w) m
  finishOp d n i fun o => { o with sat := o.sat || m.sat, poisoned := o.poisoned || m.poisoned, seqWords := seqGranule out.t }

/-- Issue a VEC of function f. -/
def vecCommand (d : Dev) (n f : Nat) (run : Dev → Nat → Nat → Op → Dev) : Dev :=
  issueAs d n (fun o => rOpcode o.word == 0x10 && rFunc o.word == f) fun d i o => run d i n o
/-- Issue a REDUCE of function f. -/
def reduceCommand (d : Dev) (n f : Nat) : Dev :=
  issueAs d n (fun o => rOpcode o.word == 0x11 && rFunc o.word == f) fun d i o => runReduce d i n o

/-- VEC add (Table 5.7). -/
def execVecAdd (n : Fin 16) (s : State) : Host.Outcome State Fault Refusal := nextDev s fun d => vecCommand d n 0x00 runVec
/-- VEC subtract. -/
def execVecSubtract (n : Fin 16) (s : State) : Host.Outcome State Fault Refusal := nextDev s fun d => vecCommand d n 0x01 runVec
/-- VEC multiply. -/
def execVecMultiply (n : Fin 16) (s : State) : Host.Outcome State Fault Refusal := nextDev s fun d => vecCommand d n 0x02 runVec
/-- VEC maximum. -/
def execVecMaximum (n : Fin 16) (s : State) : Host.Outcome State Fault Refusal := nextDev s fun d => vecCommand d n 0x03 runVec
/-- VEC minimum. -/
def execVecMinimum (n : Fin 16) (s : State) : Host.Outcome State Fault Refusal := nextDev s fun d => vecCommand d n 0x04 runVec
/-- VEC add IMM. -/
def execVecAddImm (n : Fin 16) (s : State) : Host.Outcome State Fault Refusal := nextDev s fun d => vecCommand d n 0x05 runVec
/-- VEC multiply by IMM. -/
def execVecMultiplyByImm (n : Fin 16) (s : State) : Host.Outcome State Fault Refusal := nextDev s fun d => vecCommand d n 0x06 runVec
/-- VEC negate. -/
def execVecNegate (n : Fin 16) (s : State) : Host.Outcome State Fault Refusal := nextDev s fun d => vecCommand d n 0x10 runVec
/-- VEC absolute value. -/
def execVecAbsoluteValue (n : Fin 16) (s : State) : Host.Outcome State Fault Refusal := nextDev s fun d => vecCommand d n 0x11 runVec
/-- VEC reciprocal square root. -/
def execVecReciprocalSquareRoot (n : Fin 16) (s : State) : Host.Outcome State Fault Refusal := nextDev s fun d => vecCommand d n 0x12 runVec
/-- VEC exponential. -/
def execVecExponential (n : Fin 16) (s : State) : Host.Outcome State Fault Refusal := nextDev s fun d => vecCommand d n 0x13 runVec
/-- VEC softmax along AXIS. -/
def execVecSoftmax (n : Fin 16) (s : State) : Host.Outcome State Fault Refusal := nextDev s fun d => vecCommand d n 0x20 runVec
/-- VEC layer normalisation along AXIS. -/
def execVecLayerNormalisation (n : Fin 16) (s : State) : Host.Outcome State Fault Refusal := nextDev s fun d => vecCommand d n 0x21 runVec
/-- VEC root-mean-square normalisation along AXIS. -/
def execVecRmsNormalisation (n : Fin 16) (s : State) : Host.Outcome State Fault Refusal := nextDev s fun d => vecCommand d n 0x22 runVec
/-- VEC top-k along AXIS (R562). -/
def execVecTopK (n : Fin 16) (s : State) : Host.Outcome State Fault Refusal := nextDev s fun d => vecCommand d n 0x30 runTopK
/-- VEC select (R563). -/
def execVecSelect (n : Fin 16) (s : State) : Host.Outcome State Fault Refusal := nextDev s fun d => vecCommand d n 0x31 runSelect
/-- VEC activation table. -/
def execVecActivationTable (n : Fin 16) (s : State) : Host.Outcome State Fault Refusal := nextDev s fun d => vecCommand d n 0x40 runVec
/-- VEC copy with format conversion. -/
def execVecCopyConvert (n : Fin 16) (s : State) : Host.Outcome State Fault Refusal := nextDev s fun d => vecCommand d n 0x50 runVec
/-- REDUCE sum. -/
def execReduceSum (n : Fin 16) (s : State) : Host.Outcome State Fault Refusal := nextDev s fun d => reduceCommand d n 0x60
/-- REDUCE maximum. -/
def execReduceMaximum (n : Fin 16) (s : State) : Host.Outcome State Fault Refusal := nextDev s fun d => reduceCommand d n 0x61
/-- REDUCE minimum. -/
def execReduceMinimum (n : Fin 16) (s : State) : Host.Outcome State Fault Refusal := nextDev s fun d => reduceCommand d n 0x62
/-- REDUCE argument of maximum. -/
def execReduceArgumentOfMaximum (n : Fin 16) (s : State) : Host.Outcome State Fault Refusal := nextDev s fun d => reduceCommand d n 0x63
/-- QROW (R101). -/
def execQrow (n : Fin 16) (s : State) : Host.Outcome State Fault Refusal :=
  nextDev s fun d => issueAs d n (fun o => rOpcode o.word == 0x12) fun d i o => runQrow d i n o

end Sys2Proof.Machine
end

