-- ==== Sys2Proof/Machine/Dispatch.lean ====
section
/-! DEFINITION. The dispatch: one arm per command, each one direct call of its meaning. -/

namespace Sys2Proof.Machine

open Sys2Proof

/-- What a command does to everything but the queue. -/
def exec (i : Instr) (s : State) : Host.Outcome State Fault Refusal :=
  match i with
  | .porstNFall mask => Sys2Proof.Machine.execPorstNFall mask s
  | .porstNRise mode node test => Sys2Proof.Machine.execPorstNRise mode node test s
  | .sysrstNAssert ns mask => Sys2Proof.Machine.execSysrstNAssert ns mask s
  | .sysrstNRise => Sys2Proof.Machine.execSysrstNRise s
  | .watchdogReset mask => Sys2Proof.Machine.execWatchdogReset mask s
  | .softwareReset mask => Sys2Proof.Machine.execSoftwareReset mask s
  | .tapReset => Sys2Proof.Machine.execTapReset s
  | .tapInstruction t => Sys2Proof.Machine.execTapInstruction t s
  | .tuKnownAnswerTests ok => Sys2Proof.Machine.execTuKnownAnswerTests ok s
  | .bootDirectoryRead m main backup => Sys2Proof.Machine.execBootDirectoryRead m main backup s
  | .bootImageVerify bs bad => Sys2Proof.Machine.execBootImageVerify bs bad s
  | .uartRecoveryContainer bs bad => Sys2Proof.Machine.execUartRecoveryContainer bs bad s
  | .trainingComplete ok size rate packages ranks => Sys2Proof.Machine.execTrainingComplete ok size rate packages ranks s
  | .mgcFirmwareStart version => Sys2Proof.Machine.execMgcFirmwareStart version s
  | .ac0Release => Sys2Proof.Machine.execAc0Release s
  | .canJoin => Sys2Proof.Machine.execCanJoin s
  | .storeRestore => Sys2Proof.Machine.execStoreRestore s
  | .selfTestStart => Sys2Proof.Machine.execSelfTestStart s
  | .selfTestComplete fail badMem => Sys2Proof.Machine.execSelfTestComplete fail badMem s
  | .verifyLoader => Sys2Proof.Machine.execVerifyLoader s
  | .verify => Sys2Proof.Machine.execVerify s
  | .extend => Sys2Proof.Machine.execExtend s
  | .releaseBootPhase => Sys2Proof.Machine.execReleaseBootPhase s
  | .tuOperationDone => Sys2Proof.Machine.execTuOperationDone s
  | .revoke => Sys2Proof.Machine.execRevoke s
  | .rollbackAdvance => Sys2Proof.Machine.execRollbackAdvance s
  | .fuseLock => Sys2Proof.Machine.execFuseLock s
  | .fuseProgramDone => Sys2Proof.Machine.execFuseProgramDone s
  | .attestNonce => Sys2Proof.Machine.execAttestNonce s
  | .attestSigned => Sys2Proof.Machine.execAttestSigned s
  | .debugToken => Sys2Proof.Machine.execDebugToken s
  | .debugTokenTested => Sys2Proof.Machine.execDebugTokenTested s
  | .mailboxPost n => Sys2Proof.Machine.execMailboxPost n s
  | .odRead => Sys2Proof.Machine.execOdRead s
  | .odWrite => Sys2Proof.Machine.execOdWrite s
  | .odDescribe => Sys2Proof.Machine.execOdDescribe s
  | .canRequestFrame bs => Sys2Proof.Machine.execCanRequestFrame bs s
  | .writeSeg => Sys2Proof.Machine.execWriteSeg s
  | .readSeg => Sys2Proof.Machine.execReadSeg s
  | .abandon => Sys2Proof.Machine.execAbandon s
  | .segTimeout => Sys2Proof.Machine.execSegTimeout s
  | .heartbeat => Sys2Proof.Machine.execHeartbeat s
  | .canEventFrame => Sys2Proof.Machine.execCanEventFrame s
  | .requestRunning => Sys2Proof.Machine.execRequestRunning s
  | .requestStopped => Sys2Proof.Machine.execRequestStopped s
  | .functionRunning f => Sys2Proof.Machine.execFunctionRunning f s
  | .startFailed f => Sys2Proof.Machine.execStartFailed f s
  | .functionStopped f => Sys2Proof.Machine.execFunctionStopped f s
  | .stopTimeout f => Sys2Proof.Machine.execStopTimeout f s
  | .functionFaulted f cause => Sys2Proof.Machine.execFunctionFaulted f cause s
  | .store => Sys2Proof.Machine.execStore s
  | .storeErase => Sys2Proof.Machine.execStoreErase s
  | .storeComplete ok => Sys2Proof.Machine.execStoreComplete ok s
  | .enable w => Sys2Proof.Machine.execEnable w s
  | .disable w => Sys2Proof.Machine.execDisable w s
  | .cancel w => Sys2Proof.Machine.execCancel w s
  | .submit w arg => Sys2Proof.Machine.execSubmit w arg s
  | .release w => Sys2Proof.Machine.execRelease w s
  | .resume w mask => Sys2Proof.Machine.execResume w mask s
  | .ctxBaseWrite v => Sys2Proof.Machine.execCtxBaseWrite v s
  | .evtCtrlWrite v => Sys2Proof.Machine.execEvtCtrlWrite v s
  | .evtHeadWrite v => Sys2Proof.Machine.execEvtHeadWrite v s
  | .doorbellWrite r v whole => Sys2Proof.Machine.execDoorbellWrite r v whole s
  | .completionHeadWrite w v => Sys2Proof.Machine.execCompletionHeadWrite w v s
  | .contextFill w => Sys2Proof.Machine.execContextFill w s
  | .contextWriteThrough w => Sys2Proof.Machine.execContextWriteThrough w s
  | .recordFetch w idx => Sys2Proof.Machine.execRecordFetch w idx s
  | .dispatch => Sys2Proof.Machine.execDispatch s
  | .ringStarved r => Sys2Proof.Machine.execRingStarved r s
  | .epochReceive node w => Sys2Proof.Machine.execEpochReceive node w s
  | .cancelComplete w => Sys2Proof.Machine.execCancelComplete w s
  | .eventRingWrite => Sys2Proof.Machine.execEventRingWrite s
  | .mmul n => Sys2Proof.Machine.execMmul n s
  | .mstream n => Sys2Proof.Machine.execMstream n s
  | .mthin n => Sys2Proof.Machine.execMthin n s
  | .conv n => Sys2Proof.Machine.execConv n s
  | .tconv n => Sys2Proof.Machine.execTconv n s
  | .mpconv => Sys2Proof.Machine.execMpconv s
  | .vecAdd n => Sys2Proof.Machine.execVecAdd n s
  | .vecSubtract n => Sys2Proof.Machine.execVecSubtract n s
  | .vecMultiply n => Sys2Proof.Machine.execVecMultiply n s
  | .vecMaximum n => Sys2Proof.Machine.execVecMaximum n s
  | .vecMinimum n => Sys2Proof.Machine.execVecMinimum n s
  | .vecAddImm n => Sys2Proof.Machine.execVecAddImm n s
  | .vecMultiplyByImm n => Sys2Proof.Machine.execVecMultiplyByImm n s
  | .vecNegate n => Sys2Proof.Machine.execVecNegate n s
  | .vecAbsoluteValue n => Sys2Proof.Machine.execVecAbsoluteValue n s
  | .vecReciprocalSquareRoot n => Sys2Proof.Machine.execVecReciprocalSquareRoot n s
  | .vecExponential n => Sys2Proof.Machine.execVecExponential n s
  | .vecSoftmax n => Sys2Proof.Machine.execVecSoftmax n s
  | .vecLayerNormalisation n => Sys2Proof.Machine.execVecLayerNormalisation n s
  | .vecRmsNormalisation n => Sys2Proof.Machine.execVecRmsNormalisation n s
  | .vecTopK n => Sys2Proof.Machine.execVecTopK n s
  | .vecSelect n => Sys2Proof.Machine.execVecSelect n s
  | .vecActivationTable n => Sys2Proof.Machine.execVecActivationTable n s
  | .vecCopyConvert n => Sys2Proof.Machine.execVecCopyConvert n s
  | .reduceSum n => Sys2Proof.Machine.execReduceSum n s
  | .reduceMaximum n => Sys2Proof.Machine.execReduceMaximum n s
  | .reduceMinimum n => Sys2Proof.Machine.execReduceMinimum n s
  | .reduceArgumentOfMaximum n => Sys2Proof.Machine.execReduceArgumentOfMaximum n s
  | .qrow n => Sys2Proof.Machine.execQrow n s
  | .fetch n => Sys2Proof.Machine.execFetch n s
  | .spill n => Sys2Proof.Machine.execSpill n s
  | .xferSend n => Sys2Proof.Machine.execXferSend n s
  | .xferRecvOpen n => Sys2Proof.Machine.execXferRecvOpen n s
  | .xferRecvEnd n => Sys2Proof.Machine.execXferRecvEnd n s
  | .xferEndStream n => Sys2Proof.Machine.execXferEndStream n s
  | .xferOpenAgent n => Sys2Proof.Machine.execXferOpenAgent n s
  | .fuse n => Sys2Proof.Machine.execFuse n s
  | .barrierCore n => Sys2Proof.Machine.execBarrierCore n s
  | .barrierWorkContext n => Sys2Proof.Machine.execBarrierWorkContext n s
  | .signal n => Sys2Proof.Machine.execSignal n s
  | .wait n => Sys2Proof.Machine.execWait n s
  | .setlen n => Sys2Proof.Machine.execSetlen n s
  | .nop n => Sys2Proof.Machine.execNop n s
  | .instructionRetire n idx => Sys2Proof.Machine.execInstructionRetire n idx s
  | .sourceRelease n idx => Sys2Proof.Machine.execSourceRelease n idx s
  | .issueCycle n p q => Sys2Proof.Machine.execIssueCycle n p q s
  | .groupChangeover n a g => Sys2Proof.Machine.execGroupChangeover n a g s
  | .shadowRowLoad n a k fmt off r => Sys2Proof.Machine.execShadowRowLoad n a k fmt off r s
  | .rowLands n a u => Sys2Proof.Machine.execRowLands n a u s
  | .rampDownStart n a => Sys2Proof.Machine.execRampDownStart n a s
  | .rampDownStep n a => Sys2Proof.Machine.execRampDownStep n a s
  | .rampUpStep n a => Sys2Proof.Machine.execRampUpStep n a s
  | .dutyWindow n a => Sys2Proof.Machine.execDutyWindow n a s
  | .regionRelease n idx t => Sys2Proof.Machine.execRegionRelease n idx t s
  | .drainEntry n idx t m u => Sys2Proof.Machine.execDrainEntry n idx t m u s
  | .outlierSum n idx t => Sys2Proof.Machine.execOutlierSum n idx t s
  | .calibWindowClose n k => Sys2Proof.Machine.execCalibWindowClose n k s
  | .tileRequest n => Sys2Proof.Machine.execTileRequest n s
  | .tileGrantReceive n => Sys2Proof.Machine.execTileGrantReceive n s
  | .tileClaim n => Sys2Proof.Machine.execTileClaim n s
  | .wregFill n idx t ky kx kb => Sys2Proof.Machine.execWregFill n idx t ky kx kb s
  | .coreMemoryRead n mem w u => Sys2Proof.Machine.execCoreMemoryRead n mem w u s
  | .scrubWrite n mem => Sys2Proof.Machine.execScrubWrite n mem s
  | .patrolRead n mem u => Sys2Proof.Machine.execPatrolRead n mem u s
  | .narrowWrite n idx wm off mask bs p => Sys2Proof.Machine.execNarrowWrite n idx wm off mask bs p s
  | .gatherFlush n wm k => Sys2Proof.Machine.execGatherFlush n wm k s
  | .gatherTimeout n wm k => Sys2Proof.Machine.execGatherTimeout n wm k s
  | .granuleArrive n wm off u writer epoch bs last hollow => Sys2Proof.Machine.execGranuleArrive n wm off u writer epoch bs last hollow s
  | .windowDrainTimeout node idx => Sys2Proof.Machine.execWindowDrainTimeout node idx s
  | .creditReturn node idx => Sys2Proof.Machine.execCreditReturn node idx s
  | .sbPartialWrite g a bs p u0 u1 => Sys2Proof.Machine.execSbPartialWrite g a bs p u0 u1 s
  | .channelDescriptorWrite ch k v whole => Sys2Proof.Machine.execChannelDescriptorWrite ch k v whole s
  | .channelActive ch => Sys2Proof.Machine.execChannelActive ch s
  | .unitSend e => Sys2Proof.Machine.execUnitSend e s
  | .stallTimeout ch => Sys2Proof.Machine.execStallTimeout ch s
  | .hollowUnitSend ch r => Sys2Proof.Machine.execHollowUnitSend ch r s
  | .streamEndSend ch r => Sys2Proof.Machine.execStreamEndSend ch r s
  | .channelCancelDone ch => Sys2Proof.Machine.execChannelCancelDone ch s
  | .feTransfer n => Sys2Proof.Machine.execFeTransfer n s
  | .feGranuleReturn n => Sys2Proof.Machine.execFeGranuleReturn n s
  | .loadTurnGrant w => Sys2Proof.Machine.execLoadTurnGrant w s
  | .mpeRecordResident => Sys2Proof.Machine.execMpeRecordResident s
  | .mpeLine u1 u2 => Sys2Proof.Machine.execMpeLine u1 u2 s
  | .idleBursts p => Sys2Proof.Machine.execIdleBursts p s
  | .hsBurst p sync => Sys2Proof.Machine.execHsBurst p sync s
  | .deskewSequence p initial => Sys2Proof.Machine.execDeskewSequence p initial s
  | .packetHeader p vc dt word ecc => Sys2Proof.Machine.execPacketHeader p vc dt word ecc s
  | .frameStartPacket p => Sys2Proof.Machine.execFrameStartPacket p s
  | .frameEndPacket p => Sys2Proof.Machine.execFrameEndPacket p s
  | .frameTimeout n => Sys2Proof.Machine.execFrameTimeout n s
  | .imageLinePacket p payload crcOk => Sys2Proof.Machine.execImageLinePacket p payload crcOk s
  | .embeddedDataPacket p payload => Sys2Proof.Machine.execEmbeddedDataPacket p payload s
  | .embeddedStampWrite n => Sys2Proof.Machine.execEmbeddedStampWrite n s
  | .i3cWrite p addr wlen => Sys2Proof.Machine.execI3cWrite p addr wlen s
  | .i3cRead p addr rlen => Sys2Proof.Machine.execI3cRead p addr rlen s
  | .i3cWriteThenRead p addr wlen rlen => Sys2Proof.Machine.execI3cWriteThenRead p addr wlen rlen s
  | .i3cCcc p ccc addr wlen rlen direct => Sys2Proof.Machine.execI3cCcc p ccc addr wlen rlen direct s
  | .i3cCommandDone p code bytes rx => Sys2Proof.Machine.execI3cCommandDone p code bytes rx s
  | .ibi p addr payload => Sys2Proof.Machine.execIbi p addr payload s
  | .triggerPulseStart p => Sys2Proof.Machine.execTriggerPulseStart p s
  | .triggerPulseEnd p => Sys2Proof.Machine.execTriggerPulseEnd p s
  | .rawFrontLine => Sys2Proof.Machine.execRawFrontLine s
  | .shadowWrite n off bs => Sys2Proof.Machine.execShadowWrite n off bs s
  | .latchCopyDone n => Sys2Proof.Machine.execLatchCopyDone n s
  | .pairSegmentSend n => Sys2Proof.Machine.execPairSegmentSend n s
  | .backEndLine n => Sys2Proof.Machine.execBackEndLine n s
  | .beTimeout n => Sys2Proof.Machine.execBeTimeout n s
  | .demosaicLine n => Sys2Proof.Machine.execDemosaicLine n s
  | .formatterLine n f => Sys2Proof.Machine.execFormatterLine n f s
  | .formatterHeader n f => Sys2Proof.Machine.execFormatterHeader n f s
  | .frameFinished n => Sys2Proof.Machine.execFrameFinished n s
  | .statsRecord n tap => Sys2Proof.Machine.execStatsRecord n tap s
  | .ledgerArm p e tag => Sys2Proof.Machine.execLedgerArm p e tag s
  | .ledgerDisarm p e tag => Sys2Proof.Machine.execLedgerDisarm p e tag s
  | .ledgerIssue p e => Sys2Proof.Machine.execLedgerIssue p e s
  | .ledgerTransferStop p code => Sys2Proof.Machine.execLedgerTransferStop p code s
  | .pdmSample slow v => Sys2Proof.Machine.execPdmSample slow v s
  | .tdmFrameSync t v => Sys2Proof.Machine.execTdmFrameSync t v s
  | .audioBlockWrite g first lost => Sys2Proof.Machine.execAudioBlockWrite g first lost s
  | .queueTailWrite p q v => Sys2Proof.Machine.execQueueTailWrite p q v s
  | .qctrlWrite p q v => Sys2Proof.Machine.execQctrlWrite p q v s
  | .descriptorComplete p q bs eop bad => Sys2Proof.Machine.execDescriptorComplete p q bs eop bad s
  | .usbVbusChange valid => Sys2Proof.Machine.execUsbVbusChange valid s
  | .usbBusReset => Sys2Proof.Machine.execUsbBusReset s
  | .usbSof => Sys2Proof.Machine.execUsbSof s
  | .ethFrameReceive e f fcsBad => Sys2Proof.Machine.execEthFrameReceive e f fcsBad s
  | .ptpTick => Sys2Proof.Machine.execPtpTick s
  | .ptpStep v => Sys2Proof.Machine.execPtpStep v s
  | .ptpCapture v => Sys2Proof.Machine.execPtpCapture v s
  | .ptpPps => Sys2Proof.Machine.execPtpPps s
  | .canFrameReceive f => Sys2Proof.Machine.execCanFrameReceive f s
  | .canArbitration won => Sys2Proof.Machine.execCanArbitration won s
  | .canBusOff tec => Sys2Proof.Machine.execCanBusOff tec s
  | .canBusRecovery => Sys2Proof.Machine.execCanBusRecovery s
  | .uartDataRead arrived => Sys2Proof.Machine.execUartDataRead arrived s
  | .gpioEdge idx level => Sys2Proof.Machine.execGpioEdge idx level s
  | .apcCacheUncorrectable a => Sys2Proof.Machine.execApcCacheUncorrectable a s
  | .plicClaim c => Sys2Proof.Machine.execPlicClaim c s
  | .regionEntryWrite r k v fromMgc whole => Sys2Proof.Machine.execRegionEntryWrite r k v fromMgc whole s
  | .dramAccess g a n write bs p err => Sys2Proof.Machine.execDramAccess g a n write bs p err s
  | .unmappedAccess g a write whole => Sys2Proof.Machine.execUnmappedAccess g a write whole s
  | .refresh c => Sys2Proof.Machine.execRefresh c s
  | .retrainDue c => Sys2Proof.Machine.execRetrainDue c s
  | .retrainChannelDone ok ns k => Sys2Proof.Machine.execRetrainChannelDone ok ns k s
  | .frequencyStep idx => Sys2Proof.Machine.execFrequencyStep idx s
  | .clockStop n => Sys2Proof.Machine.execClockStop n s
  | .clockRestart n => Sys2Proof.Machine.execClockRestart n s
  | .avsUpdate n slack => Sys2Proof.Machine.execAvsUpdate n slack s
  | .avsRecovery n => Sys2Proof.Machine.execAvsRecovery n s
  | .droopStretch n slack => Sys2Proof.Machine.execDroopStretch n slack s
  | .monitorRead k ok mv count code => Sys2Proof.Machine.execMonitorRead k ok mv count code s
  | .bellowsWindow => Sys2Proof.Machine.execBellowsWindow s
  | .thermalSample ts => Sys2Proof.Machine.execThermalSample ts s
  | .breathBoundary => Sys2Proof.Machine.execBreathBoundary s
  | .syncReferenceEvent icn => Sys2Proof.Machine.execSyncReferenceEvent icn s
  | .registerWrite a k v => Sys2Proof.Machine.execRegisterWrite a k v s
  | .ethLinkChange e link => Sys2Proof.Machine.execEthLinkChange e link s
  | .usbLinkSpeedChange v => Sys2Proof.Machine.execUsbLinkSpeedChange v s
  | .canErrorStateChange passive => Sys2Proof.Machine.execCanErrorStateChange passive s
  | .mdioDone e => Sys2Proof.Machine.execMdioDone e s

end Sys2Proof.Machine
end

