-- ==== Sys2Proof/Machine/Step.lean ====
section
/-! DEFINITION. One step of the block: the command at the front of the queue, or on an empty queue one cycle of the 25 MHz reference. -/

namespace Sys2Proof.Machine

open Sys2Proof

/-- Time passes by one reference cycle of 40 ns (R447, R470; log 3): mtime and the present breath advance, unless a reset holds them. -/
def idleTick (d : Dev) : Dev :=
  if d.ctl.porstLow then d
  else
    let d := { d with clk := { d.clk with ns := d.clk.ns + 40 } }
    if d.ctl.heldMgc then d else { d with breath := { d.breath with ns := d.breath.ns + 40 } }

/-- One step (log 1): the front command on the state with the queue's rest; with no command waiting, time passes. -/
def step (s : State) : Host.Outcome State Fault Refusal :=
  match s.pending with
  | [] => .next (onDev s idleTick)
  | c :: rest => exec c { s with pending := rest }

/-- The state with the command that a word spells put at the front of its queue; unchanged where the word spells none. -/
def State.withFetchWord (s : State) (nbits w : Nat) : State :=
  match decodeTableWord nbits w with
  | some c => { s with pending := c :: s.pending }
  | none => s

end Sys2Proof.Machine
end

