-- ==== Sys2Proof/Safety.lean ====
section
/-! DEFINITION. The words in which the claims speak: when a block is awake, what it means that a command ran, and the order of fuses that only blow. -/

namespace Sys2Proof.Machine

open Sys2Proof

/-- No reset and no thermal trip holds the blocks outside the management controller's island (R483, R542, R546 to R548). -/
abbrev Awake (s : State) : Prop := s.dev.ctl.held = false
/-- No reset holds the management controller's island (R546 to R548); a thermal trip leaves it at work (R483). -/
abbrev MgcAwake (s : State) : Prop := s.dev.ctl.heldMgc = false

/-- The device d is what a reset leaves of device e: every block at its reset state but the fused marks of the arrays, the straps' entries and the clock; the boot media's store copies stay (R546, R547). -/
structure FreshOf (e d : Dev) : Prop where
  od : d.od.sets = [] ∧ d.od.doms = []
  counts : ∀ i sub, sub < 256 → (i, sub) ∉ [(0x6000, 2), (0x1300, 2), (0x1300, 3), (0x1010, 3)] → cnt d i sub = 0
  memory : d.mem = {} ∧ d.dmc = {}
  compute : d.cp = {} ∧ d.ctrs = [] ∧ d.se = {} ∧ d.mpe = {}
  cores : ∀ n, { coreOf d n with arrays := [] } = {}
  image : d.cams = [] ∧ d.ics = [] ∧ d.ipl = {}
  rest : d.afe = {} ∧ d.ports = {} ∧ d.mgc = {} ∧ d.power = {} ∧ d.tu = {} ∧ d.breath = {} ∧ d.regs = [] ∧ d.once = []
  apc : { d.apc with mtimeOff := 0 } = {}
  boot : d.boot = { mode := d.boot.mode, recovery := d.boot.mode == 3 }
  stores : d.store0 = e.store0 ∧ d.store1 = e.store1

/-- State t is what a warm reset with this cause leaves of s: mtime, UPTIME_MS and the straps stay, RESET_CAUSE says the cause, and a fuse programming that was cut off has blown the fuses of the mask (R522, R547). -/
structure WarmOf (s t : State) (cause : Nat) (mask : BitVec 64) : Prop where
  pending : t.pending = s.pending
  otp : t.otp = cutFuses s mask
  fresh : FreshOf s.dev t.dev
  clock : t.dev.clk = s.dev.clk ∧ t.dev.apc.mtimeOff = s.dev.apc.mtimeOff
  cause : cnt t.dev 0x1010 3 = cause
  straps : t.dev.boot.mode = s.dev.boot.mode ∧ cnt t.dev 0x1300 2 = cnt s.dev 0x1300 2

/-- The device, and the instruction, just after the instruction at position i of core n has issued and before its own effect: waits marked, operands read, lengths latched, ranges recorded, the round-robin moved (R126, R139, R175, R242). -/
abbrev issuedDev (d : Dev) (n i : Nat) (o : Op) : Dev := (issueCommon (beforeIssue d n) n i o).1
abbrev issuedOp (d : Dev) (n i : Nat) (o : Op) : Op := (issueCommon (beforeIssue d n) n i o).2

/-- The instruction at position i of core n is the one that its sequencer takes next (R140, R279). -/
structure Taken (d : Dev) (n i : Nat) (o : Op) : Prop where
  running : (coreOf d n).stopped = false
  enabled : (coreOf d n).disabled = false
  chosen : chosenOp (beforeIssue d n) n = some (i, o)

/-- It is taken, and nothing it fetched was poisoned or hollow: issue reaches the instruction's own effect (R236, R506). -/
structure Issues (d : Dev) (n i : Nat) (o : Op) : Prop extends Taken d n i o where
  clean : (issuedOp d n i o).poisoned = false
  whole : (walksWindow o = true ∧ rGroup o.word = 0) ∨ namesHollow (coreOf (issuedDev d n i o) n) (issuedOp d n i o) = false

/-- The CP takes a command of work context w at once: none waits before it, the entry is cached, and its completion has a slot (R266, R271, R278). -/
structure CpTakes (d : Dev) (w : Nat) : Prop where
  queue : d.cp.cmds = []
  cached : (wcOf d w).cached = true
  slot : freeSlots (wcOf d w) ≠ 0

/-- A key slot after a programming: its hashes and uses stay, and a REVOKED fuse once blown stays blown (R519, R520). -/
def SlotLe (a b : KeySlot) : Prop := a.edHash = b.edHash ∧ a.mldsaHash = b.mldsaHash ∧ a.use = b.use ∧ (a.revoked = true → b.revoked = true)

/-- Fuses only blow: the identity, the device secret and the repair fuses stay, no rollback fuse and no REVOKED fuse is ever unblown (R519 to R523). -/
structure OtpLe (a b : Otp) : Prop where
  grade : a.grade = b.grade
  siliconRev : a.siliconRev = b.siliconRev
  serial : a.serial = b.serial
  secret : a.secret = b.secret
  fusedOff : a.fusedOff = b.fusedOff
  repair : a.repair = b.repair
  rollback : a.rollback &&& b.rollback = a.rollback
  slots : ∀ k, SlotLe (keySlot a k) (keySlot b k)

/-- The commands that a low PORST_N does not stop: the pins' own edges and the test access port's reset (R546 to R549). -/
def pinCommand : Instr → Bool
  | .porstNFall _ => true
  | .porstNRise _ _ _ => true
  | .sysrstNAssert _ _ => true
  | .sysrstNRise => true
  | .tapReset => true
  | _ => false

/-- Commands that only move control state, counters, queues and reports, and so store nothing to memory. -/
def keepsMemory : Instr → Bool
  | .tapReset => true
  | .tapInstruction _ => true
  | .tuKnownAnswerTests _ => true
  | .trainingComplete _ _ _ _ _ => true
  | .ac0Release => true
  | .canJoin => true
  | .selfTestStart => true
  | .verifyLoader => true
  | .verify => true
  | .extend => true
  | .releaseBootPhase => true
  | .fuseProgramDone => true
  | .attestSigned => true
  | .debugTokenTested => true
  | .mailboxPost _ => true
  | .canRequestFrame _ => true
  | .segTimeout => true
  | .heartbeat => true
  | .canEventFrame => true
  | .storeComplete _ => true
  | .ctxBaseWrite _ => true
  | .evtCtrlWrite _ => true
  | .evtHeadWrite _ => true
  | .groupChangeover _ _ _ => true
  | .rampDownStart _ _ => true
  | .rampDownStep _ _ => true
  | .rampUpStep _ _ => true
  | .dutyWindow _ _ => true
  | .windowDrainTimeout _ _ => true
  | .channelDescriptorWrite _ _ _ _ => true
  | .channelActive _ => true
  | .channelCancelDone _ => true
  | .loadTurnGrant _ => true
  | .hsBurst _ _ => true
  | .idleBursts _ => true
  | .deskewSequence _ _ => true
  | .packetHeader _ _ _ _ _ => true
  | .imageLinePacket _ _ _ => true
  | .i3cWrite _ _ _ => true
  | .i3cRead _ _ _ => true
  | .i3cWriteThenRead _ _ _ _ => true
  | .i3cCcc _ _ _ _ _ _ => true
  | .i3cCommandDone _ _ _ _ => true
  | .ibi _ _ _ => true
  | .triggerPulseStart _ => true
  | .triggerPulseEnd _ => true
  | .shadowWrite _ _ _ => true
  | .latchCopyDone _ => true
  | .ledgerArm _ _ _ => true
  | .ledgerDisarm _ _ _ => true
  | .ledgerIssue _ _ => true
  | .ledgerTransferStop _ _ => true
  | .pdmSample _ _ => true
  | .tdmFrameSync _ _ => true
  | .usbSof => true
  | .ethFrameReceive _ _ _ => true
  | .mdioDone _ => true
  | .ptpTick => true
  | .ptpStep _ => true
  | .ptpCapture _ => true
  | .ptpPps => true
  | .canFrameReceive _ => true
  | .canBusOff _ => true
  | .canBusRecovery => true
  | .canErrorStateChange _ => true
  | .uartDataRead _ => true
  | .gpioEdge _ _ => true
  | .apcCacheUncorrectable _ => true
  | .plicClaim _ => true
  | .regionEntryWrite _ _ _ _ _ => true
  | .unmappedAccess _ _ _ _ => true
  | .refresh _ => true
  | .retrainDue _ => true
  | .retrainChannelDone _ _ _ => true
  | .frequencyStep _ => true
  | .clockStop _ => true
  | .clockRestart _ => true
  | .avsUpdate _ _ => true
  | .avsRecovery _ => true
  | .droopStretch _ _ => true
  | .monitorRead _ _ _ _ _ => true
  | .bellowsWindow => true
  | .thermalSample _ => true
  | .syncReferenceEvent _ => true
  | _ => false

/-- Commands of the arrays that read core memory, and there may meet an error, but store nothing. -/
def onlyReads : Instr → Bool
  | .issueCycle _ _ _ => true
  | .wregFill _ _ _ _ _ _ => true
  | _ => false

/-- The request came over CAN FD. -/
def overCan : OdReq → Bool
  | .can _ => true
  | .mailbox _ => false

/-- The device once the MGC has served a request over the transport it came by, the node ID then in force following NODE_ID (R300, R317). -/
def servedBy (o : Otp) (d : Dev) (r : OdReq) : Dev :=
  renumber (match r with
    | .can bs => canServe o d bs
    | .mailbox n => mailboxServe o d n) (overCan r)

end Sys2Proof.Machine
end

