-- ==== Sys2Proof/Certificates/Slice0/Obligations.lean ====
section
/-! DEFINITION. The statements about the whole model that the provers are to prove. A part of a statement that joins several is a def under Sys2Proof.Claim; the statement is their conjunction. -/

open Sys2Proof Sys2Proof.Machine

/-! ### The block as a whole -/

/-- The first command that waits is the one a step carries out, on the state with the rest of the queue. -/
def Obligations.StepRunsTheFrontCommand : Prop :=
  ∀ (c : Instr) (rest : List Instr) (s : State), s.pending = c :: rest → step s = exec c { s with pending := rest }

/-- With no command waiting the block idles for one period of the 25 MHz reference, the model's choice (log 3): mtime advances by 40 ns unless PORST_N is low, and so does the breath in progress unless a reset holds the management controller's island. -/
def Obligations.IdleStepPassesTime : Prop :=
  ∀ s : State, s.pending = [] →
    (MgcAwake s → step s = .next (onDev s fun d =>
      { d with clk := { d.clk with ns := d.clk.ns + 40 }, breath := { d.breath with ns := d.breath.ns + 40 } }))
    ∧ (s.dev.ctl.porstLow = false → s.dev.ctl.heldMgc = true → step s = .next (onDev s fun d => { d with clk := { d.clk with ns := d.clk.ns + 40 } }))
    ∧ (s.dev.ctl.porstLow = true → step s = .next s)

/-- What the spec states for reset: no work context is enabled and none cached, EVT_HEAD and EVT_TAIL are 1, CTX_BASE is 0, EVT_CTRL is 0, no region is enabled, every function is Stopped, DEVICE_STATE is Booting, BOOT_STAGE is 0, no TU operation has run, mtime is 0 and the breath is number 0; every OD entry reads its default; and every byte of memory reads 0, the model's choice (log 4). -/
def Obligations.ResetState : Prop :=
  State.reset.pending = []
  ∧ (∀ w, (wcOf State.reset.dev w).state = 0#4 ∧ (wcOf State.reset.dev w).cached = false)
  ∧ State.reset.dev.cp.evtHead = 1#24 ∧ State.reset.dev.cp.evtTail = 1#24 ∧ State.reset.dev.cp.ctxBase = 0#40 ∧ State.reset.dev.cp.evtCtrl = 0#64
  ∧ (∀ r, region State.reset.dev r = 0#256)
  ∧ (∀ f < 34, actual State.reset.dev f = 0)
  ∧ deviceState State.reset.dev = 0 ∧ bootStage State.reset.dev = 0 ∧ tuStatus State.reset.dev = 0#64
  ∧ State.reset.dev.clk.ns = 0 ∧ State.reset.dev.breath.number = 0
  ∧ (∀ i sub, setting State.reset.dev i sub = odDefault (odKey i sub))
  ∧ (∀ a, peek State.reset.dev.mem a = 0#8)

/-- Every command answers a next state, in every state and for all its operands, and leaves the queue of the commands behind it: none faults and none is refused. -/
def Obligations.EveryCommandRuns : Prop :=
  ∀ (c : Instr) (s : State), ∃ t, exec c s = .next t ∧ t.pending = s.pending

/-- Fuses only blow: whatever a step does, the identity and repair fuses stay as they were, and no rollback fuse and no REVOKED fuse is unblown (R519 to R523). -/
def Obligations.FusesOnlyBlow : Prop :=
  ∀ (o : Otp) (s t : State), OtpLe o s.otp → step s = .next t → OtpLe o t.otp

/-- Fuses only blow: the order holds at reset. -/
def Obligations.FusesOnlyBlowAtReset : Prop := OtpLe State.reset.otp State.reset.otp

/-- With PORST_N low nothing but the pins and the test access port's reset acts: every other command leaves the whole state as it is (R546, R549). -/
def Obligations.LowPorstStopsEverything : Prop :=
  ∀ (c : Instr) (s : State), s.dev.ctl.porstLow = true → pinCommand c = false → exec c s = .next s

/-- Commands that only move control state store nothing: whatever the state, no byte of DRAM, SB or core memory and no poison bit changes; and those of the arrays that read core memory change no byte, whatever error the read meets. -/
def Obligations.CommandsKeepMemory : Prop :=
  ∀ (c : Instr) (s t : State), exec c s = .next t →
    (keepsMemory c = true → t.dev.mem = s.dev.mem)
    ∧ (onlyReads c = true → ∀ a, peek t.dev.mem a = peek s.dev.mem a)

/-! ### Fuses, images and the TU -/

/-- An image passes the header tests exactly when it meets every one of them: its magic and version, a TYPE the request takes, a programmed and unrevoked key slot with the right use, an SVN not below the rollback counter, keys that hash to the slot's, and both signatures (Table 17.4, tests 1 to 7). -/
def Sys2Proof.Claim.PassedHeaderMeetsEveryTest : Prop :=
  ∀ (o : Otp) (want : Nat → Bool) (at' : Nat) (h : List Byte), headerTests o want at' h = none ↔
    bfield h 0 4 = 0x4C51494D ∧ bfield h 4 2 = 1 ∧ want (bfield h 6 1) = true
    ∧ bfield h 7 1 < 4 ∧ programmed (keySlot o (bfield h 7 1)) = true ∧ (keySlot o (bfield h 7 1)).revoked = false
    ∧ bit (keySlot o (bfield h 7 1)).use (useBit (bfield h 6 1)) = true
    ∧ rollbackCount o ≤ bfield h 8 4
    ∧ Config.sha512 (bslice h 0x100 32) = (keySlot o (bfield h 7 1)).edHash
    ∧ Config.sha512 (bslice h 0x120 1952) = (keySlot o (bfield h 7 1)).mldsaHash
    ∧ Config.ed25519 (bslice h 0x100 32) (bslice h 0 256) (bslice h 0x8C0 64) = true
    ∧ Config.mldsa65 (bslice h 0x120 1952) (bslice h 0 256) (bslice h 0x900 3309) = true
    ∧ loadOk (bfield h 6 1) (bfield h 0x10 4) (bfield h 0x18 8) at' = true

/-- A rollback advance to a value from the present count up to 64 leaves exactly that many rollback fuses blown, and no fuse is unblown (R521). -/
def Sys2Proof.Claim.RollbackReachesItsValue : Prop :=
  ∀ (o : Otp) (v : Nat), rollbackCount o ≤ v → v ≤ 64 →
    rollbackCount (fuseDone o (.advance v)) = v ∧ o.rollback &&& (fuseDone o (.advance v)).rollback = o.rollback

/-! ### Resets, the test access port and boot -/

/-- A reset of any kind returns every block to its reset state, with what each keeps. PORST_N low holds the device and resets the test access port; its rise samples the straps and starts mtime at 0; SYSRST_N, the watchdog and software reset keep the clock and note their RESET_CAUSE 1, 2 and 3; a programming that a reset cuts off has blown the fuses of the mask and no others (R522, R546, R547). -/
def Sys2Proof.Claim.ResetsReturnTheDevice : Prop :=
  ∀ (s : State),
    (∀ mask, ∃ t, exec (.porstNFall mask) s = .next t ∧ t.pending = s.pending ∧ t.otp = cutFuses s mask ∧ FreshOf s.dev t.dev
      ∧ t.dev.clk = {} ∧ t.dev.ctl = { porstLow := true, sysrstLow := s.dev.ctl.sysrstLow, testMode := s.dev.ctl.testMode, tap := .idcode })
    ∧ (s.dev.ctl.porstLow = true → ∀ mode node test, ∃ t, exec (.porstNRise mode node test) s = .next t ∧ t.pending = s.pending ∧ t.otp = s.otp
      ∧ FreshOf s.dev t.dev ∧ t.dev.clk.ns = 0 ∧ t.dev.boot.mode = mode.val ∧ cnt t.dev 0x6000 2 = mode.val ∧ cnt t.dev 0x1300 2 = node.toNat
      ∧ cnt t.dev 0x1300 3 = node.toNat ∧ t.dev.ctl = { sysrstLow := s.dev.ctl.sysrstLow, testMode := test, tap := .idcode })
    ∧ (Awake s → ∀ ns mask, 1000 ≤ ns.toNat → ∃ t, exec (.sysrstNAssert ns mask) s = .next t ∧ WarmOf s t 1 mask ∧ t.dev.ctl.sysrstLow = true)
    ∧ (Awake s → ∀ mask, ∃ t, exec (.watchdogReset mask) s = .next t ∧ WarmOf s t 2 mask ∧ t.dev.ctl.sysrstLow = false)
    ∧ (Awake s → ∀ mask, ∃ t, exec (.softwareReset mask) s = .next t ∧ WarmOf s t 3 mask ∧ t.dev.ctl.sysrstLow = false)
    ∧ exec .sysrstNRise s = .next { s with dev := { s.dev with ctl := { s.dev.ctl with sysrstLow := false } } }

/-- After PORST_N falls the arrays that the fuses turn off are disabled with cause 1, no other array is, and the active node ID is that of the straps (R55, R502). -/
def Sys2Proof.Claim.ResetMarksFusedArrays : Prop :=
  ∀ (s t : State) (mask : BitVec 64), exec (.porstNFall mask) s = .next t →
    (∀ n < 16, ∀ a < 4, (arr (coreOf t.dev n) a).cause = b2n (bit (fusedMask s.otp) (4 * n + a)))
    ∧ cnt t.dev 0x1300 3 = cnt s.dev 0x1300 2

/-- Where resets overlap: SYSRST_N pulses under 100 ns do nothing; SYSRST_N low while PORST_N is low is only remembered; after a thermal trip SYSRST_N, the watchdog and software reset are ignored (R547, R548). -/
def Sys2Proof.Claim.OverlappingResetsResolve : Prop :=
  ∀ (s : State) (ns : BitVec 32) (mask : BitVec 64),
    (ns.toNat < 100 → exec (.sysrstNAssert ns mask) s = .next s)
    ∧ (1000 ≤ ns.toNat → s.dev.ctl.porstLow = true →
        exec (.sysrstNAssert ns mask) s = .next { s with dev := { s.dev with ctl := { s.dev.ctl with sysrstLow := true } } })
    ∧ (s.dev.ctl.tripped = true → s.dev.ctl.porstLow = false →
        exec (.sysrstNAssert ns mask) s = .next s ∧ exec (.watchdogReset mask) s = .next s ∧ exec (.softwareReset mask) s = .next s)

/-- The test access port: reset selects IDCODE; an instruction that is not public reads as BYPASS unless an accepted debug token opened its scope and TESTMODE is low; with PORST_N low the port stays in reset (R536, R549). -/
def Sys2Proof.Claim.TapSelectsPublicInstructions : Prop :=
  ∀ (s : State),
    exec .tapReset s = .next (onDev s fun d => { d with ctl := { d.ctl with tap := .idcode } })
    ∧ (s.dev.ctl.porstLow = false → ∀ i : TapOp, (∀ k, i ≠ .debug k) →
        exec (.tapInstruction i) s = .next (onDev s fun d => { d with ctl := { d.ctl with tap := i } }))
    ∧ (s.dev.ctl.porstLow = false → ∀ k : Fin 4,
        exec (.tapInstruction (.debug k)) s = .next (onDev s fun d => { d with ctl := { d.ctl with
          tap := if (cnt d 0x6030 4).testBit k.val ∧ d.ctl.testMode = false then .debug k else .bypass } }))
    ∧ (s.dev.ctl.porstLow = true → ∀ i, exec (.tapInstruction i) s = .next s)

/-- The boot ROM's part: the TU's own tests, run once; a directory is read once per medium of the search order, its backup when MAGIC or CRC is wrong, and gives STORE_BASE; the candidate container that passes is measured and ends the search of its TYPE; one that fails moves the search on, and the last one leads to UART recovery, where containers come over the UART (R514 to R516, R518, R525). -/
def Obligations.BootRomStepsRun : Prop :=
  ∀ (s : State),
    (MgcAwake s → s.dev.boot.kat = none → ∀ ok,
      exec (.tuKnownAnswerTests ok) s = .next (onDev s fun d => { d with
        boot := { d.boot with kat := some ok, failed := d.boot.failed || !ok }
        dmc := if ok = true ∧ d.boot.training = some true then { d.dmc with keyLoaded := 0xFF#8, keys := (List.range 8).map fun i => drawKey (d.freeNo + i) } else d.dmc
        freeNo := if ok = true ∧ d.boot.training = some true then d.freeNo + 8 else d.freeNo }))
    ∧ (MgcAwake s → s.dev.boot.kat.isSome = true → ∀ ok, exec (.tuKnownAnswerTests ok) s = .next s)
    ∧ (Awake s → s.dev.boot.kat = some true → ∀ (m : Fin 2) main backup, m.val ∈ mediaOrder s.dev.boot.mode → dirOf s.dev.boot m.val = none →
      ∃ es, es = (match parseDir main with | some e => some e | none => parseDir backup)
        ∧ exec (.bootDirectoryRead m main backup) s = .next (onDev s fun d =>
          let d := { d with boot := { d.boot with dirs := sset (fun _ => none) d.boot.dirs m.val (some es) } }
          match (es.getD []).find? (·.ty == 0x10) with
          | some e => if cnt d 0x1400 5 = 0 then setCnt d 0x1400 5 e.offset else d
          | none => d))
    ∧ (Awake s → s.dev.boot.kat = some true → s.dev.boot.recovery = false → s.dev.boot.mgc = false → s.dev.boot.passed2 = false →
      ∀ bs (bad : Fin 3) m c e k,
        k = (if s.dev.boot.passed1 then s.dev.boot.tried2 else s.dev.boot.tried1) →
        (candidates s.dev.boot (bootType s.dev.boot))[k]? = some (m, c, e) →
        match bootTest s.otp s.dev (bs.take e.length) bad.val with
        | (d, none) => exec (.bootImageVerify bs bad) s = .next { s with dev := bootPass d m (bs.take e.length) }
        | (d, some why) => ∃ t, exec (.bootImageVerify bs bad) s = .next t
            ∧ t.otp = s.otp ∧ t.dev.cp = (imageRefused d (bs.take e.length) c m why).cp ∧ t.dev.tu = (imageRefused d (bs.take e.length) c m why).tu
            ∧ t.dev.boot.tried1 = (if s.dev.boot.passed1 then s.dev.boot.tried1 else k + 1)
            ∧ t.dev.boot.tried2 = (if s.dev.boot.passed1 then k + 1 else s.dev.boot.tried2)
            ∧ (t.dev.boot.recovery = true ↔ (candidates s.dev.boot (bootType s.dev.boot)).length ≤ k + 1 ∧ allRead s.dev.boot = true))
    ∧ (Awake s → s.dev.boot.kat = some true → s.dev.boot.recovery = true → s.dev.boot.mgc = false → s.dev.boot.passed2 = false →
      ∀ bs (bad : Fin 3),
        match bootTest s.otp s.dev bs bad.val with
        | (d, none) => exec (.uartRecoveryContainer bs bad) s = .next { s with dev := bootPass d 2 bs }
        | (d, some why) => exec (.uartRecoveryContainer bs bad) s = .next { s with dev := imageRefused d bs 0 2 why })

/-- The boot chain from training to Ready: LPDDR5 training reports DRAM_SIZE, DATA_RATE, PACKAGES and RANKS and, with the TU's tests passed, the eight key slots are loaded with fresh keys; the MGC starts with its version and BOOT_STAGE 1; AC0 is released with BOOT_STAGE 2; the MGC joins the CAN FD bus; the store is restored once; the self-test starts after both the restore and RELEASE (R525 to R530). -/
def Sys2Proof.Claim.BootChainRuns : Prop :=
  ∀ (s : State),
    (Awake s → s.dev.boot.training = none → ∀ size rate packages ranks,
      exec (.trainingComplete false size rate packages ranks) s = .next (onDev s fun d => { d with boot := { d.boot with training := some false, failed := true } })
      ∧ exec (.trainingComplete true size rate packages ranks) s = .next (onDev s fun d =>
          setCnt (setCnt (setCnt (setCnt { d with
            boot := { d.boot with training := some true, failed := d.boot.failed }
            dmc := if d.boot.kat = some true then
                { d.dmc with trained := true, keyLoaded := 0xFF#8, keys := (List.range 8).map fun i => drawKey (d.freeNo + i) }
              else { d.dmc with trained := true }
            freeNo := if d.boot.kat = some true then d.freeNo + 8 else d.freeNo }
            0x2400 1 size.toNat) 0x2400 2 rate.toNat) 0x2400 3 packages.toNat) 0x2400 4 ranks.toNat))
    ∧ (MgcAwake s → s.dev.boot.passed2 = true → s.dev.boot.mgc = false → ∀ v,
      exec (.mgcFirmwareStart v) s = .next (onDev s fun d =>
        (List.range 16).foldl writeLimits (setCnt (setCnt { d with boot := { d.boot with mgc := true } } 0x1000 7 v.toNat) 0x6000 4 1)))
    ∧ (Awake s → s.dev.boot.mgc = true → s.dev.boot.ac0 = false → s.dev.boot.training.isSome = true →
      exec .ac0Release s = .next (onDev s fun d =>
        setCnt { d with boot := { d.boot with ac0 := true }, apc := { d.apc with harts := d.apc.harts ||| 1#6 } } 0x6000 4 2))
    ∧ (MgcAwake s → s.dev.boot.mgc = true → exec .canJoin s = .next (onDev s fun d => { d with mgc := { d.mgc with joined := true } }))
    ∧ (MgcAwake s → s.dev.boot.mgc = true → s.dev.boot.restored = false → ∃ t, exec .storeRestore s = .next t
        ∧ t.pending = s.pending ∧ t.otp = s.otp ∧ (t.dev.store0 = s.dev.store0 ∧ t.dev.store1 = s.dev.store1)
        ∧ (copyValid s.otp s.dev.store0 = false → copyValid s.otp s.dev.store1 = false →
            t.dev = postEvent { s.dev with boot := { s.dev.boot with restored := true } } 0x0923 2 srcMgc 1))
    ∧ (Awake s → s.dev.boot.restored = true → bootStage s.dev = 4 → s.dev.boot.tested = false →
      exec .selfTestStart s = .next (onDev s fun d => { d with boot := { d.boot with testing := true } }))

/-- The end of the start-up self-test: with a core left and no other test failed the device is Ready, and BOOT_TIME is stored as the uptime, at most 65,535 ms; otherwise the device is Failed (R500, R507, R529). -/
def Sys2Proof.Claim.SelfTestDecidesReadyOrFailed : Prop :=
  ∀ (s : State) (fail : BitVec 64) (badMem : BitVec 16), Awake s → s.dev.boot.testing = true → s.dev.boot.tested = false →
    ∃ t, exec (.selfTestComplete fail badMem) s = .next t ∧ t.pending = s.pending ∧ t.otp = s.otp
      ∧ t.dev.boot = { s.dev.boot with testing := false, tested := true }
      ∧ cnt t.dev 0x2310 4 = (fail &&& ~~~(fusedMask s.otp)).toNat
      ∧ (coresEnabled t.dev = 0 ∨ s.dev.boot.failed = true → deviceState t.dev = 3)
      ∧ (coresEnabled t.dev ≠ 0 → s.dev.boot.failed = false → deviceState t.dev = 1 ∧ cnt t.dev 0x1010 5 = min 65535 (s.dev.clk.ns / 10 ^ 6))

/-- A start-up cause is a fuse before a failed test before stored health, and a core with two or more causes, or with a failed memory, is disabled (R502). -/
def Sys2Proof.Claim.StartUpMapDisables : Prop :=
  ∀ (s t : State) (fail : BitVec 64) (badMem : BitVec 16), Awake s → s.dev.boot.testing = true → s.dev.boot.tested = false →
    exec (.selfTestComplete fail badMem) s = .next t → ∀ n < 16,
      (∀ a < 4, (arr (coreOf t.dev n) a).cause =
        if bit (fusedMask s.otp) (4 * n + a) then 1 else if bit fail (4 * n + a) then 2
        else if (bfield (domOf s.dev 0x2310 1) (4 * n) 1).testBit a then 3 else 0)
      ∧ (bit badMem n = true → (coreOf t.dev n).disabled = true ∧ (coreOf t.dev n).disableCause = 2)
      ∧ (bit badMem n = false → 2 ≤ (List.range 4).countP (fun a => (arr (coreOf t.dev n) a).cause != 0) →
          (coreOf t.dev n).disabled = true ∧ (coreOf t.dev n).disableCause = 1)

/-! ### The trust unit -/

/-- A command of the TU starts its operation, 1 to 4, on the address in TU_ADDR; while one is in progress it is discarded. -/
def Sys2Proof.Claim.TuCommandsStart : Prop :=
  ∀ (s : State), Awake s →
    (s.dev.tu.op = none →
      exec .verifyLoader s = .next (onDev s fun d => { d with tu := { d.tu with op := some (1, d.tu.addr.toNat) } })
      ∧ exec .verify s = .next (onDev s fun d => { d with tu := { d.tu with op := some (2, d.tu.addr.toNat) } })
      ∧ exec .extend s = .next (onDev s fun d => { d with tu := { d.tu with op := some (3, d.tu.addr.toNat) } })
      ∧ exec .releaseBootPhase s = .next (onDev s fun d => { d with tu := { d.tu with op := some (4, d.tu.addr.toNat) } }))
    ∧ (s.dev.tu.op.isSome = true →
      exec .verifyLoader s = .next s ∧ exec .verify s = .next s ∧ exec .extend s = .next s ∧ exec .releaseBootPhase s = .next s)

/-- What an operation of the TU ends with. In every case none is in progress afterwards, DONE is set, the queue and the fuses stay, PASSED is set exactly when REASON is 0, and an operation that does not pass adds no measurement. VERIFY_LOADER after one was tried, or after RELEASE, ends with reason 12; otherwise its pass sets BOOT_STAGE 3 and puts its measurement at place 2 (log 201), and its refusal reports the failing test. A pass of VERIFY adds a measurement. EXTEND adds its record, ends with reason 10 when its read failed or returned poison, and with reason 11 when the table is full. RELEASE in BOOT_STAGE 3 sets BOOT_STAGE 4, and in any other ends with reason 12. With no operation in progress nothing happens. -/
def Sys2Proof.Claim.TuOperationsEnd : Prop :=
  ∀ (s : State), MgcAwake s →
    (s.dev.tu.op = none → exec .tuOperationDone s = .next s)
    ∧ ∀ op a, s.dev.tu.op = some (op, a) →
    (∃ t, exec .tuOperationDone s = .next t ∧ t.pending = s.pending ∧ t.otp = s.otp ∧ t.dev.tu.op = none ∧ t.dev.tu.done = true
      ∧ (t.dev.tu.passed = true ↔ t.dev.tu.reason = 0)
      ∧ t.dev.tu.meas.length ≤ s.dev.tu.meas.length + 1 ∧ (t.dev.tu.passed = false → t.dev.tu.meas = s.dev.tu.meas))
    ∧ (op = 1 → s.dev.tu.loaderTried = true ∨ 4 ≤ bootStage s.dev →
        exec .tuOperationDone s = .next (onDev s fun d => { d with tu := { d.tu with op := none, passed := false, reason := 12, done := true } }))
    ∧ (op = 1 → s.dev.tu.loaderTried = false → bootStage s.dev < 4 → ∃ t, exec .tuOperationDone s = .next t ∧ t.dev.tu.loaderTried = true
        ∧ ∀ e h r, tuTest s.otp { s.dev with tu := { s.dev.tu with loaderTried := true } } (· == 3) a = (e, h, r) →
          (r = none → bootStage t.dev = 3 ∧ t.dev.tu.passed = true ∧ t.dev.tu.meas = s.dev.tu.meas.take 2 ++ measure h :: s.dev.tu.meas.drop 2)
          ∧ (∀ why, r = some why → bootStage t.dev = bootStage s.dev ∧ t.dev.tu.meas = s.dev.tu.meas ∧ t.dev.tu.reason = why))
    ∧ (op = 2 → ∃ t, exec .tuOperationDone s = .next t ∧ bootStage t.dev = bootStage s.dev
        ∧ ∀ e h r, tuTest s.otp s.dev (fun t => decide (0x80 ≤ t) && decide (t ≤ 0xFE)) a = (e, h, r) →
          (r = none → t.dev.tu.meas = s.dev.tu.meas ++ [measure h] ∧ t.dev.tu.passed = true)
          ∧ (∀ why, r = some why → t.dev.tu.meas = s.dev.tu.meas ∧ t.dev.tu.reason = why))
    ∧ (op = 3 → ∃ t, exec .tuOperationDone s = .next t ∧ bootStage t.dev = bootStage s.dev
        ∧ ∀ e bs bad, tuRead s.dev a 72 = (e, bs, bad) →
          (bad = true → t.dev.tu.reason = 10 ∧ t.dev.tu.meas = s.dev.tu.meas)
          ∧ (bad = false → 12 ≤ s.dev.tu.meas.length → t.dev.tu.reason = 11 ∧ t.dev.tu.meas = s.dev.tu.meas)
          ∧ (bad = false → s.dev.tu.meas.length < 12 → t.dev.tu.passed = true ∧ t.dev.tu.meas =
              s.dev.tu.meas ++ [{ ty := bfield bs 0 1, slot := 0xFF, svn := bfield bs 4 4, digest := bslice bs 8 64 }]))
    ∧ (op = 4 → bootStage s.dev = 3 →
        exec .tuOperationDone s = .next (onDev s fun d =>
          { setCnt d 0x6000 4 4 with tu := { d.tu with op := none, passed := true, reason := 0, done := true } }))
    ∧ (op = 4 → bootStage s.dev ≠ 3 →
        exec .tuOperationDone s = .next (onDev s fun d => { d with tu := { d.tu with op := none, passed := false, reason := 12, done := true } }))

/-- Every reset returns the device to its reset state with what each keeps, fused arrays are marked, overlapping resets resolve as R547 and R548 say, and the test access port selects its public instructions (R522, R536, R546 to R549). -/
def Obligations.ResetsReturnTheDevice : Prop :=
  Claim.ResetsReturnTheDevice ∧ Claim.ResetMarksFusedArrays ∧ Claim.OverlappingResetsResolve ∧ Claim.TapSelectsPublicInstructions

/-- The boot chain from training to Ready or Failed, with the start-up map of arrays and cores (R500, R502, R525 to R530). -/
def Obligations.BootChainRuns : Prop :=
  Claim.BootChainRuns ∧ Claim.SelfTestDecidesReadyOrFailed ∧ Claim.StartUpMapDisables

/-- TU operations start only while none runs, and end with their result (R527, R528). -/
def Obligations.TuOperationsRun : Prop :=
  Claim.TuCommandsStart ∧ Claim.TuOperationsEnd

/-! ### Fuses, attestation and debug tokens -/

/-- A fuse programming that completes blows its fuses, posts its event with the TU as source, and leaves no programming in progress; a reset in the middle has blown, of the rollback fuses, exactly those of the mask that were to be blown (R520 to R522). -/
def Sys2Proof.Claim.FuseProgrammingCompletes : Prop :=
  ∀ (s : State),
    (MgcAwake s → ∀ k, s.dev.tu.fuse = some (.revoke k) →
      exec .fuseProgramDone s = .next { s with
        otp := { s.otp with slots := supd (fun _ => {}) s.otp.slots k fun x => { x with revoked := true } }
        dev := postEvent { s.dev with tu := { s.dev.tu with fuse := none } } 0x1102 2 srcTu (k % 4) })
    ∧ (MgcAwake s → ∀ v, s.dev.tu.fuse = some (.advance v) →
      exec .fuseProgramDone s = .next { s with
        otp := { s.otp with rollback := thermo s.otp v }
        dev := postEvent { s.dev with tu := { s.dev.tu with fuse := none } } 0x1103 2 srcTu
          (rollbackCount s.otp + rollbackCount { s.otp with rollback := thermo s.otp v } * 256) })
    ∧ (∀ v mask, s.dev.tu.fuse = some (.advance v) → ∃ t, exec (.porstNFall mask) s = .next t
        ∧ t.otp = { s.otp with rollback := s.otp.rollback ||| (thermo s.otp v &&& mask) })

/-- A rollback programming that a reset cuts off leaves a count between the old one and the one it was to reach (R522). -/
def Sys2Proof.Claim.CutProgrammingEndsBetween : Prop :=
  ∀ (o : Otp) (v : Nat) (mask : BitVec 64), rollbackCount o ≤ v → v ≤ 64 →
    rollbackCount o ≤ rollbackCount (fuseCut o mask (.advance v)) ∧ rollbackCount (fuseCut o mask (.advance v)) ≤ v

/-- A report that has been asked for is signed: the entry holds the body and both signatures of the identity over it, and its state is 2; with none asked for nothing changes. -/
def Sys2Proof.Claim.ReportIsSigned : Prop :=
  ∀ (s : State), MgcAwake s →
    (cnt s.dev 0x6021 2 = 1 → exec .attestSigned s = .next (onDev s fun d =>
      setCnt (setDom d 0x6021 3 (reportBody s.otp d
        ++ fit 64 (Config.edSign (deriveKey s.otp "id-ed25519") (reportBody s.otp d))
        ++ fit 3309 (Config.mldsaSign (deriveKey s.otp "id-mldsa65") (reportBody s.otp d)))) 0x6021 2 2))
    ∧ (cnt s.dev 0x6021 2 ≠ 1 → exec .attestSigned s = .next s)

/-- A report's body holds 1,088 bytes and begins with its magic, the count of measurements stands in bytes 6 and 7, and a signed report holds 4,461 bytes. -/
def Sys2Proof.Claim.ReportHasItsLength : Prop :=
  ∀ (o : Otp) (d : Dev), (reportBody o d).length = 1088
    ∧ (reportBody o d).take 4 = leBytes 4 0x4C514154
    ∧ bslice (reportBody o d) 6 2 = leBytes 2 d.tu.meas.length
    ∧ (reportBody o d ++ identitySign o (reportBody o d)).length = 4461

/-- The oldest waiting token is tested and leaves the queue: a pass opens its scopes and keeps the count of failures; a failure counts and locks the port out at the eighth; both draw a fresh nonce; after the lock-out a token is discarded unread; with none waiting nothing happens. -/
def Sys2Proof.Claim.DebugTokensAreTested : Prop :=
  ∀ (s : State), MgcAwake s →
    (s.dev.tu.tokens = [] → exec .debugTokenTested s = .next s)
    ∧ ∀ (tok : List Byte) (rest : List (List Byte)), s.dev.tu.tokens = tok :: rest →
    (cnt s.dev 0x6030 3 = 2 → exec .debugTokenTested s = .next (onDev s fun d => { d with tu := { d.tu with tokens := rest } }))
    ∧ (cnt s.dev 0x6030 3 ≠ 2 → ∃ t, exec .debugTokenTested s = .next t
        ∧ t.otp = s.otp ∧ t.pending = s.pending ∧ t.dev.tu = { s.dev.tu with tokens := rest }
        ∧ domOf t.dev 0x6030 1 = (List.range 16).map (Config.trng s.dev.freeNo)
        ∧ (tokenFault s.otp s.dev tok = none → cnt t.dev 0x6030 3 = 1 ∧ cnt t.dev 0x6030 4 = cnt s.dev 0x6030 4 ||| bfield tok 7 1
            ∧ cnt t.dev 0x6030 5 = cnt s.dev 0x6030 5)
        ∧ (∀ c, tokenFault s.otp s.dev tok = some c → cnt t.dev 0x6030 4 = cnt s.dev 0x6030 4 ∧ cnt t.dev 0x6030 5 = cnt s.dev 0x6030 5 + 1
            ∧ cnt t.dev 0x6030 3 = (if 8 ≤ cnt s.dev 0x6030 5 + 1 then 2 else cnt s.dev 0x6030 3)))

/-- A debug token passes exactly with its magic and version, a scope of the four, this device's serial number, the nonce in force, the hash of its keys, a slot that may sign tokens and both signatures (R537, R538, Table 17.10). -/
def Sys2Proof.Claim.PassedTokenMeetsEveryTest : Prop :=
  ∀ (o : Otp) (d : Dev) (t : List Byte), tokenFault o d t = none ↔
    bfield t 0 4 = 0x4C514442 ∧ bfield t 4 2 = 1 ∧ bfield t 7 1 < 16 ∧ bfield t 8 8 = o.serial.toNat
    ∧ bslice t 0x10 16 = fit 16 (domOf d 0x6030 1) ∧ bslice t 0x20 64 = Config.sha512 (identityEd o ++ identityMldsa o)
    ∧ bfield t 6 1 < 4 ∧ programmed (keySlot o (bfield t 6 1)) = true ∧ (keySlot o (bfield t 6 1)).revoked = false
    ∧ bit (keySlot o (bfield t 6 1)).use 2 = true
    ∧ Config.sha512 (bslice t 0x80 32) = (keySlot o (bfield t 6 1)).edHash ∧ Config.sha512 (bslice t 0xA0 1952) = (keySlot o (bfield t 6 1)).mldsaHash
    ∧ Config.ed25519 (bslice t 0x80 32) (bslice t 0 128) (bslice t 0x840 64) = true
    ∧ Config.mldsa65 (bslice t 0xA0 1952) (bslice t 0 128) (bslice t 0x880 3309) = true

/-! ### The object dictionary and its transport -/

/-- A post of a mailbox slot: while the slot is Taken it is discarded and counted, else the slot becomes Taken and its request joins the queue (R314). -/
def Sys2Proof.Claim.MailboxPostQueues : Prop :=
  ∀ (s : State) (n : Fin 8), MgcAwake s →
    (mbState (mboxHeader s.dev n) = 2 → exec (.mailboxPost n) s = .next (onDev s fun d => bump d 0x1300 0x0A 4 1))
    ∧ (mbState (mboxHeader s.dev n) ≠ 2 → exec (.mailboxPost n) s = .next (onDev s fun d =>
        let e := mboxSet d n [(0, 4, 2)]
        { e with mgc := { e.mgc with odq := e.mgc.odq ++ [.mailbox n] } }))

/-- A CAN FD request frame: with the MGC on the bus and a node ID it joins the queue while fewer than 64 frames wait; beyond that a frame of 5 bytes or more is counted and answered with 0x0909, and a shorter one is counted as lost; without the bus or a node ID it has no effect. -/
def Sys2Proof.Claim.CanRequestsQueue : Prop :=
  ∀ (s : State) (bs : List Byte), MgcAwake s →
    (s.dev.mgc.joined = true → nodeId s.dev ≠ 0 → canFifo s.dev < 64 →
      exec (.canRequestFrame bs) s = .next (onDev s fun d => { d with mgc := { d.mgc with odq := d.mgc.odq ++ [.can bs] } }))
    ∧ (s.dev.mgc.joined = true → nodeId s.dev ≠ 0 → 64 ≤ canFifo s.dev → 5 ≤ bs.length → ∃ t, exec (.canRequestFrame bs) s = .next t
        ∧ t.dev.mgc.odq = s.dev.mgc.odq ∧ cnt t.dev 0x1300 7 = (cnt s.dev 0x1300 7 + 1) % 2 ^ 32
        ∧ (busOff s.dev = false → ∃ f, t.dev.mgc.canTx = s.dev.mgc.canTx ++ [f] ∧ f.id = 0x6C0 + nodeId s.dev
            ∧ (f.data.drop 8).take 2 = leBytes 2 0x0909))
    ∧ (s.dev.mgc.joined = true → nodeId s.dev ≠ 0 → 64 ≤ canFifo s.dev → bs.length < 5 → ∃ t, exec (.canRequestFrame bs) s = .next t
        ∧ t.dev.mgc.odq = s.dev.mgc.odq ∧ cnt t.dev 0x1300 8 = (cnt s.dev 0x1300 8 + 1) % 2 ^ 32 ∧ t.dev.mgc.canTx = s.dev.mgc.canTx)
    ∧ (s.dev.mgc.joined = false ∨ nodeId s.dev = 0 → exec (.canRequestFrame bs) s = .next s)

/-- Every request row serves the request at the front of the queue when it is of the row's kind: the request leaves the queue, is served over its own transport, and a node ID chosen by it applies after its answer (R299, R300, R305, R306, R315, R317 to R320, R325, R520, R521, R523, R534, R538). -/
def Obligations.FrontRequestIsServed : Prop :=
  ∀ (s : State) (r : OdReq) (rest : List OdReq), MgcAwake s → s.dev.mgc.odq = r :: rest →
    ∃ t, t = { s with dev := servedBy s.otp { s.dev with mgc := { s.dev.mgc with odq := rest } } r }
      ∧ (isRead (overCan r) (reqKind s.dev r) = true → exec .odRead s = .next t)
      ∧ ((reqKind s.dev r).1 = 2 → exec .odWrite s = .next t)
      ∧ ((reqKind s.dev r).1 = 3 → exec .odDescribe s = .next t)
      ∧ (overCan r = true → (reqKind s.dev r).1 = 4 → exec .writeSeg s = .next t)
      ∧ (overCan r = true → (reqKind s.dev r).1 = 5 → exec .readSeg s = .next t)
      ∧ (overCan r = true → (reqKind s.dev r).1 = 6 → exec .abandon s = .next t)
      ∧ (isRequested 2 (reqKind s.dev r) = true → exec .requestRunning s = .next t)
      ∧ (isRequested 0 (reqKind s.dev r) = true → exec .requestStopped s = .next t)
      ∧ (isWrite 0x1400 1 (reqKind s.dev r) = true → (reqKind s.dev r).2.2.2 = 1 → exec .store s = .next t)
      ∧ (isWrite 0x1400 1 (reqKind s.dev r) = true → (reqKind s.dev r).2.2.2 = 2 → exec .storeErase s = .next t)
      ∧ (isWrite 0x6001 3 (reqKind s.dev r) = true → exec .revoke s = .next t)
      ∧ (isWrite 0x6001 4 (reqKind s.dev r) = true → exec .rollbackAdvance s = .next t)
      ∧ (isWrite 0x6001 5 (reqKind s.dev r) = true → exec .fuseLock s = .next t)
      ∧ (isWrite 0x6021 1 (reqKind s.dev r) = true → exec .attestNonce s = .next t)
      ∧ (isWrite 0x6030 2 (reqKind s.dev r) = true → exec .debugToken s = .next t)

/-- What a write of an entry does once its checks have passed, for the writes that start something: REQUESTED Running validates and starts, REQUESTED Stopped stops, STORE_CMD takes the snapshot or starts an erase, REVOKE and ROLLBACK_ADVANCE start a programming, FUSE_LOCK locks, a nonce starts a report, a token waits for its test (R305, R306, R325, R520 to R523, R534, R538). -/
def Obligations.CheckedWritesTakeEffect : Prop :=
  ∀ (o : Otp) (d : Dev) (bs : List Byte),
    (∀ f < 34, checkAbort d false (0x1100 + f) 2 bs.length = none → leNat bs = 2 → actual d f = 0 → deviceState d ≠ 3 →
      startFault d f = none → ∃ e, odWrite o d false (0x1100 + f) 2 bs = (e, none) ∧ actual e f = 1 ∧ requested e f = 2
        ∧ cnt e (0x1100 + f) 4 = 0)
    ∧ (∀ f < 34, checkAbort d false (0x1100 + f) 2 bs.length = none → leNat bs = 2 → actual d f = 0 → deviceState d ≠ 3 →
      ∀ c i sub, startFault d f = some (c, i, sub) → ∃ e, odWrite o d false (0x1100 + f) 2 bs = (e, some (c, i, sub)) ∧ actual e f = 0
        ∧ requested e f = requested d f ∧ cnt e (0x1100 + f) 4 = c ∧ cnt e (0x1100 + f) 5 = i ∧ cnt e (0x1100 + f) 6 = sub)
    ∧ (∀ f < 34, f ≠ 0 → f ≠ 0x1D → checkAbort d false (0x1100 + f) 2 bs.length = none → leNat bs = 0 → actual d f = 2 ∨ actual d f = 4 →
      odWrite o d false (0x1100 + f) 2 bs = (setCnt (setSetting d (0x1100 + f) 2 0) (0x1100 + f) 3 3, none))
    ∧ (∀ f < 34, checkAbort d false (0x1100 + f) 2 bs.length = none → leNat bs = 0 → actual d f = 2 ∨ actual d f = 4 →
      ∃ e, odWrite o d false (0x1100 + f) 2 bs = (e, none) ∧ requested e f = 0
        ∧ actual e f = (if f = 0 ∧ anyInflight d = false then 0 else 3))
    ∧ (checkAbort d false 0x1400 1 bs.length = none → leNat bs = 1 →
      odWrite o d false 0x1400 1 bs = (setCnt { d with mgc := { d.mgc with storing := some (some (snapshot o d)) } } 0x1400 2 1, none))
    ∧ (checkAbort d false 0x1400 1 bs.length = none → leNat bs = 2 →
      odWrite o d false 0x1400 1 bs = (setCnt { d with mgc := { d.mgc with storing := some none } } 0x1400 2 1, none))
    ∧ (∀ v, checkAbort d false 0x6001 3 bs.length = none → leNat bs = v → revokeBad o d v = false →
      odWrite o d false 0x6001 3 bs = ({ d with tu := { d.tu with fuse := some (.revoke v) } }, none))
    ∧ (∀ v, checkAbort d false 0x6001 3 bs.length = none → leNat bs = v → revokeBad o d v = true →
      odWrite o d false 0x6001 3 bs = (d, some (0x0906, 0x6001, 3)))
    ∧ (∀ v, checkAbort d false 0x6001 4 bs.length = none → leNat bs = v → advanceBad o d v = false →
      odWrite o d false 0x6001 4 bs = ({ d with tu := { d.tu with fuse := some (.advance v) } }, none))
    ∧ (checkAbort d false 0x6001 5 bs.length = none → leNat bs = 1 →
      odWrite o d false 0x6001 5 bs = ({ d with tu := { d.tu with fuseLock := true } }, none))
    ∧ (checkAbort d false 0x6021 1 bs.length = none →
      odWrite o d false 0x6021 1 bs = (setCnt { d with tu := { d.tu with nonce := bs } } 0x6021 2 1, none))
    ∧ (checkAbort d false 0x6030 2 bs.length = none → cnt d 0x6030 3 ≠ 2 →
      odWrite o d false 0x6030 2 bs = ({ d with tu := { d.tu with tokens := d.tu.tokens ++ [bs] } }, none))

/-- A write that a check refuses changes nothing and answers the check's code: 0x0901 for an entry that does not exist, 0x0910 for a trust entry over CAN FD, 0x0902 for one that is read only, 0x0903 for one whose function is not Stopped, 0x0905 for a number of the wrong length, 0x0906 for a number out of its row's range. -/
def Sys2Proof.Claim.RefusedWritesChangeNothing : Prop :=
  ∀ (o : Otp) (d : Dev) (can : Bool) (i sub : Nat) (bs : List Byte),
    (odRow i sub = none → topSub i = none → odWrite o d can i sub bs = (d, some (0x0901, i, sub)))
    ∧ (∀ r, odRow i sub = some r → 0x6000 ≤ i → i < 0x6100 → odWrite o d true i sub bs = (d, some (0x0910, i, sub)))
    ∧ (∀ r, odRow i sub = some r → r.acc = .const ∨ r.acc = .ro → odWrite o d false i sub bs = (d, some (0x0902, i, sub)))
    ∧ (∀ r, odRow i sub = some r → r.acc = .rws → i ≠ 0x5001 → i ≠ 0x5002 → actual d (odOwner i) ≠ 0 →
        odWrite o d false i sub bs = (d, some (0x0903, i, sub)))
    ∧ (∀ r, odRow i sub = some r → r.acc = .rw → i < 0x6000 → odSize r.ty ≠ 0 → bs.length ≠ odSize r.ty →
        odWrite o d can i sub bs = (d, some (0x0905, i, sub)))
    ∧ (∀ r, odRow i sub = some r → r.acc = .rw → i < 0x6000 → odSize r.ty ≠ 0 → bs.length = odSize r.ty → entryBusy d i sub = false →
        odInRange r (leNat bs) = false → odWrite o d can i sub bs = (d, some (0x0906, i, sub)))

/-- A read of a numeric entry that is RW gives the value written last, little-endian in the entry's size, once the device is past Booting (R295, R296, R298). -/
def Sys2Proof.Claim.ReadGivesTheWrittenValue : Prop :=
  ∀ (o : Otp) (d : Dev) (i sub v : Nat) (r : OdRow), odRow i sub = some r → r.acc = .rw → odSize r.ty ≠ 0 → liveNum o d i sub = none →
    deviceState d ≠ 0 → odRead o (setSetting d i sub v) i sub = .ok (leBytes (odSize r.ty) v)

/-- A whole READ over CAN FD is answered once, in one frame of the node's response identifier, with the value after its header; an entry of more than 56 B opens a segmented transfer and answers its first 56 B (R316, R319). -/
def Sys2Proof.Claim.CanReadAnswers : Prop :=
  ∀ (o : Otp) (d : Dev) (r : CanReq) (v : List Byte), odRead o d r.index r.sub = .ok v → d.mgc.joined = true → nodeId d ≠ 0 → busOff d = false →
    (v.length ≤ 56 → canRead o d r = { d with mgc := { d.mgc with canTx := d.mgc.canTx ++
      [{ kind := 1, id := 0x6C0 + nodeId d, data := padDlc (respHeader r.op r.txn r.index r.sub 0 v.length ++ v) }] } })
    ∧ (56 < v.length → d.mgc.seg = none → ∃ e, canRead o d r = e ∧ e.mgc.canTx = d.mgc.canTx ++
        [{ kind := 1, id := 0x6C0 + nodeId d, data := padDlc (respHeader r.op r.txn r.index r.sub 0 v.length ++ v.take 56) }]
        ∧ ∃ x, e.mgc.seg = some x ∧ x.write = false ∧ x.data = v ∧ x.total = v.length ∧ x.seg = 0)
    ∧ (56 < v.length → d.mgc.seg.isSome = true → canRead o d r = canFail d r (0x0909, r.index, r.sub))

/-- The n-th read segment carries bytes 60n − 4 to 60n + 55 of the value, so that the 56 B of the first answer and the segments in order give the whole value (R319). -/
def Sys2Proof.Claim.ReadSegmentsGiveTheValue : Prop :=
  ∀ (v : List Byte) (k : Nat), v.length ≤ 56 + 60 * k →
    v.take 56 ++ ((List.range k).flatMap fun j => (v.drop (60 * (j + 1) - 4)).take 60) = v

/-- The MGC's timed sends: an open transfer that times out ends with 0x090B and without one nothing happens; a heartbeat counts and, while the controller is not bus-off, is queued; the oldest copied event record is sent while the breath's limit lasts, and dropped and counted beyond it; before the MGC has joined the bus, or without a node ID, neither is sent. -/
def Sys2Proof.Claim.TimedSendsRun : Prop :=
  ∀ (s : State), MgcAwake s →
    (∀ x, s.dev.mgc.seg = some x → exec .segTimeout s = .next (onDev s fun d =>
      canFail { d with mgc := { d.mgc with seg := none } } { op := if x.write then 2 else 1, txn := x.txn.toNat, index := x.index, sub := x.sub } (0x090B, x.index, x.sub)))
    ∧ (s.dev.mgc.seg = none → exec .segTimeout s = .next s)
    ∧ (s.dev.mgc.joined = true → nodeId s.dev ≠ 0 → busOff s.dev = false → exec .heartbeat s = .next (onDev s fun d =>
      { d with mgc := { d.mgc with hb := d.mgc.hb + 1, canTx := d.mgc.canTx ++ [{ kind := 0, id := 0x7C0 + nodeId d, data := padDlc (leBytes 8
          (pack [(32, 32, d.breath.number), (24, 8, faultedCount d), (8, 8, d.mgc.hb), (0, 8, shownState d)])) }] } }))
    ∧ (s.dev.mgc.joined = true → nodeId s.dev ≠ 0 → busOff s.dev = true → exec .heartbeat s = .next (onDev s fun d =>
      { d with mgc := { d.mgc with hb := d.mgc.hb + 1 } }))
    ∧ (∀ r rest, s.dev.mgc.joined = true → nodeId s.dev ≠ 0 → s.dev.mgc.canEvq = r :: rest →
      (setting s.dev 0x1200 2 ≤ s.dev.mgc.evSent → exec .canEventFrame s = .next (onDev s fun d =>
        bump { d with mgc := { d.mgc with canEvq := rest } } 0x1200 4 4 1))
      ∧ (s.dev.mgc.evSent < setting s.dev 0x1200 2 → busOff s.dev = false → exec .canEventFrame s = .next (onDev s fun d =>
        { d with freeNo := d.freeNo + 1, mgc := { d.mgc with canEvq := rest, evSent := d.mgc.evSent + 1, canTx := d.mgc.canTx ++
          [{ kind := 2, id := 0x0C0 + nodeId d, data := padDlc (eventBytes r (Config.canEventSeq d.freeNo)) }] } })))
    ∧ (s.dev.mgc.joined = false ∨ nodeId s.dev = 0 ∨ s.dev.mgc.canEvq = [] → exec .canEventFrame s = .next s)
    ∧ (s.dev.mgc.joined = false ∨ nodeId s.dev = 0 → exec .heartbeat s = .next s)

/-! ### Functions and the store -/

/-- The transitions of a function that its block makes: Starting to Running with STARTS counted, but for image contexts and audio groups, which run from their own first event; a failed start back to Stopped with 0x090F noted; Stopping to Stopped once its chapter's condition is met; a stop time-out and a block's fault to Faulted, counted and, but for USB, which also loses its terminations, stated in full; in any other state the row does nothing. -/
def Sys2Proof.Claim.FunctionTransitions : Prop :=
  ∀ (s : State) (f : Fin 34), Awake s →
    (actual s.dev f = 1 → f.val < 0x05 ∨ f.val = 0x21 → exec (.functionRunning f) s = .next (onDev s fun d =>
        bump (setCnt d (0x1100 + f) 3 2) (0x1100 + f) 7 4 1))
    ∧ (actual s.dev f = 1 → 0x1D ≤ f.val → ∃ t, exec (.functionRunning f) s = .next t ∧ actual t.dev f = 2)
    ∧ (actual s.dev f ≠ 1 ∨ (0x05 ≤ f.val ∧ f.val ≤ 0x1C) → exec (.functionRunning f) s = .next s)
    ∧ (actual s.dev f = 1 → exec (.startFailed f) s = .next (onDev s fun d =>
        setRequested (setAbort (setActual d f 0) f 0x090F (0x1100 + f) 2) f 0))
    ∧ (actual s.dev f ≠ 1 → exec (.startFailed f) s = .next s)
    ∧ (actual s.dev f = 3 → mayStop s.dev f = true → f.val < 0x05 ∨ 0x1D ≤ f.val → exec (.functionStopped f) s = .next (onDev s fun d => setActual d f 0))
    ∧ (actual s.dev f = 3 → mayStop s.dev f = true → ∃ t, exec (.functionStopped f) s = .next t ∧ actual t.dev f = 0)
    ∧ (actual s.dev f ≠ 3 ∨ mayStop s.dev f = false → exec (.functionStopped f) s = .next s)
    ∧ (actual s.dev f = 3 → f.val ≠ 0x1D → exec (.stopTimeout f) s = .next (onDev s fun d =>
        postEvent (bump (setActual d f 4) (0x1100 + f) 8 4 1) 0x0921 2 srcCp f))
    ∧ (actual s.dev f = 3 → ∃ t, exec (.stopTimeout f) s = .next t ∧ actual t.dev f = 4)
    ∧ (actual s.dev f ≠ 3 → exec (.stopTimeout f) s = .next s)
    ∧ (∀ cause, actual s.dev f = 1 ∨ actual s.dev f = 2 → f.val ≠ 0x1D → exec (.functionFaulted f cause) s = .next (onDev s fun d =>
        postEvent (bump (setActual d f 4) (0x1100 + f) 8 4 1) 0x0920 2 srcCp (f + cause.toNat * 65536)))
    ∧ (∀ cause, actual s.dev f = 1 ∨ actual s.dev f = 2 → ∃ t, exec (.functionFaulted f cause) s = .next t ∧ actual t.dev f = 4)
    ∧ (∀ cause, actual s.dev f ≠ 1 → actual s.dev f ≠ 2 → exec (.functionFaulted f cause) s = .next s)

/-- ACTUAL stays within Table 9.4's states whatever a step does to it: from a state where every function's ACTUAL is at most 4, a write of REQUESTED leaves it at most 4, and only function f's ACTUAL changes. -/
def Sys2Proof.Claim.RequestsMoveOneFunction : Prop :=
  ∀ (d : Dev) (can : Bool) (f v g : Nat), f < 34 → g < 34 → v < 5 → actual d g ≤ 4 →
    actual (writeRequested d can f v).1 g ≤ 4 ∧ (g ≠ f → actual (writeRequested d can f v).1 g = actual d g)

/-- The end of a store: a good write replaces the copy of the lower generation by the snapshot under the next generation, whose tag verifies, and leaves the other copy as it was; a failed one spoils only the copy it wrote; an erase leaves no copy, and a failed erase changes only the state; with no store in progress nothing happens. -/
def Sys2Proof.Claim.StoreCompletes : Prop :=
  ∀ (s : State), MgcAwake s →
    (∀ recs, s.dev.mgc.storing = some (some recs) → ∃ t c, exec (.storeComplete true) s = .next t
      ∧ t.pending = s.pending ∧ t.otp = s.otp ∧ t.dev.mgc = { s.dev.mgc with storing := none }
      ∧ c.gen = (topGen s.otp s.dev + 1) % 2 ^ 32 ∧ c.recs = recs ∧ copyValid s.otp c = true
      ∧ (if writesCopy0 s.otp s.dev then t.dev.store0 = c ∧ t.dev.store1 = s.dev.store1 else t.dev.store1 = c ∧ t.dev.store0 = s.dev.store0)
      ∧ cnt t.dev 0x1400 2 = 2 ∧ cnt t.dev 0x1400 3 = (topGen s.otp s.dev + 1) % 2 ^ 32 ∧ cnt t.dev 0x1400 4 = (cnt s.dev 0x1400 4 + 1) % 2 ^ 32)
    ∧ (∀ recs, s.dev.mgc.storing = some (some recs) → ∃ t, exec (.storeComplete false) s = .next t
      ∧ t.dev.mgc = { s.dev.mgc with storing := none } ∧ cnt t.dev 0x1400 2 = 3
      ∧ (if writesCopy0 s.otp s.dev then t.dev.store0 = {} ∧ t.dev.store1 = s.dev.store1 else t.dev.store1 = {} ∧ t.dev.store0 = s.dev.store0))
    ∧ (s.dev.mgc.storing = some none → exec (.storeComplete true) s = .next (onDev s fun d =>
        setCnt { d with mgc := { d.mgc with storing := none }, store0 := {}, store1 := {} } 0x1400 2 2))
    ∧ (s.dev.mgc.storing = some none → exec (.storeComplete false) s = .next (onDev s fun d =>
        setCnt { d with mgc := { d.mgc with storing := none } } 0x1400 2 3))
    ∧ (∀ ok, s.dev.mgc.storing = none → exec (.storeComplete ok) s = .next s)

/-- A request to stop the CAN FD port function that arrives over CAN FD is refused with 0x090C; over the mailbox the same request is accepted (R309). -/
def Obligations.CanStopOverCanIsRefused : Prop :=
  ∀ (o : Otp) (d : Dev) (bs : List Byte), leNat bs = 0 →
    (checkAbort d true 0x1120 2 bs.length = none → odWrite o d true 0x1120 2 bs = (d, some (0x090C, 0x1120, 2)))
    ∧ (checkAbort d false 0x1120 2 bs.length = none → actual d 0x20 = 2 ∨ actual d 0x20 = 4 →
      ∃ e, odWrite o d false 0x1120 2 bs = (e, none) ∧ requested e 0x20 = 0 ∧ actual e 0x20 = 3)

/-- No container and no debug token passes unless it meets every test (Tables 17.4 and 17.10). -/
def Obligations.PassedImagesMeetEveryTest : Prop :=
  Claim.PassedHeaderMeetsEveryTest ∧ Claim.PassedTokenMeetsEveryTest

/-- A fuse programming blows what was written, or, cut off by a reset, a part of it and nothing else (R520 to R522). -/
def Obligations.FusesBlowAsWritten : Prop :=
  Claim.FuseProgrammingCompletes ∧ Claim.RollbackReachesItsValue ∧ Claim.CutProgrammingEndsBetween

/-- Attestation reports are signed and debug tokens tested (R533, R534, R538). -/
def Obligations.ReportsAndTokensRun : Prop :=
  Claim.ReportIsSigned ∧ Claim.ReportHasItsLength ∧ Claim.DebugTokensAreTested

/-- Requests join the queue from the mailbox and from CAN FD, and the timed sends run (R314, R320 to R323). -/
def Obligations.RequestsQueueAndSendsRun : Prop :=
  Claim.MailboxPostQueues ∧ Claim.CanRequestsQueue ∧ Claim.TimedSendsRun

/-- A refused write changes nothing; a read gives the value written last, over CAN FD whole or in segments (R295 to R299, R311, R316, R319). -/
def Obligations.ReadsAndRefusals : Prop :=
  Claim.RefusedWritesChangeNothing ∧ Claim.ReadGivesTheWrittenValue ∧ Claim.CanReadAnswers ∧ Claim.ReadSegmentsGiveTheValue

/-- Functions move through their states one at a time, and the store completes (R303 to R308, R325). -/
def Obligations.FunctionsRun : Prop :=
  Claim.FunctionTransitions ∧ Claim.RequestsMoveOneFunction ∧ Claim.StoreCompletes

/-! ### The command processor -/

/-- ENABLE, once its turn comes: the entry of a Disabled work context is read again and checked. A failing field leaves it Disabled and posts event 0x0825 with reason 2; a good entry becomes Enabled with its reset values, every TAIL 0, and a completion record of SEQ 1; an entry that the reading makes Faulted stays so, and one that it finds in another state, as one that is not Disabled, is refused with 0x0810. -/
def Sys2Proof.Claim.EnableWorkContext : Prop :=
  ∀ (s : State) (w : BitVec 12), Awake s → CpTakes s.dev w.toNat →
    (∀ d, (wcOf s.dev w.toNat).state = 0#4 →
      ensureCached (updWc { s.dev with cp := { s.dev.cp with cmds := [cmdWord 1 w.toNat 0] } } w.toNat fun c => { c with cached := false }) w.toNat = (d, true) →
      (∀ lo, (wcOf d w.toNat).state = 0#4 → entryFault (wcOf d w.toNat) = some lo → exec (.enable w) s = .next { s with
        dev := postEventWc { d with cp := { d.cp with cmds := [] } } 0x0825 1 srcCp w.toNat (2 + lo % 4096 * 16) })
      ∧ ((wcOf d w.toNat).state = 0#4 → entryFault (wcOf d w.toNat) = none → ∃ t, exec (.enable w) s = .next t ∧ t.pending = s.pending ∧ t.otp = s.otp
          ∧ (wcOf t.dev w.toNat).state = 1#4 ∧ (wcOf t.dev w.toNat).placement = 0#40 ∧ (wcOf t.dev w.toNat).inflight = 0
          ∧ (wcOf t.dev w.toNat).resident = 0#16 ∧ (wcOf t.dev w.toNat).retired = 0#32 ∧ (wcOf t.dev w.toNat).halted = 0#8
          ∧ (wcOf t.dev w.toNat).complHead = 1#32 ∧ (wcOf t.dev w.toNat).complTail = 2#32
          ∧ (wcOf t.dev w.toNat).epoch = (wcOf d w.toNat).epoch
          ∧ (∀ i < 8, ringOf t.dev (8 * w.toNat + i) = {})
          ∧ (∀ r, r / 8 ≠ w.toNat → ringOf t.dev r = ringOf d r) ∧ (∀ v, v ≠ w.toNat → wcOf t.dev v = wcOf d v))
      ∧ ((wcOf d w.toNat).state = 3#4 → freeSlots (wcOf d w.toNat) ≠ 0 → exec (.enable w) s = .next { s with dev := { d with cp := { d.cp with cmds := [] } } })
      ∧ ((wcOf d w.toNat).state ≠ 0#4 → (wcOf d w.toNat).state ≠ 3#4 → freeSlots (wcOf d w.toNat) ≠ 0 →
          exec (.enable w) s = .next { s with dev := commandDone { d with cp := { d.cp with cmds := [] } } w.toNat 1 2 0x0810 0 }))
    ∧ ((wcOf s.dev w.toNat).state ≠ 0#4 → exec (.enable w) s = .next (onDev s fun d => commandDone (touchWc d w.toNat) w.toNat 1 2 0x0810 0))

/-- DISABLE, CANCEL, SUBMIT, RELEASE and RESUME in the states that accept them: DISABLE writes its completion before the state becomes Disabled; CANCEL raises the epoch, makes the signals zero and takes every ring's head to its tail, and while Cancelling it is noted for a further completion; SUBMIT reads the placement, refuses a poisoned, malformed or inadmissible one by its status, and otherwise binds it; RELEASE waits for the stage rings and then frees the placement; RESUME clears the bits named. -/
def Sys2Proof.Claim.WorkContextCommands : Prop :=
  ∀ (s : State) (w : BitVec 12), Awake s → CpTakes s.dev w.toNat →
    ((wcOf s.dev w.toNat).state = 1#4 ∨ (wcOf s.dev w.toNat).state = 3#4 → (wcOf s.dev w.toNat).inflight = 0 → (wcOf s.dev w.toNat).placement = 0#40 →
      ∃ t, exec (.disable w) s = .next t ∧ t.pending = s.pending ∧ t.otp = s.otp ∧ (wcOf t.dev w.toNat).state = 0#4
        ∧ (wcOf t.dev w.toNat).complTail = (wcOf s.dev w.toNat).complTail + 1 ∧ (wcOf t.dev w.toNat).dirty = false
        ∧ (∀ v, v ≠ w.toNat → wcOf t.dev v = wcOf s.dev v) ∧ (∀ r, ringOf t.dev r = ringOf s.dev r))
    ∧ ((wcOf s.dev w.toNat).state = 1#4 → ∃ t, exec (.cancel w) s = .next t ∧ t.pending = s.pending ∧ t.otp = s.otp
        ∧ (wcOf t.dev w.toNat).state = 2#4 ∧ (wcOf t.dev w.toNat).epoch = (wcOf s.dev w.toNat).epoch + 1
        ∧ (∀ i, signalOf (wcOf t.dev w.toNat) i = 0#32) ∧ (wcOf t.dev w.toNat).complTail = (wcOf s.dev w.toNat).complTail
        ∧ (∀ i < 8, (ringOf t.dev (8 * w.toNat + i)).head = (ringOf s.dev (8 * w.toNat + i)).tail
            ∧ (ringOf t.dev (8 * w.toNat + i)).tail = (ringOf s.dev (8 * w.toNat + i)).tail ∧ (ringOf t.dev (8 * w.toNat + i)).ready = [])
        ∧ (∀ r, r / 8 ≠ w.toNat → ringOf t.dev r = ringOf s.dev r) ∧ (∀ v, v ≠ w.toNat → wcOf t.dev v = wcOf s.dev v))
    ∧ ((wcOf s.dev w.toNat).state = 2#4 → exec (.cancel w) s = .next (onDev s fun d =>
        updWc (touchWc d w.toNat) w.toNat fun c => { c with cancel := c.cancel.map fun y => { y with extra := y.extra + 1 } }))
    ∧ (∀ arg d h ss p, (wcOf s.dev w.toNat).state = 1#4 → (wcOf s.dev w.toNat).placement = 0#40 → (wcOf s.dev w.toNat).releasePending = false →
        readPlacement (touchWc s.dev w.toNat) arg.toNat = (d, h, ss, p) →
        (p = true → exec (.submit w arg) s = .next { s with dev := commandDone d w.toNat 4 1 0x0803 0 })
        ∧ (p = false → ∀ x, placementBad w.toNat (fld h 88 40) (fld h 64 8) (fld h 48 12) ss = some x →
            exec (.submit w arg) s = .next { s with dev := commandDone (bump d 0x2602 2 4 1) w.toNat 4 1 0x0502 x })
        ∧ (p = false → placementBad w.toNat (fld h 88 40) (fld h 64 8) (fld h 48 12) ss = none →
            ∃ t, exec (.submit w arg) s = .next t ∧ t.pending = s.pending ∧ t.otp = s.otp
              ∧ (wcOf t.dev w.toNat).complTail = (wcOf s.dev w.toNat).complTail + 1 ∧ (wcOf t.dev w.toNat).state = 1#4
              ∧ (((wcOf t.dev w.toNat).placement = arg ∧ (wcOf t.dev w.toNat).stages = ss)
                ∨ ((wcOf t.dev w.toNat).placement = 0#40 ∧ (wcOf t.dev w.toNat).stages = (wcOf s.dev w.toNat).stages
                  ∧ cnt t.dev 0x2602 2 = (cnt s.dev 0x2602 2 + 1) % 2 ^ 32))))
    ∧ ((wcOf s.dev w.toNat).state = 1#4 ∨ (wcOf s.dev w.toNat).state = 3#4 → (wcOf s.dev w.toNat).placement ≠ 0#40 →
        stageInflight s.dev w.toNat = false → stagePart s.dev w.toNat = false →
        ∃ t, exec (.release w) s = .next t ∧ t.pending = s.pending ∧ t.otp = s.otp ∧ (wcOf t.dev w.toNat).placement = 0#40
          ∧ (wcOf t.dev w.toNat).stages = [] ∧ (wcOf t.dev w.toNat).groups = [] ∧ (wcOf t.dev w.toNat).releasePending = false
          ∧ (∀ g ∈ (wcOf s.dev w.toNat).groups, (ctrOf t.dev g.2).state = 0) ∧ (wcOf t.dev w.toNat).complTail = (wcOf s.dev w.toNat).complTail + 1)
    ∧ ((wcOf s.dev w.toNat).state = 1#4 ∨ (wcOf s.dev w.toNat).state = 3#4 → (wcOf s.dev w.toNat).placement ≠ 0#40 →
        stageInflight s.dev w.toNat = true ∨ stagePart s.dev w.toNat = true →
        exec (.release w) s = .next (onDev s fun d => updWc (touchWc d w.toNat) w.toNat fun c => { c with releasePending := true }))
    ∧ (∀ mask, (wcOf s.dev w.toNat).state = 1#4 → exec (.resume w mask) s = .next (onDev s fun d =>
        commandDone (updWc (touchWc d w.toNat) w.toNat fun c => { c with halted := c.halted &&& ~~~mask, dirty := true }) w.toNat 6 2 0 0))

/-- A command given in a state that does not accept it changes nothing but reports it: event 0x0825 with reason 3 when Disabled, else a completion with 0x0810, or 0x0811 for a SUBMIT beside an admitted placement or a pending RELEASE. -/
def Sys2Proof.Claim.WrongStateIsReported : Prop :=
  ∀ (s : State) (w : BitVec 12) (arg : Addr) (mask : BitVec 8), Awake s → CpTakes s.dev w.toNat →
    let c := wcOf s.dev w.toNat
    let done (x : Instr) (op kind status : Nat) := exec x s = .next (onDev s fun d => commandDone (touchWc d w.toNat) w.toNat op kind status 0)
    (c.state = 0#4 → ∀ x ∈ [Instr.disable w, .cancel w, .submit w arg, .release w, .resume w mask],
      exec x s = .next (onDev s fun d => postEventWc (touchWc d w.toNat) 0x0825 1 srcCp w.toNat 3))
    ∧ (c.state ≠ 0#4 → (c.state ≠ 1#4 ∧ c.state ≠ 3#4) ∨ c.inflight ≠ 0 ∨ c.placement ≠ 0#40 → done (.disable w) 2 2 0x0810)
    ∧ (c.state ≠ 0#4 → c.state ≠ 1#4 → c.state ≠ 2#4 → done (.cancel w) 3 2 0x0810)
    ∧ (c.state ≠ 0#4 → c.state ≠ 1#4 → done (.submit w arg) 4 1 0x0810)
    ∧ (c.state = 1#4 → c.placement ≠ 0#40 ∨ c.releasePending = true → done (.submit w arg) 4 1 0x0811)
    ∧ (c.state ≠ 0#4 → (c.state ≠ 1#4 ∧ c.state ≠ 3#4) ∨ c.placement = 0#40 → done (.release w) 5 2 0x0810)
    ∧ (c.state ≠ 0#4 → c.state ≠ 1#4 → done (.resume w mask) 6 2 0x0810)

/-- A full command queue discards the command, counts it and posts event 0x0825 with reason 1 (R266). -/
def Sys2Proof.Claim.FullQueueDiscards : Prop :=
  ∀ (s : State) (w : BitVec 12) (arg : Addr) (mask : BitVec 8), Awake s → 64 ≤ s.dev.cp.cmds.length →
    ∀ c ∈ [Instr.enable w, .disable w, .cancel w, .submit w arg, .release w, .resume w mask],
      exec c s = .next (onDev s fun d => postEventWc (bump d 0x2602 6 4 1) 0x0825 1 srcCp w.toNat 1)

/-- A completion record takes the next SEQ, leaves the record at its slot of the completion ring (in SB memory that the CP may write), and raises the class's interrupt (R283, R450). -/
def Sys2Proof.Claim.CompletionRecordIsWritten : Prop :=
  ∀ (d : Dev) (w tag opcode epoch kind ring status detail flags pos k : Nat),
    let a := wComplBase (wcOf d w) + (wcOf d w).complTail.toNat % 2 ^ wComplLog2 (wcOf d w) * 32
    areaOf d a = .sb k → a % 32 = 0 → agentMay d agCp true (a / 64 * 64) = true →
      let e := writeCompletion d w tag opcode epoch kind ring status detail flags pos
      (wcOf e w).complTail = (wcOf d w).complTail + 1
      ∧ peeks e.mem a 32 = completionBytes (wcOf d w).complTail tag opcode epoch kind ring status detail flags pos d.breath.number d.breath.ns
      ∧ (∀ x, x < a ∨ a + 32 ≤ x → peek e.mem x = peek d.mem x)
      ∧ bit e.apc.pending (2 + wClass (wcOf d w)) = true

/-- A doorbell write: refused with reason 1 when it is not an aligned 8 B write, 2 when the work context is not Enabled or Cancelling or the ring is off, 3 when the TAIL goes back, 4 when it passes the ring's size; a refusal changes no ring; else the TAIL is taken, and one equal to the old has no effect (R273, R274). -/
def Sys2Proof.Claim.DoorbellWrites : Prop :=
  ∀ (s : State) (r : BitVec 15) (v : W64) (whole : Bool), Awake s → (wcOf s.dev (r.toNat / 8)).cached = true →
    let c := wcOf s.dev (r.toNat / 8)
    let x := ringOf s.dev r.toNat
    let tail : W32 := BitVec.ofNat 32 v.toNat
    let refused (why : Nat) := exec (.doorbellWrite r v whole) s = .next (onDev s fun d =>
      postEventWc (bump (touchWc d (r.toNat / 8)) 0x2602 3 4 1) 0x0820 1 srcCp (r.toNat / 8) (r.toNat + why * 65536 + tail.toNat * 2 ^ 32))
    (whole = false → refused 1)
    ∧ (whole = true → ¬((c.state = 1#4 ∨ c.state = 2#4) ∧ wRingEnable c (r.toNat % 8) = true) → refused 2)
    ∧ (whole = true → c.state = 1#4 ∨ c.state = 2#4 → wRingEnable c (r.toNat % 8) = true →
        ((tail - x.tail).toInt < 0 → refused 3)
        ∧ (0 ≤ (tail - x.tail).toInt → 2 ^ wRingLog2 c (r.toNat % 8) < (tail - x.head).toNat → refused 4)
        ∧ (0 ≤ (tail - x.tail).toInt → (tail - x.head).toNat ≤ 2 ^ wRingLog2 c (r.toNat % 8) →
            exec (.doorbellWrite r v whole) s = .next (onDev s fun d => updRing (touchWc d (r.toNat / 8)) r.toNat fun y =>
              { y with tail := tail, since := if y.tail = y.head then d.clk.ns else y.since })))

/-- Refused doorbells leave every ring as it was, and accepted ones every other ring (R274). -/
def Sys2Proof.Claim.DoorbellsTouchOneRing : Prop :=
  ∀ (s t : State) (r : BitVec 15) (v : W64) (whole : Bool) (q : Nat), (wcOf s.dev (r.toNat / 8)).cached = true →
    exec (.doorbellWrite r v whole) s = .next t →
    (q ≠ r.toNat → ringOf t.dev q = ringOf s.dev q) ∧ (ringOf t.dev r.toNat).head = (ringOf s.dev r.toNat).head
    ∧ (whole = false → ringOf t.dev r.toNat = ringOf s.dev r.toNat)
    ∧ ((ringOf t.dev r.toNat).tail = (ringOf s.dev r.toNat).tail ∨ (ringOf t.dev r.toNat).tail = BitVec.ofNat 32 v.toNat)

/-- A write of EVT_HEAD is accepted when its value, modulo 2^24, lies from the last head accepted up to EVT_TAIL; any other write leaves EVT_HEAD and counts in EVT_HEAD_REFUSED (R291). -/
def Obligations.EventHeadWrites : Prop :=
  ∀ (s : State) (v : W64), Awake s →
    let h : BitVec 24 := BitVec.ofNat 24 v.toNat
    ((h - s.dev.cp.evtHead).toNat ≤ (s.dev.cp.evtTail - s.dev.cp.evtHead).toNat →
      exec (.evtHeadWrite v) s = .next (onDev s fun d => { d with cp := { d.cp with evtHead := h } }))
    ∧ (h = s.dev.cp.evtHead → exec (.evtHeadWrite v) s = .next s)
    ∧ (¬(h - s.dev.cp.evtHead).toNat ≤ (s.dev.cp.evtTail - s.dev.cp.evtHead).toNat →
        exec (.evtHeadWrite v) s = .next (onDev s fun d => setCnt d 0x2602 7 ((cnt d 0x2602 7 + 1) % 2 ^ 32)))

/-- The CP's other registers: CTX_BASE takes bits [39:20] while every work context is Disabled and has no effect otherwise; EVT_CTRL keeps base and size while enabled, and enabling starts SEQ at 1; a completion head within the ring frees its slots, any other is reported by event 0x0821 (R266, R284, R289). -/
def Sys2Proof.Claim.CpRegisterWrites : Prop :=
  ∀ (s : State), Awake s →
    (∀ v, (s.dev.cp.wcs.any fun e => e.2.state != 0#4) = false →
      exec (.ctxBaseWrite v) s = .next (onDev s fun d => { d with cp := { d.cp with ctxBase := BitVec.ofNat 40 (fld v 20 20 * 2 ^ 20) } }))
    ∧ (∀ v, (s.dev.cp.wcs.any fun e => e.2.state != 0#4) = true → exec (.ctxBaseWrite v) s = .next s)
    ∧ (∀ v, bit s.dev.cp.evtCtrl 0 = false → ∃ t, exec (.evtCtrlWrite v) s = .next t ∧ fld t.dev.cp.evtCtrl 24 40 = fld v 24 40
        ∧ fld t.dev.cp.evtCtrl 16 5 = fld v 16 5 ∧ bit t.dev.cp.evtCtrl 0 = bit v 0
        ∧ (bit v 0 = true → t.dev.cp.evtTail = 1#24 ∧ t.dev.cp.evtHead = 1#24)
        ∧ t = { s with dev := { s.dev with cp := { s.dev.cp with evtCtrl := t.dev.cp.evtCtrl, evtTail := t.dev.cp.evtTail, evtHead := t.dev.cp.evtHead } } })
    ∧ (∀ v, bit s.dev.cp.evtCtrl 0 = true → fld s.dev.cp.evtCtrl 24 40 ≠ fld v 24 40 ∨ fld s.dev.cp.evtCtrl 16 5 ≠ fld v 16 5 →
        exec (.evtCtrlWrite v) s = .next s)
    ∧ (∀ v, bit s.dev.cp.evtCtrl 0 = true → fld s.dev.cp.evtCtrl 24 40 = fld v 24 40 → fld s.dev.cp.evtCtrl 16 5 = fld v 16 5 →
        ∃ t, exec (.evtCtrlWrite v) s = .next t ∧ fld t.dev.cp.evtCtrl 24 40 = fld v 24 40 ∧ fld t.dev.cp.evtCtrl 16 5 = fld v 16 5
          ∧ bit t.dev.cp.evtCtrl 0 = bit v 0 ∧ t.dev.cp.evtTail = s.dev.cp.evtTail ∧ t.dev.cp.evtHead = s.dev.cp.evtHead)
    ∧ (∀ w : BitVec 12, ∀ v : W64, (wcOf s.dev w.toNat).cached = true → s.dev.cp.cmds = [] → (wcOf s.dev w.toNat).releasePending = false →
        let h : W32 := BitVec.ofNat 32 v.toNat
        ((h - (wcOf s.dev w.toNat).complHead).toNat ≤ ((wcOf s.dev w.toNat).complTail - (wcOf s.dev w.toNat).complHead).toNat →
          exec (.completionHeadWrite w v) s = .next (onDev s fun d => updWc (touchWc d w.toNat) w.toNat fun c => { c with complHead := h, dirty := true }))
        ∧ (¬(h - (wcOf s.dev w.toNat).complHead).toNat ≤ ((wcOf s.dev w.toNat).complTail - (wcOf s.dev w.toNat).complHead).toNat →
          exec (.completionHeadWrite w v) s = .next (onDev s fun d => postEventWc (touchWc d w.toNat) 0x0821 1 srcCp w.toNat h.toNat)))

/-- The context cache: a fill of an entry that is not cached reads it as the CP and leaves it cached, in a full cache after an eviction, or waits and is counted when nothing can be evicted; a write-through leaves the entry clean and changes no other, and an entry with nothing to write is left alone. -/
def Sys2Proof.Claim.ContextCacheRuns : Prop :=
  ∀ (s : State) (w : BitVec 12), Awake s → s.dev.cp.cmds = [] →
    ((wcOf s.dev w.toNat).cached = false → cachedCount s.dev < 3072 → ∃ t, exec (.contextFill w) s = .next t ∧ t.pending = s.pending ∧ t.otp = s.otp
        ∧ (wcOf t.dev w.toNat).cached = true ∧ (∀ v, v ≠ w.toNat → wcOf t.dev v = wcOf s.dev v)
        ∧ cnt t.dev 0x2602 4 = (cnt s.dev 0x2602 4 + 1) % 2 ^ 32)
    ∧ ((wcOf s.dev w.toNat).cached = false → 3072 ≤ cachedCount s.dev → (evictChoice s.dev).isSome = true →
        ∃ t, exec (.contextFill w) s = .next t ∧ (wcOf t.dev w.toNat).cached = true)
    ∧ ((wcOf s.dev w.toNat).cached = false → 3072 ≤ cachedCount s.dev → evictChoice s.dev = none →
        exec (.contextFill w) s = .next (onDev s fun d => bump d 0x2602 5 4 1))
    ∧ ((wcOf s.dev w.toNat).cached = true → exec (.contextFill w) s = .next (onDev s fun d => touchWc d w.toNat))
    ∧ ((wcOf s.dev w.toNat).dirty = true → ∃ t, exec (.contextWriteThrough w) s = .next t ∧ t.pending = s.pending ∧ t.otp = s.otp
        ∧ wcOf t.dev w.toNat = { wcOf s.dev w.toNat with dirty := false } ∧ (∀ v, v ≠ w.toNat → wcOf t.dev v = wcOf s.dev v))
    ∧ ((wcOf s.dev w.toNat).dirty = false → exec (.contextWriteThrough w) s = .next s)

/-- The CP's engine: a fetch takes units from an enabled ring that is not halted, and changes no other ring; a dispatch takes the chosen ring's front unit, or as much of it as its tile counters let go, and moves RING_HEAD past what it took; a ring of class 2 or 3 whose record has waited past the threshold is reported once; the event ring takes the owed Events lost record first, then the oldest record; with nothing chosen, or nothing to write, nothing happens. -/
def Sys2Proof.Claim.CpEngineRuns : Prop :=
  ∀ (s : State), Awake s →
    (∀ (w : BitVec 12) (i : Fin 8), (wcOf s.dev w.toNat).cached = true → (wcOf s.dev w.toNat).state = 1#4 → wRingEnable (wcOf s.dev w.toNat) i = true →
      bit (wcOf s.dev w.toNat).halted i = false → submitPending s.dev w.toNat = false →
      exec (.recordFetch w i) s = .next (onDev s fun d => fetchUnits w.toNat i 16 16 (touchWc d w.toNat))
      ∧ ∃ t more, exec (.recordFetch w i) s = .next t ∧ (∀ r, r ≠ 8 * w.toNat + i.val → ringOf t.dev r = ringOf s.dev r)
        ∧ (ringOf t.dev (8 * w.toNat + i.val)).tail = (ringOf s.dev (8 * w.toNat + i.val)).tail
        ∧ (ringOf t.dev (8 * w.toNat + i.val)).ready = (ringOf s.dev (8 * w.toNat + i.val)).ready ++ more)
    ∧ (∀ (w : BitVec 12) (i : Fin 8), (wcOf s.dev w.toNat).cached = true →
        (wcOf s.dev w.toNat).state ≠ 1#4 ∨ wRingEnable (wcOf s.dev w.toNat) i = false ∨ bit (wcOf s.dev w.toNat).halted i = true →
        exec (.recordFetch w i) s = .next (onDev s fun d => touchWc d w.toNat))
    ∧ (∀ r ls rest cps e, chosenRing s.dev = some r → (ringOf s.dev r).ready = ls :: rest → (ringOf s.dev r).refused = none →
        nextCopies s.dev r ls = (cps, e) →
        ∃ t, exec .dispatch s = .next t ∧ t.pending = s.pending ∧ t.otp = s.otp
          ∧ (ringOf t.dev r).head = (ringOf s.dev r).head + BitVec.ofNat 32 (e - (ringOf s.dev r).part) ∧ (ringOf t.dev r).tail = (ringOf s.dev r).tail
          ∧ (ringOf t.dev r).ready = (if ls.length ≤ e then rest else ls :: rest) ∧ (ringOf t.dev r).part = (if ls.length ≤ e then 0 else e)
          ∧ (∀ q, q ≠ r → ringOf t.dev q = ringOf s.dev q)
          ∧ (wcOf t.dev (r / 8)).inflight = (wcOf s.dev (r / 8)).inflight + (e - (ringOf s.dev r).part))
    ∧ (chosenRing s.dev = none → exec .dispatch s = .next s)
    ∧ (∀ r : BitVec 15, 2 ≤ wClass (wcOf s.dev (r.toNat / 8)) → (ringOf s.dev r.toNat).tail ≠ (ringOf s.dev r.toNat).head → (ringOf s.dev r.toNat).starved = false →
        setting s.dev 0x2600 2 = 1 → setting s.dev 0x2600 1 * 1000 < s.dev.clk.ns - (ringOf s.dev r.toNat).since →
        exec (.ringStarved r) s = .next (onDev s fun d => postEventWc (updRing d r.toNat fun y => { y with starved := true }) 0x0823 1 srcCp (r.toNat / 8) r.toNat))
    ∧ (∀ r : BitVec 15, wClass (wcOf s.dev (r.toNat / 8)) < 2 ∨ (ringOf s.dev r.toNat).starved = true → exec (.ringStarved r) s = .next s)
    ∧ (bit s.dev.cp.evtCtrl 0 = true → (s.dev.cp.evtTail - s.dev.cp.evtHead).toNat < 2 ^ fld s.dev.cp.evtCtrl 16 5 →
        (s.dev.cp.lostSince ≠ 0 → exec .eventRingWrite s = .next (onDev s fun d =>
          ringWrite { d with cp := { d.cp with lostSince := 0 } } ⟨0x0822, 1, none, srcCp, d.cp.lostSince⟩))
        ∧ (∀ r rest, s.dev.cp.lostSince = 0 → s.dev.cp.port = r :: rest → exec .eventRingWrite s = .next (onDev s fun d =>
            ringWrite { d with cp := { d.cp with port := rest } } r))
        ∧ (s.dev.cp.lostSince = 0 → s.dev.cp.port = [] → exec .eventRingWrite s = .next s))
    ∧ (bit s.dev.cp.evtCtrl 0 = false ∨ 2 ^ fld s.dev.cp.evtCtrl 16 5 ≤ (s.dev.cp.evtTail - s.dev.cp.evtHead).toNat → exec .eventRingWrite s = .next s)

/-- At a dispatch decision the CP takes a ring that is ready, of the lowest-numbered class among the ready ones, and within the class the first one in ring ID order after the ring served last (R279). -/
def Sys2Proof.Claim.DispatchOrder : Prop :=
  ∀ (d : Dev) (r : Nat), chosenRing d = some r → r ∈ readyRings d ∧ unitReady d r = true
    ∧ (∀ q ∈ readyRings d, wClass (wcOf d (r / 8)) ≤ wClass (wcOf d (q / 8)))
    ∧ (∀ q ∈ readyRings d, q < 32768 → r < 32768 → wClass (wcOf d (q / 8)) = wClass (wcOf d (r / 8)) →
        (r + 32768 - (sget (fun _ => 32767) d.cp.rr (wClass (wcOf d (r / 8))) + 1)) % 32768 ≤ (q + 32768 - (sget (fun _ => 32767) d.cp.rr (wClass (wcOf d (r / 8))) + 1)) % 32768)

/-- The event port and ring: the port holds at most 64 records, a record more is lost and counted, and a record written to the ring takes the next SEQ and raises interrupt source 1 (R289, R290, R450). -/
def Sys2Proof.Claim.EventsAreKeptOrCounted : Prop :=
  ∀ (d : Dev) (r : EvtRec), d.ctl.tripped = false →
    (d.cp.port.length < 64 → (postRec d r).cp = { d.cp with port := d.cp.port ++ [r] })
    ∧ (64 ≤ d.cp.port.length → (postRec d r).cp.port = d.cp.port ∧ (postRec d r).cp.evtLost = min (d.cp.evtLost + 1) (2 ^ 32 - 1)
        ∧ (postRec d r).cp.wcs = d.cp.wcs ∧ (postRec d r).cp.rings = d.cp.rings)
    ∧ (postRec d r).mem = d.mem ∧ (postRec d r).cores = d.cores ∧ (postRec d r).od = d.od
    ∧ (ringWrite d r).cp.evtTail = d.cp.evtTail + 1 ∧ bit (ringWrite d r).apc.pending 1 = true

/-- Cancellation: a node that receives the epoch of a work context that is not Cancelling does nothing; of one that is, a core drops what is stale, the MPE revokes its windows and retires its records, a stream engine's channels of the work context enter cancelling with nothing left to send, and a hub's armed counters become done; when nothing is left in flight the cancel completes with the count of skipped records and the work context is Enabled again. -/
def Sys2Proof.Claim.CancellationRuns : Prop :=
  ∀ (s : State) (w : BitVec 12), Awake s →
    (∀ node : Fin 29, (wcOf s.dev w.toNat).state ≠ 2#4 → node.val ≠ 16 → exec (.epochReceive node w) s = .next s)
    ∧ (∀ node : Fin 29, (wcOf s.dev w.toNat).state ≠ 2#4 → node.val = 16 → exec (.epochReceive node w) s = .next (onDev s fun d => neuralCheck (mpeNote d)))
    ∧ (∀ node : Fin 29, (wcOf s.dev w.toNat).state = 2#4 → node.val < 16 →
        exec (.epochReceive node w) s = .next (onDev s fun d => coreEpoch d node w.toNat))
    ∧ (∀ node : Fin 29, (wcOf s.dev w.toNat).state = 2#4 → node.val = 16 →
        exec (.epochReceive node w) s = .next (onDev s fun d => neuralCheck (mpeNote (mpeEpoch d w.toNat))))
    ∧ (∀ node : Fin 29, (wcOf s.dev w.toNat).state = 2#4 → 17 ≤ node.val → node.val < 25 → ∃ t, exec (.epochReceive node w) s = .next t
        ∧ t.pending = s.pending ∧ t.otp = s.otp ∧ t.dev = { s.dev with se := t.dev.se, cores := t.dev.cores }
        ∧ ∀ k < 512, let c := chan s.dev k
            chan t.dev k = if k / 64 = node.val - 17 ∧ c.state ≠ 0 ∧ c.state ≠ 4 ∧ chWc c = w.toNat
              then { c with state := 4, frames := [], credit := [], held := 0#4 } else c)
    ∧ (∀ node : Fin 29, (wcOf s.dev w.toNat).state = 2#4 → 25 ≤ node.val → ∃ t, exec (.epochReceive node w) s = .next t
        ∧ t.pending = s.pending ∧ t.otp = s.otp ∧ t.dev = { s.dev with ctrs := t.dev.ctrs }
        ∧ ∀ k < 256, ctrOf t.dev k = if k / 64 = node.val - 25 ∧ ((ctrOf s.dev k).state = 1 ∨ (ctrOf s.dev k).state = 2) ∧ (ctrOf s.dev k).wc = w.toNat
            then { ctrOf s.dev k with state := 3 } else ctrOf s.dev k)
    ∧ (∀ x, (wcOf s.dev w.toNat).state = 2#4 → (wcOf s.dev w.toNat).cancel = some x → (wcOf s.dev w.toNat).inflight = 0 → countsClear s.dev w.toNat = true →
        s.dev.cp.cmds = [] → x.extra = 0 → 0 < freeSlots (wcOf s.dev w.toNat) → exec (.cancelComplete w) s = .next (onDev s fun d =>
          updWc (commandDone d w.toNat 3 2 0 (min x.skipped (2 ^ 32 - 1))) w.toNat fun c => { c with state := 1#4, cancel := none, dirty := true }))
    ∧ ((wcOf s.dev w.toNat).cancel = none ∨ (wcOf s.dev w.toNat).state ≠ 2#4 ∨ (wcOf s.dev w.toNat).inflight ≠ 0 ∨ countsClear s.dev w.toNat = false →
        exec (.cancelComplete w) s = .next s)

/-- The CP commands: what each does in its state, and what is reported in another (R266 to R272, R292). -/
def Obligations.WorkContextCommandsRun : Prop :=
  Claim.EnableWorkContext ∧ Claim.WorkContextCommands ∧ Claim.WrongStateIsReported ∧ Claim.FullQueueDiscards

/-- Completion records and event records reach their rings, or are counted (R282 to R290). -/
def Obligations.RecordsReachTheirRings : Prop :=
  Claim.CompletionRecordIsWritten ∧ Claim.EventsAreKeptOrCounted

/-- A doorbell write moves the tail of its own ring and no other state of the CP (R273 to R275). -/
def Obligations.DoorbellWrites : Prop :=
  Claim.DoorbellWrites ∧ Claim.DoorbellsTouchOneRing

/-- The CP at work: contexts are filled and written through, records fetched and dispatched in order, epochs received, and cancellations completed (R257, R258, R267 to R281, R292, R293). -/
def Obligations.CpEngineRuns : Prop :=
  Claim.ContextCacheRuns ∧ Claim.CpEngineRuns ∧ Claim.DispatchOrder ∧ Claim.CancellationRuns

/-! ### Instructions on the cores -/

/-- The sequencer takes an instruction only when it is not issued yet, every earlier instruction of its work context on the core has issued, none of those is a BARRIER still held, and the scoreboard and the phases allow it (R140, R142, R241, R251). -/
def Sys2Proof.Claim.IssueKeepsOrder : Prop :=
  ∀ (d : Dev) (n i : Nat) (o : Op), chosenOp d n = some (i, o) →
    (coreOf d n).ops[i]? = some o ∧ (coreOf d n).disabled = false ∧ o.issued = false
    ∧ (∀ j b, j < i → (coreOf d n).ops[j]? = some b → b.wc = o.wc → b.issued = true ∧ rOpcode b.word ≠ 0x21)
    ∧ scoreboardOk (coreOf d n) (opRanges o).1 (opRanges o).2 = true
    ∧ (isMatrix o = true → loadActive (coreOf d n) = false) ∧ (isMatrix o = false → isLoad o = true → matrixActive (coreOf d n) = false)

/-- A range read or written never meets a range that an issued instruction writes, and a range written never meets one that an issued instruction still reads (R140). -/
def Sys2Proof.Claim.ScoreboardKeepsApart : Prop :=
  ∀ (d : Dev) (n i : Nat) (o h : Op) (a b : Range), chosenOp d n = some (i, o) → h ∈ (coreOf d n).ops → h.issued = true →
    (a ∈ (opRanges o).1 → b ∈ h.dst → rangesMeet a b = false)
    ∧ (a ∈ (opRanges o).2 → b ∈ h.dst → rangesMeet a b = false)
    ∧ (a ∈ (opRanges o).2 → b ∈ h.src → h.released = false → rangesMeet a b = false)

/-- Matrix instructions in their own effect. Without a shared counter, MMUL and MTHIN run every work tile in ascending order, write the output and are complete, and MSTREAM, CONV and TCONV run what has landed; with one, an instruction only issues and waits for its tiles. An MSTREAM, CONV or TCONV that has begun and can go on goes on. MPCONV latches its lengths in the MPE's queue and stores nothing; where no record waits it does nothing (R169, R170, R179, R195, R208, R214). -/
def Obligations.MatrixInstructionsRun : Prop :=
  ∀ (s : State) (n : Fin 16), Awake s →
    (∀ i o, Issues s.dev n i o →
      let d := issuedDev s.dev n i o
      let p := issuedOp s.dev n i o
      let x := matOf d n p
      let r := runTiles d x (withPos (List.range (tileCount p.word x.geo x.dm x.dn))) {}
      let whole := finishOp (endOut (putMade r.1 n i p x.o (rDescO p.word) r.2) n p x.o (opExt p (rDescO p.word))) n i fun o => { o with seqWords := seqGranule x.o }
      (rOpcode o.word = 0x01 → rGroup o.word = 0 → exec (.mmul n) s = .next { s with dev := whole })
      ∧ (rOpcode o.word = 0x03 → rGroup o.word = 0 → exec (.mthin n) s = .next { s with dev := whole })
      ∧ (rOpcode o.word = 0x01 → rGroup o.word ≠ 0 → exec (.mmul n) s = .next { s with dev := d })
      ∧ (rOpcode o.word = 0x03 → rGroup o.word ≠ 0 → exec (.mthin n) s = .next { s with dev := d })
      ∧ (rOpcode o.word = 0x02 → streamPending s.dev n = none → exec (.mstream n) s = .next { s with dev := if rGroup o.word = 0 then streamAdvance d n i (x.lm + 2) else d })
      ∧ (rOpcode o.word = 0x08 → cnvPending s.dev n 0x08 = none → exec (.conv n) s = .next { s with dev := if rGroup o.word = 0 then cnvAdvance d n i false ((cnvOf d n p false).oh + 1) else d })
      ∧ (rOpcode o.word = 0x09 → cnvPending s.dev n 0x09 = none → exec (.tconv n) s = .next { s with dev := if rGroup o.word = 0 then cnvAdvance d n i true ((cnvOf d n p true).oh + 1) else d }))
    ∧ (∀ i o, streamPending s.dev n = some (i, o) → exec (.mstream n) s = .next (onDev s fun d => streamAdvance d n i ((matOf d n o).lm + 2)))
    ∧ (∀ i o, cnvPending s.dev n 0x08 = some (i, o) → exec (.conv n) s = .next (onDev s fun d => cnvAdvance d n i false ((cnvOf d n o false).oh + 1)))
    ∧ (∀ i o, cnvPending s.dev n 0x09 = some (i, o) → exec (.tconv n) s = .next (onDev s fun d => cnvAdvance d n i true ((cnvOf d n o true).oh + 1)))
    ∧ (((withPos s.dev.mpe.recs).find? fun x => !x.2.op.issued) = none → exec .mpconv s = .next s)
    ∧ (∀ j r, ((withPos s.dev.mpe.recs).find? fun x => !x.2.op.issued) = some (j, r) → ∃ t, exec .mpconv s = .next t ∧ t.pending = s.pending ∧ t.otp = s.otp
        ∧ t.dev.mpe.recs.length = s.dev.mpe.recs.length ∧ (∃ q, t.dev.mpe.recs[j]? = some q ∧ q.op.issued = true ∧ q.op.word = r.op.word)
        ∧ (∀ k, k ≠ j → t.dev.mpe.recs[k]? = s.dev.mpe.recs[k]?) ∧ t.dev.cores = s.dev.cores ∧ ∀ a, peek t.dev.mem a = peek s.dev.mem a)

/-- INT8 and UINT8 activations with INT4 or INT8 weights give the exact matrix product: on every array the accumulator of row m and channel ch is the sum of a × w over the K elements that pass, with no saturation, for every K up to 65,535, whatever rows or channels stand in the cells (R82, R85, R170, R172). -/
def Obligations.IntegerProductIsExact : Prop :=
  ∀ (d : Dev) (x : Mat) (held : List Nat) (ai m ch : Nat), matFa x = .int8 ∨ matFa x = .uint8 → matFw x = .int4 ∨ matFw x = .int8 → x.dk ≤ 65535 →
    (accumulate d x held ai m ch).bits.toInt
      = ((List.range (min x.dk (ceilDiv x.lk (kDepth x) * kDepth x))).map fun k => intVal (aVal d x m k) * intVal (wVal d x k ch)).sum
    ∧ (accumulate d x held ai m ch).sat = false

/-- Vector instructions in their own effect: each function of VEC and REDUCE, and QROW, runs on the operands of the instruction that issued, into its output (Table 5.7, R101, R164, R562, R563). -/
def Sys2Proof.Claim.VectorInstructionsRun : Prop :=
  ∀ (s : State) (n : Fin 16) (i : Nat) (o : Op), Awake s → Issues s.dev n i o →
    let d := issuedDev s.dev n i o
    let p := issuedOp s.dev n i o
    (rOpcode o.word = 0x10 → ∀ c ∈ [(0x00, Instr.vecAdd n), (0x01, .vecSubtract n), (0x02, .vecMultiply n), (0x03, .vecMaximum n), (0x04, .vecMinimum n),
        (0x05, .vecAddImm n), (0x06, .vecMultiplyByImm n), (0x10, .vecNegate n), (0x11, .vecAbsoluteValue n), (0x12, .vecReciprocalSquareRoot n),
        (0x13, .vecExponential n), (0x20, .vecSoftmax n), (0x21, .vecLayerNormalisation n), (0x22, .vecRmsNormalisation n),
        (0x40, .vecActivationTable n), (0x50, .vecCopyConvert n)],
        rFunc o.word = c.1 → exec c.2 s = .next { s with dev := runVec d i n p })
    ∧ (rOpcode o.word = 0x10 → rFunc o.word = 0x30 → exec (.vecTopK n) s = .next { s with dev := runTopK d i n p })
    ∧ (rOpcode o.word = 0x10 → rFunc o.word = 0x31 → exec (.vecSelect n) s = .next { s with dev := runSelect d i n p })
    ∧ (rOpcode o.word = 0x11 → ∀ c ∈ [(0x60, Instr.reduceSum n), (0x61, .reduceMaximum n), (0x62, .reduceMinimum n), (0x63, .reduceArgumentOfMaximum n)],
        rFunc o.word = c.1 → exec c.2 s = .next { s with dev := runReduce d i n p })
    ∧ (rOpcode o.word = 0x12 → exec (.qrow n) s = .next { s with dev := runQrow d i n p })

/-- The value of each output element of a VEC (Table 5.7, R72, R555, R559): the sum, difference, product, maximum or minimum of A's element and B's, broadcast; A's element with IMM; its negation, magnitude, reciprocal square root, exponential, or itself; each rounded once to FP32, where a subnormal is zero. The functions along AXIS and the activation table, whose formulas no rule gives, take the model's free functions of the elements (log 9). -/
def Sys2Proof.Claim.VectorElementValues : Prop :=
  ∀ (d : Dev) (w : Line) (a b : VSrc) (ix : List Nat),
    let x := vAt d a ix
    let y := vAt d b (bcast b.t.ext ix)
    let line := (List.range (a.ext.getD (rAxis w) 1)).map fun k => toF32 (vAt d a (ix.set (rAxis w) k))
    let at_ := ix.getD (rAxis w) 0
    (rFunc w = 0x00 → vecVal d w a b ix = r32 (vadd x y))
    ∧ (rFunc w = 0x01 → vecVal d w a b ix = r32 (vadd x (vneg y)))
    ∧ (rFunc w = 0x02 → vecVal d w a b ix = r32 (vmul x y))
    ∧ (rFunc w = 0x03 → x ≠ .nan → y ≠ .nan → vecVal d w a b ix = r32 (if vlt x y then y else x))
    ∧ (rFunc w = 0x04 → x ≠ .nan → y ≠ .nan → vecVal d w a b ix = r32 (if vlt y x then y else x))
    ∧ (rFunc w = 0x03 ∨ rFunc w = 0x04 → x = .nan ∨ y = .nan → vecVal d w a b ix = .nan)
    ∧ (rFunc w = 0x05 → vecVal d w a b ix = r32 (vadd x (ofF32 (rImm w))))
    ∧ (rFunc w = 0x06 → vecVal d w a b ix = r32 (vmul x (ofF32 (rImm w))))
    ∧ (rFunc w = 0x10 → vecVal d w a b ix = r32 (vneg x))
    ∧ (rFunc w = 0x11 → vecVal d w a b ix = r32 (if isNegVal x then vneg x else x))
    ∧ (rFunc w = 0x12 → vecVal d w a b ix = r32 (frsqrt x)) ∧ (rFunc w = 0x13 → vecVal d w a b ix = r32 (fexp x))
    ∧ (rFunc w = 0x50 → vecVal d w a b ix = r32 x)
    ∧ (rFunc w = 0x20 → vecVal d w a b ix = ofF32 (Config.softmax line at_))
    ∧ (rFunc w = 0x21 → vecVal d w a b ix = ofF32 (Config.layerNorm line at_))
    ∧ (rFunc w = 0x22 → vecVal d w a b ix = ofF32 (Config.rmsNorm line at_))
    ∧ (rFunc w = 0x40 → vecVal d w a b ix = ofF32 (Config.activation (rParam w) (toF32 x)))

/-- Top-k order (R561, R562): a line comes out as a reordering of its positions and values, each entry ranked above the next: NaN first, then greater values, equal ones by position. -/
def Sys2Proof.Claim.TopKRanks : Prop :=
  ∀ l : List Val, (rankLine l).Perm (withPos l) ∧ (rankLine l).Pairwise fun x y => ranksAbove y x = false

/-- A sum along an axis adds in index order, each addition rounded once; when no value is NaN a maximum is a value with none above it and a minimum one with none below it, each rounded to FP32; an argument of maximum is the position that ranks above every other (R164, R555, R561). -/
def Sys2Proof.Claim.ReduceValues : Prop :=
  ∀ (x : Val) (l : List Val),
    reduceLine 0x60 (x :: l) = l.foldl (fun s v => r32 (vadd s v)) x
    ∧ ((∀ v ∈ x :: l, v ≠ .nan) →
        (∃ v ∈ x :: l, reduceLine 0x61 (x :: l) = r32 v ∧ ∀ u ∈ x :: l, vlt v u = false)
        ∧ (∃ v ∈ x :: l, reduceLine 0x62 (x :: l) = r32 v ∧ ∀ u ∈ x :: l, vlt u v = false))
    ∧ (∃ (i : Nat) (v : Val), (x :: l)[i]? = some v ∧ reduceLine 0x63 (x :: l) = ofInt i ∧ ∀ j u, (x :: l)[j]? = some u → ranksAbove (j, u) (i, v) = false)

/-- Movement instructions in their own effect: FETCH and SPILL put their transfers at the end of the FE's queue; SEND reads the tensor and hands it to its channel as a frame of 512-byte units, or is complete at once when the tensor is empty; RECV_OPEN and OPEN_AGENT open the window with SIZE + 1 granted; RECV_END marks the window to close at retirement; END_STREAM puts the stream's end behind the frames already handed over; a SEND, RECV or END on a channel not set up for the core posts event 0x0703 and ends incomplete (R145, R151, R226 to R228, R237, R250, R554). -/
def Sys2Proof.Claim.MovementInstructionsRun : Prop :=
  ∀ (s : State) (n : Fin 16) (i : Nat) (o : Op), Awake s → Issues s.dev n i o →
    let d := issuedDev s.dev n i o
    let p := issuedOp s.dev n i o
    let ch := rChannel p.word
    let w := win (coreOf d n) (rWindow p.word)
    let agent := w.state ≠ 0 ∧ w.writer.toNat / 4096 ≠ 2
    let streams := receiverOk (chan d ch) n (rWindow p.word) = true ∧ (w.state = 0 ∨ w.writer = BitVec.ofNat 16 (0x2000 + ch))
    let misused (c : Instr) := exec c s = .next { s with dev := finishOp (postEventWc d 0x0703 0 (srcSe (ch / 64)) p.wc (ch + n * 4096)) n i fun o => { o with incomplete := true } }
    (rOpcode o.word = 0x18 → exec (.fetch n) s = .next { s with dev := setupFe d n i p })
    ∧ (rOpcode o.word = 0x19 → exec (.spill n) s = .next { s with dev := setupFe d n i p })
    ∧ (rOpcode o.word = 0x1A → rXop o.word = 0 → producerOk (chan d ch) n = true →
        let e := markPoison (tensorData d n p (rDescSrc p.word)).1 n i ((tensorData d n p (rDescSrc p.word)).2.any (·.2))
        let bs := (tensorData d n p (rDescSrc p.word)).2
        let c := leaveIdle (chan e ch)
        let f := setChan e ch c
        exec (.xferSend n) s = .next { s with dev := if bs.isEmpty then finishOp f n i id else setChan f ch { chan f ch with frames := (chan f ch).frames ++ [{ units := chunks 512 ((bs.length + 511) / 512) bs, send := some (opRef n p) }] } })
    ∧ (rOpcode o.word = 0x1A → rXop o.word = 0 → producerOk (chan d ch) n = false → misused (.xferSend n))
    ∧ (rOpcode o.word = 0x1A → rXop o.word = 1 → receiverOk (chan d ch) n (rWindow p.word) = true →
        let e := openWindow d n (rWindow p.word) ((opDesc p (rDescDst p.word)).space == 2) (rWmode p.word == 1) (rWsize p.word)
          ((opDesc p (rDescDst p.word)).base / 512) (BitVec.ofNat 16 (0x2000 + ch)) p.wc p.epoch
        exec (.xferRecvOpen n) s = .next { s with dev := finishOp e n i id })
    ∧ (rOpcode o.word = 0x1A → rXop o.word = 1 → receiverOk (chan d ch) n (rWindow p.word) = false → misused (.xferRecvOpen n))
    ∧ (rOpcode o.word = 0x1A → rXop o.word = 2 → agent ∨ streams →
        exec (.xferRecvEnd n) s = .next { s with dev := finishOp d n i fun o => { o with closes := o.closes ++ [rWindow p.word] } })
    ∧ (rOpcode o.word = 0x1A → rXop o.word = 2 → ¬ (agent ∨ streams) → misused (.xferRecvEnd n))
    ∧ (rOpcode o.word = 0x1A → rXop o.word = 3 → producerOk (chan d ch) n = true →
        let c := leaveIdle (chan d ch)
        exec (.xferEndStream n) s = .next { s with dev := setChan d ch { c with frames := (chan d ch).frames ++ [{ ends := true, send := some (opRef n p) }] } })
    ∧ (rOpcode o.word = 0x1A → rXop o.word = 3 → producerOk (chan d ch) n = false → misused (.xferEndStream n))
    ∧ (rOpcode o.word = 0x1A → rXop o.word = 4 →
        let e := finishOp (openWindow d n (rWindow p.word) ((opDesc p (rDescDst p.word)).space == 2) (rWmode p.word == 1) (rWsize p.word)
          ((opDesc p (rDescDst p.word)).base / 512) (BitVec.ofNat 16 (rWkind p.word * 4096 + ch)) p.wc p.epoch) n i id
        exec (.xferOpenAgent n) s = .next { s with dev := if rWkind p.word = 1 then pump e ch else e })

/-- The transfers of a FETCH or SPILL carry each at most 64 KiB and at least one byte, and together as many bytes as the tensor has (R238). -/
def Sys2Proof.Claim.TransfersCoverTheTensor : Prop :=
  ∀ (f : Fmt) (ext : List Nat) (src dst : Desc),
    (∀ x ∈ transfersOf f ext src dst, 0 < x.2.2 ∧ x.2.2 ≤ 65536)
    ∧ ((transfersOf f ext src dst).map fun x => x.2.2).sum = elemBytes f (ext.getD 0 1) * (ext.getD 1 1 * ext.getD 2 1 * ext.getD 3 1)

/-- Synchronisation instructions in their own effect: FUSE opens the windows of its hand-overs; a core's BARRIER, a WAIT and a NOP are complete at once; a work context's BARRIER waits for every copy; SIGNAL adds VALUE to its counter, modulo 2^32, and to no other counter; SETLEN writes the length register and every resident copy (R158, R165, R177, R248, R251, R252). -/
def Obligations.SyncInstructionsRun : Prop :=
  ∀ (s : State) (n : Fin 16) (i : Nat) (o : Op), Awake s → Issues s.dev n i o →
    let d := issuedDev s.dev n i o
    let p := issuedOp s.dev n i o
    (rOpcode o.word = 0x20 → exec (.fuse n) s = .next { s with dev := runFuse d n i p })
    ∧ (rOpcode o.word = 0x21 → rScope o.word = 0 → exec (.barrierCore n) s = .next { s with dev := finishOp d n i id })
    ∧ (rOpcode o.word = 0x21 → rScope o.word = 1 → exec (.barrierWorkContext n) s = .next { s with dev := runBarrierWc d n p })
    ∧ (rOpcode o.word = 0x23 → exec (.wait n) s = .next { s with dev := finishOp d n i id })
    ∧ (rOpcode o.word = 0x30 → exec (.nop n) s = .next { s with dev := finishOp d n i id })
    ∧ (rOpcode o.word = 0x22 → ∃ t, exec (.signal n) s = .next t ∧ t.pending = s.pending ∧ t.otp = s.otp
        ∧ signalOf (wcOf t.dev o.wc) (rIndex o.word) = signalOf (wcOf s.dev o.wc) (rIndex o.word) + rValue o.word
        ∧ (∀ k, k ≠ rIndex o.word → signalOf (wcOf t.dev o.wc) k = signalOf (wcOf s.dev o.wc) k)
        ∧ ∀ v k, v ≠ o.wc → signalOf (wcOf t.dev v) k = signalOf (wcOf s.dev v) k)
    ∧ (rOpcode o.word = 0x24 → rLsrc o.word = 0 → exec (.setlen n) s = .next { s with dev := finishOp (setLen d p.wc (rIndex o.word) (rValue o.word)) n i id })
    ∧ (rOpcode o.word = 0x24 → rLsrc o.word = 1 → ∀ e bs poison, memRead d (some agCp) srcCp (rLaddr o.word) 4 = (e, bs, poison) →
        exec (.setlen n) s = .next { s with dev := finishOp (markPoison (setLen e p.wc (rIndex o.word) (BitVec.ofNat 32 (leNat bs))) n i poison) n i id })

/-- WAIT and SIGNAL order (R165): an instruction that the sequencer takes is a WAIT only when its counter minus VALUE, as a signed number, is not negative, and a SIGNAL or BARRIER only when no earlier instruction of its work context is left on the core. -/
def Sys2Proof.Claim.WaitsAreKept : Prop :=
  ∀ (d : Dev) (n i : Nat) (o : Op), chosenOp d n = some (i, o) →
    (rOpcode o.word = 0x23 → 0 ≤ (signalOf (wcOf d o.wc) (rIndex o.word) - rValue o.word).toInt)
    ∧ (rOpcode o.word = 0x22 ∨ rOpcode o.word = 0x21 → ∀ j b, j < i → (coreOf d n).ops[j]? = some b → b.wc ≠ o.wc)

/-- A poisoned command issues nothing: of every form, the instruction is complete with its poison noted, and its own effect does not happen (R506). -/
def Sys2Proof.Claim.PoisonedCommandIssuesNothing : Prop :=
  ∀ (s : State) (n : Fin 16) (i : Nat) (o : Op), Awake s → Taken s.dev n i o → (issuedOp s.dev n i o).poisoned = true →
    let alone (c : Instr) := exec c s = .next { s with dev := finishOp (issuedDev s.dev n i o) n i id }
    (∀ c ∈ [(0x01, Instr.mmul n), (0x03, .mthin n), (0x12, .qrow n), (0x18, .fetch n), (0x19, .spill n), (0x20, .fuse n), (0x22, .signal n), (0x23, .wait n),
        (0x24, .setlen n), (0x30, .nop n)], rOpcode o.word = c.1 → alone c.2)
    ∧ (rOpcode o.word = 0x02 → streamPending s.dev n = none → alone (.mstream n))
    ∧ (rOpcode o.word = 0x08 → cnvPending s.dev n 0x08 = none → alone (.conv n))
    ∧ (rOpcode o.word = 0x09 → cnvPending s.dev n 0x09 = none → alone (.tconv n))
    ∧ (rOpcode o.word = 0x10 → ∀ c ∈ [(0x00, Instr.vecAdd n), (0x01, .vecSubtract n), (0x02, .vecMultiply n), (0x03, .vecMaximum n), (0x04, .vecMinimum n),
        (0x05, .vecAddImm n), (0x06, .vecMultiplyByImm n), (0x10, .vecNegate n), (0x11, .vecAbsoluteValue n), (0x12, .vecReciprocalSquareRoot n),
        (0x13, .vecExponential n), (0x20, .vecSoftmax n), (0x21, .vecLayerNormalisation n), (0x22, .vecRmsNormalisation n), (0x30, .vecTopK n), (0x31, .vecSelect n),
        (0x40, .vecActivationTable n), (0x50, .vecCopyConvert n)], rFunc o.word = c.1 → alone c.2)
    ∧ (rOpcode o.word = 0x11 → ∀ c ∈ [(0x60, Instr.reduceSum n), (0x61, .reduceMaximum n), (0x62, .reduceMinimum n), (0x63, .reduceArgumentOfMaximum n)],
        rFunc o.word = c.1 → alone c.2)
    ∧ (rOpcode o.word = 0x1A → ∀ c ∈ [(0, Instr.xferSend n), (1, .xferRecvOpen n), (2, .xferRecvEnd n), (3, .xferEndStream n), (4, .xferOpenAgent n)],
        rXop o.word = c.1 → alone c.2)
    ∧ (rOpcode o.word = 0x21 → ∀ c ∈ [(0, Instr.barrierCore n), (1, .barrierWorkContext n)], rScope o.word = c.1 → alone c.2)

/-- The end of an instruction: one that is complete leaves the core's queue and its record is accounted for, and a record of the MPE that is complete leaves the MPE's; one that is not complete, or a position that holds none, changes nothing. An issued instruction with no transfer to make gives up its sources. A completion says Cancelled before Poisoned before Incomplete before OK (R141, R214, R282, R283, R285). -/
def Sys2Proof.Claim.InstructionsRetire : Prop :=
  ∀ (s : State), Awake s →
    (∀ (n : Fin 16) (i : Fin 256) (o : Op), (coreOf s.dev n).ops[i.val]? = some o → (coreOf s.dev n).disabled = false → mayRetire (coreOf s.dev n) o = true →
      exec (.instructionRetire (n.castLE (by decide)) i) s = .next (onDev s fun d => retireOp d n i o))
    ∧ (∀ (n : Fin 16) (i : Fin 256), (∀ o, (coreOf s.dev n).ops[i.val]? = some o → (coreOf s.dev n).disabled = true ∨ mayRetire (coreOf s.dev n) o = false) →
      exec (.instructionRetire (n.castLE (by decide)) i) s = .next s)
    ∧ (∀ (n : Fin 17) (i : Fin 256) (r : MpeRec), n.val = 16 → (mpeSettle s.dev).mpe.recs[i.val]? = some r → r.op.done = true → mpeAwaitsOdd s.dev r.op = false →
      exec (.instructionRetire n i) s = .next (onDev s fun d =>
        let e := mpeSettle d
        let e := if r.resident then mpeCloseWin e r.op else e
        neuralCheck (mpeNote (retireMpe { e with mpe := { e.mpe with recs := removeAt e.mpe.recs i } } r.op))))
    ∧ (∀ (n : Fin 17) (i : Fin 256), n.val = 16 → (∀ r, (mpeSettle s.dev).mpe.recs[i.val]? = some r → r.op.done = false ∨ mpeAwaitsOdd s.dev r.op = true) →
      exec (.instructionRetire n i) s = .next (onDev s mpeSettle))
    ∧ (∀ (n : Fin 16) (i : Fin 256) (o : Op), (coreOf s.dev n).ops[i.val]? = some o → o.issued = true → (coreOf s.dev n).fe.any (xferOf o) = false →
      exec (.sourceRelease n i) s = .next (onDev s fun d => updCore d n fun c => { c with ops := modifyAt c.ops i fun o => { o with released := true } }))
    ∧ (∀ (n : Fin 16) (i : Fin 256), (∀ o, (coreOf s.dev n).ops[i.val]? = some o → o.issued = false ∨ (coreOf s.dev n).fe.any (xferOf o) = true) →
      exec (.sourceRelease n i) s = .next s)
    ∧ ∀ cancelled sat clamped refold incomplete poisoned, statusOf cancelled (flagBits sat clamped refold incomplete poisoned)
        = if cancelled then 0x0801 else if poisoned then 0x0803 else if incomplete then 0x0802 else 0

/-! ### Numbers -/

/-- Every narrowing rounds to nearest with ties away from zero (R88): the result times 2^q is within half of 2^q of m × 2^e, and on a tie it is the one of greater magnitude. -/
def Sys2Proof.Claim.RoundingIsNearestAway : Prop :=
  ∀ (m e q : Int), e < q →
    2 * (roundAway m e q * 2 ^ (q - e).toNat - m).natAbs ≤ 2 ^ (q - e).toNat
    ∧ (2 * (roundAway m e q * 2 ^ (q - e).toNat - m).natAbs = 2 ^ (q - e).toNat → m.natAbs < (roundAway m e q * 2 ^ (q - e).toNat).natAbs)

/-- A narrowing to an integer format stores a number of the format's range, and says clipped exactly when the value rounded, zero point included, lies outside it (R88, R89). -/
def Sys2Proof.Claim.NarrowingSaturates : Prop :=
  ∀ (f : Fmt) (z : Nat) (e m k : Int), fmtIsInt f = true → z < 256 →
    let n := (if f = .uint8 then (z : Int) else 0) + roundAway m (k - e) 0
    let r := narrow f z e (.num m k)
    (intRange f).1 ≤ intOf f r.raw ∧ intOf f r.raw ≤ (intRange f).2 ∧ (r.clipped = true ↔ n < (intRange f).1 ∨ (intRange f).2 < n)
    ∧ (r.clipped = false → intOf f r.raw = n)

/-- Zeros: the sum of +0 and −0 is +0, and a product with a zero operand is a zero whose sign is the exclusive OR of the operand signs (R74). -/
def Obligations.ZeroSigns : Prop :=
  vadd (.zero false) (.zero true) = .zero false ∧ vadd (.zero true) (.zero false) = .zero false
  ∧ ∀ (v : Val) (b : Bool), v ≠ .nan → (∀ c, v ≠ .inf c) → vmul (.zero b) v = .zero (b != isNegVal v) ∧ vmul v (.zero b) = .zero (isNegVal v != b)

/-- A generated exponent is the smallest from −128 to 127 that holds every value of the row, and 127 when none does (R99). -/
def Sys2Proof.Claim.GeneratedExponentIsSmallest : Prop :=
  ∀ (f : Fmt) (z : Nat) (row : List Val),
    -128 ≤ genExp f z row ∧ genExp f z row ≤ 127
    ∧ (∀ e, -128 ≤ e → e < genExp f z row → row.all (expFits f z e) = false)
    ∧ (genExp f z row < 127 → row.all (expFits f z (genExp f z row)) = true)

/-- An integer PM add keeps the exact sum while it lies in INT32 and clamps it otherwise, and the saturation flag is set by the clamp and kept by every later add (R85, R87). -/
def Sys2Proof.Claim.PmAddsSaturate : Prop :=
  ∀ (e : PmEntry) (c : Int) (p : Bool),
    (-2147483648 ≤ e.bits.toInt + c → e.bits.toInt + c ≤ 2147483647 → (pmInt e false c p).bits.toInt = e.bits.toInt + c ∧ (pmInt e false c p).sat = e.sat)
    ∧ (2147483647 < e.bits.toInt + c → (pmInt e false c p).bits.toInt = 2147483647 ∧ (pmInt e false c p).sat = true)
    ∧ (e.bits.toInt + c < -2147483648 → (pmInt e false c p).bits.toInt = -2147483648 ∧ (pmInt e false c p).sat = true)
    ∧ (pmInt e false c p).poison = (e.poison || p)
    ∧ (-2147483648 ≤ c → c ≤ 2147483647 → (pmInt e true c p).bits.toInt = c ∧ (pmInt e true c p).sat = false ∧ (pmInt e true c p).poison = p)

/-- The sequencer issues in order where order is owed, waits where a wait is owed, and keeps conflicting instructions apart (R140 to R143, R165). -/
def Obligations.IssueKeepsOrder : Prop :=
  Claim.IssueKeepsOrder ∧ Claim.WaitsAreKept ∧ Claim.ScoreboardKeepsApart

/-- Vector, reduction and row instructions in their own effect, with the value of each element, the ranking of top-k and the order of a reduction (R164, R555 to R563). -/
def Obligations.VectorInstructionsRun : Prop :=
  Claim.VectorInstructionsRun ∧ Claim.VectorElementValues ∧ Claim.TopKRanks ∧ Claim.ReduceValues

/-- Movement instructions in their own effect, and transfers that cover the tensor exactly (R226 to R228, R237, R238, R250, R554). -/
def Obligations.MovementInstructionsRun : Prop :=
  Claim.MovementInstructionsRun ∧ Claim.TransfersCoverTheTensor

/-- The end of an instruction, and a poisoned command, which issues nothing (R141, R282, R283, R506). -/
def Obligations.InstructionsRetire : Prop :=
  Claim.InstructionsRetire ∧ Claim.PoisonedCommandIssuesNothing

/-- Narrowing rounds to nearest with ties away from zero and saturates; a generated exponent is the smallest that holds the row; integer PM adds saturate and keep the flag (R85, R87 to R89, R99). -/
def Obligations.NarrowingRoundsAndSaturates : Prop :=
  Claim.RoundingIsNearestAway ∧ Claim.NarrowingSaturates ∧ Claim.GeneratedExponentIsSmallest ∧ Claim.PmAddsSaturate

/-! ### The matrix array -/

/-- The issue cycle of a core's arrays (R27, R28, R35, R49 to R54). A disabled core, or one whose clock is stopped, does nothing. Otherwise every enabled array counts a cycle and no other array changes. With nothing pushed, no changeover under way and no duty window due: an empty queue gives a bubble, which lengthens the gap where the duty limit allows and begins the ramp-down once the gap has lasted DRONE_LIMIT cycles; a beat of an entry under way takes its cycle whatever else; an entry that may issue issues its first beat, a SWAP exchanging the planes group by group and a row going down the array with its PM entries claimed; an entry that may not waits; and a ready entry brings a gated array to the first step of ramp-up. -/
def Sys2Proof.Claim.ArrayIssues : Prop :=
  ∀ (s : State) (n : Fin 16) (p0 p1 p2 p3 : Option FeedRow), Awake s →
    let c := coreOf s.dev n
    let go := exec (.issueCycle n (p0, p1) (p2, p3)) s
    (c.disabled = true ∨ c.stopped = true → go = .next s)
    ∧ (c.disabled = false → c.stopped = false → ∃ t, go = .next t ∧ t.pending = s.pending ∧ t.otp = s.otp
        ∧ (∀ m, m ≠ n.val → coreOf t.dev m = coreOf s.dev m)
        ∧ ∀ k < 4, let a := arr c k; let b := arr (coreOf t.dev n) k
            (a.cause ≠ 0 → b = a) ∧ (a.cause = 0 → b.cycle = a.cycle + 1 ∧ b.cause = 0 ∧ b.repair = a.repair))
    ∧ (c.disabled = false → c.stopped = false → p0 = none → p1 = none → p2 = none → p3 = none →
        (∀ k < 4, (arr c k).cause = 0 → (arr c k).changing = 0#4 ∧ (arr c k).dutyPos < 16 ∧ ((arr c k).ramp = 0 ∨ (arr c k).ramp = 4)) →
        ∃ t, go = .next t ∧ ∀ k < 4, (arr c k).cause = 0 →
          let a := arr c k
          let b := arr (coreOf t.dev n) k
          (a.feeder = [] → b.feeder = [] ∧ b.pipe = a.pipe ∧ b.active = a.active
            ∧ (dutyLets a 1 = false → b.gap = a.gap ∧ b.ramp = a.ramp)
            ∧ (dutyLets a 1 = true → b.gap = a.gap + 1 ∧ b.ramp = (if a.ramp = 0 ∧ setting s.dev 0x2200 2 ≤ a.gap then 1 else a.ramp)))
          ∧ (∀ r rest, a.feeder = r :: rest → r.valid = true → a.beats ≠ 0 → a.ramp = 0 →
              b = tick { a with dutyUsed := a.dutyUsed + 1, gap := 0, beats := a.beats - 1, feeder := if a.beats = 1 then rest else a.feeder })
          ∧ (∀ r rest, a.feeder = r :: rest → r.valid = true → a.beats = 0 → a.ramp = 0 → mayIssue c k = true →
              b.dutyUsed = a.dutyUsed + 1 ∧ b.gap = 0 ∧ b.beats = headNeed a - 1 ∧ b.feeder = (if headNeed a = 1 then rest else a.feeder)
              ∧ (r.mark = 1 → b.pipe = a.pipe ∧ b.swapAt = some a.cycle ∧ b.changing = 15#4 ∧ b.passes = a.passes + 1
                  ∧ b.active = { a.shadow with rows := a.active.rows, spare := a.active.spare }
                  ∧ b.shadow = { a.active with rows := a.shadow.rows, spare := a.shadow.spare, loaded := 0 })
              ∧ (r.mark = 2 → ∀ q, a.openPasses.find? (fun q => q.id + 1 == a.passes) = some q →
                  b.pipe = a.pipe ++ [{ checksumRow a r q with taken := a.cycle, pass := q.id, due := checkDue s.dev r.unit.wc q.id }] ∧ b.active = a.active)
              ∧ (r.mark = 0 ∨ r.mark = 3 →
                  (∃ p, b.pipe = a.pipe ++ [p] ∧ p.row = r ∧ p.taken = a.cycle ∧ p.landed = 0
                    ∧ ∀ xs, r.src = .codes xs →
                        let vs := (cellCodes r (if r.mark = 3 then 8 else passDepth a) xs).map (elemVal (fmtAt r.fmt))
                        p.outs = (if r.mark = 3 then piccoloRow (takeBlock a r) r vs else fullRow a r (passFmts a r.fmt).1 (passFmts a r.fmt).2 vs).outs)
                  ∧ ∀ e ∈ rowTargets k r, (pmRowOf (coreOf t.dev n) e).unit.isSome = true ∧ (pmRowOf (coreOf t.dev n) e).done = false))
          ∧ (∀ r rest, a.feeder = r :: rest → r.valid = true → a.beats = 0 → mayIssue c k = false → a.ramp = 0 →
              b.feeder = a.feeder ∧ b.pipe = a.pipe ∧ b.active = a.active ∧ b.shadow = a.shadow)
          ∧ (∀ r rest, a.feeder = r :: rest → r.valid = false → a.ramp = 0 → b.pipe = a.pipe ∧ b.active = a.active
              ∧ b.feeder = (if (if a.beats = 0 then headNeed a else a.beats) = 1 then rest else a.feeder))
          ∧ (∀ r rest, a.feeder = r :: rest → r.valid = true → a.beats = 0 → a.ramp = 4 → allReady c (mates c k) = true →
              b.ramp = 5 ∧ b.pipe = a.pipe ∧ b.feeder = a.feeder))

/-- Changeover, shadow load, ramps and the duty window of an array (R34 to R37, R42, R50, R53 to R55, R68). The SWAP's marker changes a group over s + 1 + g cycles after the SWAP and after the groups above it: its rows, and with group 3 the spare row, change planes. A row load reads the row's codes and writes them, with the sums of its checksum cells, into the shadow registers of every array that shares it, when each of them may take the row; otherwise nothing is read. Ramps move a step when their time has passed. At an aligned boundary the duty limit in force moves by at most a quarter towards the core's limit, once per ramp step. -/
def Sys2Proof.Claim.ArrayStepsAdvance : Prop :=
  ∀ (s : State) (n : Fin 16) (k : Fin 4), Awake s →
    let c := coreOf s.dev n
    let a := arr c k
    let only (b : Arr) : State := { s with dev := updArr s.dev n k fun _ => b }
    (∀ (g : Fin 4) sw, a.swapAt = some sw → bit a.changing g = true → sw + 1 + g ≤ a.cycle → (∀ h < g.val, bit a.changing h = false) →
      ∃ act sh, exec (.groupChangeover n k g) s = .next (only { a with active := act, shadow := sh, changing := a.changing &&& ~~~(BitVec.ofNat 4 (2 ^ g.val)) })
        ∧ (∀ j, sget (fun _ => {}) act.rows j = sget (fun _ => {}) (if j / 8 = g.val then a.shadow.rows else a.active.rows) j)
        ∧ (∀ j, sget (fun _ => {}) sh.rows j = sget (fun _ => {}) (if j / 8 = g.val then a.active.rows else a.shadow.rows) j)
        ∧ act.spare = (if g.val = 3 then a.shadow.spare else a.active.spare) ∧ sh.spare = (if g.val = 3 then a.active.spare else a.shadow.spare)
        ∧ act.fmt = a.active.fmt ∧ act.books = a.active.books ∧ sh.loaded = a.shadow.loaded)
    ∧ (∀ (g : Fin 4), a.swapAt = none ∨ bit a.changing g = false ∨ (∃ sw, a.swapAt = some sw ∧ a.cycle < sw + 1 + g) ∨ (∃ h < g.val, bit a.changing h = true) →
        exec (.groupChangeover n k g) s = .next (only a))
    ∧ (∀ r : RowLoad, c.stopped = true ∨ (∀ b ∈ arraysOn c, bit r.arrays b = false) ∨ (∃ b ∈ arraysOn c, bit r.arrays b = true ∧ mayLoad (changeDue (arr c b)) r = false) →
        exec (.shadowRowLoad n r.arrays r.k r.fmt r.off r.toLoadForm) s = .next s)
    ∧ (∀ r : RowLoad, c.stopped = false → a.cause = 0 → c.disabled = false → bit r.arrays k = true → s.dev.mem.latent = [] →
        (∀ b ∈ arraysOn c, bit r.arrays b = true → mayLoad (changeDue (arr c b)) r = true) →
        ∃ t, exec (.shadowRowLoad n r.arrays r.k r.fmt r.off r.toLoadForm) s = .next t ∧ t.pending = s.pending ∧ t.otp = s.otp ∧ (∀ x, peek t.dev.mem x = peek s.dev.mem x) ∧
          let a := changeDue a
          let b := arr (coreOf t.dev n) k
          b.active = a.active ∧ b.pipe = a.pipe
          ∧ (r.block = false → b.shadow.loaded = r.k + 1 ∧ (r.k = 0 → b.shadow.fmt = r.fmt ∧ b.shadow.books = loadBooks s.dev n r)
              ∧ cellsOf b b.shadow r.k = cellRow r.fmt (b.shadow.books.headD []) (loadCodes s.dev n r)
              ∧ ∀ j, j ≠ r.k → cellsOf b b.shadow j = cellsOf a a.shadow j)
          ∧ (r.block = true → b.shadow.loaded = 32 ∧ b.shadow.fmt = r.fmt
              ∧ ∀ j < 32, cellsOf b b.shadow j = cellRow r.fmt ((loadBooks s.dev n r).getD (j / 8) []) [blockCodes s.dev n r ((arraysOn c).idxOf k.val) (j % 8) (j / 8)]))
    ∧ (exec (.rampDownStart n k) s = .next (only
        (if 0 < a.gap ∧ (a.ramp = 0 ∨ 5 ≤ a.ramp) ∧ setting s.dev 0x2200 2 ≤ a.gap then { a with ramp := 1, rampCyc := 0, rampCredit := 0 } else a)))
    ∧ (exec (.rampDownStep n k) s = .next (only
        (if 1 ≤ a.ramp ∧ a.ramp ≤ 3 ∧ setting s.dev 0x2200 3 / 4 ≤ a.rampCyc then { a with ramp := a.ramp + 1, rampCyc := 0, rampCredit := 0 } else a)))
    ∧ (exec (.rampUpStep n k) s = .next (only
        (if 5 ≤ a.ramp ∧ setting s.dev 0x2200 4 / 4 ≤ a.rampCyc then { a with ramp := (a.ramp + 1) % 8, rampCyc := 0, rampCredit := 0 } else a)))
    ∧ (a.dutyPos ≠ 0 → a.dutyPos ≠ 16 → exec (.dutyWindow n k) s = .next (only a))
    ∧ (a.dutyPos = 0 ∨ a.dutyPos = 16 →
        let lim := c.dutyLimit
        let due := setting s.dev 0x2200 (if lim < a.duty then 3 else 4) / 4 ≤ a.dutyCyc
        exec (.dutyWindow n k) s = .next (only { a with
          dutyPos := 0, dutyUsed := 0
          duty := if lim < a.duty ∧ due then max lim (a.duty - 4) else if a.duty < lim ∧ due then min lim (a.duty + 4) else a.duty
          dutyCyc := if lim ≠ a.duty ∧ due then 0 else a.dutyCyc }))

/-- A beat in flight lands (R29 to R32, R44, R57, R85 to R87). A stopped clock, an empty pipe, or a beat that has not passed the array's stages changes nothing. The next beat of the oldest row, disturbed where the command says so, is added column by column into its own PM entries, a piccolo column c into entry 4m + c/32, and into no other; with its last beat the row leaves the pipe, and where its check is due and fails, a mismatch is reported on it. A row of the checksum kind adds nothing to PM. -/
def Sys2Proof.Claim.RowsLandInPm : Prop :=
  ∀ (s : State) (n : Fin 16) (k : Fin 4) (u : Option Upset), Awake s →
    let c := coreOf s.dev n
    let a := arr c k
    let stages (p : PipeRow) : Nat := if p.float then 8 else 6
    (a.pipe = [] ∨ c.stopped = true ∨ (∃ p rest, a.pipe = p :: rest ∧ a.cycle < p.taken + p.landed + stages p) → exec (.rowLands n k u) s = .next s)
    ∧ ∀ p rest, a.pipe = p :: rest → c.stopped = false → p.taken + p.landed + stages p ≤ a.cycle →
      let q := disturb p u
      let out := q.outs.getD p.landed []
      let left := if q.landed < q.outs.length then q :: rest else rest
      let key (x : Nat) : Nat := if p.row.mark = 3 then (k * 32 + x % 32) * 1024 + 4 * p.row.entry + x / 32 else (k * 32 + x) * 1024 + p.row.entry
      let old (e : Nat) : PmEntry := sget (fun _ => {}) c.pm e
      let same (x y : PmEntry) : Prop := x.bits = y.bits ∧ x.sat = y.sat ∧ (s.dev.mem.latent = [] → x.poison = y.poison)
      (p.row.mark ≠ 2 → out.length ≤ (if p.row.mark = 3 then 128 else 32) → q.landed < q.outs.length ∨ p.due = false ∨ rowGood q = true →
        ∃ t, exec (.rowLands n k u) s = .next t ∧ t.pending = s.pending ∧ t.otp = s.otp ∧ (arr (coreOf t.dev n) k).pipe = left
          ∧ (∀ x < out.length, same (sget (fun _ => {}) (coreOf t.dev n).pm (key x)) (pmRow p.float (old (key x)) (p.row.first && p.landed == 0) p.poison
              [{ v := bitsVal p.float (out.getD x 0), ovf := (p.ovf.getD p.landed []).getD x false }]))
          ∧ (∀ e, (∀ x < out.length, e ≠ key x) → sget (fun _ => {}) (coreOf t.dev n).pm e = old e)
          ∧ ∀ x, peek t.dev.mem x = peek s.dev.mem x)
      ∧ (p.row.mark ≠ 2 → q.outs.length ≤ q.landed → p.due = true → rowGood q = false →
          ∃ e : Dev, (arr (coreOf e n) k).pipe = rest ∧ (coreOf e n).retry = c.retry ∧ exec (.rowLands n k u) s = .next { s with dev := if p.row.mark = 3 then mismatch e n k 3 0 (u.getD {}).row p.row.entry p.row.unit else mismatch e n k 0 (u.getD {}).group 0 p.row.entry p.row.unit })
      ∧ (p.row.mark = 2 → q.landed < q.outs.length ∨ p.due = false ∨ (a.openPasses.find? (fun y => y.id == p.pass)).bind (badColumn q) = none →
          ∃ t, exec (.rowLands n k u) s = .next t ∧ (arr (coreOf t.dev n) k).pipe = left ∧ (coreOf t.dev n).pm = c.pm ∧ t.dev.mem = s.dev.mem ∧ t.otp = s.otp)
      ∧ (∀ col, p.row.mark = 2 → q.outs.length ≤ q.landed → p.due = true → (a.openPasses.find? (fun y => y.id == p.pass)).bind (badColumn q) = some col →
          ∃ e : Dev, (arr (coreOf e n) k).pipe = rest ∧ (coreOf e n).pm = c.pm ∧ exec (.rowLands n k u) s = .next { s with dev := mismatch e n k 1 0 col 0 p.row.unit })

/-- A check mismatch of a unit (R490 to R494): the first abandons the unit on every array of the core and starts its retry, and no array or core is lost; one in the retry retires the array with ARRAY_CAUSE 4 and ends the core's retries, and a core left with fewer than three arrays is disabled with cause 3. -/
def Sys2Proof.Claim.MismatchRetriesThenRetires : Prop :=
  ∀ (d : Dev) (n a kind group col entry : Nat) (u : UnitTag), n < 16 → a < 4 → (coreOf d n).disabled = false →
    let e := mismatch d n a kind group col entry u
    let others := ((List.range 4).filter fun b => b != a && (arr (coreOf d n) b).cause == 0).length
    (u ∉ (coreOf d n).retry →
      (coreOf e n).retry = (coreOf d n).retry ++ [u] ∧ (coreOf e n).disabled = false
      ∧ ∀ b < 4, (arr (coreOf e n) b).cause = (arr (coreOf d n) b).cause ∧ (∀ r ∈ (arr (coreOf e n) b).feeder, r.unit ≠ u) ∧ ∀ r ∈ (arr (coreOf e n) b).pipe, r.row.unit ≠ u)
    ∧ (u ∈ (coreOf d n).retry →
      (arr (coreOf e n) a).cause = 4 ∧ (coreOf e n).retry = []
      ∧ (3 ≤ others → (coreOf e n).disabled = false) ∧ (others < 3 → (coreOf e n).disabled = true ∧ (coreOf e n).disableCause = 3))

/-- Release and drain (R60, R61, R97, R105 to R108, R170, R182, R493, R495). The region of a unit that runs in one part is released, and a retry of it has passed, once the unit is quiet, its PM rows are full and its outlier sums formed; of one that runs in several parts every part drains then, one after another, or waits for its claim; in any other state nothing is released. A row of a released region whose PM rows pass the drain check is rescaled, narrowed and written, and leaves the region; one that fails it is a mismatch; a row of no released region, or of a tile still to be claimed, does not drain. The outlier sums of a row are formed for every channel of its unit. A calibration window that is full closes with both counts cleared, and one that is not stays. -/
def Obligations.RegionsReleaseAndDrain : Prop :=
  ∀ (s : State) (n : Fin 16), Awake s →
    let c := coreOf s.dev n
    (∀ (i : Fin 256), c.ops[i.val]? = none → ∀ (t : BitVec 16) (m : W32) (u : Option Upset),
        exec (.regionRelease n i t) s = .next s ∧ exec (.drainEntry n i t m u) s = .next s ∧ exec (.outlierSum n i (t, m)) s = .next s)
    ∧ (∀ (i : Fin 256) (o : Op) (t : BitVec 16), c.ops[i.val]? = some o →
      let u := unitOf o t.toNat
      let parts := unitParts s.dev n o t.toNat
      let held := o.ctr.isSome && o.tiles.contains t.toNat
      let rowsOf (p : List Nat × List Nat) : List UnitRow := regionRows s.dev n o t.toNat p
      let may (p : List Nat × List Nat) : Prop := o.issued = true ∧ o.done = false ∧ isMatrix o = true ∧ (∀ r ∈ c.released, r.unit ≠ u) ∧ unitQuiet c u = true
        ∧ regionFull s.dev n o u (pmRowsIn (rowsOf p)) = true ∧ summed c o (rowsOf p) = true ∧ (unitPasses s.dev n o t.toNat ≠ 0 ∨ o.ctr = none ∨ held = true)
      (parts = [] → exec (.regionRelease n i t) s = .next s)
      ∧ (∀ p ps, parts = p :: ps → ¬ may p → exec (.regionRelease n i t) s = .next s)
      ∧ (∀ p ps, parts = p :: ps → may p →
          let zeros := ((rowsOf p).flatMap (·.cells)).map fun x => (x.key, ({} : PmEntry))
          let d0 := if unitPasses s.dev n o t.toNat = 0 then completeRows (putPm s.dev n zeros) n o u (pmRowsIn (rowsOf p)) else s.dev
          let d := retryPassed d0 n u
          (ps = [] → exec (.regionRelease n i t) s = .next { s with dev := (updCore d n fun c => { c with
              released := c.released ++ [{ unit := u, rows := (rowsOf p).map (·.m), keys := pmRowsIn (rowsOf p) }] }) })
          ∧ (ps ≠ [] → held = true → exec (.regionRelease n i t) s = .next { s with dev := d })
          ∧ (ps ≠ [] → held = false → vuFree c o = true →
              let e := updCore (drainUnit d n i o t.toNat p ps) n fun c => dropRegion c u
              exec (.regionRelease n i t) s = .next { s with dev := settleShared e n i })
          ∧ (ps ≠ [] → held = false → vuFree c o = false → exec (.regionRelease n i t) s = .next { s with dev := d0 }))
      ∧ (∀ (m : W32) (v : Option Upset), (parts = [] ∨ ∃ p ps, parts = p :: ps ∧ (rowsOf p).find? (fun r => r.m == m.toNat) = none) → exec (.drainEntry n i t m v) s = .next s)
      ∧ (∀ (m : W32) (v : Option Upset),
          ((∀ r ∈ c.released, r.unit ≠ u ∨ r.rows.contains m.toNat = false) ∨ o.issued = false ∨ o.done = true ∨ held = true ∨ vuFree c o = false) →
            exec (.drainEntry n i t m v) s = .next s)
      ∧ (∀ (m : W32) (v : Option Upset) rel p ps r, c.released.find? (fun r => r.unit == u && r.rows.contains m.toNat) = some rel → parts = p :: ps →
          (rowsOf p).find? (fun r => r.m == m.toNat) = some r → o.issued = true → o.done = false → held = false → vuFree c o = true →
          let fresh := if wCheckMode (wcOf s.dev o.wc) = 0 then (pmRowsIn [r]).filter fun k => !rel.compared.contains k else []
          let e := readPm s.dev n (r.cells.map (·.key))
          ((∀ k ∈ fresh, drainOk c (unitFloat o) k (drainEntries c v k) = true) → s.dev.mem.latent = [] →
            let f := bump s.dev (0x2210 + n) 8 4 (fresh.filter fun k => (List.range 32).any fun col => (pmAt c ((k / 1024 * 32 + col) * 1024 + k % 1024)).sat).length
            exec (.drainEntry n i t m v) s = .next { s with dev := settleShared (updCore (drainUnitRow f n i o t.toNat r v) n fun c => rowDrained c o u (rowsOf p) r fresh) n i })
          ∧ (∀ k, fresh.find? (fun k => !drainOk c (unitFloat o) k (drainEntries c v k)) = some k →
              exec (.drainEntry n i t m v) s = .next { s with dev := mismatch e n (k / 1024) 2 0 0 (k % 1024) u }))
      ∧ (∀ m : W32,
          let rs := (parts.flatMap rowsOf).filter fun r => r.m == m.toNat
          (rs = [] ∨ o.issued = false ∨ o.done = true ∨ isMatrix o = false ∨ vuFree c o = false ∨ (opList o (rDescA o.word)).isEmpty = true →
            exec (.outlierSum n i (t, m)) s = .next s)
          ∧ (rs ≠ [] → o.issued = true → o.done = false → isMatrix o = true → vuFree c o = true → (opList o (rDescA o.word)).isEmpty = false →
            ∃ x, exec (.outlierSum n i (t, m)) s = .next x ∧ x.pending = s.pending ∧ x.otp = s.otp ∧ x.dev.mem = s.dev.mem ∧ (coreOf x.dev n).pm = c.pm
              ∧ (∀ r ∈ rs, ∀ y ∈ r.cells, (coreOf x.dev n).osums.any (fun z => z.1 == osumKey o r.no y.ch) = true)
              ∧ (∀ r y, rs = [r] → r.cells = [y] → sget (fun _ => 0#32) (coreOf x.dev n).osums (osumKey o r.no y.ch) = toF32 (osumOf s.dev n o t.toNat r y.ch))
              ∧ cnt x.dev (0x2230 + n) 6 = (cnt s.dev (0x2230 + n) 6 + 1) % 2 ^ 64)))
    ∧ (∀ k : Fin 16, (satSlot c k).narrowed < 2 ^ setting s.dev 0x2220 2 → exec (.calibWindowClose n k) s = .next s)
    ∧ (∀ k : Fin 16, 2 ^ setting s.dev 0x2220 2 ≤ (satSlot c k).narrowed → ∃ u, exec (.calibWindowClose n k) s = .next u
        ∧ (satSlot (coreOf u.dev n) k).narrowed = 0 ∧ (satSlot (coreOf u.dev n) k).clipped = 0
        ∧ cnt u.dev (0x2230 + n) 1 = (cnt s.dev (0x2230 + n) 1 + (satSlot c k).narrowed) % 2 ^ 64
        ∧ cnt u.dev (0x2230 + n) 2 = (cnt s.dev (0x2230 + n) 2 + (satSlot c k).clipped) % 2 ^ 64
        ∧ (setting s.dev 0x2220 3 = 1 → setting s.dev 0x2220 1 * (satSlot c k).narrowed < (satSlot c k).clipped * 65536 →
            cnt u.dev (0x2230 + n) 5 = (cnt s.dev (0x2230 + n) 5 + 1) % 2 ^ 32))

/-- Shared tile counters (R168, R180 to R182, R199, R236, R293). A request of the counter's own generation draws the next tile, then Exhausted, and of another generation, or of a counter that a cancel has ended, Stale; a core in a retry, or with no PM room, asks for nothing. A granted tile is worked, unless it reads a hollow unit; Exhausted ends the drawing, and Stale the copy. A claim takes a tile once: the bit is set, and a second claim of it is discarded with event 0x0520. -/
def Obligations.TilesAreSharedOut : Prop :=
  ∀ (s : State) (n : Fin 16), Awake s →
    let core := coreOf s.dev n
    let asks := drawingOp core fun o => o.reply.isNone && core.retry.isEmpty && decide (o.tiles.length < tileRoom o)
    let answered := drawingOp core fun o => o.reply.isSome && (match o.reply with | some (.grant t) => tileReady s.dev n o t | _ => true)
    let claims := findIdxElem (fun o => o.issued && !o.done && !o.cancelled && o.ctr.isSome && vuFree core o
      && (match o.tiles with | t :: _ => !core.retry.contains (unitOf o t) | [] => false)) core.ops 0
    (asks = none → exec (.tileRequest n) s = .next s)
    ∧ (∀ i o k gen, asks = some (i, o) → o.ctr = some (k, gen) →
      let c := ctrOf s.dev k
      (c.gen = gen → c.state ≠ 3 → c.next < c.total → exec (.tileRequest n) s = .next { s with dev :=
          (setOp (bump (setCtr s.dev k { c with next := c.next + 1 }) (0x2270 + k / 64) 1 8 1) n i { o with reply := some (.grant c.next) }) })
      ∧ (c.gen = gen → c.state ≠ 3 → c.total ≤ c.next → exec (.tileRequest n) s = .next { s with dev :=
          (setOp (setCtr s.dev k { c with state := 2 }) n i { o with reply := some .exhausted }) })
      ∧ (c.gen ≠ gen ∨ c.state = 3 → exec (.tileRequest n) s = .next { s with dev :=
          (setOp (bump s.dev (0x2270 + k / 64) 2 4 1) n i { o with reply := some .stale }) }))
    ∧ (answered = none → exec (.tileGrantReceive n) s = .next s)
    ∧ (∀ i o, answered = some (i, o) →
      (∀ t, o.reply = some (.grant t) → tileHollow s.dev n o t = false → exec (.tileGrantReceive n) s = .next { s with dev :=
          (sharedFree (setOp (workTile s.dev n o (o.taken + o.tiles.length) t) n i { o with reply := none, tiles := o.tiles ++ [t], lastGrant := t }) n i) })
      ∧ (∀ t, o.reply = some (.grant t) → tileHollow s.dev n o t = true → exec (.tileGrantReceive n) s = .next { s with dev :=
          (settleShared (setOp (blankTile s.dev n o t) n i { o with reply := none, lastGrant := t, incomplete := true }) n i) })
      ∧ (o.reply = some .exhausted → exec (.tileGrantReceive n) s = .next { s with dev := settleShared (setOp s.dev n i { o with reply := none, exhausted := true }) n i })
      ∧ (o.reply = some .stale → exec (.tileGrantReceive n) s = .next { s with dev :=
          (finishOp (setOp (if o.epoch = (wcOf s.dev o.wc).epoch then postEventWc s.dev 0x0522 1 n o.wc 0 else s.dev) n i { o with reply := none, tiles := [] }) n i
            fun o => { o with cancelled := true }) }))
    ∧ (claims = none → exec (.tileClaim n) s = .next s)
    ∧ (∀ i o k gen t rest, claims = some (i, o) → o.ctr = some (k, gen) → o.tiles = t :: rest →
      let o' := { o with tiles := rest, taken := o.taken + 1 }
      let d := setOp (testAndSet s.dev k t).1 n i o'
      let e := countRow (setCtr d k { ctrOf d k with done := (ctrOf d k).done + 1 }) n o k t
      ((testAndSet s.dev k t).2 = false → (∀ r ∈ core.released, r.unit ≠ unitOf o t) → exec (.tileClaim n) s = .next { s with dev := settleShared (finishTile e n i o' o.taken t) n i })
      ∧ ((testAndSet s.dev k t).2 = false → (∃ r ∈ core.released, r.unit = unitOf o t) → exec (.tileClaim n) s = .next { s with dev := settleShared e n i })
      ∧ ((testAndSet s.dev k t).2 = true → exec (.tileClaim n) s = .next { s with dev :=
          (settleShared (postEventWc (bump (updCore d n fun c => dropRegion c (unitOf o t)) (0x2270 + k / 64) 3 4 1) 0x0520 1 (srcHub (k / 64)) o.wc 0) n i) }))
    ∧ ∀ k t, (testAndSet (testAndSet s.dev k t).1 k t).2 = true ∧ ∀ v, v ≠ t → (testAndSet (testAndSet s.dev k t).1 k v).2 = (testAndSet s.dev k v).2

/-- The matrix array cycle by cycle: issue, bubbles, SWAP, changeover, shadow load, ramps and the duty window (R27, R34 to R37, R50 to R54). -/
def Obligations.ArrayIssues : Prop :=
  Claim.ArrayIssues ∧ Claim.ArrayStepsAdvance

/-- Rows land in PM, and a check mismatch retries and then retires the array (R29 to R32, R85 to R87, R490 to R494). -/
def Obligations.RowsLandInPm : Prop :=
  Claim.RowsLandInPm ∧ Claim.MismatchRetriesThenRetires

/-! ### Core memories, windows and channels -/

/-- A read through the correction stage (R126 to R128): a clean word changes nothing; a single-bit error is counted and its address queued for the scrubber, unless it waits there already, or dropped and counted with 4 waiting; a double-bit error is counted and leaves the word poisoned, with no latent error. No stored data changes. -/
def Sys2Proof.Claim.CoreMemoryReadsCorrect : Prop :=
  ∀ (s : State) (n : Fin 16) (mem : Fin 4) (v : BitVec 17) (u : Fin 3), Awake s →
    let w := v.toNat % memWords mem
    let k := max u.val (sget (fun _ => 0) s.dev.mem.latent (latentKey n mem w))
    let queue (d : Dev) : List Nat := sget (fun _ => []) (coreOf d n).scrub mem
    (k = 0 → exec (.coreMemoryRead n mem v u) s = .next { s with dev := strike s.dev (latentKey n mem w) 0 })
    ∧ (k = 1 → ∃ t, exec (.coreMemoryRead n mem v u) s = .next t ∧ t.pending = s.pending ∧ t.otp = s.otp
        ∧ cnt t.dev (0x2250 + n) (mem + 1) = (cnt s.dev (0x2250 + n) (mem + 1) + 1) % 2 ^ 32
        ∧ queue t.dev = (if (queue s.dev).contains w || decide (4 ≤ (queue s.dev).length) then queue s.dev else queue s.dev ++ [w])
        ∧ ((queue s.dev).contains w = false → 4 ≤ (queue s.dev).length → cnt t.dev (0x2250 + n) 7 = (cnt s.dev (0x2250 + n) 7 + 1) % 2 ^ 32)
        ∧ t.dev.mem.poison = s.dev.mem.poison ∧ t.dev.mem.ram = s.dev.mem.ram)
    ∧ (2 ≤ k → ∃ t, exec (.coreMemoryRead n mem v u) s = .next t ∧ t.pending = s.pending ∧ t.otp = s.otp
        ∧ cnt t.dev (0x2250 + n) 5 = (cnt s.dev (0x2250 + n) 5 + 1) % 2 ^ 32
        ∧ (mem ≠ 2 → isPoison t.dev.mem (wordAddr n mem w) = true)
        ∧ (mem = 2 → (sget (fun _ => {}) (coreOf t.dev n).pm (pmKeyOf w)).poison = true)
        ∧ sget (fun _ => 0) t.dev.mem.latent (latentKey n mem w) = 0 ∧ t.dev.mem.ram = s.dev.mem.ram)

/-- Scrubber and patrol: the scrubber rewrites the oldest queued word and clears its latent error, and with nothing queued does nothing; the patrol, while SCRUB_ENABLE is set, reads the word its pointer names and moves to the next, and else does nothing (R127). -/
def Sys2Proof.Claim.ScrubberRepairs : Prop :=
  ∀ (s : State) (n : Fin 16) (mem : Fin 4), Awake s →
    (sget (fun _ => []) (coreOf s.dev n).scrub mem = [] → exec (.scrubWrite n mem) s = .next s)
    ∧ (∀ w rest, sget (fun _ => []) (coreOf s.dev n).scrub mem = w :: rest → ∃ t, exec (.scrubWrite n mem) s = .next t
      ∧ sget (fun _ => []) (coreOf t.dev n).scrub mem = rest ∧ sget (fun _ => 0) t.dev.mem.latent (latentKey n mem w) = 0
      ∧ cnt t.dev (0x2250 + n) 6 = (cnt s.dev (0x2250 + n) 6 + 1) % 2 ^ 32 ∧ t.dev.mem.ram = s.dev.mem.ram ∧ t.dev.mem.poison = s.dev.mem.poison)
    ∧ (∀ u : Fin 3, setting s.dev 0x2240 1 = 1 → ∃ t, exec (.patrolRead n mem u) s = .next t
      ∧ sget (fun _ => 0) (coreOf t.dev n).patrol mem = (sget (fun _ => 0) (coreOf s.dev n).patrol mem + 1) % memWords mem ∧ t.dev.mem.ram = s.dev.mem.ram)
    ∧ (∀ u : Fin 3, setting s.dev 0x2240 1 ≠ 1 → exec (.patrolRead n mem u) s = .next s)

/-- Narrow writes gather (R132 to R134, R560). The bytes of the mask that an instruction writes read back at once through the buffer: of a word that no entry holds, with room, while memory stays as it was; of a word that an entry holds, merged with what it held; with 4 entries held and none for the word, after the oldest has been flushed. Into the region of a window that is not closed undefined bytes go instead. A flush of a full entry leaves its 32 B in memory, changes no other byte of memory, and leaves no entry; without an entry in the place named it does nothing, and so does a write of a disabled core or of a place that holds no instruction. -/
def Sys2Proof.Claim.NarrowWritesGather : Prop :=
  ∀ (s : State) (n : Fin 16) (wm : Bool), Awake s →
    let c := coreOf s.dev n
    (∀ (i : Fin 256) (off : BitVec 20) (mask : BitVec 16) (bs : List Byte) (p : Bool), c.disabled = true ∨ c.ops[i.val]? = none →
      exec (.narrowWrite n i wm off mask bs p) s = .next s)
    ∧ (∀ (i : Fin 256) (off : BitVec 20) (mask : BitVec 16) (bs : List Byte) (p : Bool), c.disabled = false → c.ops[i.val]?.isSome = true → off.toNat % 32 + bs.length ≤ 32 →
        let go := exec (.narrowWrite n i wm off mask bs p) s
        let word := off.toNat / 32
        let elsewhere (t : State) : Prop := (∀ b < bs.length, bit mask b = false → coreByte t.dev n wm (off.toNat + b) = coreByte s.dev n wm (off.toNat + b))
          ∧ ∀ x, x / 32 ≠ word → coreByte t.dev n wm x = coreByte s.dev n wm x
        (windowAt c wm off.toNat = none → gatherOf c wm word = none → (gatherBuf c wm).length < 4 →
          ∃ t, go = .next t ∧ t.dev.mem.ram = s.dev.mem.ram ∧ elsewhere t ∧ ∀ b < bs.length, bit mask b = true → coreByte t.dev n wm (off.toNat + b) = bs.getD b 0#8)
        ∧ (∀ g, windowAt c wm off.toNat = none → gatherOf c wm word = some g → g.bytes.length = 32 →
          ∃ t, go = .next t ∧ elsewhere t ∧ ∀ b < bs.length, bit mask b = true → coreByte t.dev n wm (off.toNat + b) = bs.getD b 0#8)
        ∧ (∀ g rest, windowAt c wm off.toNat = none → gatherOf c wm word = none → gatherBuf c wm = g :: rest → rest.length = 3 →
          go = exec (.narrowWrite n i wm off mask bs p) { s with dev := flushGather s.dev n wm g })
        ∧ (∀ j, windowAt c wm off.toNat = some j → gatherOf c wm word = none → (gatherBuf c wm).length < 4 →
          ∃ t, go = .next t ∧ t.dev.mem.ram = s.dev.mem.ram ∧ elsewhere t
            ∧ ∀ b < bs.length, bit mask b = true → coreByte t.dev n wm (off.toNat + b) = Config.undefByte s.dev.freeNo (off.toNat + b)))
    ∧ (∀ k : Fin 4, (gatherBuf c wm)[k.val]? = none → exec (.gatherFlush n wm k) s = .next s ∧ exec (.gatherTimeout n wm k) s = .next s)
    ∧ (∀ (k : Fin 4) (g : Gather), (gatherBuf c wm)[k.val]? = some g →
      exec (.gatherFlush n wm k) s = .next { s with dev := flushGather s.dev n wm g }
      ∧ exec (.gatherTimeout n wm k) s = .next { s with dev := flushGather s.dev n wm g })
    ∧ (∀ g : Gather, g.mask = 2 ^ 32 - 1 → g.bytes.length = 32 →
      let e := flushGather s.dev n wm g
      (∀ b < 32, peek e.mem (coreAddr n wm (32 * g.word + b)) = g.bytes.getD b 0#8)
      ∧ (∀ a, a < coreAddr n wm (32 * g.word) ∨ coreAddr n wm (32 * g.word) + 32 ≤ a → peek e.mem a = peek s.dev.mem a)
      ∧ isPoison e.mem (coreAddr n wm (32 * g.word)) = g.poison ∧ g ∉ gatherBuf (coreOf e n) wm)

/-- A partial write of the SB by an agent that the region check grants it, or by the application cluster, stores its bytes and no others, and is counted; a refused one stores nothing, and outside the SB it is an address error (R21, R153, R462, R464). -/
def Sys2Proof.Claim.SbPartialWritesMerge : Prop :=
  ∀ (s : State) (g : Option (Fin 8)) (a : Addr) (bs : List Byte) (p : Bool) (u0 u1 : Fin 3), Awake s →
    let refused := match g with | some g => !agentMay s.dev g true (a.toNat / 64 * 64) | none => keyMissing s.dev a.toNat
    let go := exec (.sbPartialWrite g a bs p u0 u1) s
    (∀ k, areaOf s.dev a.toNat = .sb k → bs ≠ [] → bs.length < 64 → a.toNat % 64 + bs.length ≤ 64 → refused = false →
      ∃ t, go = .next t ∧ t.pending = s.pending ∧ t.otp = s.otp
        ∧ peeks t.dev.mem a.toNat bs.length = bs ∧ (∀ x, x < a.toNat ∨ a.toNat + bs.length ≤ x → peek t.dev.mem x = peek s.dev.mem x)
        ∧ cnt t.dev (0x2260 + k) 3 = (cnt s.dev (0x2260 + k) 3 + 1) % 2 ^ 32)
    ∧ (∀ k, areaOf s.dev a.toNat = .sb k → a.toNat % 64 + bs.length ≤ 64 → refused = true → ∃ t, go = .next t ∧ ∀ x, peek t.dev.mem x = peek s.dev.mem x)
    ∧ ((∀ k, areaOf s.dev a.toNat ≠ .sb k) → go = .next { s with dev := addressError s.dev (agentSource g a.toNat) a.toNat })

/-- The fill of a window register (R192): the half in turn takes the words of the pixels that the fill reads, becomes full, and the other half is in turn next; the front does not fill a half that is full, nor on a disabled or stopped core, nor for a place that holds no issued convolution, a tap whose line does not exist or a K-block that the tile has not. -/
def Sys2Proof.Claim.WindowRegisterFills : Prop :=
  ∀ (s : State) (n : Fin 16) (i : Fin 256) (t : W32) (ky kx : Fin 16) (kb : BitVec 12), Awake s →
    let c := coreOf s.dev n
    let go := exec (.wregFill n i t ky kx kb) s
    (c.disabled = true ∨ c.stopped = true ∨ bit c.wregFull c.wregHalf.toNat = true ∨ c.ops[i.val]? = none → go = .next s)
    ∧ ∀ o, c.ops[i.val]? = some o →
      let x := cnvOf s.dev n o (rOpcode o.word == 0x09)
      let tl := cnvTile x t.toNat
      (o.issued = false ∨ isConvOp (rOpcode o.word) = false ∨ inRow x tl.oy ky = none ∨ (blockSlices x tl.nb)[kb.toNat]? = none → go = .next s)
      ∧ (∀ iy sl, c.disabled = false → c.stopped = false → o.issued = true → isConvOp (rOpcode o.word) = true → bit c.wregFull c.wregHalf.toNat = false →
          inRow x tl.oy ky = some iy → (blockSlices x tl.nb)[kb.toNat]? = some sl →
          ∃ u, go = .next u ∧ bit (coreOf u.dev n).wregFull c.wregHalf.toNat = true ∧ (coreOf u.dev n).wregHalf = c.wregHalf + 1
            ∧ (∀ e < 1024, ∀ v, ((fillCols x tl.cols kx).flatMap fun ix => fillWords s.dev x sl iy ix)[e]? = some v →
                sget (fun _ => (0#256, false)) (coreOf u.dev n).wreg (c.wregHalf.toNat * 1024 + e) = v)
            ∧ u.dev.mem.ram = s.dev.mem.ram)

/-- A granule arrives (R120, R146, R147, R498). In a window that stands open for its writer and epoch, in a granted unit and at that unit's place, it lands, and END lands the unit; one for WM waits while an MTHIN runs. A stale one, and one that no window takes, are discarded and counted, the latter with an event. The router of a disabled core sinks it, and returns the unit's credit with its last granule. A unit that lands raises FILL by one. -/
def Sys2Proof.Claim.GranulesLandOrAreDiscarded : Prop :=
  ∀ (s : State) (n : Fin 16) (wm : Bool) (off : BitVec 20) (u : W32) (writer : BitVec 16) (epoch : BitVec 8) (bs : List (Byte × Bool)) (last hollow : Bool),
    Awake s →
    let c := coreOf s.dev n
    let go := exec (.granuleArrive n wm off u writer epoch bs last hollow) s
    let violates : Prop := ∃ t, go = .next t ∧ t.dev.mem = s.dev.mem ∧ t.dev.cores = s.dev.cores ∧ cnt t.dev (0x2250 + n) 8 = (cnt s.dev (0x2250 + n) 8 + 1) % 2 ^ 32
    (∀ j, windowAt c wm off.toNat = some j →
      let w := winChecked s.dev n j
      let fits : Prop := w.writer = writer ∧ unitGranted w u.toNat = true ∧ landOffset w u.toNat 0 = off.toNat / 512 * 512
      (c.disabled = false → w.state ≠ 3 → w.epoch = epoch → fits → (winAt s.dev n j).wm = false ∨ mthinRuns c = false →
        let e := if hollow || bs.isEmpty then s.dev else landData s.dev n j u.toNat (off.toNat % 512) bs
        go = .next { s with dev := if last || hollow then landUnit e n j u.toNat hollow else e })
      ∧ (c.disabled = false → w.state ≠ 3 → w.epoch = epoch → fits → (winAt s.dev n j).wm = true → mthinRuns c = true →
        go = .next { s with dev := updCore s.dev n fun c => { c with
          wmHeld := c.wmHeld ++ [{ win := j, unit := u.toNat, off := off.toNat % 512, data := bs, last := last, hollow := hollow }] } })
      ∧ (c.disabled = false → w.state = 3 ∨ w.epoch ≠ epoch → go = .next { s with dev := bump s.dev (0x2250 + n) 9 4 1 })
      ∧ (c.disabled = false → w.state ≠ 3 → w.epoch = epoch → ¬ fits → violates)
      ∧ (c.disabled = true → go = .next { s with dev := if last || hollow then giveCredits (bump s.dev (0x2300 + n) 6 8 1) n j writer 1 else bump s.dev (0x2300 + n) 6 8 1 }))
    ∧ (windowAt c wm off.toNat = none → c.disabled = false → violates)
    ∧ (windowAt c wm off.toNat = none → c.disabled = true → go = .next { s with dev := bump s.dev (0x2300 + n) 6 8 1 })
    ∧ (∀ (d : Dev) (i v : Nat), (winAt (landUnit d n i v hollow) n i).fill = (winAt d n i).fill + 1)

/-- A discarded unit leaves every byte of memory as it was: whatever a writer sends to a window that is closed, revoked, or open for another writer or epoch, or in a unit not granted, no byte of any memory changes, and the window stays as it was (R144, R146, R147). -/
def Obligations.OnlyTheWriterWritesAWindow : Prop :=
  ∀ (d : Dev) (node i u : Nat) (writer : BitVec 16) (epoch : BitVec 8) (bs : List (Byte × Bool)) (hollow : Bool),
    let w := winAt d node i
    w.state = 0 ∨ w.state = 3 ∨ w.epoch ≠ epoch ∨ w.writer ≠ writer ∨ unitGranted (winChecked d node i) u = false →
    let e := deliverUnit d node i writer epoch u bs hollow
    e.mem = d.mem ∧ e.mpe.buf = d.mpe.buf ∧ (∀ n, (coreOf e n).wmHeld = (coreOf d n).wmHeld ∧ (coreOf e n).pm = (coreOf d n).pm) ∧ winAt e node i = w

/-- Windows drain and credits return: a closing or revoked window becomes closed, a block window freeing every unit; the freed credits of an open window are granted again in one message, and a core that writes it goes on sending; in any other state, and on a disabled core, nothing happens (R148 to R151, R498). -/
def Sys2Proof.Claim.WindowsDrainAndCreditsReturn : Prop :=
  ∀ (s : State) (node : Fin 33) (i : Fin 20), Awake s →
    let w := winAt s.dev node i
    let w' := { w with granted := w.granted + BitVec.ofNat 12 w.pendingCredits, pendingCredits := 0 }
    let off : Prop := node.val < 16 ∧ (coreOf s.dev node).disabled = true
    (w.state = 2 ∨ w.state = 3 → exec (.windowDrainTimeout node i) s = .next { s with dev := setWinAt s.dev node i (if w.block then { w with state := 0, free := w.fill, freed := w.freed + (w.fill - w.free).toNat, hollow := [] } else { w with state := 0 }) })
    ∧ (w.state ≠ 2 → w.state ≠ 3 → exec (.windowDrainTimeout node i) s = .next s)
    ∧ (w.state ≠ 1 ∨ w.pendingCredits = 0 ∨ off → exec (.creditReturn node i) s = .next s)
    ∧ (w.state = 1 → w.pendingCredits ≠ 0 → ¬ off → w.writer.toNat / 4096 ≠ 1 →
        ∃ t, exec (.creditReturn node i) s = .next t ∧ t.dev.mem = s.dev.mem ∧ winAt t.dev node i = w'
          ∧ (∀ r, w.writer.toNat / 4096 = 2 → recvOf (chan s.dev (w.writer.toNat % 4096)) node i = some r →
              chCredit (chan t.dev (w.writer.toNat % 4096)) r = (chCredit (chan s.dev (w.writer.toNat % 4096)) r + w.pendingCredits) % 4096))
    ∧ (w.state = 1 → w.pendingCredits ≠ 0 → ¬ off → w.writer.toNat / 4096 = 1 →
        exec (.creditReturn node i) s = .next { s with dev := pump (setWinAt s.dev node i w') (w.writer.toNat % 16) })

/-- Channels open and close: the descriptor's upper words are written while the channel is idle, reserved bits staying 0, and all else is ignored; an access of another size is an address error; an opening channel becomes active once every window receiver stands open for it, and takes its work context's epoch; a cancelled one becomes idle with no frame and nothing owed; in any other state the channel stays as it is (R224, R225, R258). -/
def Sys2Proof.Claim.ChannelsOpenAndClose : Prop :=
  ∀ (s : State) (ch : BitVec 9), Awake s →
    let c := chan s.dev ch.toNat
    (∀ (k : Fin 8) (v : W64),
      (c.state = 0 → 4 ≤ k.val → exec (.channelDescriptorWrite ch k v true) s = .next { s with dev := setChan s.dev ch.toNat { c with rw := BitVec.ofNat 256 (setFld c.rw.toNat (64 * (k.val - 4)) 64 v.toNat) &&& BitVec.ofNat 256 chanRwMask } })
      ∧ (c.state ≠ 0 ∨ k.val < 4 → exec (.channelDescriptorWrite ch k v true) s = .next s)
      ∧ (exec (.channelDescriptorWrite ch k v false) s = .next { s with dev :=
          (addressError s.dev (srcSe (ch.toNat / 64)) (0x3000A00000 + ch.toNat / 64 * 0x100000 + ch.toNat % 64 * 0x40 + 8 * k.val)) }))
    ∧ (c.state = 1 → (∀ r < 4, isWinRecv c r = true → recvOpen s.dev ch.toNat r = true) →
        exec (.channelActive ch) s = .next { s with dev := setChan s.dev ch.toNat { c with state := 2, epoch := (wcOf s.dev (chWc c)).epoch } })
    ∧ (c.state ≠ 1 ∨ (∃ r < 4, isWinRecv c r = true ∧ recvOpen s.dev ch.toNat r = false) → exec (.channelActive ch) s = .next s)
    ∧ (c.state = 4 → exec (.channelCancelDone ch) s = .next { s with dev := setChan s.dev ch.toNat { c with state := 0, frames := [], owed := [] } })
    ∧ (c.state ≠ 4 → exec (.channelCancelDone ch) s = .next s)

/-- Channels send (R227, R229 to R234, R243, R244). An engine sends one unit of a channel that may send, of the lowest class; with none it does nothing. A stall timer that runs out counts the stall, ends the wait for hollow units owed, and detaches exactly the receivers without a credit when another holds one; on a channel that does not wait it does nothing. A hollow unit pays one owed, where one is owed and a credit is held. The end of the stream, once it stands at the front of the channel, goes to each receiver once. The CP grants a load turn to the next asking core in the rotation while fewer than LOAD_WIDTH hold one, and else none. -/
def Sys2Proof.Claim.ChannelsSend : Prop :=
  ∀ (s : State), Awake s →
    (∀ (e : Fin 8), chosenChan s.dev e = none → exec (.unitSend e) s = .next s)
    ∧ (∀ (e : Fin 8) ch, chosenChan s.dev e = some ch → exec (.unitSend e) s = .next { s with dev :=
      (sendUnit { s.dev with se := { s.dev.se with rr := sset (fun _ => 63) s.dev.se.rr (e * 4 + wClass (wcOf s.dev (chWc (chan s.dev ch)))) (ch % 64) } } ch) })
    ∧ (∀ (e : Fin 8) ch, chosenChan s.dev e = some ch → canSend (chan s.dev ch) = true ∧ 64 * e ≤ ch ∧ ch < 64 * e + 64
        ∧ ∀ c, 64 * e ≤ c → c < 64 * e + 64 → canSend (chan s.dev c) = true → wClass (wcOf s.dev (chWc (chan s.dev ch))) ≤ wClass (wcOf s.dev (chWc (chan s.dev c))))
    ∧ (∀ (ch : BitVec 9),
        let c := reattach (chan s.dev ch.toNat)
        let lack := (attached c).filter fun r => chCredit c r == 0
        let holds := (attached c).filter fun r => chCredit c r != 0
        let waits : Prop := c.state = 2 ∧ (nextUnit c).isSome = true ∧ (lack ≠ [] ∨ owedRecvs c ≠ [])
        (¬ waits → exec (.stallTimeout ch) s = .next s)
        ∧ (waits → ∃ t, exec (.stallTimeout ch) s = .next t ∧ t.dev.mem = s.dev.mem
          ∧ (∀ r < 4, bit (chan t.dev ch.toNat).detached r = (bit c.detached r || (decide (holds ≠ []) && lack.contains r)))
          ∧ (∀ r ∈ owedRecvs c, bit (chan t.dev ch.toNat).held r = true)
          ∧ cnt t.dev (0x22C0 + ch.toNat / 64) 4 = (cnt s.dev (0x22C0 + ch.toNat / 64) 4 + 1200 * stallTimeout s.dev c) % 2 ^ 64))
    ∧ (∀ (ch : BitVec 9) (r : Fin 4),
        let c := chan s.dev ch.toNat
        let may : Prop := (c.state = 2 ∨ c.state = 3) ∧ isWinRecv c r = true ∧ chOwed c r ≠ 0 ∧ chCredit c r ≠ 0
        (¬ may → exec (.hollowUnitSend ch r) s = .next s)
        ∧ (may → ∃ t, exec (.hollowUnitSend ch r) s = .next t ∧ chOwed (chan t.dev ch.toNat) r = chOwed c r - 1
          ∧ cnt t.dev (0x22C0 + ch.toNat / 64) 2 = (cnt s.dev (0x22C0 + ch.toNat / 64) 2 + 1) % 2 ^ 64 ∧ t.dev.mem = s.dev.mem))
    ∧ (∀ (ch : BitVec 9) (r : Fin 4),
        let c := chan s.dev ch.toNat
        let d := setChan s.dev ch.toNat { c with state := 3 }
        let atEnd : Prop := (c.state = 2 ∨ c.state = 3) ∧ ∃ f rest, c.frames = f :: rest ∧ f.ends = true
        let due : Prop := isWinRecv c r = true ∧ bit c.ended r = false ∧ chOwed c r = 0
        let d' := setChan d ch.toNat { setCredit { c with state := 3 } r 0 with ended := c.ended ||| BitVec.ofNat 4 (2 ^ r.val) }
        (¬ atEnd → exec (.streamEndSend ch r) s = .next s)
        ∧ (atEnd → due → exec (.streamEndSend ch r) s = .next { s with dev :=
            (streamOver (streamEndAt d' (rvNode (chRecv c r)) (rvWindow (chRecv c r)) (chanWriter ch.toNat) c.epoch c.sent.toNat) ch.toNat) })
        ∧ (atEnd → ¬ due → exec (.streamEndSend ch r) s = .next { s with dev := streamOver d ch.toNat }))
    ∧ (∀ (w : BitVec 12),
        let c := wcOf s.dev w.toNat
        let next := (turnOrder c.lastTurn).find? fun n => bit c.asks n
        (wLoadWidth c = 0 ∨ wLoadWidth c ≤ (coresIn c.turns).length ∨ next = none → exec (.loadTurnGrant w) s = .next s)
        ∧ (∀ n, wLoadWidth c ≠ 0 → (coresIn c.turns).length < wLoadWidth c → next = some n → exec (.loadTurnGrant w) s = .next { s with dev := updWc s.dev w.toNat fun c => { c with turns := c.turns ||| BitVec.ofNat 16 (2 ^ n), asks := c.asks &&& ~~~(BitVec.ofNat 16 (2 ^ n)), lastTurn := n } }))

/-- The fetch engine (R238 to R240, R256, R498). A SPILL's oldest transfer goes out whole; a FETCH asks for as many granules as the landing buffer has entries for, never more than 256 in all, and keeps what is left of the transfer; a transfer of no issued instruction is dropped. A granule that returns lands, or is discarded when its epoch is stale, or sinks at a disabled core. With nothing to do, nothing changes. -/
def Obligations.FetchEngineRuns : Prop :=
  ∀ (s : State) (n : Fin 16), Awake s →
    let c := coreOf s.dev n
    (c.disabled = true ∨ c.fe = [] → exec (.feTransfer n) s = .next s)
    ∧ (∀ x rest, c.disabled = false → c.fe = x :: rest → opAt c x.wc x.ring x.pos = none → exec (.feTransfer n) s = .next { s with dev := updCore s.dev n fun c => { c with fe := rest } })
    ∧ (∀ x rest i o, c.disabled = false → c.fe = x :: rest → opAt c x.wc x.ring x.pos = some (i, o) →
      let room := 256 - c.landing.length
      let len := min x.len (room * 64 - (if room = 0 then 0 else x.src % 64))
      (rOpcode o.word = 0x19 →
        let bs := coreMarked s.dev n ((opDesc o (rDescSrc o.word)).space == 2) x.src x.len
        let d := feStore (updCore s.dev n fun c => { c with fe := rest }) n o x.dst bs
        exec (.feTransfer n) s = .next { s with dev := feSettle (markPoison (bump (bump d (0x22D0 + n) 1 8 1) (0x22D0 + n) 3 8 x.len) n i (bs.any (·.2))) n i o })
      ∧ (rOpcode o.word ≠ 0x19 → len = 0 → exec (.feTransfer n) s = .next s)
      ∧ (rOpcode o.word ≠ 0x19 → len ≠ 0 →
        ∃ t gs, exec (.feTransfer n) s = .next t ∧ (coreOf t.dev n).landing = c.landing ++ gs ∧ (gs.map fun g => g.data.length).sum = len
          ∧ (coreOf t.dev n).fe = (if len < x.len then [{ x with src := x.src + len, dst := x.dst + len, len := x.len - len }] else []) ++ rest
          ∧ (len = x.len → cnt t.dev (0x22D0 + n) 1 = (cnt s.dev (0x22D0 + n) 1 + 1) % 2 ^ 64)))
    ∧ (∀ t, exec (.feTransfer n) s = .next t → c.landing.length ≤ 256 → (coreOf t.dev n).landing.length ≤ 256)
    ∧ (c.landing = [] → exec (.feGranuleReturn n) s = .next s)
    ∧ (∀ g rest, c.landing = g :: rest →
      let d := feSub (updCore s.dev n fun c => { c with landing := rest }) n g.wc 1
      (c.disabled = true → exec (.feGranuleReturn n) s = .next { s with dev := bump d (0x2300 + n) 6 8 1 })
      ∧ (c.disabled = false → g.epoch ≠ (wcOf s.dev g.wc).epoch → exec (.feGranuleReturn n) s = .next { s with dev := bump d (0x22D0 + n) 6 4 1 })
      ∧ (c.disabled = false → g.epoch = (wcOf s.dev g.wc).epoch → opAt c g.wc g.ring g.pos = none → exec (.feGranuleReturn n) s = .next { s with dev := d })
      ∧ (∀ i o, c.disabled = false → g.epoch = (wcOf s.dev g.wc).epoch → opAt c g.wc g.ring g.pos = some (i, o) →
          exec (.feGranuleReturn n) s = .next { s with dev :=
            (feSettle (markPoison (bump (feStore d n o g.dst g.data) (0x22D0 + n) 2 8 g.data.length) n i (g.data.any (·.2))) n i o) }))

/-- The correction stage, the scrubber and the patrol (R126 to R128). -/
def Obligations.CoreMemoryRepairs : Prop :=
  Claim.CoreMemoryReadsCorrect ∧ Claim.ScrubberRepairs

/-- Gathered narrow writes, partial writes of the SB, and the window-register fill (R132 to R134, R153, R192). -/
def Obligations.NarrowWritesGather : Prop :=
  Claim.NarrowWritesGather ∧ Claim.SbPartialWritesMerge ∧ Claim.WindowRegisterFills

/-- Windows take granules, drain, and return credits (R146 to R151). -/
def Obligations.WindowsTakeGranules : Prop :=
  Claim.GranulesLandOrAreDiscarded ∧ Claim.WindowsDrainAndCreditsReturn

/-- Stream channels open, send, detach, end and close (R224 to R234, R243, R244, R258). -/
def Obligations.ChannelsRun : Prop :=
  Claim.ChannelsOpenAndClose ∧ Claim.ChannelsSend

/-! ### MPE, cameras, sensor control and the ledger -/

/-- MPE records: the first that fits becomes resident, with its window open for its work context and epoch, for IPL port n where the record names it, and the report counts it; with none that fits nothing happens; with no record ready a line command settles the queue, and with some ready it runs a line of one whose class is the lowest (R214, R216). -/
def Obligations.MpeRecordsRun : Prop :=
  ∀ (s : State), Awake s →
    (∀ j r, ((withPos s.dev.mpe.recs).find? fun x => mayReside s.dev x.1 x.2) = some (j, r) → ∃ t, exec .mpeRecordResident s = .next t
      ∧ ((t.dev.mpe.recs[j]?).map (·.resident)) = some true ∧ ((t.dev.mpe.recs[j]?).map (·.units)) = some (recUnits s.dev r.op)
      ∧ (winAt t.dev 16 (mpeA r.op).window).state = 1 ∧ (winAt t.dev 16 (mpeA r.op).window).epoch = r.op.epoch
      ∧ (winAt t.dev 16 (mpeA r.op).window).wc = r.op.wc
      ∧ (mpeFrom r.op.word = true → (winAt t.dev 16 (mpeA r.op).window).writer = BitVec.ofNat 16 (0x3000 + mpeIc r.op.word))
      ∧ cnt t.dev 0x22A0 6 = (t.dev.mpe.recs.filter (·.resident)).length ∧ cnt t.dev 0x22A0 7 = mpeUsed t.dev)
    ∧ (((withPos s.dev.mpe.recs).find? fun x => mayReside s.dev x.1 x.2) = none → exec .mpeRecordResident s = .next s)
    ∧ ∀ u1 u2, (((withPos s.dev.mpe.recs).filter fun x => mpeReady s.dev x.2) = [] → exec (.mpeLine u1 u2) s = .next { s with dev := mpeSettle s.dev })
      ∧ (∀ j r, ((withPos s.dev.mpe.recs).filter fun x => mpeReady s.dev x.2) = [(j, r)] →
          exec (.mpeLine u1 u2) s = .next { s with dev := mpeSettle (mpeLineAt s.dev j r u1 u2) })
      ∧ (∀ j r, s.dev.mpe.recs.length ≤ 64 → (j, r) ∈ withPos s.dev.mpe.recs → mpeReady s.dev r = true →
          ∃ k q, (k, q) ∈ withPos s.dev.mpe.recs ∧ mpeReady s.dev q = true ∧ wClass (wcOf s.dev q.op.wc) ≤ wClass (wcOf s.dev r.op.wc)
            ∧ exec (.mpeLine u1 u2) s = .next { s with dev := mpeSettle (mpeLineAt s.dev k q u1 u2) })

/-- The camera link: bursts on a port without termination are only counted, and nothing else of a burst is taken there; a burst without sync, or above 1,500 Mb/s before the initial deskew, is discarded and counted as a link error; an uncorrectable header is counted and the rest of its burst is skipped; a good header of a known type waits for its packet; the short packets of line starts, line ends and generic use are ignored, and any other type is unrouted; outside a burst, or in the rest of a skipped one, a header does nothing (R330 to R337). -/
def Obligations.CameraLinkRuns : Prop :=
  ∀ (s : State) (p : Fin 4), Awake s →
    let c := cam s.dev p
    (termOn s.dev p = false → ∀ sync, exec (.hsBurst p sync) s = .next { s with dev := bump s.dev (camB p + 3) 7 4 1 })
    ∧ (termOn s.dev p = false → exec (.idleBursts p) s = .next { s with dev := bump s.dev (camB p + 3) 7 4 1 })
    ∧ (termOn s.dev p = true → exec (.idleBursts p) s = .next s)
    ∧ (termOn s.dev p = true → setting s.dev (camB p) 2 ≤ 1500 ∨ c.deskewed = true → ∃ t, exec (.hsBurst p true) s = .next t
        ∧ cam t.dev p = { c with burst := true, skip := false, header := none } ∧ t.dev.od = s.dev.od)
    ∧ (termOn s.dev p = true → ∀ sync, sync = false ∨ (1500 < setting s.dev (camB p) 2 ∧ c.deskewed = false) → ∃ t, exec (.hsBurst p sync) s = .next t
        ∧ (cam t.dev p).skip = true ∧ cnt t.dev (camB p + 3) 8 = (cnt s.dev (camB p + 3) 8 + 1) % 2 ^ 32)
    ∧ (termOn s.dev p = true → ∀ initial, ∃ t, exec (.deskewSequence p initial) s = .next t ∧ cam t.dev p = { c with deskewed := c.deskewed || initial } ∧ t.dev.od = s.dev.od)
    ∧ (termOn s.dev p = false → ∀ initial, exec (.deskewSequence p initial) s = .next s)
    ∧ ((termOn s.dev p && c.burst && !c.skip) = false → ∀ vc dt word ecc, exec (.packetHeader p vc dt word ecc) s = .next s)
    ∧ (termOn s.dev p = true → c.burst = true → c.skip = false → ∀ (vc : Fin 16) (dt : BitVec 6) (word : BitVec 16),
        (∀ ecc : Fin 3, ecc ≠ 2 → dt = 0#6 ∨ dt = 1#6 ∨ dt = 0x12#6 ∨ dt.toNat ∈ imageTypes → ∃ t, exec (.packetHeader p vc dt word ecc) s = .next t
          ∧ (cam t.dev p).header = some (vc.val, dt.toNat, word.toNat) ∧ cnt t.dev (camB p + 3) 1 = (cnt s.dev (camB p + 3) 1 + 1) % 2 ^ 64
          ∧ cnt t.dev (camB p + 3) 2 = (if ecc = 1 then (cnt s.dev (camB p + 3) 2 + 1) % 2 ^ 32 else cnt s.dev (camB p + 3) 2))
        ∧ (∀ ecc : Fin 3, ecc ≠ 2 → dt = 2#6 ∨ dt = 3#6 ∨ (8 ≤ dt.toNat ∧ dt.toNat ≤ 15) → ∃ t, exec (.packetHeader p vc dt word ecc) s = .next t
          ∧ (cam t.dev p).header = none ∧ cnt t.dev (camB p + 3) 6 = cnt s.dev (camB p + 3) 6)
        ∧ (∀ ecc : Fin 3, ecc ≠ 2 → (4 ≤ dt.toNat ∧ dt.toNat ≤ 7) ∨ (15 < dt.toNat ∧ dt ≠ 0x12#6 ∧ dt.toNat ∉ imageTypes) → ∃ t, exec (.packetHeader p vc dt word ecc) s = .next t
          ∧ (cam t.dev p).header = none ∧ cnt t.dev (camB p + 3) 6 = (cnt s.dev (camB p + 3) 6 + 1) % 2 ^ 32)
        ∧ (∃ t, exec (.packetHeader p vc dt word 2) s = .next t
          ∧ (cam t.dev p).skip = true ∧ (cam t.dev p).header = none ∧ cnt t.dev (camB p + 3) 3 = (cnt s.dev (camB p + 3) 3 + 1) % 2 ^ 32))

/-- Frames open and close: a frame start of a routed channel closes an open frame and numbers the next; a frame end or the timeout closes it; without their header the packets do nothing, and one of no context is unrouted; a close is stamped with its time and counted in FRAMES, and as short, long or incomplete; on a context that is up, of a Running port, the numbered frame is dropped and counted where the governor drops it, and opened and counted otherwise (R253 to R255, R340, R342, R346, R349). -/
def Sys2Proof.Claim.FramesOpenAndClose : Prop :=
  ∀ (s : State), Awake s →
    (∀ (p : Fin 4), pendingHeader s.dev p (· == 0x00) = none → exec (.frameStartPacket p) s = .next s)
    ∧ (∀ (p : Fin 4), pendingHeader s.dev p (· == 0x01) = none → exec (.frameEndPacket p) s = .next s)
    ∧ (∀ (p : Fin 4) vc word csi, pendingHeader s.dev p (· == 0x00) = some (vc, word, csi) →
      let d := dropHeader s.dev p
      (routed d p vc = [] → exec (.frameStartPacket p) s = .next { s with dev := unrouted d p })
      ∧ (routed d p vc ≠ [] → exec (.frameStartPacket p) s = .next { s with dev := (routed d p vc).foldl (numberFrame csi fun q => (cam d q).force) d }))
    ∧ (∀ (p : Fin 4) vc word csi, pendingHeader s.dev p (· == 0x01) = some (vc, word, csi) →
      let d := dropHeader s.dev p
      (routed d p vc = [] → exec (.frameEndPacket p) s = .next { s with dev := unrouted d p })
      ∧ (routed d p vc ≠ [] → exec (.frameEndPacket p) s = .next { s with dev := (routed d p vc).foldl (fun d n => endDropped (closeFrame d n false) n) d }))
    ∧ (∀ (n : Fin 16), exec (.frameTimeout n) s = .next { s with dev := endDropped (closeFrame s.dev n true) n })
    ∧ (∀ (n : Nat) (noFe : Bool), openFrame s.dev n = none → closeFrame s.dev n noFe = s.dev)
    ∧ (∀ (n : Nat) (f : IcFrame) (noFe : Bool), openFrame s.dev n = some f → (∀ g ∈ (ic s.dev n).frames, g.opened = true → g = f) →
      let e := closeFrame s.dev n noFe
      openFrame e n = none ∧ (ic e n).closeNs = s.dev.clk.ns ∧ (ic e n).frames.length = (ic s.dev n).frames.length
      ∧ cnt e (icX n + 1) 0x0D = (cnt s.dev (icX n + 1) 0x0D + 1) % 2 ^ 32
      ∧ cnt e (icX n + 1) 0x0E = (if f.lines < icHeight s.dev n then (cnt s.dev (icX n + 1) 0x0E + 1) % 2 ^ 32 else cnt s.dev (icX n + 1) 0x0E)
      ∧ cnt e (icX n + 1) 0x0F = (if f.long then (cnt s.dev (icX n + 1) 0x0F + 1) % 2 ^ 32 else cnt s.dev (icX n + 1) 0x0F)
      ∧ cnt e (icX n + 1) 0x10 = (if f.incomplete then (cnt s.dev (icX n + 1) 0x10 + 1) % 2 ^ 32 else cnt s.dev (icX n + 1) 0x10))
    ∧ (∀ (n csi : Nat) marks, n < 16 → openFrame s.dev n = none → (ic s.dev n).dropping = false →
      let e := numberFrame csi marks s.dev n
      (fnUp s.dev (icFn n) = false ∨ actual s.dev (camFn (icPort s.dev n)) ≠ 2 → e = s.dev)
      ∧ (fnUp s.dev (icFn n) = true → actual s.dev (camFn (icPort s.dev n)) = 2 →
        (ic e n).count = (ic s.dev n).count + 1 ∧ (ic e n).prevCsi = csi
        ∧ (governorDrops s.dev n = true → openFrame e n = none ∧ (ic e n).dropping = true ∧ cnt e (icX n + 0x3E) 5 = (cnt s.dev (icX n + 0x3E) 5 + 1) % 2 ^ 32)
        ∧ (governorDrops s.dev n = false → (openFrame e n).map (·.no) = some (ic s.dev n).count ∧ cnt e (icX n + 0x3E) 4 = (cnt s.dev (icX n + 0x3E) 4 + 1) % 2 ^ 32)))

/-- An image line of a routed type: within HEIGHT and with room in the port's FIFO it enters the FIFO with its samples, bad when its CRC or its length is wrong, and missing bytes read zero; beyond HEIGHT it is dropped as extra; without room, or in a frame already incomplete, it does not enter; without its header nothing happens, and a line that no open frame takes is unrouted (R337, R339, R341, R344, R345). -/
def Sys2Proof.Claim.ImageLinesEnter : Prop :=
  ∀ (s : State) (p : Fin 4) (payload : List Byte) (crcOk : Bool), Awake s →
    (pendingHeader s.dev p (imageTypes.contains ·) = none → exec (.imageLinePacket p payload crcOk) s = .next s)
    ∧ ∀ (vc dt word : Nat), pendingHeader s.dev p (imageTypes.contains ·) = some (vc, dt, word) →
      (imageTarget (dropHeader s.dev p) p vc dt = none → exec (.imageLinePacket p payload crcOk) s = .next { s with dev := unrouted (dropHeader s.dev p) p })
      ∧ (∀ n, imageTarget (dropHeader s.dev p) p vc dt = some n → openFrame s.dev n = none → ∃ t, exec (.imageLinePacket p payload crcOk) s = .next t
        ∧ t.dev.ipl.rx = s.dev.ipl.rx ∧ cnt t.dev (camB p + 3) 6 = (cnt s.dev (camB p + 3) 6 + 1) % 2 ^ 32)
      ∧ ∀ (n : Nat) (f : IcFrame), imageTarget (dropHeader s.dev p) p vc dt = some n → openFrame s.dev n = some f →
        let need := lineBytes dt (icWidth s.dev n)
        let bad := !crcOk || word != need
        let bs := ((payload.take word) ++ List.replicate (need - (payload.take word).length) 0#8).take need
        (f.incomplete = true → ∃ t, exec (.imageLinePacket p payload crcOk) s = .next t ∧ t.dev.ipl.rx = s.dev.ipl.rx)
        ∧ (f.incomplete = false → f.lines < icHeight s.dev n → fifoUsed s.dev p + need ≤ 16384 → ∃ t, exec (.imageLinePacket p payload crcOk) s = .next t
          ∧ t.dev.ipl.rx = s.dev.ipl.rx ++ [{ port := p, ctx := n, frame := f.no, line := f.lines, bad := bad, bytes := need, px := lineSamples dt bs }]
          ∧ (∀ g, frameOf t.dev n f.no = some g → g.lines = f.lines + 1 ∨ frameOf s.dev n f.no ≠ some f)
          ∧ cnt t.dev (icX n + 1) 0x11 = (if bad then (cnt s.dev (icX n + 1) 0x11 + 1) % 2 ^ 32 else cnt s.dev (icX n + 1) 0x11)
          ∧ cnt t.dev (camB p + 3) 4 = (if crcOk then cnt s.dev (camB p + 3) 4 else (cnt s.dev (camB p + 3) 4 + 1) % 2 ^ 32)
          ∧ cnt t.dev (camB p + 3) 5 = (if word = need then cnt s.dev (camB p + 3) 5 else (cnt s.dev (camB p + 3) 5 + 1) % 2 ^ 32))
        ∧ (f.incomplete = false → icHeight s.dev n ≤ f.lines → ∃ t, exec (.imageLinePacket p payload crcOk) s = .next t ∧ t.dev.ipl.rx = s.dev.ipl.rx
          ∧ cnt t.dev (icX n + 1) 0x12 = (cnt s.dev (icX n + 1) 0x12 + 1) % 2 ^ 32)
        ∧ (f.incomplete = false → f.lines < icHeight s.dev n → 16384 < fifoUsed s.dev p + need → ∃ t, exec (.imageLinePacket p payload crcOk) s = .next t
          ∧ t.dev.ipl.rx = s.dev.ipl.rx ∧ ∀ g, frameOf t.dev n f.no = some g → g.incomplete = true)

/-- Packing of RAW pixels (R339, Table 10.2; places of the low bits after CSI-2, log 33): every pixel of a RAW10, RAW12 or RAW14 group has its own byte as its high bits, and lies within its width. -/
def Sys2Proof.Claim.RawPixelsUnpack : Prop :=
  ∀ (b : List Byte) (i : Nat),
    (i < 4 → b.length = 5 → ∃ v, (unpackGroup 0x2B b)[i]? = some v ∧ v / 4 = (b.getD i 0#8).toNat ∧ v % 4 = (b.getD 4 0#8).toNat / 4 ^ i % 4 ∧ v < 1024)
    ∧ (i < 2 → b.length = 3 → ∃ v, (unpackGroup 0x2C b)[i]? = some v ∧ v / 16 = (b.getD i 0#8).toNat ∧ v < 4096)
    ∧ (i < 4 → b.length = 7 → ∃ v, (unpackGroup 0x2D b)[i]? = some v ∧ v / 64 = (b.getD i 0#8).toNat ∧ v < 16384)

/-- Embedded data goes to its frame's slot at the next 64 B boundary, what passes the slot's end is discarded and counted, and the stamp follows when the frame has closed; without its header nothing happens, one that no open frame takes is unrouted, and with no frame waiting for its stamp the stamp command does nothing (R337, R348). -/
def Sys2Proof.Claim.EmbeddedDataIsStored : Prop :=
  ∀ (s : State), Awake s →
    (∀ (p : Fin 4) (payload : List Byte), pendingHeader s.dev p (· == 0x12) = none → exec (.embeddedDataPacket p payload) s = .next s)
    ∧ (∀ (p : Fin 4) (payload : List Byte) vc dt word, pendingHeader s.dev p (· == 0x12) = some (vc, dt, word) →
      let d := dropHeader s.dev p
      let dst := (routed d p vc).find? fun n => setting d (icX n + 1) 9 == 1
      (dst = none → exec (.embeddedDataPacket p payload) s = .next { s with dev := unrouted d p })
      ∧ (∀ n, dst = some n → openFrame d n = none → exec (.embeddedDataPacket p payload) s = .next { s with dev := unrouted d p })
      ∧ ∀ n f, dst = some n → openFrame d n = some f →
        let bs := payload.take word
        let room := setting d (icX n + 1) 0x0B - f.embOff
        exec (.embeddedDataPacket p payload) s = .next { s with dev :=
          (updFrame (memWrite (bump d (icX n + 1) 0x14 4 (bs.length - room)) (some agIpl) (srcCrx p) (embSlot d n f.no + f.embOff) (bs.take room) false)
            n f.no fun f => { f with embOff := ceilDiv (f.embOff + min bs.length room) 64 * 64 }) })
    ∧ (∀ (n : Fin 16), (ic s.dev n).frames.find? (fun f => f.embStamp && !f.opened) = none → exec (.embeddedStampWrite n) s = .next s)
    ∧ (∀ (n : Fin 16) f, (ic s.dev n).frames.find? (fun f => f.embStamp && !f.opened) = some f →
      exec (.embeddedStampWrite n) s = .next { s with dev :=
        (tidyFrames (updFrame (memWrite s.dev (some agIpl) (srcCrx (icPort s.dev n)) (embSlot s.dev n f.no) (stampBytes (icPort s.dev n) n f) false)
          n f.no fun f => { f with embStamp := false }) n) })

/-- Sensor commands: a CMD write while BUSY is set is discarded and counted; otherwise the command is taken, and runs at once when no ledger write is due; its end gives RX_BUF, RESULT, DONE and an idle controller, with code 5, no bytes and RX_BUF kept for fields out of range, and with no command running it does nothing; in I3C mode an in-band interrupt is acknowledged with its payload, outside it nothing happens; a trigger pulse starts where one is due, and is counted (R352 to R355). -/
def Sys2Proof.Claim.SensorCommandsRun : Prop :=
  ∀ (s : State) (p : Fin 4), Awake s →
    let x := (cam s.dev p).i3c
    let word (kind : Nat) (addr : BitVec 7) (wlen rlen : BitVec 8) (ccc : Byte) (direct : Bool) : W64 :=
      BitVec.ofNat 64 (ccc.toNat * 2 ^ 56 + kind * 2 ^ 30 + addr.toNat * 2 ^ 23 + wlen.toNat * 2 ^ 15 + rlen.toNat * 2 ^ 7 + (if direct then 1 else 0))
    (x.busy = true → ∀ addr wlen rlen ccc direct,
      (let r : State := { s with dev := bump s.dev (camB p + 3) 9 4 1 }
       exec (.i3cWrite p addr wlen) s = .next r ∧ exec (.i3cRead p addr rlen) s = .next r ∧ exec (.i3cWriteThenRead p addr wlen rlen) s = .next r
       ∧ exec (.i3cCcc p ccc addr wlen rlen direct) s = .next r))
    ∧ (x.busy = false → ∀ addr wlen rlen ccc direct,
      (let r (v : W64) : State := { s with dev := updCam s.dev p fun c => { c with i3c := { c.i3c with busy := true, running := c.issuing.isEmpty, cmd := v } } }
       exec (.i3cWrite p addr wlen) s = .next (r (word 0 addr wlen 0#8 0#8 false)) ∧ exec (.i3cRead p addr rlen) s = .next (r (word 1 addr 0#8 rlen 0#8 false))
       ∧ exec (.i3cWriteThenRead p addr wlen rlen) s = .next (r (word 2 addr wlen rlen 0#8 false))
       ∧ exec (.i3cCcc p ccc addr wlen rlen direct) s = .next (r (word 3 addr wlen rlen ccc direct))))
    ∧ (x.running = false → ∀ code bytes rx, exec (.i3cCommandDone p code bytes rx) s = .next s)
    ∧ (x.running = true → ∀ (code : Fin 5) (bytes : BitVec 9) rx, ∃ t, exec (.i3cCommandDone p code bytes rx) s = .next t
      ∧ (cam t.dev p).i3c.busy = false ∧ (cam t.dev p).i3c.running = false ∧ bit (cam t.dev p).i3c.irq 0 = true
      ∧ (cam t.dev p).i3c.result = (if 128 < fld x.cmd 15 8 ∨ 128 < fld x.cmd 7 8 then 5#64 else BitVec.ofNat 64 (bytes.toNat * 65536 + code))
      ∧ (cam t.dev p).i3c.rx = (if 128 < fld x.cmd 15 8 ∨ 128 < fld x.cmd 7 8 then x.rx else i3cPut x.rx 0 (rx.take (i3cReads x.cmd)))
      ∧ cnt t.dev (camB p + 3) 9 = (if code = 0 ∧ fld x.cmd 15 8 ≤ 128 ∧ fld x.cmd 7 8 ≤ 128 then cnt s.dev (camB p + 3) 9 else (cnt s.dev (camB p + 3) 9 + 1) % 2 ^ 32))
    ∧ (setting s.dev (camB p + 1) 1 = 0 → ∀ (addr : BitVec 7) (payload : Option Byte), ∃ t, exec (.ibi p addr payload) s = .next t
      ∧ bit (cam t.dev p).i3c.irq 1 = true
      ∧ (cam t.dev p).i3c.ibi = BitVec.ofNat 64 ((if payload.isSome then 65536 else 0) + addr.toNat * 256 + (payload.getD 0#8).toNat) ∧ t.dev.od = s.dev.od)
    ∧ (setting s.dev (camB p + 1) 1 ≠ 0 → ∀ (addr : BitVec 7) (payload : Option Byte), exec (.ibi p addr payload) s = .next s)
    ∧ ((cam s.dev p).pulseDue = true → ∃ t, exec (.triggerPulseStart p) s = .next t ∧ (cam t.dev p).pulse = true ∧ (cam t.dev p).pulseDue = false
      ∧ cnt t.dev (camB p + 3) 0x0B = (cnt s.dev (camB p + 3) 0x0B + 1) % 2 ^ 32)
    ∧ ((cam s.dev p).pulseDue = false → exec (.triggerPulseStart p) s = .next s)
    ∧ exec (.triggerPulseEnd p) s = .next { s with dev := updCam s.dev p fun c => { c with pulse := false } }

/-- Ledger entries: arming an idle entry in time makes it Armed and one too late Missed and counted; disarming makes it idle; an Armed entry whose moment has come is issued in order of SEQ, behind a running transfer with the delay noted; its end is Done, Late or Failed, and a good one has sent the entry's writes; with nothing due or issuing, or while a software transfer runs, nothing happens (R407 to R413, R415, R353). -/
def Sys2Proof.Claim.LedgerEntriesRun : Prop :=
  ∀ (s : State) (p : Fin 4) (e : Fin 16), Awake s →
    let x := ledgerAt (cam s.dev p) e
    (∀ tag, x.state ≠ 1#4 → x.state ≠ 2#4 → armedLate (updLedger s.dev p e fun x => { x with state := 1#4, tag := tag }) p x = false →
      ∃ t, exec (.ledgerArm p e tag) s = .next t ∧ ledgerAt (cam t.dev p) e = { x with state := 1#4, tag := tag } ∧ t.dev.cp = s.dev.cp ∧ t.dev.od = s.dev.od)
    ∧ (∀ tag, x.state ≠ 1#4 → x.state ≠ 2#4 → armedLate (updLedger s.dev p e fun x => { x with state := 1#4, tag := tag }) p x = true →
      ∃ t, exec (.ledgerArm p e tag) s = .next t ∧ ledgerAt (cam t.dev p) e = { x with state := 5#4, tag := tag }
        ∧ cnt t.dev (0x4840 + p) 5 = (cnt s.dev (0x4840 + p) 5 + 1) % 2 ^ 32)
    ∧ (∀ tag, x.state = 1#4 ∨ x.state = 2#4 → exec (.ledgerArm p e tag) s = .next s)
    ∧ (∀ tag, x.state = 2#4 → exec (.ledgerDisarm p e tag) s = .next s)
    ∧ (∀ tag, x.state ≠ 2#4 → ∃ t, exec (.ledgerDisarm p e tag) s = .next t ∧ ledgerAt (cam t.dev p) e = { x with state := 0#4, tag := tag }
        ∧ ∀ k, k ≠ e.val → ledgerAt (cam t.dev p) k = ledgerAt (cam s.dev p) k)
    ∧ (mayLedger s.dev p x = false → exec (.ledgerIssue p e) s = .next s)
    ∧ (mayLedger s.dev p x = true →
      let k := issueChoice (cam s.dev p) e
      ∃ t, exec (.ledgerIssue p e) s = .next t ∧ (ledgerAt (cam t.dev p) k).state = 2#4 ∧ (ledgerAt (cam t.dev p) k).seq = BitVec.ofNat 16 (cam s.dev p).issues
        ∧ (cam t.dev p).issuing = (cam s.dev p).issuing ++ [k] ∧ k ≤ e.val
        ∧ cnt t.dev (0x4840 + p) 3 = (cnt s.dev (0x4840 + p) 3 + 1) % 2 ^ 32
        ∧ ((cam s.dev p).i3c.running = true → bit (cam t.dev p).i3c.irq 2 = true))
    ∧ (∀ code, (cam s.dev p).issuing = [] ∨ (cam s.dev p).i3c.running = true → exec (.ledgerTransferStop p code) s = .next s)
    ∧ (∀ k rest (code : Fin 6), (cam s.dev p).issuing = k :: rest → (cam s.dev p).i3c.running = false →
      let y := ledgerAt (cam s.dev p) k
      ∃ t, exec (.ledgerTransferStop p code) s = .next t ∧ (cam t.dev p).issuing = rest
        ∧ (code = 0 → frameStarted s.dev (ledgerIc s.dev p) y.frame.toNat = false → (ledgerAt (cam t.dev p) k).state = 3#4
            ∧ (ledgerAt (cam t.dev p) k).applied = BitVec.ofNat 32 (y.frame.toNat + y.latency.toNat))
        ∧ (code = 0 → frameStarted s.dev (ledgerIc s.dev p) y.frame.toNat = true → (ledgerAt (cam t.dev p) k).state = 4#4
            ∧ (ledgerAt (cam t.dev p) k).applied = BitVec.ofNat 32 (y.frame.toNat + y.latency.toNat + 1))
        ∧ (code = 0 → (cam t.dev p).i3c.sent = ledgerSent (ledgerTarget s.dev p) y)
        ∧ (code ≠ 0 → (ledgerAt (cam t.dev p) k).state = 6#4 ∧ (ledgerAt (cam t.dev p) k).result = BitVec.ofNat 4 code.val))

/-- Frames open and close, their lines enter the FIFO, and embedded data is stored (R253 to R255, R339 to R348). -/
def Obligations.FramesOpenAndClose : Prop :=
  Claim.FramesOpenAndClose ∧ Claim.ImageLinesEnter ∧ Claim.EmbeddedDataIsStored

/-- Sensor commands, triggers and the exposure ledger (R352 to R355, R407 to R415). -/
def Obligations.SensorAndLedgerRun : Prop :=
  Claim.SensorCommandsRun ∧ Claim.LedgerEntriesRun

/-! ### The image pipeline -/

/-- The raw front: the first line, in order of completion, that may leave its FIFO goes through the stages of its frame, or is dropped when its frame is gone; with none ready nothing happens (R358, R359). -/
def Sys2Proof.Claim.RawFrontRuns : Prop :=
  ∀ (s : State), Awake s →
    (∀ x f, (fifoHeads s.dev.ipl.rx []).find? (lineReady s.dev) = some x → frameOf s.dev x.ctx x.frame = some f →
      exec .rawFrontLine s = .next { s with dev := rawLine { s.dev with ipl := { s.dev.ipl with rx := s.dev.ipl.rx.erase x } } x f })
    ∧ (∀ x, (fifoHeads s.dev.ipl.rx []).find? (lineReady s.dev) = some x → frameOf s.dev x.ctx x.frame = none →
      exec .rawFrontLine s = .next { s with dev := { s.dev with ipl := { s.dev.ipl with rx := s.dev.ipl.rx.erase x } } })
    ∧ ((fifoHeads s.dev.ipl.rx []).find? (lineReady s.dev) = none → exec .rawFrontLine s = .next s)
    ∧ (∀ x f, frameOf s.dev x.ctx x.frame = some f → (∀ g ∈ (ic s.dev x.ctx).frames, g.no = f.no → g = f) →
      ∃ l, frameOf (rawLine s.dev x f) x.ctx x.frame = some { (frameOf (rawLine s.dev x f) x.ctx x.frame).getD f with raw := f.raw ++ [l] })

/-- The raw stages pixel by pixel: the black level comes off and the full range is restored; linearisation lies between the two table entries it interpolates; white balance scales and saturates; coordinates outside the frame are mirrored, which keeps the parity (R362, R363, R366, R374). -/
def Sys2Proof.Claim.RawStagesCompute : Prop :=
  (∀ bl p, bl ≤ 32767 → p ≤ 65535 → subBlack bl p ≤ 65535 ∧ (p ≤ bl → subBlack bl p = 0) ∧ (p = 65535 → subBlack bl p = 65535)
    ∧ 2 * (subBlack bl p * (65535 - bl)) ≤ 2 * ((p - bl) * 65535) + (65535 - bl) ∧ 2 * ((p - bl) * 65535) < 2 * (subBlack bl p * (65535 - bl)) + (65535 - bl))
  ∧ (∀ (g : Nat → Byte) (y : Nat), min (get16 g (0x100 + 2 * (y / 256))) (get16 g (0x100 + 2 * (y / 256 + 1))) ≤ linearise g y
    ∧ linearise g y ≤ max (get16 g (0x100 + 2 * (y / 256))) (get16 g (0x100 + 2 * (y / 256 + 1)))
    ∧ (y % 256 = 0 → linearise g y = get16 g (0x100 + 2 * (y / 256))))
  ∧ (∀ gain y, whiteBalance gain y = min ((2 * (y * gain) + 4096) / 8192) 65535)
  ∧ ∀ (x : Int) (n : Nat), 0 < n → -(n : Int) < x → x < 2 * n - 1 →
      mirror x n < n ∧ ((mirror x n : Int) - x) % 2 = 0 ∧ (0 ≤ x → x < n → (mirror x n : Int) = x) ∧ (x < 0 → (mirror x n : Int) = -x)
      ∧ (n ≤ x → (mirror x n : Int) = 2 * n - 2 - x)

/-- Shadow sets: a write is applied at once and its bytes read back, but for reserved bits, where the table lets them be written, or held in order while a latch copy runs; the end of the copy applies what was held (R8, R367, R368). -/
def Sys2Proof.Claim.ShadowWritesApply : Prop :=
  ∀ (s : State) (n : Fin 16), Awake s →
    let c := ic s.dev n
    (∀ (off : BitVec 14) bs, c.copying = false → ∃ t, exec (.shadowWrite n off bs) s = .next t
      ∧ (∀ j < bs.length, shadowWritable (off.toNat + j) = true → sget shadowReset (ic t.dev n).shadow (off.toNat + j) = bs.getD j 0#8 &&& shadowMask (off.toNat + j))
      ∧ (∀ x, x < off.toNat ∨ off.toNat + bs.length ≤ x ∨ shadowWritable x = false → sget shadowReset (ic t.dev n).shadow x = sget shadowReset c.shadow x)
      ∧ (ic t.dev n).latched = c.latched ∧ (∀ m, m ≠ n.val → ic t.dev m = ic s.dev m))
    ∧ (∀ (off : BitVec 14) bs, c.copying = true → exec (.shadowWrite n off bs) s = .next { s with dev :=
        (updIc s.dev n fun c => { c with held := c.held ++ [(off.toNat, bs)] }) })
    ∧ (c.copying = true → exec (.latchCopyDone n) s = .next { s with dev :=
        (updIc s.dev n fun c => { c.held.foldl applyShadow { c with copying := false } with held := [] }) })
    ∧ (c.copying = false → ∃ t, exec (.latchCopyDone n) s = .next t ∧ ∀ m, ic t.dev m = ic s.dev m)

/-- The neural path and the back end: a pair segment goes to its stripe when the window holds a credit for each of its units; the demosaic makes the next line of a fallback frame; the back end takes the next line of the oldest frame that owes one, returned by the MPE, demosaiced, or converted from YUV422; its timeout, with a neural frame owing lines, loses the path; each does nothing where its line is not there (R376, R379 to R382, R385). -/
def Sys2Proof.Claim.PipelineLinesRun : Prop :=
  ∀ (s : State) (n : Fin 16), Awake s →
    (nextPair s.dev n = none ∨ iplEntry s.dev n = none → exec (.pairSegmentSend n) s = .next s)
    ∧ (∀ f ls i, nextPair s.dev n = some (f, ls) → iplEntry s.dev n = some i →
      let bs := ls.flatMap (segment s.dev n f.pairS)
      let us := chunks 512 (ceilDiv bs.length 512) bs
      let w := winAt s.dev 16 i
      let next := if f.pairS + 1 = icStripes s.dev n then (f.pairQ + 1, 0) else (f.pairQ, f.pairS + 1)
      (us.length ≤ (w.granted - w.fill).toNat → exec (.pairSegmentSend n) s = .next { s with dev :=
        (noteBlocks (updFrame (sendSegment s.dev n i us) n f.no fun f' => freeLines { f' with
          pairQ := next.1, pairS := next.2
          lm := f'.lm.map fun q => if q.line / 2 = f'.pairQ then { q with stripes := q.stripes &&& ~~~(BitVec.ofNat 16 (2 ^ f.pairS)) } else q }) n) })
      ∧ ((w.granted - w.fill).toNat < us.length → exec (.pairSegmentSend n) s = .next s))
    ∧ (icYuv s.dev n = true ∨ (ic s.dev n).frames.find? demosaicReady = none → exec (.demosaicLine n) s = .next s)
    ∧ (∀ f, icYuv s.dev n = false → (ic s.dev n).frames.find? demosaicReady = some f →
      let h := if rawDone f then f.lines else f.raw.length + 1
      ∃ t, exec (.demosaicLine n) s = .next t ∧ frameOf t.dev n f.no ≠ none
        ∧ ∀ g ∈ (ic t.dev n).frames, g.no = f.no → (∀ g' ∈ (ic s.dev n).frames, g'.no = f.no → g' = f) →
            g.demosaiced = f.demosaiced + 1 ∧ g.linear = f.linear ++ [(List.range (icWidth s.dev n)).map fun x => demosaicPixel f.raw (icPhase s.dev n) (icWidth s.dev n) h x f.demosaiced])
    ∧ ((ic s.dev n).frames.find? (fun f => beOwes f && !f.lost) = none → exec (.backEndLine n) s = .next s)
    ∧ (∀ f, (ic s.dev n).frames.find? (fun f => beOwes f && !f.lost) = some f →
      (f.neural = true → beLanded s.dev n = true →
        let c := ic s.dev n
        let u := uBe s.dev n
        let d := updIc s.dev n fun _ => { c with beTaken := c.beTaken + 1, beWin := { c.beWin with
          free := c.beWin.free + BitVec.ofNat 12 u, freed := c.beWin.freed + u, pendingCredits := c.beWin.pendingCredits + u } }
        exec (.backEndLine n) s = .next { s with dev := addRgb d n f.no ((beLine s.dev n).map (backPixel (setOf c n f.latch))) })
      ∧ (f.neural = true → beLanded s.dev n = false → exec (.backEndLine n) s = .next s)
      ∧ (∀ l, f.neural = false → icYuv s.dev n = false → f.linear[f.rgb.length]? = some l →
        exec (.backEndLine n) s = .next { s with dev := addRgb s.dev n f.no (l.map (backPixel (setOf (ic s.dev n) n f.latch))) })
      ∧ (f.neural = false → icYuv s.dev n = false → f.linear[f.rgb.length]? = none → exec (.backEndLine n) s = .next s)
      ∧ (∀ px, f.neural = false → icYuv s.dev n = true → f.raw[f.rgb.length]? = some px →
        let d := addRgb s.dev n f.no (yuvLine (setting s.dev (icX n) 6) (icWidth s.dev n) px)
        exec (.backEndLine n) s = .next { s with dev := (noteBlocks (updFrame d n f.no fun g => freeLines { g with
          lm := g.lm.map fun q => if q.line = f.rgb.length then { q with demosaic := false } else q }) n) })
      ∧ (f.neural = false → icYuv s.dev n = true → f.raw[f.rgb.length]? = none → exec (.backEndLine n) s = .next s))
    ∧ (((ic s.dev n).frames.any fun f => f.neural && !f.lost && beOwes f) = true → exec (.beTimeout n) s = .next { s with dev := neuralLost s.dev n 2 })
    ∧ (((ic s.dev n).frames.any fun f => f.neural && !f.lost && beOwes f) = false → exec (.beTimeout n) s = .next s)

/-- Demosaiced pixels (R382): each colour is the FP16 mean of its neighbours, and the pixel's own colour that of the pixel itself. -/
def Sys2Proof.Claim.DemosaicKeepsOwnColour : Prop :=
  ∀ (raw : List (List Nat)) (phase w h x y : Nat), x < w → y < h → 
    let own := meanF16 [(raw.getD y []).getD x 0]
    let p := demosaicPixel raw phase w h x y
    (cfa phase x y = 0 → p.1 = own) ∧ (cfa phase x y = 1 ∨ cfa phase x y = 2 → p.2.1 = own) ∧ (cfa phase x y = 3 → p.2.2 = own)

/-- Formatters and statistics: the next output line that can be written goes to its channel as units; after every line the header goes as the last unit, in its channel's turn, and the signal follows, and on a channel that takes no units the frame ends without one; a frame whose headers are written and whose lines have gone is finished; a tap's record of a closed frame is written and counted; each does nothing where nothing is ready (R386 to R394, R405). -/
def Obligations.OutputsAreWritten : Prop :=
  ∀ (s : State) (n : Fin 16), Awake s →
    (∀ f : Fin 3, fmtFrame s.dev n f = none → exec (.formatterLine n f) s = .next s ∧ exec (.formatterHeader n f) s = .next s)
    ∧ (∀ (f : Fin 3) fr, fmtFrame s.dev n f = some fr →
      let j := (fmtRun fr f).lines
      let ch := fmtSet s.dev n f 6
      let d := beginFrame s.dev n f fr
      (j < fmtSet s.dev n f 4 → outReady s.dev n f fr j = true →
        let ch := fmtSet d n f 6
        let us := (outLines d n f fr j).map (lineUnitsOf (bufAddr d n f fr.no))
        exec (.formatterLine n f) s = .next { s with dev := (
          updFrame (setChan d ch (appendUnits (us.flatMap (·.1)) (us.flatMap (·.2)) true (chan d ch))) n fr.no (setRun f fun r => { r with lines := j + 1 })) })
      ∧ (fmtSet s.dev n f 4 ≤ j ∨ outReady s.dev n f fr j = false → exec (.formatterLine n f) s = .next s)
      ∧ (linesDone s.dev n f fr = false → exec (.formatterHeader n f) s = .next s)
      ∧ (linesDone s.dev n f fr = true → chanTakes (chan d ch) = false ∨ (chan d ch).frames = [] →
          exec (.formatterHeader n f) s = .next { s with dev := updFrame d n fr.no (setRun f fun r => { r with header := true }) })
      ∧ (linesDone s.dev n f fr = true → chanTakes (chan d ch) = true → (chan d ch).frames ≠ [] →
          let c := appendUnits [((headerBytes s.dev n f fr).map fun b => (b, false))] [bufAddr s.dev n f fr.no] false (chan d ch)
          let e := setChan (if f = 1 ∧ fmtSet s.dev n f 4 ≤ j then writePadding d n fr else d) ch c
          ((c.frames.map fun x => x.units.length).sum = 1 ∧ chosenChan e (ch / 64) = some ch → exec (.formatterHeader n f) s = .next { s with dev :=
            (updFrame (headerWritten (unitSend e (ch / 64)) n f fr) n fr.no (setRun f fun r => { r with header := true })) })
          ∧ (¬ ((c.frames.map fun x => x.units.length).sum = 1 ∧ chosenChan e (ch / 64) = some ch) → exec (.formatterHeader n f) s = .next s)))
    ∧ (∀ fr, (ic s.dev n).frames.find? (frameDone s.dev n) = some fr →
      exec (.frameFinished n) s = .next { s with dev := tidyFrames (updFrame s.dev n fr.no fun f => { f with finished := true }) n })
    ∧ ((ic s.dev n).frames.find? (frameDone s.dev n) = none → exec (.frameFinished n) s = .next s)
    ∧ (∀ f, (ic s.dev n).frames.find? (fun f => f.statA && rawDone f) = some f → exec (.statsRecord n 0) s = .next { s with dev :=
        (tidyFrames (updFrame (entrySignal (bump (recordA s.dev n f) (0x4800 + n) 5 4 1) (setting s.dev (0x4800 + n) 3)) n f.no fun f => { f with statA := false }) n) })
    ∧ ((ic s.dev n).frames.find? (fun f => f.statA && rawDone f) = none → exec (.statsRecord n 0) s = .next s)
    ∧ (∀ f, (ic s.dev n).frames.find? (fun f => f.statB && rgbFinal f) = some f → exec (.statsRecord n 1) s = .next { s with dev :=
        (tidyFrames (updFrame (entrySignal (bump (recordB s.dev n f) (0x4800 + n) 6 4 1) (setting s.dev (0x4800 + n) 4)) n f.no fun f => { f with statB := false }) n) })
    ∧ ((ic s.dev n).frames.find? (fun f => f.statB && rgbFinal f) = none → exec (.statsRecord n 1) s = .next s)

/-- Output codes: an 8-bit code lies from 0 to 255, a 10-bit code to 1023, and Y and C codes within their bits; the code 0 of a NaN is the model's choice (log 199) (R388). -/
def Sys2Proof.Claim.OutputCodesFit : Prop :=
  ∀ (v : Val) (m csc bits : Nat), codeOf v m ≤ m ∧ yCode csc bits v < 2 ^ bits ∧ cCode csc bits v < 2 ^ bits
    ∧ (v = .nan → codeOf v m = 0)

/-- Lines through the raw front, the stripes, the demosaic and the back end, with the shadow sets (R358, R359, R367, R368, R376 to R382). -/
def Obligations.PipelineLinesRun : Prop :=
  Claim.RawFrontRuns ∧ Claim.ShadowWritesApply ∧ Claim.PipelineLinesRun

/-- Pixel values: unpacking (places of the low bits: log 33), black level, linearisation, white balance, mirroring, demosaic and output codes (a NaN gives 0: log 199) (R339, R362, R363, R366, R374, R382, R388). -/
def Obligations.PixelValuesFollowTheRules : Prop :=
  Claim.RawPixelsUnpack ∧ Claim.RawStagesCompute ∧ Claim.DemosaicKeepsOwnColour ∧ Claim.OutputCodesFit

/-! ### Audio, ports and the application cluster's interrupts -/

/-- Audio blocks: the oldest closed block of a group leaves the group and is counted, and with none closed nothing is written; decimator outputs join the block of a live group, one per microphone, unchanged with its high-pass filter off; a TDM frame of a port in use counts an edge and takes the next playback row, and on any other port does nothing; neither reaches memory (R420, R421, R426, R427). -/
def Sys2Proof.Claim.AudioRuns : Prop :=
  ∀ (s : State), Awake s →
    (∀ slow v, ∃ t, exec (.pdmSample slow v) s = .next t ∧ t.dev.mem = s.dev.mem ∧ t.dev.od = s.dev.od
      ∧ ∀ g < 8, (agrp t.dev g).closed.length = (agrp s.dev g).closed.length ∧ (agrp t.dev g).cur.isSome = (agrp s.dev g).cur.isSome)
    ∧ (∀ (slow : Bool) (v : List (BitVec 24)) (g : Nat) b, g < 8 → grpLive s.dev g = true → grpSet s.dev g 4 = (if slow then 1 else 0) →
        grpMics s.dev g ≠ [] → (agrp s.dev g).cur = some b → groupDelay (if slow then 1 else 0) ≤ s.dev.breath.ns →
        ∃ t c row, exec (.pdmSample slow v) s = .next t ∧ (agrp t.dev g).cur = some c
          ∧ c.pdm = b.pdm ++ [row] ∧ row.length = (grpMics s.dev g).length ∧ (grpSet s.dev g 6 ≠ 1 → row = (grpMics s.dev g).map fun m => v.getD m 0#24)
          ∧ c.tdm0 = b.tdm0 ∧ c.tdm1 = b.tdm1)
    ∧ (∀ (t : Fin 2) v, tdmUsed s.dev t = true ∨ tdmSet s.dev t 7 = 1 → ∃ u, exec (.tdmFrameSync t v) s = .next u
      ∧ (tdmOf u.dev t).edges = (tdmOf s.dev t).edges + 1 ∧ (tdmOf u.dev t).latest = s.dev.breath.ns
      ∧ (tdmOf u.dev t).play = (tdmOf s.dev t).play.drop 1 ∧ u.dev.mem = s.dev.mem)
    ∧ (∀ (t : Fin 2) v, tdmUsed s.dev t = false → tdmSet s.dev t 7 ≠ 1 → exec (.tdmFrameSync t v) s = .next s)
    ∧ (∀ (g : Fin 8) (first lost : BitVec 16) b rest, (agrp s.dev g).closed = b :: rest → ∃ t, exec (.audioBlockWrite g first lost) s = .next t
      ∧ (agrp t.dev g).closed = rest ∧ cnt t.dev (0x5010 + g) 0x10 = (cnt s.dev (0x5010 + g) 0x10 + 1) % 2 ^ 64)
    ∧ (∀ (g : Fin 8) (first lost : BitVec 16), (agrp s.dev g).closed = [] → exec (.audioBlockWrite g first lost) s = .next s)

/-- Port queues: a tail write moves TAIL and lets the next descriptor load; QCTRL sets the queue's controls, and clearing ENABLE aborts the buffer in use; a completion advances HEAD and leaves TAIL; an Ethernet or USB transmit buffer, a CAN buffer, a USB OUT buffer and a receive buffer each complete by their own rule, and nothing completes on a queue that the port lacks or while its function is stopped (R429 to R431). -/
def Sys2Proof.Claim.PortQueuesRun : Prop :=
  ∀ (s : State) (p : Fin 4) (q : Fin 32), Awake s →
    (q.val < queueCount p → ∀ v : W64, exec (.queueTailWrite p q v) s = .next { s with dev :=
        (queueLoad (updQ s.dev p q fun x => { x with tail := BitVec.ofNat 32 (fld v 0 32) }) p q) })
    ∧ (queueCount p ≤ q.val → ∀ v, exec (.queueTailWrite p q v) s = .next s ∧ exec (.qctrlWrite p q v) s = .next s)
    ∧ (q.val < queueCount p → ∀ v : W64, bit v 0 = true → exec (.qctrlWrite p q v) s = .next { s with dev :=
        (queueLoad (updQ s.dev p q fun x => { x with enable := true, log2 := BitVec.ofNat 5 (fld v 4 5), irqEn := bit v 16 }) p q) })
    ∧ (q.val < queueCount p → ∀ v : W64, bit v 0 = false → ∃ t, exec (.qctrlWrite p q v) s = .next t ∧ (pq t.dev p q).enable = false
        ∧ (pq t.dev p q).halted = false ∧ (pq t.dev p q).cur = none)
    ∧ (queueCount p ≤ q.val ∨ fnLive s.dev (portFn p) = false → ∀ bs eop bad, exec (.descriptorComplete p q bs eop bad) s = .next s)
    ∧ (q.val < queueCount p → fnLive s.dev (portFn p) = true → ∀ bs eop bad,
        (p = 3 → q = 0 → exec (.descriptorComplete p q bs eop bad) s = .next { s with dev := canTxComplete s.dev })
        ∧ (p ≠ 3 → isTx p q = true → exec (.descriptorComplete p q bs eop bad) s = .next { s with dev := txComplete s.dev p q })
        ∧ (p = 0 → isTx p q = false → exec (.descriptorComplete p q bs eop bad) s = .next { s with dev := usbOut s.dev q bs eop bad })
        ∧ (p ≠ 0 → isTx p q = false → exec (.descriptorComplete p q bs eop bad) s = .next { s with dev := rxComplete s.dev p q }))
    ∧ (∀ (d : Dev) v status len fs, (pq d p q).cur = some v → let e := queueDone d p q status len fs
        (pq e p q).head = (pq d p q).head + 1 ∧ (pq e p q).tail = (pq d p q).tail)

/-- USB: a change of VBUS connects or disconnects; a bus reset keeps only endpoint 0's registers and is counted; SOF stamps the breath; a speed change within SPEED_MAX is reported (R433). -/
def Sys2Proof.Claim.UsbRuns : Prop :=
  ∀ (s : State), Awake s →
    (∀ valid, ∃ t, exec (.usbVbusChange valid) s = .next t ∧ t.dev.ports.vbus = valid ∧ t.dev.ports.term = (actual s.dev (portFn 0) == 2 && valid)
      ∧ bit t.dev.ports.status 15 = true)
    ∧ (s.dev.ports.term = true → ∃ t, exec .usbBusReset s = .next t ∧ cnt t.dev 0x5800 5 = (cnt s.dev 0x5800 5 + 1) % 2 ^ 32
      ∧ (∀ e ∈ t.dev.ports.ep, e.1 % 16 = 0) ∧ ∀ q < 32, (pq t.dev 0 q).cur.isSome = true → (pq s.dev 0 q).cur.isSome = true)
    ∧ (s.dev.ports.term = false → exec .usbBusReset s = .next s ∧ exec .usbSof s = .next s)
    ∧ (s.dev.ports.term = true → ∃ t, exec .usbSof s = .next t ∧ t.dev.ports.sofBreath = s.dev.breath.number % 2 ^ 32 ∧ t.dev.ports.sofNs = s.dev.breath.ns % 2 ^ 32)
    ∧ (∀ v : Fin 4, v = 0 ∨ (s.dev.ports.term = true ∧ (v = 3 → setting s.dev 0x5800 1 ≠ 1)) → ∃ t, exec (.usbLinkSpeedChange v) s = .next t
      ∧ cnt t.dev 0x5800 4 = v.val ∧ bit t.dev.ports.status 15 = true)
    ∧ (∀ v : Fin 4, v ≠ 0 → s.dev.ports.term = false ∨ (v = 3 ∧ setting s.dev 0x5800 1 = 1) → exec (.usbLinkSpeedChange v) s = .next s)

/-- Ethernet and PTP: a received frame with room waits in the queue of its priority with its time stamp and its checks, else it is counted as dropped; a bad FCS is counted; a good pause frame and frames of a bad length end in the MAC; a link change that MODE allows is reported; the PTP clock ticks, steps and is captured modulo its range; MDIO raises its status (R434 to R436, R445). -/
def Sys2Proof.Claim.EthernetAndPtpRun : Prop :=
  ∀ (s : State), Awake s →
    (∀ (e : Fin 2) (f : List Byte), fnUp s.dev (portFn (1 + e)) = true → cnt s.dev (0x5900 + 0x100 * e) 7 ≠ 0 → 64 ≤ f.length + 4 → f.length + 4 ≤ ethSet s.dev e 2 →
      (isPause f = true → exec (.ethFrameReceive e f false) s = .next s) ∧ (∀ bad : Bool, bad = true ∨ isPause f = false →
      let q := rxQueue s.dev e f
      let errs := if bad then (cnt s.dev (0x5900 + 0x100 * e) 8 + 1) % 2 ^ 32 else cnt s.dev (0x5900 + 0x100 * e) 8
      (hasBuffer s.dev (1 + e) q = true → ∃ t r, exec (.ethFrameReceive e f bad) s = .next t ∧ rxOf t.dev (1 + e) q = rxOf s.dev (1 + e) q ++ [r]
        ∧ r.bytes = f ∧ r.bad = bad ∧ r.ipOk = ipGood f ∧ r.l4Ok = l4Good f ∧ (r.hi, r.lo) = stampFields s.dev (1 + e) (-(ethSet s.dev e 5 : Int))
        ∧ cnt t.dev (0x5900 + 0x100 * e) 8 = errs ∧ t.dev.mem = s.dev.mem)
      ∧ (hasBuffer s.dev (1 + e) q = false → ∃ t, exec (.ethFrameReceive e f bad) s = .next t ∧ t.dev.ports = s.dev.ports
        ∧ cnt t.dev (0x5900 + 0x100 * e) 8 = errs ∧ cnt t.dev (0x5900 + 0x100 * e) 9 = (cnt s.dev (0x5900 + 0x100 * e) 9 + 1) % 2 ^ 32)))
    ∧ (∀ (e : Fin 2) (f : List Byte) bad, fnUp s.dev (portFn (1 + e)) = false ∨ cnt s.dev (0x5900 + 0x100 * e) 7 = 0 ∨ f.length + 4 < 64 ∨ ethSet s.dev e 2 < f.length + 4 →
      exec (.ethFrameReceive e f bad) s = .next s)
    ∧ (∀ (e : Fin 2) (link : Fin 5), link = 0 ∨ (ethSet s.dev e 1 = 1 ↔ link = 4) → ∃ t, exec (.ethLinkChange e link) s = .next t
      ∧ cnt t.dev (0x5900 + 0x100 * e) 7 = link.val ∧ bit t.dev.ports.status (16 + e) = true)
    ∧ (∀ (e : Fin 2) (link : Fin 5), link ≠ 0 → ¬ (ethSet s.dev e 1 = 1 ↔ link = 4) → exec (.ethLinkChange e link) s = .next s)
    ∧ (∀ e : Fin 2, exec (.mdioDone e) s = .next { s with dev := raiseLevel s.dev (16 + e) })
    ∧ exec .ptpTick s = .next { s with dev := updPorts s.dev fun x => { x with ptp := (x.ptp + x.ptpIncr.toNat) % ptpMod } }
    ∧ (∀ v : W64, ∃ t, exec (.ptpStep v) s = .next t ∧ t.dev.ports.ptp < ptpMod
      ∧ ((t.dev.ports.ptp : Int) - s.dev.ports.ptp - ((BitVec.ofNat 32 v.toNat).toInt + (BitVec.ofNat 32 (v.toNat / 2 ^ 32)).toInt * 10 ^ 9) * 2 ^ 32) % (ptpMod : Int) = 0)
    ∧ (∃ t, exec (.ptpCapture 1#64) s = .next t ∧ t.dev.ports.snap = s.dev.ports.ptp / 2 ^ 32 / 10 ^ 9 ∧ t.dev.ports.snapNs = s.dev.ports.ptp / 2 ^ 32 % 10 ^ 9)
    ∧ (∀ v : W64, v ≠ 1#64 → exec (.ptpCapture v) s = .next s)
    ∧ exec .ptpPps s = .next { s with dev := updPorts s.dev fun x => { x with ppsUntil := s.dev.clk.ns + 1000000 } }

/-- The CAN FD bus: a received frame that a filter accepts waits for queue 1's buffer, and without one is lost; one that no filter accepts is counted; a request to the device's own identifier goes to the MGC; of two frames ready the lower identifier wins unless the other is owed its turn, and one that is alone ready is sent; bus-off discards the MGC's frames and is counted, nothing moves on the bus until recovery rejoins, when it is automatic, and the error state is reported (R437 to R440). -/
def Sys2Proof.Claim.CanBusRuns : Prop :=
  ∀ (s : State), MgcAwake s →
    (busOff s.dev = true → (∀ f, exec (.canFrameReceive f) s = .next s) ∧ (∀ won, exec (.canArbitration won) s = .next s)
      ∧ (∀ tec, exec (.canBusOff tec) s = .next s) ∧ (∀ passive, exec (.canErrorStateChange passive) s = .next s)
      ∧ (setting s.dev 0x5B00 5 = 1 → ∃ t, exec .canBusRecovery s = .next t ∧ cnt t.dev 0x5B00 7 = 0 ∧ bit t.dev.ports.status 18 = true)
      ∧ (setting s.dev 0x5B00 5 ≠ 1 → exec .canBusRecovery s = .next s))
    ∧ (busOff s.dev = false →
    (∀ f : CanFrame, let mine := f.ide = false ∧ nodeId s.dev ≠ 0 ∧ f.id.toNat = 0x640 + nodeId s.dev
      (mine → exec (.canFrameReceive f) s = .next { s with dev := requestIn s.dev f.data })
      ∧ (¬ mine → fnUp s.dev (portFn 3) = false → exec (.canFrameReceive f) s = .next s)
      ∧ (¬ mine → fnUp s.dev (portFn 3) = true →
      (((List.range 16).any (filterHits s.dev f.id.toNat)) = true → hasBuffer s.dev 3 1 = true → ∃ t r, exec (.canFrameReceive f) s = .next t
        ∧ rxOf t.dev 3 1 = rxOf s.dev 3 1 ++ [r] ∧ r.bytes = leBytes 8 (canWord f) ++ f.data)
      ∧ (((List.range 16).any (filterHits s.dev f.id.toNat)) = true → hasBuffer s.dev 3 1 = false → exec (.canFrameReceive f) s = .next s)
      ∧ (((List.range 16).any (filterHits s.dev f.id.toNat)) = false → exec (.canFrameReceive f) s = .next { s with dev := bump s.dev 0x5B00 9 4 1 })))
    ∧ (∀ m, mgcNext s.dev = some m → canApc s.dev = none → ∃ t, exec (.canArbitration true) s = .next t
      ∧ t.dev.mgc.canTx = dropMgcFrame m s.dev.mgc.canTx ∧ t.dev.ports.canOwed = none)
    ∧ (∀ a, mgcNext s.dev = none → canApc s.dev = some a → ∃ t, exec (.canArbitration true) s = .next t
      ∧ t.dev.ports.canSent = true ∧ t.dev.ports.canOwed = none ∧ t.dev.mgc.canTx = s.dev.mgc.canTx)
    ∧ (mgcNext s.dev = none → canApc s.dev = none → exec (.canArbitration true) s = .next s)
    ∧ (∀ m a, mgcNext s.dev = some m → canApc s.dev = some a →
      let apcFirst := s.dev.ports.canOwed.getD (decide (arbKey (a.1.testBit 29) (if a.1.testBit 29 then a.1 % 2 ^ 29 else a.1 % 2048) < arbKey false m.id))
      ∃ t, exec (.canArbitration true) s = .next t ∧ t.dev.ports.canSent = (s.dev.ports.canSent || apcFirst) ∧ t.dev.ports.canOwed = some (!apcFirst)
        ∧ t.dev.mgc.canTx = (if apcFirst then s.dev.mgc.canTx else dropMgcFrame m s.dev.mgc.canTx))
    ∧ exec (.canArbitration false) s = .next s
    ∧ (∀ tec, ∃ t, exec (.canBusOff tec) s = .next t ∧ busOff t.dev = true ∧ t.dev.mgc.canTx = [] ∧ cnt t.dev 0x5B00 8 = (cnt s.dev 0x5B00 8 + 1) % 2 ^ 32)
    ∧ exec .canBusRecovery s = .next s
    ∧ (∀ passive, ∃ t, exec (.canErrorStateChange passive) s = .next t ∧ cnt t.dev 0x5B00 7 = (if passive then 1 else 0) ∧ bit t.dev.ports.status 18 = true))

/-- UART, GPIO and the PLIC: a UART read removes the oldest of at most 64 bytes; a pin's edge sets its level, and IRQ_STATUS when the edge is selected; a cache error marks its line and raises source 23; a claim takes the claimable source of highest priority, lowest number first, and none while another context has it in service (R444, R445, R448 to R450). -/
def Sys2Proof.Claim.PinsAndInterruptsRun : Prop :=
  ∀ (s : State), Awake s →
    (∀ arrived, ∃ t, exec (.uartDataRead arrived) s = .next t ∧ t.dev.ports.uartRx.length ≤ 63
      ∧ (s.dev.ports.uartRx.length ≤ 64 → ∀ b rest, s.dev.ports.uartRx = b :: rest → ∃ more, t.dev.ports.uartRx = rest ++ more))
    ∧ (∀ (i : Fin 32) level, bit s.dev.ports.gpioIn i = level → exec (.gpioEdge i level) s = .next s)
    ∧ (∀ (i : Fin 32) level, bit s.dev.ports.gpioIn i ≠ level → ∃ t, exec (.gpioEdge i level) s = .next t ∧ bit t.dev.ports.gpioIn i = level
      ∧ (∀ j < 64, j ≠ i.val → bit t.dev.ports.gpioIn j = bit s.dev.ports.gpioIn j ∧ bit t.dev.ports.gpioStatus j = bit s.dev.ports.gpioStatus j)
      ∧ bit t.dev.ports.gpioStatus i = (bit s.dev.ports.gpioStatus i || bit s.dev.ports.gpioEdge (2 * i + if level then 0 else 1)))
    ∧ (∀ a : Addr, ∃ t, exec (.apcCacheUncorrectable a) s = .next t ∧ bit t.dev.apc.pending 23 = true ∧ a.toNat / 64 ∈ t.dev.apc.poisonLines
      ∧ t.dev.mem = s.dev.mem)
    ∧ (∀ (c : Fin 12) i, claimChoice s.dev c = some i → i < 25 ∧ claimable s.dev c i = true
      ∧ (∀ j < 25, claimable s.dev c j = true → plicPrio s.dev j < plicPrio s.dev i ∨ (plicPrio s.dev j = plicPrio s.dev i ∧ i ≤ j))
      ∧ ∃ t, exec (.plicClaim c) s = .next t ∧ bit t.dev.apc.pending i = false ∧ inService t.dev i = true
        ∧ ∀ k < 12, claimable t.dev k i = false)
    ∧ (∀ c : Fin 12, claimChoice s.dev c = none → exec (.plicClaim c) s = .next s)

/-- Audio samples and blocks, and the port DMA queues (R420 to R431). -/
def Obligations.AudioAndQueuesRun : Prop :=
  Claim.AudioRuns ∧ Claim.PortQueuesRun

/-- USB, Ethernet and the PTP clock (R433 to R436, R445). -/
def Obligations.UsbAndEthernetRun : Prop :=
  Claim.UsbRuns ∧ Claim.EthernetAndPtpRun

/-- The CAN FD bus, UART, GPIO and the PLIC (R437 to R450). -/
def Obligations.CanPinsAndInterruptsRun : Prop :=
  Claim.CanBusRuns ∧ Claim.PinsAndInterruptsRun

/-! ### Memory controller, power, breath and register writes -/

/-- DRAM channels (R456): the channel of an address is its bits 10:8 XOR its bits 18:16, and of every aligned 2 KiB block each channel holds 256 bytes. -/
def Obligations.DramChannelsInterleave : Prop :=
  (∀ a, dramChannel a = (a / 2 ^ 8 % 8) ^^^ (a / 2 ^ 16 % 8))
  ∧ ∀ b ch, ch < 8 → ((List.range 2048).filter fun i => dramChannel (2048 * b + i) == ch).length = 256

/-- The region that decides a granule is the lowest-numbered enabled one that holds it, and a granule that none holds is refused to every agent (R462). -/
def Sys2Proof.Claim.LowestRegionDecides : Prop :=
  ∀ (d : Dev) (g : Nat) (write : Bool) (a : Nat),
    (∀ r, decidingRegion d a = some r ↔ r < 16 ∧ regionHolds (region d r) a = true ∧ ∀ q < r, regionHolds (region d q) a = false)
    ∧ (d.dmc.everEnabled = true ∨ g ≠ 6 → (∀ r < 16, regionHolds (region d r) a = false) → agentMay d g write a = false)
    ∧ (∀ r, d.dmc.everEnabled = true ∨ g ≠ 6 → decidingRegion d a = some r → keyMissing d a = false →
        agentMay d g write a = bit (region d r) ((if write then 144 else 152) + g))

/-- A refused access changes no byte: an agent's write of a granule that its region does not grant leaves all of memory as it was, is counted, and names the agent, the region and the address (R462, R464). -/
def Sys2Proof.Claim.RefusedWritesKeepMemory : Prop :=
  ∀ (d : Dev) (g source a : Nat) (bs : List Byte) (lo hi : Bool), agentMay d g true (a / 64 * 64) = false → areaOf d a = .dram ∨ (∃ k, areaOf d a = .sb k) →
    let e := writeGranule d (some g) source a bs lo hi
    e.mem = d.mem ∧ cnt e 0x2420 1 = (cnt d 0x2420 1 + 1) % 2 ^ 32 ∧ e.dmc.violAddr = BitVec.ofNat 40 (a / 64 * 64)

/-- Accesses: a read of DRAM changes no byte; a write that is granted, within one granule, reads back under its setting, and every byte outside it reads as before; an address that no block takes raises event 0x0110 with nothing read or written; region entries are written word by word, by the application cluster and in whole words, unless locked, reshaped while enabled, or encrypting beyond the DRAM; refresh and retraining advance channel by channel (R21, R457 to R459, R462 to R465). -/
def Sys2Proof.Claim.MemoryControllerRuns : Prop :=
  ∀ (s : State), Awake s →
    (∀ g (a : Addr) (n : BitVec 16) bs p (err : Fin 4),
      a.toNat + n.toNat ≤ dramSize s.dev → dramSize s.dev ≤ 0x800000000 → ∃ t, exec (.dramAccess g a n false bs p err) s = .next t ∧ t.dev.mem = s.dev.mem)
    ∧ (∀ (g : Fin 8) (a : Addr) (n : BitVec 16) bs p (err : Fin 4), a.toNat + bs.length ≤ dramSize s.dev → dramSize s.dev ≤ 0x800000000 →
        a.toNat % 64 + bs.length ≤ 64 → bs ≠ [] → agentMay s.dev g true (a.toNat / 64 * 64) = true →
        let e := encSetting s.dev a.toNat
        ∃ t, exec (.dramAccess (some g) a n true bs p err) s = .next t ∧ decBytes t.dev.mem e a.toNat bs.length = bs
          ∧ (∀ x, x < a.toNat ∨ a.toNat + bs.length ≤ x → decByte t.dev.mem e x = decByte s.dev.mem e x)
          ∧ (∀ x, x / 64 ≠ a.toNat / 64 → peek t.dev.mem x = peek s.dev.mem x))
    ∧ (∀ g (a : Addr) write whole, (accessRefused s.dev a.toNat write whole = true →
        exec (.unmappedAccess g a write whole) s = .next { s with dev := addressError s.dev (agentSource g a.toNat) a.toNat })
      ∧ (accessRefused s.dev a.toNat write whole = false → exec (.unmappedAccess g a write whole) s = .next s))
    ∧ (∀ (r : Fin 16) (k : Fin 4) (v : W64),
        let e := region s.dev r
        let e' := BitVec.ofNat 256 (setFld e.toNat (64 * k.val) 64 v.toNat) &&& BitVec.ofNat 256 regionMask
        (bit e 3 = false → (bit e 0 = true → regionShape e' = regionShape e) → encryptFits s.dev e' = true → ∃ t, exec (.regionEntryWrite r k v false true) s = .next t
          ∧ region t.dev r = e' ∧ (∀ q, q ≠ r.val → region t.dev q = region s.dev q) ∧ t.dev.mem = s.dev.mem)
        ∧ (bit e 3 = true ∨ (bit e 0 = true ∧ regionShape e' ≠ regionShape e) ∨ encryptFits s.dev e' = false → exec (.regionEntryWrite r k v false true) s = .next s)
        ∧ exec (.regionEntryWrite r k v true true) s = .next s
        ∧ ∀ fromMgc, ∃ t, exec (.regionEntryWrite r k v fromMgc false) s = .next t ∧ t.dev.dmc = s.dev.dmc ∧ t.dev.mem = s.dev.mem)
    ∧ (∀ c : Fin 8, exec (.refresh c) s = .next { s with dev := { s.dev with dmc := { s.dev.dmc with refreshes := supd (fun _ => 0) s.dev.dmc.refreshes c (· + 1) } } }
      ∧ exec (.retrainDue c) s = .next { s with dev := { s.dev with dmc := { s.dev.dmc with due := s.dev.dmc.due ||| BitVec.ofNat 8 (2 ^ c.val) } } })
    ∧ (∀ ok (ns k : BitVec 32), lowestChan s.dev.dmc.retraining = none → exec (.retrainChannelDone ok ns k) s = .next s)
    ∧ (∀ c ok (ns k : BitVec 32), lowestChan s.dev.dmc.retraining = some c → ∃ t, exec (.retrainChannelDone ok ns k) s = .next t
      ∧ t.dev.dmc.sched = s.dev.dmc.sched &&& ~~~(BitVec.ofNat 8 (2 ^ c)) ∧ cnt t.dev 0x2401 4 = max (cnt s.dev 0x2401 4) ns.toNat
      ∧ (ok = true → cnt t.dev 0x2401 3 = (cnt s.dev 0x2401 3 + 1) % 2 ^ 32)
      ∧ (ok = false → bit t.dev.dmc.due c = true ∧ cnt t.dev 0x2401 3 = cnt s.dev 0x2401 3))

/-- Voltage of a core island (R474, R475): each window's least slack moves it one step of 5 mV up or down, to within 550 to 850 mV, or holds it; short of slack at 850 mV the frequency falls 50 MHz instead, while it is at least 650 MHz, and rises again a step at a time, no higher than its limits; a disabled core's island is left alone. -/
def Sys2Proof.Claim.VoltageFollowsSlack : Prop :=
  ∀ (s : State) (n : Fin 16) (slack : BitVec 16), Awake s →
    let x := island s.dev n
    let target : Int := setting s.dev 0x2002 3
    (∀ v, 550 ≤ voltClamp v ∧ voltClamp v ≤ 850 ∧ (550 ≤ v → v ≤ 850 → voltClamp v = v))
    ∧ ((coreOf s.dev n).disabled = true → exec (.avsUpdate n slack) s = .next s)
    ∧ ((coreOf s.dev n).disabled = false →
      (slack.toInt < target - 10 → x.volt < 850 → exec (.avsUpdate n slack) s = .next { s with dev := updIsland s.dev n fun x => { x with volt := voltClamp (x.volt + 5) } })
      ∧ (target + 10 < slack.toInt → exec (.avsUpdate n slack) s = .next { s with dev := updIsland s.dev n fun x => { x with volt := voltClamp (x.volt - 5) } })
      ∧ (target - 10 ≤ slack.toInt → slack.toInt ≤ target + 10 → exec (.avsUpdate n slack) s = .next s)
      ∧ (slack.toInt < target - 10 → 850 ≤ x.volt → 650 ≤ x.freq → ∃ t, exec (.avsUpdate n slack) s = .next t
          ∧ (island t.dev n).freq = x.freq - 50 ∧ (island t.dev n).avs = x.freq - 50 ∧ (island t.dev n).volt = x.volt
          ∧ cnt t.dev (0x2010 + n) 6 = (cnt s.dev (0x2010 + n) 6 + 1) % 2 ^ 32)
      ∧ (slack.toInt < target - 10 → 850 ≤ x.volt → x.freq < 650 → exec (.avsUpdate n slack) s = .next s))
    ∧ (x.avs < 1800 → ∃ t, exec (.avsRecovery n) s = .next t ∧ (island t.dev n).avs = min 1800 (x.avs + 50)
        ∧ (island t.dev n).freq = min (min (setting s.dev 0x2002 1) x.bellows) (min x.thermal (min 1800 (x.avs + 50))))
    ∧ (1800 ≤ x.avs → exec (.avsRecovery n) s = .next s)

/-- Clocks, monitors and heat: a frequency step goes to the island's limits, the voltage first when it rises; an idle core's clock stops and restarts; a droop stretches the period by a quarter, to at most double; a monitor read adds to the window's power or marks it failed; a window takes the monitors' power, or in model mode the estimate held to nine tenths of the cap, raises the throttle index by 4 or by 1 above the cap, below it keeps or lowers it by 1, and leaves it where the reads failed outside model mode; a trip fails the device, and from 105 °C, until the hottest sensor is below 103 °C, the device is thermally critical (R472, R473, R476 to R483). -/
def Sys2Proof.Claim.PowerLoopsRun : Prop :=
  ∀ (s : State), 
    (Awake s → ∀ i : Fin 17, i.val < 16 → ∃ t, exec (.frequencyStep i) s = .next t
      ∧ (island t.dev i).freq = min (min (setting s.dev 0x2002 1) (island s.dev i).bellows) (min (island s.dev i).thermal (island s.dev i).avs)
      ∧ ((island s.dev i).freq < (island t.dev i).freq → voltClamp (Config.fusedVolt i (island t.dev i).freq) ≤ (island t.dev i).volt ∧ (island s.dev i).volt ≤ (island t.dev i).volt)
      ∧ t.dev.mem = s.dev.mem)
    ∧ (Awake s → ∃ t, exec (.frequencyStep 16) s = .next t ∧ t.dev.power.apcFreq = setting s.dev 0x2002 2)
    ∧ (Awake s → ∀ n : Fin 16,
      (islandIdle (coreOf s.dev n) = true → (coreOf s.dev n).disabled = false → exec (.clockStop n) s = .next { s with dev := updCore s.dev n fun c => { c with stopped := true } })
      ∧ (islandIdle (coreOf s.dev n) = false ∨ (coreOf s.dev n).disabled = true → exec (.clockStop n) s = .next s)
      ∧ exec (.clockRestart n) s = .next { s with dev := updCore s.dev n fun c => { c with stopped := false } }
      ∧ ∀ slack : BitVec 16, ∃ t, exec (.droopStretch n slack) s = .next t
        ∧ (island t.dev n).stretch = (if slack.toInt < (setting s.dev 0x2002 4 : Int) then min 4 ((island s.dev n).stretch + 1) else 0))
    ∧ (MgcAwake s → ∀ (k : Fin 8) (mv count : BitVec 16) (code : Fin 5),
      let lsb := (monMap s.dev k).2.2
      (lsb = 0 → ∀ ok, exec (.monitorRead k ok mv count code) s = .next s)
      ∧ (lsb ≠ 0 → exec (.monitorRead k true mv count code) s = .next { s with dev := updPower s.dev fun p => { p with sum := p.sum + mv.toNat * count.toNat * lsb } })
      ∧ (lsb ≠ 0 → ∃ t, exec (.monitorRead k false mv count code) s = .next t ∧ t.dev.power.failed = true ∧ t.dev.power.code = code.val ∧ t.dev.power.sum = s.dev.power.sum
        ∧ cnt t.dev 0x2001 4 = (cnt s.dev 0x2001 4 + 1) % 2 ^ 32))
    ∧ (MgcAwake s →
      let q := s.dev.power
      let model : Bool := if q.failed then cnt s.dev 0x2000 5 == 1 || (cnt s.dev 0x2000 5 == 0 && q.failRun + 1 == 3) else cnt s.dev 0x2000 5 == 1 && decide (q.goodRun + 1 < 3)
      let c10 := if model then 9 * q.cap else 10 * q.cap
      ∃ t, exec .bellowsWindow s = .next t ∧ t.dev.power.sum = 0 ∧ t.dev.power.failed = false ∧ t.dev.power.cap = setting s.dev 0x2000 1
        ∧ (q.failed = true → model = false → t.dev.power.p = q.p ∧ t.dev.power.t = q.t)
        ∧ (q.failed = false ∨ model = true →
          t.dev.power.p = (if model then Config.energyModel (activity s.dev) else q.sum / 10 ^ 6)
          ∧ (11 * c10 < 100 * t.dev.power.p → t.dev.power.t = min 36 (q.t + 4))
          ∧ (c10 < 10 * t.dev.power.p → 100 * t.dev.power.p ≤ 11 * c10 → t.dev.power.t = min 36 (q.t + 1))
          ∧ (10 * t.dev.power.p ≤ c10 → t.dev.power.t = q.t ∨ t.dev.power.t = q.t - 1)))
    ∧ (MgcAwake s → ∀ ts : List (BitVec 16),
      (ts = [] → exec (.thermalSample ts) s = .next s)
      ∧ (s.dev.ctl.tripped = true → ∃ t, exec (.thermalSample ts) s = .next t ∧ t.dev.ctl = s.dev.ctl ∧ t.dev.power = s.dev.power)
      ∧ (s.dev.ctl.tripped = false → (∃ x ∈ ts, 1150 ≤ x.toInt) → ∃ t, exec (.thermalSample ts) s = .next t
        ∧ t.dev.ctl.tripped = true ∧ deviceState t.dev = 3 ∧ (∀ f < 34, actual t.dev f = 0) ∧ t.dev.mem = s.dev.mem)
      ∧ (s.dev.ctl.tripped = false → (∀ x ∈ ts, x.toInt < 1150) → (∃ x ∈ ts, 1050 ≤ x.toInt) → ∃ t, exec (.thermalSample ts) s = .next t
        ∧ t.dev.ctl = s.dev.ctl ∧ t.dev.power.critical = true ∧ ∀ n < 16, (island t.dev n).freq ≤ 600 ∧ (coreOf t.dev n).dutyLimit ≤ 4)
      ∧ (s.dev.ctl.tripped = false → (∀ x ∈ ts, x.toInt < 1050) → ts ≠ [] → ∃ t, exec (.thermalSample ts) s = .next t
        ∧ t.dev.ctl = s.dev.ctl ∧ t.dev.power.critical = (s.dev.power.critical && ts.any fun x => decide (1030 ≤ x.toInt))))

/-- The breath: a boundary advances the number by one, ends the breath in progress at its length; no correction moves a boundary by more than the slew while the error stays within 2 ms; a reference event of the selected source counts once, for the nearest due breath, and any other does nothing (R485 to R488). -/
def Sys2Proof.Claim.BreathAdvances : Prop :=
  ∀ (s : State), MgcAwake s →
    (∃ t, exec .breathBoundary s = .next t ∧ t.dev.breath.number = s.dev.breath.number + 1 ∧ cnt t.dev 0x2101 1 = (s.dev.breath.number + 1) % 2 ^ 64
      ∧ t.dev.breath.prevLen = breathLen s.dev.breath ∧ t.dev.clk.ns = s.dev.clk.ns + (breathLen s.dev.breath - s.dev.breath.ns)
      ∧ t.dev.breath.adj = 0 ∧ t.dev.breath.ns = s.dev.breath.ns - breathLen s.dev.breath)
    ∧ (∀ e n, e.natAbs ≤ 2000000 → let d := dueEvent s.dev n e
        lockState d = 1 ∧ d.breath.missed = 0 ∧ (d.breath.adj - s.dev.breath.adj).natAbs ≤ setting s.dev 0x2100 6
        ∧ (e.natAbs ≤ setting s.dev 0x2100 6 → d.breath.adj = s.dev.breath.adj + e))
    ∧ (s.dev.breath.source ≠ 1 → exec (.syncReferenceEvent none) s = .next s)
    ∧ (∀ k e, s.dev.breath.source = 1 → eventFor s.dev.breath = some (k, e) → ∃ t, exec (.syncReferenceEvent none) s = .next t
        ∧ (k = 0 → t.dev.breath.took = true) ∧ (k = 1 → t.dev.breath.tookNext = true)
        ∧ cnt t.dev 0x2101 3 = (e % 2 ^ 32).toNat)
    ∧ (s.dev.breath.source = 1 → eventFor s.dev.breath = none → exec (.syncReferenceEvent none) s = .next s)
    ∧ (∀ n : Fin 16, ¬ (s.dev.breath.source = 2 ∧ s.dev.breath.ic = n.val ∧ fnLive s.dev (icFn n) = true) ∨ eventFor s.dev.breath = none →
        exec (.syncReferenceEvent (some n)) s = .next s)
    ∧ (∀ n : Fin 16, s.dev.breath.source = 2 → s.dev.breath.ic = n.val → fnLive s.dev (icFn n) = true → ∀ k e, eventFor s.dev.breath = some (k, e) →
        ∃ t, exec (.syncReferenceEvent (some n)) s = .next t ∧ (k = 0 → t.dev.breath.took = true) ∧ (k = 1 → t.dev.breath.tookNext = true) ∧ cnt t.dev 0x2101 3 = (e % 2 ^ 32).toNat)

/-- Boundaries keep the rate: boundary k lies within half a nanosecond of k × DEN × 10^9 / NUM after the epoch, so no error builds up from breath to breath (R485). -/
def Sys2Proof.Claim.BoundariesDoNotDrift : Prop :=
  ∀ (b : Breath) (k : Nat), 0 < b.num →
    2 * (boundaryAt b k * b.num) ≤ 2 * (k * b.den * 10 ^ 9) + b.num ∧ 2 * (k * b.den * 10 ^ 9) < 2 * (boundaryAt b k * b.num) + b.num
    ∧ (∀ j, boundaryAt b (k + j) ≤ boundaryAt b k + boundaryAt b j + 1 ∧ boundaryAt b k + boundaryAt b j ≤ boundaryAt b (k + j) + 1)

/-- Register writes by the application cluster: plain memory takes the bytes, a doorbell rings, an aligned 8 B write of a CP register, of a completion head, of GPIO_DIR or of a region entry acts on it, a mailbox slot and the interrupt controller take theirs, an address or a size that the range does not take raises event 0x0110, core memory stays as it is, and a register that no table describes keeps its bytes and does nothing else, the model's choice (log 48) (R9, R20 to R22, R24). -/
def Sys2Proof.Claim.RegisterWritesAct : Prop :=
  ∀ (s : State) (a : Addr) (k : Fin 4) (v : W64), Awake s →
    let src := (Config.hartSource a.toNat).toNat
    let whole : Prop := k = 3 ∧ a.toNat % 8 = 0
    (areaOf s.dev a.toNat = .dram ∨ (∃ b, areaOf s.dev a.toNat = .sb b) →
        exec (.registerWrite a k v) s = .next { s with dev := memWrite s.dev none src a.toNat (leBytes (2 ^ k.val) v.toNat) false })
    ∧ (∀ r, areaOf s.dev a.toNat = .doorbell r → ∃ w, exec (.registerWrite a k v) s = .next { s with dev := doorbell s.dev r v w } ∧ (w = true ↔ whole))
    ∧ (areaOf s.dev a.toNat = .unmapped ∨ (∃ c o, areaOf s.dev a.toNat = .pm c o) ∨ (∃ c o, areaOf s.dev a.toNat = .ds c o) →
        exec (.registerWrite a k v) s = .next { s with dev := addressError s.dev src a.toNat })
    ∧ (∀ c o, areaOf s.dev a.toNat = .wm c o ∨ areaOf s.dev a.toNat = .am c o → ∃ t, exec (.registerWrite a k v) s = .next t
        ∧ t.dev.mem = s.dev.mem ∧ t.dev.cores = s.dev.cores)
    ∧ (∀ o, areaOf s.dev a.toNat = .cpPage o → (whole → exec (.registerWrite a k v) s = .next { s with dev := complHeadWrite s.dev (o / 8) v })
        ∧ (¬ whole → exec (.registerWrite a k v) s = .next { s with dev := addressError s.dev src a.toNat }))
    ∧ (∀ j o, areaOf s.dev a.toNat = .mailbox j o →
        (o % 2 ^ k.val = 0 → exec (.registerWrite a k v) s = .next { s with dev := mboxWrite s.dev j o (leBytes (2 ^ k.val) v.toNat) })
        ∧ (o % 2 ^ k.val ≠ 0 → exec (.registerWrite a k v) s = .next { s with dev := addressError s.dev src a.toNat }))
    ∧ (∀ o, areaOf s.dev a.toNat = .plic o → exec (.registerWrite a k v) s = .next { s with dev := irqRangeWrite s.dev o (2 ^ k.val) v.toNat })
    ∧ (∀ j o, areaOf s.dev a.toNat = .periph j o → j ∈ [0x00, 0x01, 0x1D, 0x1E] → ¬ (k = 3 ∧ o % 8 = 0) →
        exec (.registerWrite a k v) s = .next { s with dev := addressError s.dev src a.toNat })
    ∧ (∀ o, areaOf s.dev a.toNat = .periph 0x00 o → k = 3 → o % 8 = 0 → exec (.registerWrite a k v) s = .next { s with dev := cpRegWrite s.dev o v })
    ∧ (∀ o, areaOf s.dev a.toNat = .periph 0x01 o → k = 3 → o % 8 = 0 → exec (.registerWrite a k v) s = .next { s with dev := dmcRegWrite s.dev o v })
    ∧ (∀ o, areaOf s.dev a.toNat = .periph 0x1D o → k = 3 → o = 0 → exec (.registerWrite a k v) s = .next { s with dev := updPorts s.dev fun x => { x with gpioDir := v } })
    ∧ (∀ o, areaOf s.dev a.toNat = .periph 0x1E o → k = 3 → o % 8 = 0 → exec (.registerWrite a k v) s = .next { s with dev := tuRegWrite s.dev o v })
    ∧ (∀ j o, areaOf s.dev a.toNat = .periph j o → j ∈ [0x02, 0x03, 0x04, 0x05, 0x08, 0x09, 0x16, 0x17, 0x1C] → ∃ t, exec (.registerWrite a k v) s = .next t
        ∧ (∀ i < 2 ^ k.val, sget (fun _ => 0#8) t.dev.regs (j * 0x100000 + o + i) = (leBytes (2 ^ k.val) v.toNat).getD i 0#8)
        ∧ (∀ x, x < j * 0x100000 + o ∨ j * 0x100000 + o + 2 ^ k.val ≤ x → sget (fun _ => 0#8) t.dev.regs x = sget (fun _ => 0#8) s.dev.regs x)
        ∧ t.dev.mem = s.dev.mem ∧ t.dev.od = s.dev.od ∧ t.dev.cores = s.dev.cores)

/-- Register writes: of the CP, of memory, doorbells and GPIO_DIR, and of addresses that nothing takes or whose register the spec does not give (R9, R20 to R22, R266, R289). -/
def Obligations.RegisterWritesAct : Prop :=
  Claim.CpRegisterWrites ∧ Claim.RegisterWritesAct

/-- Region checks, accesses, region entries, refresh and retraining (R21, R457 to R465). -/
def Obligations.MemoryControllerRuns : Prop :=
  Claim.LowestRegionDecides ∧ Claim.RefusedWritesKeepMemory ∧ Claim.MemoryControllerRuns

/-- Voltage, clocks, droop, the bellows and heat (R472 to R483). -/
def Obligations.PowerLoopsRun : Prop :=
  Claim.VoltageFollowsSlack ∧ Claim.PowerLoopsRun

/-- The breath advances, follows its reference within the slew, and does not drift (R485 to R488). -/
def Obligations.BreathAdvances : Prop :=
  Claim.BreathAdvances ∧ Claim.BoundariesDoNotDrift
end

