-- ==== Sys2Proof/Laws/Sparse.lean ====
section
/-! SUPPORT. Tables: reading what was written, and the canonical form that every write keeps. -/

namespace Sys2Proof.Machine

open Sys2Proof

section
variable {α : Type} (dflt : Nat → α)

@[simp] theorem sget_nil (k : Nat) : sget dflt [] k = dflt k := rfl

theorem sget_sput_same (t : Sparse α) (k : Nat) (v : α) : sget dflt (sput t k v) k = v := by
  induction t with
  | nil => simp [sput, sget]
  | cons x t ih =>
    obtain ⟨j, w⟩ := x
    simp only [sput]
    split
    · simp [sget]
    · split
      · simp [sget]
      · simp only [sget]; rw [if_neg ‹_›, if_neg ‹_›]; exact ih

theorem sget_sput_ne (t : Sparse α) {k j : Nat} (v : α) (h : j ≠ k) : sget dflt (sput t k v) j = sget dflt t j := by
  induction t with
  | nil => simp only [sput, sget]; rw [if_neg h]; split <;> rfl
  | cons x t ih =>
    obtain ⟨i, w⟩ := x
    simp only [sput]
    split
    · rename_i hk; subst hk; simp only [sget]; rw [if_neg h, if_neg h]
    · split
      · rename_i hk hlt
        simp only [sget]
        rw [if_neg h]
        split
        · rw [if_neg (by omega), if_pos (by omega)]
        · rfl
      · simp only [sget]; rw [ih]

variable [DecidableEq α]

/-- A write of a value that an unlisted key does not read as is read back, whatever the table. -/
theorem sget_sset_same {t : Sparse α} {k : Nat} {v : α} (h : v ≠ dflt k) : sget dflt (sset dflt t k v) k = v := by
  simp [sset, h, sget_sput_same]

theorem sget_of_below {t : Sparse α} {lo k : Nat} (h : swfFrom dflt lo t = true) (hk : k < lo) : sget dflt t k = dflt k := by
  cases t with
  | nil => rfl
  | cons x t =>
    obtain ⟨j, w⟩ := x
    simp [swfFrom] at h
    simp only [sget]
    rw [if_neg (by omega), if_pos (by omega)]

theorem swfFrom_mono {t : Sparse α} {lo lo' : Nat} (h : swfFrom dflt lo t = true) (hl : lo' ≤ lo) : swfFrom dflt lo' t = true := by
  cases t with
  | nil => rfl
  | cons x t =>
    obtain ⟨j, w⟩ := x
    simp [swfFrom] at h ⊢
    exact ⟨⟨by omega, h.1.2⟩, h.2⟩

theorem swfFrom_sdel {t : Sparse α} {lo k : Nat} (h : swfFrom dflt lo t = true) : swfFrom dflt lo (sdel dflt t k) = true := by
  induction t generalizing lo with
  | nil => rfl
  | cons x t ih =>
    obtain ⟨j, w⟩ := x
    simp [swfFrom] at h
    simp only [sdel]
    split
    · rename_i e; subst e
      rw [if_pos h.2]; exact swfFrom_mono dflt h.2 (by omega)
    · split
      · simp [swfFrom, h]
      · simp [swfFrom, h, ih h.2]

theorem swfFrom_sput {t : Sparse α} {lo k : Nat} {v : α} (h : swfFrom dflt lo t = true) (hk : lo ≤ k) (hv : v ≠ dflt k) :
    swfFrom dflt lo (sput t k v) = true := by
  induction t generalizing lo with
  | nil => simp [sput, swfFrom, hk, hv]
  | cons x t ih =>
    obtain ⟨j, w⟩ := x
    simp [swfFrom] at h
    simp only [sput]
    split
    · rename_i e; subst e; simp [swfFrom, h, hv]
    · split
      · simp [swfFrom, hk, hv, h]; omega
      · simp [swfFrom, h, ih h.2 (by omega)]

/-- Every write keeps a table's canonical form. -/
theorem swf_sset {t : Sparse α} {k : Nat} {v : α} (h : swf dflt t = true) : swf dflt (sset dflt t k v) = true := by
  unfold swf sset at *
  split
  · exact swfFrom_sdel dflt h
  · exact swfFrom_sput dflt h (Nat.zero_le k) ‹_›

theorem sget_sdel_same (t : Sparse α) (k : Nat) : sget dflt (sdel dflt t k) k = dflt k := by
  induction t with
  | nil => rfl
  | cons x t ih =>
    obtain ⟨j, w⟩ := x
    simp only [sdel]
    split
    · split
      · exact sget_of_below dflt ‹_› (by omega)
      · simp [sget]
    · split
      · simp only [sget]; rw [if_neg ‹_›, if_pos ‹_›]
      · simp only [sget]; rw [if_neg ‹_›, if_neg ‹_›]; exact ih

theorem sget_sdel_ne (t : Sparse α) {k i : Nat} (hi : i ≠ k) : sget dflt (sdel dflt t k) i = sget dflt t i := by
  induction t with
  | nil => rfl
  | cons x t ih =>
    obtain ⟨j, w⟩ := x
    simp only [sdel]
    split
    · rename_i e; subst e
      simp only [sget]
      rw [if_neg hi]
      split
      · split
        · exact sget_of_below dflt ‹_› (by omega)
        · rfl
      · simp only [sget, if_neg hi]
    · split
      · rfl
      · simp only [sget]; rw [ih]

/-- What was written is read back, in every table. -/
@[simp] theorem sget_sset (t : Sparse α) (k : Nat) (v : α) : sget dflt (sset dflt t k v) k = v := by
  unfold sset
  split
  · rename_i e; rw [sget_sdel_same, e]
  · exact sget_sput_same dflt t k v

/-- A write leaves every other key as it was. -/
theorem sget_sset_ne (t : Sparse α) {k i : Nat} (v : α) (hi : i ≠ k) : sget dflt (sset dflt t k v) i = sget dflt t i := by
  unfold sset
  split
  · exact sget_sdel_ne dflt t hi
  · exact sget_sput_ne dflt t v hi

/-- A write, read at any key. -/
theorem sget_sset_if (t : Sparse α) (k i : Nat) (v : α) : sget dflt (sset dflt t k v) i = if i = k then v else sget dflt t i := by
  split
  · subst_vars; simp
  · exact sget_sset_ne dflt t v ‹_›

end

/-- A value under a key, after a change. -/
@[simp] theorem sget_supd {α : Type} [DecidableEq α] {dflt : Nat → α} (t : Sparse α) (k : Nat) (f : α → α) :
    sget dflt (supd dflt t k f) k = f (sget dflt t k) := sget_sset dflt t k _
theorem sget_supd_ne {α : Type} [DecidableEq α] {dflt : Nat → α} (t : Sparse α) {k i : Nat} (f : α → α) (h : i ≠ k) :
    sget dflt (supd dflt t k f) i = sget dflt t i := sget_sset_ne dflt t _ h

end Sys2Proof.Machine
end

