-- ==== Sys2Proof/Laws/State.lean ====
section
/-! SUPPORT. One lemma per field per update of the device: a proof reads a field of a changed device without unfolding the change. -/

namespace Sys2Proof.Machine

open Sys2Proof

section
variable (s : State) (g : Dev → Dev)

@[simp] theorem onDev_pending : (onDev s g).pending = s.pending := rfl
@[simp] theorem onDev_otp : (onDev s g).otp = s.otp := rfl
@[simp] theorem onDev_dev : (onDev s g).dev = g s.dev := rfl

end

section
variable (d : Dev) (i sub v : Nat)

@[simp] theorem setSetting_clk : (setSetting d i sub v).clk = d.clk := rfl
@[simp] theorem setSetting_breath : (setSetting d i sub v).breath = d.breath := rfl
@[simp] theorem setSetting_apc : (setSetting d i sub v).apc = d.apc := rfl
@[simp] theorem setSetting_mem : (setSetting d i sub v).mem = d.mem := rfl
@[simp] theorem setSetting_dmc : (setSetting d i sub v).dmc = d.dmc := rfl
@[simp] theorem setSetting_cp : (setSetting d i sub v).cp = d.cp := rfl
@[simp] theorem setSetting_ctrs : (setSetting d i sub v).ctrs = d.ctrs := rfl
@[simp] theorem setSetting_cores : (setSetting d i sub v).cores = d.cores := rfl
@[simp] theorem setSetting_se : (setSetting d i sub v).se = d.se := rfl
@[simp] theorem setSetting_mpe : (setSetting d i sub v).mpe = d.mpe := rfl
@[simp] theorem setSetting_cams : (setSetting d i sub v).cams = d.cams := rfl
@[simp] theorem setSetting_ics : (setSetting d i sub v).ics = d.ics := rfl
@[simp] theorem setSetting_ipl : (setSetting d i sub v).ipl = d.ipl := rfl
@[simp] theorem setSetting_afe : (setSetting d i sub v).afe = d.afe := rfl
@[simp] theorem setSetting_ports : (setSetting d i sub v).ports = d.ports := rfl
@[simp] theorem setSetting_mgc : (setSetting d i sub v).mgc = d.mgc := rfl
@[simp] theorem setSetting_power : (setSetting d i sub v).power = d.power := rfl
@[simp] theorem setSetting_ctl : (setSetting d i sub v).ctl = d.ctl := rfl
@[simp] theorem setSetting_boot : (setSetting d i sub v).boot = d.boot := rfl
@[simp] theorem setSetting_tu : (setSetting d i sub v).tu = d.tu := rfl
@[simp] theorem setSetting_store0 : (setSetting d i sub v).store0 = d.store0 := rfl
@[simp] theorem setSetting_store1 : (setSetting d i sub v).store1 = d.store1 := rfl
@[simp] theorem setSetting_regs : (setSetting d i sub v).regs = d.regs := rfl
@[simp] theorem setSetting_once : (setSetting d i sub v).once = d.once := rfl
@[simp] theorem setSetting_freeNo : (setSetting d i sub v).freeNo = d.freeNo := rfl

end

section
variable (d : Dev) (i sub v : Nat)

@[simp] theorem setCnt_clk : (setCnt d i sub v).clk = d.clk := rfl
@[simp] theorem setCnt_breath : (setCnt d i sub v).breath = d.breath := rfl
@[simp] theorem setCnt_apc : (setCnt d i sub v).apc = d.apc := rfl
@[simp] theorem setCnt_mem : (setCnt d i sub v).mem = d.mem := rfl
@[simp] theorem setCnt_dmc : (setCnt d i sub v).dmc = d.dmc := rfl
@[simp] theorem setCnt_cp : (setCnt d i sub v).cp = d.cp := rfl
@[simp] theorem setCnt_ctrs : (setCnt d i sub v).ctrs = d.ctrs := rfl
@[simp] theorem setCnt_cores : (setCnt d i sub v).cores = d.cores := rfl
@[simp] theorem setCnt_se : (setCnt d i sub v).se = d.se := rfl
@[simp] theorem setCnt_mpe : (setCnt d i sub v).mpe = d.mpe := rfl
@[simp] theorem setCnt_cams : (setCnt d i sub v).cams = d.cams := rfl
@[simp] theorem setCnt_ics : (setCnt d i sub v).ics = d.ics := rfl
@[simp] theorem setCnt_ipl : (setCnt d i sub v).ipl = d.ipl := rfl
@[simp] theorem setCnt_afe : (setCnt d i sub v).afe = d.afe := rfl
@[simp] theorem setCnt_ports : (setCnt d i sub v).ports = d.ports := rfl
@[simp] theorem setCnt_mgc : (setCnt d i sub v).mgc = d.mgc := rfl
@[simp] theorem setCnt_power : (setCnt d i sub v).power = d.power := rfl
@[simp] theorem setCnt_ctl : (setCnt d i sub v).ctl = d.ctl := rfl
@[simp] theorem setCnt_boot : (setCnt d i sub v).boot = d.boot := rfl
@[simp] theorem setCnt_tu : (setCnt d i sub v).tu = d.tu := rfl
@[simp] theorem setCnt_store0 : (setCnt d i sub v).store0 = d.store0 := rfl
@[simp] theorem setCnt_store1 : (setCnt d i sub v).store1 = d.store1 := rfl
@[simp] theorem setCnt_regs : (setCnt d i sub v).regs = d.regs := rfl
@[simp] theorem setCnt_once : (setCnt d i sub v).once = d.once := rfl
@[simp] theorem setCnt_freeNo : (setCnt d i sub v).freeNo = d.freeNo := rfl

end

section
variable (d : Dev) (i sub w n : Nat)

@[simp] theorem bump_clk : (bump d i sub w n).clk = d.clk := rfl
@[simp] theorem bump_breath : (bump d i sub w n).breath = d.breath := rfl
@[simp] theorem bump_apc : (bump d i sub w n).apc = d.apc := rfl
@[simp] theorem bump_mem : (bump d i sub w n).mem = d.mem := rfl
@[simp] theorem bump_dmc : (bump d i sub w n).dmc = d.dmc := rfl
@[simp] theorem bump_cp : (bump d i sub w n).cp = d.cp := rfl
@[simp] theorem bump_ctrs : (bump d i sub w n).ctrs = d.ctrs := rfl
@[simp] theorem bump_cores : (bump d i sub w n).cores = d.cores := rfl
@[simp] theorem bump_se : (bump d i sub w n).se = d.se := rfl
@[simp] theorem bump_mpe : (bump d i sub w n).mpe = d.mpe := rfl
@[simp] theorem bump_cams : (bump d i sub w n).cams = d.cams := rfl
@[simp] theorem bump_ics : (bump d i sub w n).ics = d.ics := rfl
@[simp] theorem bump_ipl : (bump d i sub w n).ipl = d.ipl := rfl
@[simp] theorem bump_afe : (bump d i sub w n).afe = d.afe := rfl
@[simp] theorem bump_ports : (bump d i sub w n).ports = d.ports := rfl
@[simp] theorem bump_mgc : (bump d i sub w n).mgc = d.mgc := rfl
@[simp] theorem bump_power : (bump d i sub w n).power = d.power := rfl
@[simp] theorem bump_ctl : (bump d i sub w n).ctl = d.ctl := rfl
@[simp] theorem bump_boot : (bump d i sub w n).boot = d.boot := rfl
@[simp] theorem bump_tu : (bump d i sub w n).tu = d.tu := rfl
@[simp] theorem bump_store0 : (bump d i sub w n).store0 = d.store0 := rfl
@[simp] theorem bump_store1 : (bump d i sub w n).store1 = d.store1 := rfl
@[simp] theorem bump_regs : (bump d i sub w n).regs = d.regs := rfl
@[simp] theorem bump_once : (bump d i sub w n).once = d.once := rfl
@[simp] theorem bump_freeNo : (bump d i sub w n).freeNo = d.freeNo := rfl

end

section
variable (d : Dev) (i sub : Nat) (v : List Byte)

@[simp] theorem setDom_clk : (setDom d i sub v).clk = d.clk := rfl
@[simp] theorem setDom_breath : (setDom d i sub v).breath = d.breath := rfl
@[simp] theorem setDom_apc : (setDom d i sub v).apc = d.apc := rfl
@[simp] theorem setDom_mem : (setDom d i sub v).mem = d.mem := rfl
@[simp] theorem setDom_dmc : (setDom d i sub v).dmc = d.dmc := rfl
@[simp] theorem setDom_cp : (setDom d i sub v).cp = d.cp := rfl
@[simp] theorem setDom_ctrs : (setDom d i sub v).ctrs = d.ctrs := rfl
@[simp] theorem setDom_cores : (setDom d i sub v).cores = d.cores := rfl
@[simp] theorem setDom_se : (setDom d i sub v).se = d.se := rfl
@[simp] theorem setDom_mpe : (setDom d i sub v).mpe = d.mpe := rfl
@[simp] theorem setDom_cams : (setDom d i sub v).cams = d.cams := rfl
@[simp] theorem setDom_ics : (setDom d i sub v).ics = d.ics := rfl
@[simp] theorem setDom_ipl : (setDom d i sub v).ipl = d.ipl := rfl
@[simp] theorem setDom_afe : (setDom d i sub v).afe = d.afe := rfl
@[simp] theorem setDom_ports : (setDom d i sub v).ports = d.ports := rfl
@[simp] theorem setDom_mgc : (setDom d i sub v).mgc = d.mgc := rfl
@[simp] theorem setDom_power : (setDom d i sub v).power = d.power := rfl
@[simp] theorem setDom_ctl : (setDom d i sub v).ctl = d.ctl := rfl
@[simp] theorem setDom_boot : (setDom d i sub v).boot = d.boot := rfl
@[simp] theorem setDom_tu : (setDom d i sub v).tu = d.tu := rfl
@[simp] theorem setDom_store0 : (setDom d i sub v).store0 = d.store0 := rfl
@[simp] theorem setDom_store1 : (setDom d i sub v).store1 = d.store1 := rfl
@[simp] theorem setDom_regs : (setDom d i sub v).regs = d.regs := rfl
@[simp] theorem setDom_once : (setDom d i sub v).once = d.once := rfl
@[simp] theorem setDom_freeNo : (setDom d i sub v).freeNo = d.freeNo := rfl

end

section
variable (d : Dev) (k : Nat)

@[simp] theorem latch_clk : (latch d k).clk = d.clk := rfl
@[simp] theorem latch_breath : (latch d k).breath = d.breath := rfl
@[simp] theorem latch_od : (latch d k).od = d.od := rfl
@[simp] theorem latch_apc : (latch d k).apc = d.apc := rfl
@[simp] theorem latch_mem : (latch d k).mem = d.mem := rfl
@[simp] theorem latch_dmc : (latch d k).dmc = d.dmc := rfl
@[simp] theorem latch_cp : (latch d k).cp = d.cp := rfl
@[simp] theorem latch_ctrs : (latch d k).ctrs = d.ctrs := rfl
@[simp] theorem latch_cores : (latch d k).cores = d.cores := rfl
@[simp] theorem latch_se : (latch d k).se = d.se := rfl
@[simp] theorem latch_mpe : (latch d k).mpe = d.mpe := rfl
@[simp] theorem latch_cams : (latch d k).cams = d.cams := rfl
@[simp] theorem latch_ics : (latch d k).ics = d.ics := rfl
@[simp] theorem latch_ipl : (latch d k).ipl = d.ipl := rfl
@[simp] theorem latch_afe : (latch d k).afe = d.afe := rfl
@[simp] theorem latch_ports : (latch d k).ports = d.ports := rfl
@[simp] theorem latch_mgc : (latch d k).mgc = d.mgc := rfl
@[simp] theorem latch_power : (latch d k).power = d.power := rfl
@[simp] theorem latch_ctl : (latch d k).ctl = d.ctl := rfl
@[simp] theorem latch_boot : (latch d k).boot = d.boot := rfl
@[simp] theorem latch_tu : (latch d k).tu = d.tu := rfl
@[simp] theorem latch_store0 : (latch d k).store0 = d.store0 := rfl
@[simp] theorem latch_store1 : (latch d k).store1 = d.store1 := rfl
@[simp] theorem latch_regs : (latch d k).regs = d.regs := rfl
@[simp] theorem latch_freeNo : (latch d k).freeNo = d.freeNo := rfl

end

section
variable (d : Dev) (k : Nat)

@[simp] theorem raiseIrq_clk : (raiseIrq d k).clk = d.clk := rfl
@[simp] theorem raiseIrq_breath : (raiseIrq d k).breath = d.breath := rfl
@[simp] theorem raiseIrq_od : (raiseIrq d k).od = d.od := rfl
@[simp] theorem raiseIrq_mem : (raiseIrq d k).mem = d.mem := rfl
@[simp] theorem raiseIrq_dmc : (raiseIrq d k).dmc = d.dmc := rfl
@[simp] theorem raiseIrq_cp : (raiseIrq d k).cp = d.cp := rfl
@[simp] theorem raiseIrq_ctrs : (raiseIrq d k).ctrs = d.ctrs := rfl
@[simp] theorem raiseIrq_cores : (raiseIrq d k).cores = d.cores := rfl
@[simp] theorem raiseIrq_se : (raiseIrq d k).se = d.se := rfl
@[simp] theorem raiseIrq_mpe : (raiseIrq d k).mpe = d.mpe := rfl
@[simp] theorem raiseIrq_cams : (raiseIrq d k).cams = d.cams := rfl
@[simp] theorem raiseIrq_ics : (raiseIrq d k).ics = d.ics := rfl
@[simp] theorem raiseIrq_ipl : (raiseIrq d k).ipl = d.ipl := rfl
@[simp] theorem raiseIrq_afe : (raiseIrq d k).afe = d.afe := rfl
@[simp] theorem raiseIrq_ports : (raiseIrq d k).ports = d.ports := rfl
@[simp] theorem raiseIrq_mgc : (raiseIrq d k).mgc = d.mgc := rfl
@[simp] theorem raiseIrq_power : (raiseIrq d k).power = d.power := rfl
@[simp] theorem raiseIrq_ctl : (raiseIrq d k).ctl = d.ctl := rfl
@[simp] theorem raiseIrq_boot : (raiseIrq d k).boot = d.boot := rfl
@[simp] theorem raiseIrq_tu : (raiseIrq d k).tu = d.tu := rfl
@[simp] theorem raiseIrq_store0 : (raiseIrq d k).store0 = d.store0 := rfl
@[simp] theorem raiseIrq_store1 : (raiseIrq d k).store1 = d.store1 := rfl
@[simp] theorem raiseIrq_regs : (raiseIrq d k).regs = d.regs := rfl
@[simp] theorem raiseIrq_once : (raiseIrq d k).once = d.once := rfl
@[simp] theorem raiseIrq_freeNo : (raiseIrq d k).freeNo = d.freeNo := rfl

end

section
variable (d : Dev) (n : Nat) (f : Core → Core)

@[simp] theorem updCore_clk : (updCore d n f).clk = d.clk := rfl
@[simp] theorem updCore_breath : (updCore d n f).breath = d.breath := rfl
@[simp] theorem updCore_od : (updCore d n f).od = d.od := rfl
@[simp] theorem updCore_apc : (updCore d n f).apc = d.apc := rfl
@[simp] theorem updCore_mem : (updCore d n f).mem = d.mem := rfl
@[simp] theorem updCore_dmc : (updCore d n f).dmc = d.dmc := rfl
@[simp] theorem updCore_cp : (updCore d n f).cp = d.cp := rfl
@[simp] theorem updCore_ctrs : (updCore d n f).ctrs = d.ctrs := rfl
@[simp] theorem updCore_se : (updCore d n f).se = d.se := rfl
@[simp] theorem updCore_mpe : (updCore d n f).mpe = d.mpe := rfl
@[simp] theorem updCore_cams : (updCore d n f).cams = d.cams := rfl
@[simp] theorem updCore_ics : (updCore d n f).ics = d.ics := rfl
@[simp] theorem updCore_ipl : (updCore d n f).ipl = d.ipl := rfl
@[simp] theorem updCore_afe : (updCore d n f).afe = d.afe := rfl
@[simp] theorem updCore_ports : (updCore d n f).ports = d.ports := rfl
@[simp] theorem updCore_mgc : (updCore d n f).mgc = d.mgc := rfl
@[simp] theorem updCore_power : (updCore d n f).power = d.power := rfl
@[simp] theorem updCore_ctl : (updCore d n f).ctl = d.ctl := rfl
@[simp] theorem updCore_boot : (updCore d n f).boot = d.boot := rfl
@[simp] theorem updCore_tu : (updCore d n f).tu = d.tu := rfl
@[simp] theorem updCore_store0 : (updCore d n f).store0 = d.store0 := rfl
@[simp] theorem updCore_store1 : (updCore d n f).store1 = d.store1 := rfl
@[simp] theorem updCore_regs : (updCore d n f).regs = d.regs := rfl
@[simp] theorem updCore_once : (updCore d n f).once = d.once := rfl
@[simp] theorem updCore_freeNo : (updCore d n f).freeNo = d.freeNo := rfl

end

section
variable (d : Dev) (n a : Nat) (f : Arr → Arr)

@[simp] theorem updArr_clk : (updArr d n a f).clk = d.clk := rfl
@[simp] theorem updArr_breath : (updArr d n a f).breath = d.breath := rfl
@[simp] theorem updArr_od : (updArr d n a f).od = d.od := rfl
@[simp] theorem updArr_apc : (updArr d n a f).apc = d.apc := rfl
@[simp] theorem updArr_mem : (updArr d n a f).mem = d.mem := rfl
@[simp] theorem updArr_dmc : (updArr d n a f).dmc = d.dmc := rfl
@[simp] theorem updArr_cp : (updArr d n a f).cp = d.cp := rfl
@[simp] theorem updArr_ctrs : (updArr d n a f).ctrs = d.ctrs := rfl
@[simp] theorem updArr_se : (updArr d n a f).se = d.se := rfl
@[simp] theorem updArr_mpe : (updArr d n a f).mpe = d.mpe := rfl
@[simp] theorem updArr_cams : (updArr d n a f).cams = d.cams := rfl
@[simp] theorem updArr_ics : (updArr d n a f).ics = d.ics := rfl
@[simp] theorem updArr_ipl : (updArr d n a f).ipl = d.ipl := rfl
@[simp] theorem updArr_afe : (updArr d n a f).afe = d.afe := rfl
@[simp] theorem updArr_ports : (updArr d n a f).ports = d.ports := rfl
@[simp] theorem updArr_mgc : (updArr d n a f).mgc = d.mgc := rfl
@[simp] theorem updArr_power : (updArr d n a f).power = d.power := rfl
@[simp] theorem updArr_ctl : (updArr d n a f).ctl = d.ctl := rfl
@[simp] theorem updArr_boot : (updArr d n a f).boot = d.boot := rfl
@[simp] theorem updArr_tu : (updArr d n a f).tu = d.tu := rfl
@[simp] theorem updArr_store0 : (updArr d n a f).store0 = d.store0 := rfl
@[simp] theorem updArr_store1 : (updArr d n a f).store1 = d.store1 := rfl
@[simp] theorem updArr_regs : (updArr d n a f).regs = d.regs := rfl
@[simp] theorem updArr_once : (updArr d n a f).once = d.once := rfl
@[simp] theorem updArr_freeNo : (updArr d n a f).freeNo = d.freeNo := rfl

end

section
variable (d : Dev) (f : Cp → Cp)

@[simp] theorem updCp_clk : (updCp d f).clk = d.clk := rfl
@[simp] theorem updCp_breath : (updCp d f).breath = d.breath := rfl
@[simp] theorem updCp_od : (updCp d f).od = d.od := rfl
@[simp] theorem updCp_apc : (updCp d f).apc = d.apc := rfl
@[simp] theorem updCp_mem : (updCp d f).mem = d.mem := rfl
@[simp] theorem updCp_dmc : (updCp d f).dmc = d.dmc := rfl
@[simp] theorem updCp_cp : (updCp d f).cp = f d.cp := rfl
@[simp] theorem updCp_ctrs : (updCp d f).ctrs = d.ctrs := rfl
@[simp] theorem updCp_cores : (updCp d f).cores = d.cores := rfl
@[simp] theorem updCp_se : (updCp d f).se = d.se := rfl
@[simp] theorem updCp_mpe : (updCp d f).mpe = d.mpe := rfl
@[simp] theorem updCp_cams : (updCp d f).cams = d.cams := rfl
@[simp] theorem updCp_ics : (updCp d f).ics = d.ics := rfl
@[simp] theorem updCp_ipl : (updCp d f).ipl = d.ipl := rfl
@[simp] theorem updCp_afe : (updCp d f).afe = d.afe := rfl
@[simp] theorem updCp_ports : (updCp d f).ports = d.ports := rfl
@[simp] theorem updCp_mgc : (updCp d f).mgc = d.mgc := rfl
@[simp] theorem updCp_power : (updCp d f).power = d.power := rfl
@[simp] theorem updCp_ctl : (updCp d f).ctl = d.ctl := rfl
@[simp] theorem updCp_boot : (updCp d f).boot = d.boot := rfl
@[simp] theorem updCp_tu : (updCp d f).tu = d.tu := rfl
@[simp] theorem updCp_store0 : (updCp d f).store0 = d.store0 := rfl
@[simp] theorem updCp_store1 : (updCp d f).store1 = d.store1 := rfl
@[simp] theorem updCp_regs : (updCp d f).regs = d.regs := rfl
@[simp] theorem updCp_once : (updCp d f).once = d.once := rfl
@[simp] theorem updCp_freeNo : (updCp d f).freeNo = d.freeNo := rfl

end

section
variable (d : Dev) (w : Nat) (f : Wc → Wc)

@[simp] theorem updWc_clk : (updWc d w f).clk = d.clk := rfl
@[simp] theorem updWc_breath : (updWc d w f).breath = d.breath := rfl
@[simp] theorem updWc_od : (updWc d w f).od = d.od := rfl
@[simp] theorem updWc_apc : (updWc d w f).apc = d.apc := rfl
@[simp] theorem updWc_mem : (updWc d w f).mem = d.mem := rfl
@[simp] theorem updWc_dmc : (updWc d w f).dmc = d.dmc := rfl
@[simp] theorem updWc_ctrs : (updWc d w f).ctrs = d.ctrs := rfl
@[simp] theorem updWc_cores : (updWc d w f).cores = d.cores := rfl
@[simp] theorem updWc_se : (updWc d w f).se = d.se := rfl
@[simp] theorem updWc_mpe : (updWc d w f).mpe = d.mpe := rfl
@[simp] theorem updWc_cams : (updWc d w f).cams = d.cams := rfl
@[simp] theorem updWc_ics : (updWc d w f).ics = d.ics := rfl
@[simp] theorem updWc_ipl : (updWc d w f).ipl = d.ipl := rfl
@[simp] theorem updWc_afe : (updWc d w f).afe = d.afe := rfl
@[simp] theorem updWc_ports : (updWc d w f).ports = d.ports := rfl
@[simp] theorem updWc_mgc : (updWc d w f).mgc = d.mgc := rfl
@[simp] theorem updWc_power : (updWc d w f).power = d.power := rfl
@[simp] theorem updWc_ctl : (updWc d w f).ctl = d.ctl := rfl
@[simp] theorem updWc_boot : (updWc d w f).boot = d.boot := rfl
@[simp] theorem updWc_tu : (updWc d w f).tu = d.tu := rfl
@[simp] theorem updWc_store0 : (updWc d w f).store0 = d.store0 := rfl
@[simp] theorem updWc_store1 : (updWc d w f).store1 = d.store1 := rfl
@[simp] theorem updWc_regs : (updWc d w f).regs = d.regs := rfl
@[simp] theorem updWc_once : (updWc d w f).once = d.once := rfl
@[simp] theorem updWc_freeNo : (updWc d w f).freeNo = d.freeNo := rfl

end

section
variable (d : Dev) (r : Nat) (f : Ring → Ring)

@[simp] theorem updRing_clk : (updRing d r f).clk = d.clk := rfl
@[simp] theorem updRing_breath : (updRing d r f).breath = d.breath := rfl
@[simp] theorem updRing_od : (updRing d r f).od = d.od := rfl
@[simp] theorem updRing_apc : (updRing d r f).apc = d.apc := rfl
@[simp] theorem updRing_mem : (updRing d r f).mem = d.mem := rfl
@[simp] theorem updRing_dmc : (updRing d r f).dmc = d.dmc := rfl
@[simp] theorem updRing_ctrs : (updRing d r f).ctrs = d.ctrs := rfl
@[simp] theorem updRing_cores : (updRing d r f).cores = d.cores := rfl
@[simp] theorem updRing_se : (updRing d r f).se = d.se := rfl
@[simp] theorem updRing_mpe : (updRing d r f).mpe = d.mpe := rfl
@[simp] theorem updRing_cams : (updRing d r f).cams = d.cams := rfl
@[simp] theorem updRing_ics : (updRing d r f).ics = d.ics := rfl
@[simp] theorem updRing_ipl : (updRing d r f).ipl = d.ipl := rfl
@[simp] theorem updRing_afe : (updRing d r f).afe = d.afe := rfl
@[simp] theorem updRing_ports : (updRing d r f).ports = d.ports := rfl
@[simp] theorem updRing_mgc : (updRing d r f).mgc = d.mgc := rfl
@[simp] theorem updRing_power : (updRing d r f).power = d.power := rfl
@[simp] theorem updRing_ctl : (updRing d r f).ctl = d.ctl := rfl
@[simp] theorem updRing_boot : (updRing d r f).boot = d.boot := rfl
@[simp] theorem updRing_tu : (updRing d r f).tu = d.tu := rfl
@[simp] theorem updRing_store0 : (updRing d r f).store0 = d.store0 := rfl
@[simp] theorem updRing_store1 : (updRing d r f).store1 = d.store1 := rfl
@[simp] theorem updRing_regs : (updRing d r f).regs = d.regs := rfl
@[simp] theorem updRing_once : (updRing d r f).once = d.once := rfl
@[simp] theorem updRing_freeNo : (updRing d r f).freeNo = d.freeNo := rfl

end

section
variable (d : Dev) (k : Nat) (c : TileCtr)

@[simp] theorem setCtr_clk : (setCtr d k c).clk = d.clk := rfl
@[simp] theorem setCtr_breath : (setCtr d k c).breath = d.breath := rfl
@[simp] theorem setCtr_od : (setCtr d k c).od = d.od := rfl
@[simp] theorem setCtr_apc : (setCtr d k c).apc = d.apc := rfl
@[simp] theorem setCtr_mem : (setCtr d k c).mem = d.mem := rfl
@[simp] theorem setCtr_dmc : (setCtr d k c).dmc = d.dmc := rfl
@[simp] theorem setCtr_cp : (setCtr d k c).cp = d.cp := rfl
@[simp] theorem setCtr_cores : (setCtr d k c).cores = d.cores := rfl
@[simp] theorem setCtr_se : (setCtr d k c).se = d.se := rfl
@[simp] theorem setCtr_mpe : (setCtr d k c).mpe = d.mpe := rfl
@[simp] theorem setCtr_cams : (setCtr d k c).cams = d.cams := rfl
@[simp] theorem setCtr_ics : (setCtr d k c).ics = d.ics := rfl
@[simp] theorem setCtr_ipl : (setCtr d k c).ipl = d.ipl := rfl
@[simp] theorem setCtr_afe : (setCtr d k c).afe = d.afe := rfl
@[simp] theorem setCtr_ports : (setCtr d k c).ports = d.ports := rfl
@[simp] theorem setCtr_mgc : (setCtr d k c).mgc = d.mgc := rfl
@[simp] theorem setCtr_power : (setCtr d k c).power = d.power := rfl
@[simp] theorem setCtr_ctl : (setCtr d k c).ctl = d.ctl := rfl
@[simp] theorem setCtr_boot : (setCtr d k c).boot = d.boot := rfl
@[simp] theorem setCtr_tu : (setCtr d k c).tu = d.tu := rfl
@[simp] theorem setCtr_store0 : (setCtr d k c).store0 = d.store0 := rfl
@[simp] theorem setCtr_store1 : (setCtr d k c).store1 = d.store1 := rfl
@[simp] theorem setCtr_regs : (setCtr d k c).regs = d.regs := rfl
@[simp] theorem setCtr_once : (setCtr d k c).once = d.once := rfl
@[simp] theorem setCtr_freeNo : (setCtr d k c).freeNo = d.freeNo := rfl

end

section
variable (d : Dev) (k : Nat) (c : Chan)

@[simp] theorem setChan_clk : (setChan d k c).clk = d.clk := rfl
@[simp] theorem setChan_breath : (setChan d k c).breath = d.breath := rfl
@[simp] theorem setChan_od : (setChan d k c).od = d.od := rfl
@[simp] theorem setChan_apc : (setChan d k c).apc = d.apc := rfl
@[simp] theorem setChan_mem : (setChan d k c).mem = d.mem := rfl
@[simp] theorem setChan_dmc : (setChan d k c).dmc = d.dmc := rfl
@[simp] theorem setChan_cp : (setChan d k c).cp = d.cp := rfl
@[simp] theorem setChan_ctrs : (setChan d k c).ctrs = d.ctrs := rfl
@[simp] theorem setChan_cores : (setChan d k c).cores = d.cores := rfl
@[simp] theorem setChan_mpe : (setChan d k c).mpe = d.mpe := rfl
@[simp] theorem setChan_cams : (setChan d k c).cams = d.cams := rfl
@[simp] theorem setChan_ics : (setChan d k c).ics = d.ics := rfl
@[simp] theorem setChan_ipl : (setChan d k c).ipl = d.ipl := rfl
@[simp] theorem setChan_afe : (setChan d k c).afe = d.afe := rfl
@[simp] theorem setChan_ports : (setChan d k c).ports = d.ports := rfl
@[simp] theorem setChan_mgc : (setChan d k c).mgc = d.mgc := rfl
@[simp] theorem setChan_power : (setChan d k c).power = d.power := rfl
@[simp] theorem setChan_ctl : (setChan d k c).ctl = d.ctl := rfl
@[simp] theorem setChan_boot : (setChan d k c).boot = d.boot := rfl
@[simp] theorem setChan_tu : (setChan d k c).tu = d.tu := rfl
@[simp] theorem setChan_store0 : (setChan d k c).store0 = d.store0 := rfl
@[simp] theorem setChan_store1 : (setChan d k c).store1 = d.store1 := rfl
@[simp] theorem setChan_regs : (setChan d k c).regs = d.regs := rfl
@[simp] theorem setChan_once : (setChan d k c).once = d.once := rfl
@[simp] theorem setChan_freeNo : (setChan d k c).freeNo = d.freeNo := rfl

end

section
variable (d : Dev) (p : Nat) (f : Cam → Cam)

@[simp] theorem updCam_clk : (updCam d p f).clk = d.clk := rfl
@[simp] theorem updCam_breath : (updCam d p f).breath = d.breath := rfl
@[simp] theorem updCam_od : (updCam d p f).od = d.od := rfl
@[simp] theorem updCam_apc : (updCam d p f).apc = d.apc := rfl
@[simp] theorem updCam_mem : (updCam d p f).mem = d.mem := rfl
@[simp] theorem updCam_dmc : (updCam d p f).dmc = d.dmc := rfl
@[simp] theorem updCam_cp : (updCam d p f).cp = d.cp := rfl
@[simp] theorem updCam_ctrs : (updCam d p f).ctrs = d.ctrs := rfl
@[simp] theorem updCam_cores : (updCam d p f).cores = d.cores := rfl
@[simp] theorem updCam_se : (updCam d p f).se = d.se := rfl
@[simp] theorem updCam_mpe : (updCam d p f).mpe = d.mpe := rfl
@[simp] theorem updCam_ics : (updCam d p f).ics = d.ics := rfl
@[simp] theorem updCam_ipl : (updCam d p f).ipl = d.ipl := rfl
@[simp] theorem updCam_afe : (updCam d p f).afe = d.afe := rfl
@[simp] theorem updCam_ports : (updCam d p f).ports = d.ports := rfl
@[simp] theorem updCam_mgc : (updCam d p f).mgc = d.mgc := rfl
@[simp] theorem updCam_power : (updCam d p f).power = d.power := rfl
@[simp] theorem updCam_ctl : (updCam d p f).ctl = d.ctl := rfl
@[simp] theorem updCam_boot : (updCam d p f).boot = d.boot := rfl
@[simp] theorem updCam_tu : (updCam d p f).tu = d.tu := rfl
@[simp] theorem updCam_store0 : (updCam d p f).store0 = d.store0 := rfl
@[simp] theorem updCam_store1 : (updCam d p f).store1 = d.store1 := rfl
@[simp] theorem updCam_regs : (updCam d p f).regs = d.regs := rfl
@[simp] theorem updCam_once : (updCam d p f).once = d.once := rfl
@[simp] theorem updCam_freeNo : (updCam d p f).freeNo = d.freeNo := rfl

end

section
variable (d : Dev) (n : Nat) (f : Ic → Ic)

@[simp] theorem updIc_clk : (updIc d n f).clk = d.clk := rfl
@[simp] theorem updIc_breath : (updIc d n f).breath = d.breath := rfl
@[simp] theorem updIc_od : (updIc d n f).od = d.od := rfl
@[simp] theorem updIc_apc : (updIc d n f).apc = d.apc := rfl
@[simp] theorem updIc_mem : (updIc d n f).mem = d.mem := rfl
@[simp] theorem updIc_dmc : (updIc d n f).dmc = d.dmc := rfl
@[simp] theorem updIc_cp : (updIc d n f).cp = d.cp := rfl
@[simp] theorem updIc_ctrs : (updIc d n f).ctrs = d.ctrs := rfl
@[simp] theorem updIc_cores : (updIc d n f).cores = d.cores := rfl
@[simp] theorem updIc_se : (updIc d n f).se = d.se := rfl
@[simp] theorem updIc_mpe : (updIc d n f).mpe = d.mpe := rfl
@[simp] theorem updIc_cams : (updIc d n f).cams = d.cams := rfl
@[simp] theorem updIc_ipl : (updIc d n f).ipl = d.ipl := rfl
@[simp] theorem updIc_afe : (updIc d n f).afe = d.afe := rfl
@[simp] theorem updIc_ports : (updIc d n f).ports = d.ports := rfl
@[simp] theorem updIc_mgc : (updIc d n f).mgc = d.mgc := rfl
@[simp] theorem updIc_power : (updIc d n f).power = d.power := rfl
@[simp] theorem updIc_ctl : (updIc d n f).ctl = d.ctl := rfl
@[simp] theorem updIc_boot : (updIc d n f).boot = d.boot := rfl
@[simp] theorem updIc_tu : (updIc d n f).tu = d.tu := rfl
@[simp] theorem updIc_store0 : (updIc d n f).store0 = d.store0 := rfl
@[simp] theorem updIc_store1 : (updIc d n f).store1 = d.store1 := rfl
@[simp] theorem updIc_regs : (updIc d n f).regs = d.regs := rfl
@[simp] theorem updIc_once : (updIc d n f).once = d.once := rfl
@[simp] theorem updIc_freeNo : (updIc d n f).freeNo = d.freeNo := rfl

end

section
variable (d : Dev) (f : Mem → Mem)

@[simp] theorem updMem_clk : (updMem d f).clk = d.clk := rfl
@[simp] theorem updMem_breath : (updMem d f).breath = d.breath := rfl
@[simp] theorem updMem_od : (updMem d f).od = d.od := rfl
@[simp] theorem updMem_apc : (updMem d f).apc = d.apc := rfl
@[simp] theorem updMem_mem : (updMem d f).mem = f d.mem := rfl
@[simp] theorem updMem_dmc : (updMem d f).dmc = d.dmc := rfl
@[simp] theorem updMem_cp : (updMem d f).cp = d.cp := rfl
@[simp] theorem updMem_ctrs : (updMem d f).ctrs = d.ctrs := rfl
@[simp] theorem updMem_cores : (updMem d f).cores = d.cores := rfl
@[simp] theorem updMem_se : (updMem d f).se = d.se := rfl
@[simp] theorem updMem_mpe : (updMem d f).mpe = d.mpe := rfl
@[simp] theorem updMem_cams : (updMem d f).cams = d.cams := rfl
@[simp] theorem updMem_ics : (updMem d f).ics = d.ics := rfl
@[simp] theorem updMem_ipl : (updMem d f).ipl = d.ipl := rfl
@[simp] theorem updMem_afe : (updMem d f).afe = d.afe := rfl
@[simp] theorem updMem_ports : (updMem d f).ports = d.ports := rfl
@[simp] theorem updMem_mgc : (updMem d f).mgc = d.mgc := rfl
@[simp] theorem updMem_power : (updMem d f).power = d.power := rfl
@[simp] theorem updMem_ctl : (updMem d f).ctl = d.ctl := rfl
@[simp] theorem updMem_boot : (updMem d f).boot = d.boot := rfl
@[simp] theorem updMem_tu : (updMem d f).tu = d.tu := rfl
@[simp] theorem updMem_store0 : (updMem d f).store0 = d.store0 := rfl
@[simp] theorem updMem_store1 : (updMem d f).store1 = d.store1 := rfl
@[simp] theorem updMem_regs : (updMem d f).regs = d.regs := rfl
@[simp] theorem updMem_once : (updMem d f).once = d.once := rfl
@[simp] theorem updMem_freeNo : (updMem d f).freeNo = d.freeNo := rfl

end

section
variable (d : Dev) (f : Apc → Apc)

@[simp] theorem updApc_clk : (updApc d f).clk = d.clk := rfl
@[simp] theorem updApc_breath : (updApc d f).breath = d.breath := rfl
@[simp] theorem updApc_od : (updApc d f).od = d.od := rfl
@[simp] theorem updApc_apc : (updApc d f).apc = f d.apc := rfl
@[simp] theorem updApc_mem : (updApc d f).mem = d.mem := rfl
@[simp] theorem updApc_dmc : (updApc d f).dmc = d.dmc := rfl
@[simp] theorem updApc_cp : (updApc d f).cp = d.cp := rfl
@[simp] theorem updApc_ctrs : (updApc d f).ctrs = d.ctrs := rfl
@[simp] theorem updApc_cores : (updApc d f).cores = d.cores := rfl
@[simp] theorem updApc_se : (updApc d f).se = d.se := rfl
@[simp] theorem updApc_mpe : (updApc d f).mpe = d.mpe := rfl
@[simp] theorem updApc_cams : (updApc d f).cams = d.cams := rfl
@[simp] theorem updApc_ics : (updApc d f).ics = d.ics := rfl
@[simp] theorem updApc_ipl : (updApc d f).ipl = d.ipl := rfl
@[simp] theorem updApc_afe : (updApc d f).afe = d.afe := rfl
@[simp] theorem updApc_ports : (updApc d f).ports = d.ports := rfl
@[simp] theorem updApc_mgc : (updApc d f).mgc = d.mgc := rfl
@[simp] theorem updApc_power : (updApc d f).power = d.power := rfl
@[simp] theorem updApc_ctl : (updApc d f).ctl = d.ctl := rfl
@[simp] theorem updApc_boot : (updApc d f).boot = d.boot := rfl
@[simp] theorem updApc_tu : (updApc d f).tu = d.tu := rfl
@[simp] theorem updApc_store0 : (updApc d f).store0 = d.store0 := rfl
@[simp] theorem updApc_store1 : (updApc d f).store1 = d.store1 := rfl
@[simp] theorem updApc_regs : (updApc d f).regs = d.regs := rfl
@[simp] theorem updApc_once : (updApc d f).once = d.once := rfl
@[simp] theorem updApc_freeNo : (updApc d f).freeNo = d.freeNo := rfl

end

section
variable (d : Dev) (f : Mgc → Mgc)

@[simp] theorem updMgc_clk : (updMgc d f).clk = d.clk := rfl
@[simp] theorem updMgc_breath : (updMgc d f).breath = d.breath := rfl
@[simp] theorem updMgc_od : (updMgc d f).od = d.od := rfl
@[simp] theorem updMgc_apc : (updMgc d f).apc = d.apc := rfl
@[simp] theorem updMgc_mem : (updMgc d f).mem = d.mem := rfl
@[simp] theorem updMgc_dmc : (updMgc d f).dmc = d.dmc := rfl
@[simp] theorem updMgc_cp : (updMgc d f).cp = d.cp := rfl
@[simp] theorem updMgc_ctrs : (updMgc d f).ctrs = d.ctrs := rfl
@[simp] theorem updMgc_cores : (updMgc d f).cores = d.cores := rfl
@[simp] theorem updMgc_se : (updMgc d f).se = d.se := rfl
@[simp] theorem updMgc_mpe : (updMgc d f).mpe = d.mpe := rfl
@[simp] theorem updMgc_cams : (updMgc d f).cams = d.cams := rfl
@[simp] theorem updMgc_ics : (updMgc d f).ics = d.ics := rfl
@[simp] theorem updMgc_ipl : (updMgc d f).ipl = d.ipl := rfl
@[simp] theorem updMgc_afe : (updMgc d f).afe = d.afe := rfl
@[simp] theorem updMgc_ports : (updMgc d f).ports = d.ports := rfl
@[simp] theorem updMgc_mgc : (updMgc d f).mgc = f d.mgc := rfl
@[simp] theorem updMgc_power : (updMgc d f).power = d.power := rfl
@[simp] theorem updMgc_ctl : (updMgc d f).ctl = d.ctl := rfl
@[simp] theorem updMgc_boot : (updMgc d f).boot = d.boot := rfl
@[simp] theorem updMgc_tu : (updMgc d f).tu = d.tu := rfl
@[simp] theorem updMgc_store0 : (updMgc d f).store0 = d.store0 := rfl
@[simp] theorem updMgc_store1 : (updMgc d f).store1 = d.store1 := rfl
@[simp] theorem updMgc_regs : (updMgc d f).regs = d.regs := rfl
@[simp] theorem updMgc_once : (updMgc d f).once = d.once := rfl
@[simp] theorem updMgc_freeNo : (updMgc d f).freeNo = d.freeNo := rfl

end

section
variable (d : Dev) (f : Tu → Tu)

@[simp] theorem updTu_clk : (updTu d f).clk = d.clk := rfl
@[simp] theorem updTu_breath : (updTu d f).breath = d.breath := rfl
@[simp] theorem updTu_od : (updTu d f).od = d.od := rfl
@[simp] theorem updTu_apc : (updTu d f).apc = d.apc := rfl
@[simp] theorem updTu_mem : (updTu d f).mem = d.mem := rfl
@[simp] theorem updTu_dmc : (updTu d f).dmc = d.dmc := rfl
@[simp] theorem updTu_cp : (updTu d f).cp = d.cp := rfl
@[simp] theorem updTu_ctrs : (updTu d f).ctrs = d.ctrs := rfl
@[simp] theorem updTu_cores : (updTu d f).cores = d.cores := rfl
@[simp] theorem updTu_se : (updTu d f).se = d.se := rfl
@[simp] theorem updTu_mpe : (updTu d f).mpe = d.mpe := rfl
@[simp] theorem updTu_cams : (updTu d f).cams = d.cams := rfl
@[simp] theorem updTu_ics : (updTu d f).ics = d.ics := rfl
@[simp] theorem updTu_ipl : (updTu d f).ipl = d.ipl := rfl
@[simp] theorem updTu_afe : (updTu d f).afe = d.afe := rfl
@[simp] theorem updTu_ports : (updTu d f).ports = d.ports := rfl
@[simp] theorem updTu_mgc : (updTu d f).mgc = d.mgc := rfl
@[simp] theorem updTu_power : (updTu d f).power = d.power := rfl
@[simp] theorem updTu_ctl : (updTu d f).ctl = d.ctl := rfl
@[simp] theorem updTu_boot : (updTu d f).boot = d.boot := rfl
@[simp] theorem updTu_tu : (updTu d f).tu = f d.tu := rfl
@[simp] theorem updTu_store0 : (updTu d f).store0 = d.store0 := rfl
@[simp] theorem updTu_store1 : (updTu d f).store1 = d.store1 := rfl
@[simp] theorem updTu_regs : (updTu d f).regs = d.regs := rfl
@[simp] theorem updTu_once : (updTu d f).once = d.once := rfl
@[simp] theorem updTu_freeNo : (updTu d f).freeNo = d.freeNo := rfl

end

section
variable (d : Dev) (f : Boot → Boot)

@[simp] theorem updBoot_clk : (updBoot d f).clk = d.clk := rfl
@[simp] theorem updBoot_breath : (updBoot d f).breath = d.breath := rfl
@[simp] theorem updBoot_od : (updBoot d f).od = d.od := rfl
@[simp] theorem updBoot_apc : (updBoot d f).apc = d.apc := rfl
@[simp] theorem updBoot_mem : (updBoot d f).mem = d.mem := rfl
@[simp] theorem updBoot_dmc : (updBoot d f).dmc = d.dmc := rfl
@[simp] theorem updBoot_cp : (updBoot d f).cp = d.cp := rfl
@[simp] theorem updBoot_ctrs : (updBoot d f).ctrs = d.ctrs := rfl
@[simp] theorem updBoot_cores : (updBoot d f).cores = d.cores := rfl
@[simp] theorem updBoot_se : (updBoot d f).se = d.se := rfl
@[simp] theorem updBoot_mpe : (updBoot d f).mpe = d.mpe := rfl
@[simp] theorem updBoot_cams : (updBoot d f).cams = d.cams := rfl
@[simp] theorem updBoot_ics : (updBoot d f).ics = d.ics := rfl
@[simp] theorem updBoot_ipl : (updBoot d f).ipl = d.ipl := rfl
@[simp] theorem updBoot_afe : (updBoot d f).afe = d.afe := rfl
@[simp] theorem updBoot_ports : (updBoot d f).ports = d.ports := rfl
@[simp] theorem updBoot_mgc : (updBoot d f).mgc = d.mgc := rfl
@[simp] theorem updBoot_power : (updBoot d f).power = d.power := rfl
@[simp] theorem updBoot_ctl : (updBoot d f).ctl = d.ctl := rfl
@[simp] theorem updBoot_boot : (updBoot d f).boot = f d.boot := rfl
@[simp] theorem updBoot_tu : (updBoot d f).tu = d.tu := rfl
@[simp] theorem updBoot_store0 : (updBoot d f).store0 = d.store0 := rfl
@[simp] theorem updBoot_store1 : (updBoot d f).store1 = d.store1 := rfl
@[simp] theorem updBoot_regs : (updBoot d f).regs = d.regs := rfl
@[simp] theorem updBoot_once : (updBoot d f).once = d.once := rfl
@[simp] theorem updBoot_freeNo : (updBoot d f).freeNo = d.freeNo := rfl

end

section
variable (d : Dev) (f : Breath → Breath)

@[simp] theorem updBreath_clk : (updBreath d f).clk = d.clk := rfl
@[simp] theorem updBreath_breath : (updBreath d f).breath = f d.breath := rfl
@[simp] theorem updBreath_od : (updBreath d f).od = d.od := rfl
@[simp] theorem updBreath_apc : (updBreath d f).apc = d.apc := rfl
@[simp] theorem updBreath_mem : (updBreath d f).mem = d.mem := rfl
@[simp] theorem updBreath_dmc : (updBreath d f).dmc = d.dmc := rfl
@[simp] theorem updBreath_cp : (updBreath d f).cp = d.cp := rfl
@[simp] theorem updBreath_ctrs : (updBreath d f).ctrs = d.ctrs := rfl
@[simp] theorem updBreath_cores : (updBreath d f).cores = d.cores := rfl
@[simp] theorem updBreath_se : (updBreath d f).se = d.se := rfl
@[simp] theorem updBreath_mpe : (updBreath d f).mpe = d.mpe := rfl
@[simp] theorem updBreath_cams : (updBreath d f).cams = d.cams := rfl
@[simp] theorem updBreath_ics : (updBreath d f).ics = d.ics := rfl
@[simp] theorem updBreath_ipl : (updBreath d f).ipl = d.ipl := rfl
@[simp] theorem updBreath_afe : (updBreath d f).afe = d.afe := rfl
@[simp] theorem updBreath_ports : (updBreath d f).ports = d.ports := rfl
@[simp] theorem updBreath_mgc : (updBreath d f).mgc = d.mgc := rfl
@[simp] theorem updBreath_power : (updBreath d f).power = d.power := rfl
@[simp] theorem updBreath_ctl : (updBreath d f).ctl = d.ctl := rfl
@[simp] theorem updBreath_boot : (updBreath d f).boot = d.boot := rfl
@[simp] theorem updBreath_tu : (updBreath d f).tu = d.tu := rfl
@[simp] theorem updBreath_store0 : (updBreath d f).store0 = d.store0 := rfl
@[simp] theorem updBreath_store1 : (updBreath d f).store1 = d.store1 := rfl
@[simp] theorem updBreath_regs : (updBreath d f).regs = d.regs := rfl
@[simp] theorem updBreath_once : (updBreath d f).once = d.once := rfl
@[simp] theorem updBreath_freeNo : (updBreath d f).freeNo = d.freeNo := rfl

end

section
variable (d : Dev) (f : Power → Power)

@[simp] theorem updPower_clk : (updPower d f).clk = d.clk := rfl
@[simp] theorem updPower_breath : (updPower d f).breath = d.breath := rfl
@[simp] theorem updPower_od : (updPower d f).od = d.od := rfl
@[simp] theorem updPower_apc : (updPower d f).apc = d.apc := rfl
@[simp] theorem updPower_mem : (updPower d f).mem = d.mem := rfl
@[simp] theorem updPower_dmc : (updPower d f).dmc = d.dmc := rfl
@[simp] theorem updPower_cp : (updPower d f).cp = d.cp := rfl
@[simp] theorem updPower_ctrs : (updPower d f).ctrs = d.ctrs := rfl
@[simp] theorem updPower_cores : (updPower d f).cores = d.cores := rfl
@[simp] theorem updPower_se : (updPower d f).se = d.se := rfl
@[simp] theorem updPower_mpe : (updPower d f).mpe = d.mpe := rfl
@[simp] theorem updPower_cams : (updPower d f).cams = d.cams := rfl
@[simp] theorem updPower_ics : (updPower d f).ics = d.ics := rfl
@[simp] theorem updPower_ipl : (updPower d f).ipl = d.ipl := rfl
@[simp] theorem updPower_afe : (updPower d f).afe = d.afe := rfl
@[simp] theorem updPower_ports : (updPower d f).ports = d.ports := rfl
@[simp] theorem updPower_mgc : (updPower d f).mgc = d.mgc := rfl
@[simp] theorem updPower_power : (updPower d f).power = f d.power := rfl
@[simp] theorem updPower_ctl : (updPower d f).ctl = d.ctl := rfl
@[simp] theorem updPower_boot : (updPower d f).boot = d.boot := rfl
@[simp] theorem updPower_tu : (updPower d f).tu = d.tu := rfl
@[simp] theorem updPower_store0 : (updPower d f).store0 = d.store0 := rfl
@[simp] theorem updPower_store1 : (updPower d f).store1 = d.store1 := rfl
@[simp] theorem updPower_regs : (updPower d f).regs = d.regs := rfl
@[simp] theorem updPower_once : (updPower d f).once = d.once := rfl
@[simp] theorem updPower_freeNo : (updPower d f).freeNo = d.freeNo := rfl

end

section
variable (d : Dev) (n : Nat) (f : Island → Island)

@[simp] theorem updIsland_clk : (updIsland d n f).clk = d.clk := rfl
@[simp] theorem updIsland_breath : (updIsland d n f).breath = d.breath := rfl
@[simp] theorem updIsland_od : (updIsland d n f).od = d.od := rfl
@[simp] theorem updIsland_apc : (updIsland d n f).apc = d.apc := rfl
@[simp] theorem updIsland_mem : (updIsland d n f).mem = d.mem := rfl
@[simp] theorem updIsland_dmc : (updIsland d n f).dmc = d.dmc := rfl
@[simp] theorem updIsland_cp : (updIsland d n f).cp = d.cp := rfl
@[simp] theorem updIsland_ctrs : (updIsland d n f).ctrs = d.ctrs := rfl
@[simp] theorem updIsland_cores : (updIsland d n f).cores = d.cores := rfl
@[simp] theorem updIsland_se : (updIsland d n f).se = d.se := rfl
@[simp] theorem updIsland_mpe : (updIsland d n f).mpe = d.mpe := rfl
@[simp] theorem updIsland_cams : (updIsland d n f).cams = d.cams := rfl
@[simp] theorem updIsland_ics : (updIsland d n f).ics = d.ics := rfl
@[simp] theorem updIsland_ipl : (updIsland d n f).ipl = d.ipl := rfl
@[simp] theorem updIsland_afe : (updIsland d n f).afe = d.afe := rfl
@[simp] theorem updIsland_ports : (updIsland d n f).ports = d.ports := rfl
@[simp] theorem updIsland_mgc : (updIsland d n f).mgc = d.mgc := rfl
@[simp] theorem updIsland_ctl : (updIsland d n f).ctl = d.ctl := rfl
@[simp] theorem updIsland_boot : (updIsland d n f).boot = d.boot := rfl
@[simp] theorem updIsland_tu : (updIsland d n f).tu = d.tu := rfl
@[simp] theorem updIsland_store0 : (updIsland d n f).store0 = d.store0 := rfl
@[simp] theorem updIsland_store1 : (updIsland d n f).store1 = d.store1 := rfl
@[simp] theorem updIsland_regs : (updIsland d n f).regs = d.regs := rfl
@[simp] theorem updIsland_once : (updIsland d n f).once = d.once := rfl
@[simp] theorem updIsland_freeNo : (updIsland d n f).freeNo = d.freeNo := rfl

end

section
variable (d : Dev) (f : Ports → Ports)

@[simp] theorem updPorts_clk : (updPorts d f).clk = d.clk := rfl
@[simp] theorem updPorts_breath : (updPorts d f).breath = d.breath := rfl
@[simp] theorem updPorts_od : (updPorts d f).od = d.od := rfl
@[simp] theorem updPorts_apc : (updPorts d f).apc = d.apc := rfl
@[simp] theorem updPorts_mem : (updPorts d f).mem = d.mem := rfl
@[simp] theorem updPorts_dmc : (updPorts d f).dmc = d.dmc := rfl
@[simp] theorem updPorts_cp : (updPorts d f).cp = d.cp := rfl
@[simp] theorem updPorts_ctrs : (updPorts d f).ctrs = d.ctrs := rfl
@[simp] theorem updPorts_cores : (updPorts d f).cores = d.cores := rfl
@[simp] theorem updPorts_se : (updPorts d f).se = d.se := rfl
@[simp] theorem updPorts_mpe : (updPorts d f).mpe = d.mpe := rfl
@[simp] theorem updPorts_cams : (updPorts d f).cams = d.cams := rfl
@[simp] theorem updPorts_ics : (updPorts d f).ics = d.ics := rfl
@[simp] theorem updPorts_ipl : (updPorts d f).ipl = d.ipl := rfl
@[simp] theorem updPorts_afe : (updPorts d f).afe = d.afe := rfl
@[simp] theorem updPorts_ports : (updPorts d f).ports = f d.ports := rfl
@[simp] theorem updPorts_mgc : (updPorts d f).mgc = d.mgc := rfl
@[simp] theorem updPorts_power : (updPorts d f).power = d.power := rfl
@[simp] theorem updPorts_ctl : (updPorts d f).ctl = d.ctl := rfl
@[simp] theorem updPorts_boot : (updPorts d f).boot = d.boot := rfl
@[simp] theorem updPorts_tu : (updPorts d f).tu = d.tu := rfl
@[simp] theorem updPorts_store0 : (updPorts d f).store0 = d.store0 := rfl
@[simp] theorem updPorts_store1 : (updPorts d f).store1 = d.store1 := rfl
@[simp] theorem updPorts_regs : (updPorts d f).regs = d.regs := rfl
@[simp] theorem updPorts_once : (updPorts d f).once = d.once := rfl
@[simp] theorem updPorts_freeNo : (updPorts d f).freeNo = d.freeNo := rfl

end

section
variable (d : Dev) (n i : Nat) (o : Op)

@[simp] theorem setOp_clk : (setOp d n i o).clk = d.clk := rfl
@[simp] theorem setOp_breath : (setOp d n i o).breath = d.breath := rfl
@[simp] theorem setOp_od : (setOp d n i o).od = d.od := rfl
@[simp] theorem setOp_apc : (setOp d n i o).apc = d.apc := rfl
@[simp] theorem setOp_mem : (setOp d n i o).mem = d.mem := rfl
@[simp] theorem setOp_dmc : (setOp d n i o).dmc = d.dmc := rfl
@[simp] theorem setOp_cp : (setOp d n i o).cp = d.cp := rfl
@[simp] theorem setOp_ctrs : (setOp d n i o).ctrs = d.ctrs := rfl
@[simp] theorem setOp_se : (setOp d n i o).se = d.se := rfl
@[simp] theorem setOp_mpe : (setOp d n i o).mpe = d.mpe := rfl
@[simp] theorem setOp_cams : (setOp d n i o).cams = d.cams := rfl
@[simp] theorem setOp_ics : (setOp d n i o).ics = d.ics := rfl
@[simp] theorem setOp_ipl : (setOp d n i o).ipl = d.ipl := rfl
@[simp] theorem setOp_afe : (setOp d n i o).afe = d.afe := rfl
@[simp] theorem setOp_ports : (setOp d n i o).ports = d.ports := rfl
@[simp] theorem setOp_mgc : (setOp d n i o).mgc = d.mgc := rfl
@[simp] theorem setOp_power : (setOp d n i o).power = d.power := rfl
@[simp] theorem setOp_ctl : (setOp d n i o).ctl = d.ctl := rfl
@[simp] theorem setOp_boot : (setOp d n i o).boot = d.boot := rfl
@[simp] theorem setOp_tu : (setOp d n i o).tu = d.tu := rfl
@[simp] theorem setOp_store0 : (setOp d n i o).store0 = d.store0 := rfl
@[simp] theorem setOp_store1 : (setOp d n i o).store1 = d.store1 := rfl
@[simp] theorem setOp_regs : (setOp d n i o).regs = d.regs := rfl
@[simp] theorem setOp_once : (setOp d n i o).once = d.once := rfl
@[simp] theorem setOp_freeNo : (setOp d n i o).freeNo = d.freeNo := rfl

end

section
variable (d : Dev) (n i : Nat) (f : Op → Op)

@[simp] theorem finishOp_clk : (finishOp d n i f).clk = d.clk := rfl
@[simp] theorem finishOp_breath : (finishOp d n i f).breath = d.breath := rfl
@[simp] theorem finishOp_od : (finishOp d n i f).od = d.od := rfl
@[simp] theorem finishOp_apc : (finishOp d n i f).apc = d.apc := rfl
@[simp] theorem finishOp_mem : (finishOp d n i f).mem = d.mem := rfl
@[simp] theorem finishOp_dmc : (finishOp d n i f).dmc = d.dmc := rfl
@[simp] theorem finishOp_cp : (finishOp d n i f).cp = d.cp := rfl
@[simp] theorem finishOp_ctrs : (finishOp d n i f).ctrs = d.ctrs := rfl
@[simp] theorem finishOp_se : (finishOp d n i f).se = d.se := rfl
@[simp] theorem finishOp_mpe : (finishOp d n i f).mpe = d.mpe := rfl
@[simp] theorem finishOp_cams : (finishOp d n i f).cams = d.cams := rfl
@[simp] theorem finishOp_ics : (finishOp d n i f).ics = d.ics := rfl
@[simp] theorem finishOp_ipl : (finishOp d n i f).ipl = d.ipl := rfl
@[simp] theorem finishOp_afe : (finishOp d n i f).afe = d.afe := rfl
@[simp] theorem finishOp_ports : (finishOp d n i f).ports = d.ports := rfl
@[simp] theorem finishOp_mgc : (finishOp d n i f).mgc = d.mgc := rfl
@[simp] theorem finishOp_power : (finishOp d n i f).power = d.power := rfl
@[simp] theorem finishOp_ctl : (finishOp d n i f).ctl = d.ctl := rfl
@[simp] theorem finishOp_boot : (finishOp d n i f).boot = d.boot := rfl
@[simp] theorem finishOp_tu : (finishOp d n i f).tu = d.tu := rfl
@[simp] theorem finishOp_store0 : (finishOp d n i f).store0 = d.store0 := rfl
@[simp] theorem finishOp_store1 : (finishOp d n i f).store1 = d.store1 := rfl
@[simp] theorem finishOp_regs : (finishOp d n i f).regs = d.regs := rfl
@[simp] theorem finishOp_once : (finishOp d n i f).once = d.once := rfl
@[simp] theorem finishOp_freeNo : (finishOp d n i f).freeNo = d.freeNo := rfl

end

end Sys2Proof.Machine
end

