-- ==== Sys2Proof/Laws/Memory.lean ====
section
/-! SUPPORT. What each shared operation over memory can do: reads after writes, and the canonical form of memory, which every write keeps. -/

namespace Sys2Proof.Machine

open Sys2Proof

/-! ### Bytes -/

/-- A byte written is read back. -/
@[simp] theorem peek_poke_same (m : Mem) (a : Nat) (b : Byte) : peek (poke m a b) a = b := sget_sset blankByte _ _ _
/-- Every other byte reads as before. -/
theorem peek_poke_ne {m : Mem} {a c : Nat} {b : Byte} (hc : c ≠ a) : peek (poke m a b) c = peek m c := sget_sset_ne blankByte _ _ hc

theorem poke_wf {m : Mem} {a : Nat} {b : Byte} (h : Memory.wf m = true) : Memory.wf (poke m a b) = true := swf_sset blankByte h

theorem pokes_wf {m : Mem} {a : Nat} {bs : List Byte} (h : Memory.wf m = true) : Memory.wf (pokes m a bs) = true := by
  induction bs generalizing m a with
  | nil => exact h
  | cons b bs ih => exact ih (poke_wf h)

/-- Bytes below and above those written read as before. -/
theorem peek_pokes_outside {m : Mem} {a c : Nat} {bs : List Byte} (hc : c < a ∨ a + bs.length ≤ c) : peek (pokes m a bs) c = peek m c := by
  induction bs generalizing m a with
  | nil => rfl
  | cons b bs ih =>
    simp only [List.length_cons] at hc
    rw [pokes, ih (by omega), peek_poke_ne (by omega)]

/-- Bytes written are read back. -/
theorem peeks_pokes {m : Mem} {a : Nat} {bs : List Byte} : peeks (pokes m a bs) a bs.length = bs := by
  induction bs generalizing m a with
  | nil => rfl
  | cons b bs ih =>
    simp only [List.length_cons, peeks, pokes]
    rw [ih, peek_pokes_outside (by omega), peek_poke_same]

@[simp] theorem setPoison_ram (m : Mem) (a : Nat) (p : Bool) : (setPoison m a p).ram = m.ram := rfl
@[simp] theorem setPoison_wf (m : Mem) (a : Nat) (p : Bool) : Memory.wf (setPoison m a p) = Memory.wf m := rfl
/-- The fields beside the bytes are no part of the canonical form of the bytes. -/
theorem wf_of_ram {m m' : Mem} (e : m'.ram = m.ram) (h : Memory.wf m = true) : Memory.wf m' = true := by unfold Memory.wf at *; rw [e]; exact h

/-- Memory at reset lists nothing. -/
theorem reset_wf : Memory.wf State.reset.dev.mem = true := rfl

/-! ### Events leave memory alone -/

@[simp] theorem postRec_mem (d : Dev) (r : EvtRec) : (postRec d r).mem = d.mem := by
  unfold postRec copyForCan; split
  · rfl
  · dsimp only; split <;> rfl
@[simp] theorem postEvent_mem (d : Dev) (a b c e : Nat) : (postEvent d a b c e).mem = d.mem := postRec_mem d _
@[simp] theorem postEventWc_mem (d : Dev) (a b c w e : Nat) : (postEventWc d a b c w e).mem = d.mem := postRec_mem d _
@[simp] theorem postOnce_mem (d : Dev) (k a b c e : Nat) : (postOnce d k a b c e).mem = d.mem := by
  unfold postOnce; split
  · rfl
  · simp
@[simp] theorem violation_mem (d : Dev) (g : Nat) (w : Bool) (a : Nat) : (violation d g w a).mem = d.mem := by simp [violation]
@[simp] theorem addressError_mem (d : Dev) (s a : Nat) : (addressError d s a).mem = d.mem := postEvent_mem d _ _ _ _

@[simp] theorem linkRead_mem (d : Dev) (a : Nat) : (linkRead d a).1.mem = d.mem := by
  simp only [linkRead]
  by_cases h0 : sget (fun _ => 0) d.dmc.linkErr (a / 64) = 0
  · simp [h0]
  · by_cases h1 : sget (fun _ => 0) d.dmc.linkErr (a / 64) = 1
    · simp only [h1, one_ne_zero, if_true, if_false]
      split <;> simp
    · simp [h0, h1]

@[simp] theorem sbCorrect_ram (d : Dev) (a : Nat) : (sbCorrect d a).mem.ram = d.mem.ram := by
  simp only [sbCorrect]
  split
  · rfl
  · split
    · split
      · rw [postEvent_mem]; rfl
      · rfl
    · rw [postEvent_mem]; rfl

/-- A read leaves the bytes of memory as they are. -/
@[simp] theorem readGranule_ram (d : Dev) (g : Option Nat) (s a : Nat) : (readGranule d g s a).1.mem.ram = d.mem.ram := by
  cases g <;> simp only [readGranule] <;> split
  all_goals first | (split <;> simp) | simp

@[simp] theorem readGranules_ram (g : Option Nat) (s : Nat) (l : List Nat) (d : Dev) : (readGranules d g s l).1.mem.ram = d.mem.ram := by
  induction l generalizing d with
  | nil => rfl
  | cons a t ih => simp [readGranules, ih]

@[simp] theorem memRead_ram (d : Dev) (g : Option Nat) (s a n : Nat) : (memRead d g s a n).1.mem.ram = d.mem.ram := by simp [memRead]

@[simp] theorem readMarked_ram (g : Option Nat) (s : Nat) (l : List Nat) (d : Dev) : (readMarked d g s l).1.mem.ram = d.mem.ram := by
  induction l generalizing d with
  | nil => rfl
  | cons a t ih => simp [readMarked, ih]

/-! ### Writes keep the canonical form -/

theorem encWrite_wf {m : Mem} {e a : Nat} {bs : List Byte} (h : Memory.wf m = true) : Memory.wf (encWrite m e a bs) = true := by
  unfold encWrite
  refine pokes_wf ?_
  by_cases ht : sget (fun _ => 0) m.encTag (a / 64) = e
  · simpa [ht] using h
  · simp only [ht, if_false]
    exact wf_of_ram (m := pokes m (a / 64 * 64) _) rfl (pokes_wf h)

/-- Where no setting changes, an encrypted write is a plain one (R465). -/
theorem encWrite_same {m : Mem} {e a : Nat} {bs : List Byte} (h : sget (fun _ => 0) m.encTag (a / 64) = e) : encWrite m e a bs = pokes m a bs := by
  simp [encWrite, h]

theorem writeDram_wf {d e : Dev} {a k : Nat} {bs : List Byte} (h : Memory.wf d.mem = true) (he : e.mem = d.mem) :
    Memory.wf (updMem e fun m => encWrite m k a bs).mem = true := by
  simp only [updMem_mem]; rw [he]; exact encWrite_wf h

theorem writeSb_wf {d e : Dev} {a b c : Nat} {p q : Bool} {bs : List Byte} (h : Memory.wf d.mem = true) (he : e.mem.ram = d.mem.ram) :
    Memory.wf (updMem e fun m => setPoison (setPoison (pokes m a bs) b p) c q).mem = true := by
  simp only [updMem_mem, setPoison_wf]; exact pokes_wf (wf_of_ram he h)

theorem writeGranule_wf {d : Dev} {g : Option Nat} {s a : Nat} {bs : List Byte} {p q : Bool} (h : Memory.wf d.mem = true) :
    Memory.wf (writeGranule d g s a bs p q).mem = true := by
  cases g <;> simp only [writeGranule] <;> split
  · split
    · exact h
    · exact writeDram_wf h (by split <;> rfl)
  · split
    · exact h
    · exact writeSb_wf h (by split <;> simp)
  · simpa using h
  · split
    · simpa using h
    · exact writeDram_wf h (by split <;> rfl)
  · split
    · simpa using h
    · exact writeSb_wf h (by split <;> simp)
  · simpa using h

theorem writeGranules_wf (g : Option Nat) (s : Nat) (p : Bool) (k : Nat) {d : Dev} {a : Nat} {bs : List Byte} (h : Memory.wf d.mem = true) :
    Memory.wf (writeGranules d g s k a bs p).mem = true := by
  induction k generalizing d a bs with
  | zero => exact h
  | succ k ih =>
    cases bs with
    | nil => exact h
    | cons b bs => exact ih (writeGranule_wf h)

/-- Every write of DRAM or SB keeps memory's canonical form. -/
theorem memWrite_wf {d : Dev} {g : Option Nat} {s a : Nat} {bs : List Byte} {p : Bool} (h : Memory.wf d.mem = true) :
    Memory.wf (memWrite d g s a bs p).mem = true := writeGranules_wf g s p _ h

theorem coreSetByte_wf {d : Dev} {n off : Nat} {wm : Bool} {b : Byte} (h : Memory.wf d.mem = true) : Memory.wf (coreSetByte d n wm off b).mem = true := by
  simp only [coreSetByte]
  split <;> simpa using poke_wf h

theorem coreSetBytes_wf {n : Nat} {wm : Bool} (bs : List Byte) {d : Dev} {off : Nat} (h : Memory.wf d.mem = true) :
    Memory.wf (coreSetBytes d n wm off bs).mem = true := by
  induction bs generalizing d off with
  | nil => exact h
  | cons b bs ih => exact ih (coreSetByte_wf h)

/-! ### The correction stage leaves the bytes alone (R126 to R128) -/

@[simp] theorem strike_ram (d : Dev) (k u : Nat) : (strike d k u).mem.ram = d.mem.ram := by
  rfl
@[simp] theorem scrubCancel_mem (d : Dev) (n mem w : Nat) : (scrubCancel d n mem w).mem = d.mem := by
  unfold scrubCancel; split <;> simp
@[simp] theorem scrubEnter_mem (d : Dev) (n mem w : Nat) : (scrubEnter d n mem w).mem = d.mem := by
  unfold scrubEnter; split
  · rfl
  · split <;> simp
@[simp] theorem coreCorrected_mem (d : Dev) (n mem w : Nat) : (coreCorrected d n mem w).mem = d.mem := by
  simp only [coreCorrected]; split <;> simp
@[simp] theorem coreUncorrectable_ram (d : Dev) (n mem w : Nat) : (coreUncorrectable d n mem w).mem.ram = d.mem.ram := by
  simp only [coreUncorrectable, postEvent_mem]
  split <;> rfl
/-- A read of a core's memory through the correction stage leaves every byte as it is. -/
@[simp] theorem coreMemRead_ram (d : Dev) (n mem w u : Nat) : (coreMemRead d n mem w u).mem.ram = d.mem.ram := by
  simp only [coreMemRead]
  split <;> simp
@[simp] theorem wordWritten_ram (d : Dev) (n mem w : Nat) : (wordWritten d n mem w).mem.ram = d.mem.ram := by
  simp [wordWritten]
theorem coreMemRead_wf {d : Dev} {n mem w u : Nat} (h : Memory.wf d.mem = true) : Memory.wf (coreMemRead d n mem w u).mem = true :=
  wf_of_ram (coreMemRead_ram d n mem w u) h

/-! ### Writes of a core's memories -/

/-- One write within a word of WM or AM keeps memory's canonical form. -/
theorem coreWriteWord_wf {d : Dev} {n off : Nat} {wm p : Bool} {bs : List Byte} (h : Memory.wf d.mem = true) :
    Memory.wf (coreWriteWord d n wm off bs p).mem = true := by
  simp only [coreWriteWord, updMem_mem, setPoison_wf]
  refine wf_of_ram (wordWritten_ram _ _ _ _) (coreSetBytes_wf bs ?_)
  split
  · exact h
  · exact coreMemRead_wf h

@[simp] theorem markPoison_mem (d : Dev) (n i : Nat) (p : Bool) : (markPoison d n i p).mem = d.mem := by
  unfold markPoison; split <;> simp

/-- So does a flush of the gather buffer. -/
theorem flushGather_wf {d : Dev} {n : Nat} {wm : Bool} {g : Gather} (h : Memory.wf d.mem = true) : Memory.wf (flushGather d n wm g).mem = true := by
  simp only [flushGather]
  split
  · exact coreWriteWord_wf (by simpa using h)
  · split
    · rw [markPoison_mem]; exact coreWriteWord_wf (coreMemRead_wf (by simpa using h))
    · exact coreWriteWord_wf (coreMemRead_wf (by simpa using h))

theorem ite_wf {c : Prop} [Decidable c] {a b : Dev} (ha : Memory.wf a.mem = true) (hb : Memory.wf b.mem = true) :
    Memory.wf (if c then a else b).mem = true := by
  by_cases h : c
  · rw [if_pos h]; exact ha
  · rw [if_neg h]; exact hb

/-- The oldest entry's flush, which a fifth word brings (R133). -/
theorem flushOldest_wf {d : Dev} {n : Nat} {wm : Bool} {l : List Gather} (h : Memory.wf d.mem = true) :
    Memory.wf (match l with | g :: _ => flushGather d n wm g | [] => d).mem = true := by
  cases l
  · exact h
  · exact flushGather_wf h

/-- So does a narrow write. -/
theorem narrowPut_wf {d : Dev} {n off mask : Nat} {who : Gather} {wm p : Bool} {bs : List Byte} (h : Memory.wf d.mem = true) :
    Memory.wf (narrowPut d n who wm off mask bs p).mem = true := by
  have k : ∀ {e : Dev} {f : Core → Core} {w : Nat}, Memory.wf e.mem = true → Memory.wf (scrubCancel (updCore e n f) n (memNo wm) w).mem = true := by
    intro e f w he; simpa using he
  unfold narrowPut
  exact ite_wf (flushGather_wf (k (ite_wf (flushOldest_wf h) h))) (k (ite_wf (flushOldest_wf h) h))

theorem storePart_wf {d : Dev} {n off : Nat} {who : Gather} {wm : Bool} {part : List (Byte × Bool)} (h : Memory.wf d.mem = true) :
    Memory.wf (storePart d n who wm off part).mem = true := by
  simp only [storePart]
  split
  · exact narrowPut_wf h
  · exact coreWriteWord_wf h

/-- Every write of bytes into a core's memories keeps memory's canonical form. -/
theorem coreStore_wf {n : Nat} {who : Gather} {wm : Bool} (k : Nat) {d : Dev} {off : Nat} {bs : List (Byte × Bool)} (h : Memory.wf d.mem = true) :
    Memory.wf (coreStore d n who wm k off bs).mem = true := by
  induction k generalizing d off bs with
  | zero => exact h
  | succ k ih =>
    cases bs with
    | nil => exact h
    | cons b bs => exact ih (storePart_wf h)

@[simp] theorem spoil_mem (d : Dev) (n : Nat) (wm : Bool) (off mask : Nat) (part : List (Byte × Bool)) : (spoil d n wm off mask part).1.mem = d.mem := by
  unfold spoil; split <;> simp [drawFree]

/-- So does a store by an instruction, into a window's region too. -/
theorem opStore_wf {n : Nat} {o : Op} {wm : Bool} (k : Nat) {d : Dev} {off : Nat} {bs : List (Byte × Bool)} (h : Memory.wf d.mem = true) :
    Memory.wf (opStore d n o wm k off bs).mem = true := by
  induction k generalizing d off bs with
  | zero => exact h
  | succ k ih =>
    cases bs with
    | nil => exact h
    | cons b bs => exact ih (storePart_wf ((congrArg Memory.wf (spoil_mem d n wm off _ _)).trans h))

theorem dsPut_wf {d : Dev} {n off : Nat} {bs : List Byte} {p : Bool} (h : Memory.wf d.mem = true) : Memory.wf (dsPut d n off bs p).mem = true := by
  simp only [dsPut, updMem_mem, setPoison_wf]
  refine wf_of_ram (wordWritten_ram _ _ _ _) ?_
  simp only [updMem_mem]
  refine pokes_wf ?_
  split
  · exact h
  · exact coreMemRead_wf h

theorem foldl_wf {β : Type} {f : Dev → β → Dev} (hf : ∀ d x, Memory.wf d.mem = true → Memory.wf (f d x).mem = true) (l : List β) {d : Dev}
    (h : Memory.wf d.mem = true) : Memory.wf (l.foldl f d).mem = true := by
  induction l generalizing d with
  | nil => exact h
  | cons x l ih => exact ih (hf d x h)

/-- A write of a core's descriptor store keeps it. -/
theorem dsStore_wf {d : Dev} {n off : Nat} {bs : List (Byte × Bool)} (h : Memory.wf d.mem = true) : Memory.wf (dsStore d n off bs).mem = true :=
  foldl_wf (fun _ _ h => dsPut_wf h) _ h

end Sys2Proof.Machine
end

