-- ==== Sys2Proof/Laws/Frames.lean ====
section
/-! SUPPORT. What posting an event and what reading and writing memory leave alone, field by field. -/

namespace Sys2Proof.Machine

open Sys2Proof


/-! ### Events: a post touches the event port and the MGC's copies only (R17, R290, R323) -/

@[simp] theorem postRec_clk (d : Dev) (r : EvtRec) : (postRec d r).clk = d.clk := by
  unfold postRec copyForCan; split
  · rfl
  · dsimp only; split <;> rfl
@[simp] theorem postRec_breath (d : Dev) (r : EvtRec) : (postRec d r).breath = d.breath := by
  unfold postRec copyForCan; split
  · rfl
  · dsimp only; split <;> rfl
@[simp] theorem postRec_od (d : Dev) (r : EvtRec) : (postRec d r).od = d.od := by
  unfold postRec copyForCan; split
  · rfl
  · dsimp only; split <;> rfl
@[simp] theorem postRec_apc (d : Dev) (r : EvtRec) : (postRec d r).apc = d.apc := by
  unfold postRec copyForCan; split
  · rfl
  · dsimp only; split <;> rfl
@[simp] theorem postRec_dmc (d : Dev) (r : EvtRec) : (postRec d r).dmc = d.dmc := by
  unfold postRec copyForCan; split
  · rfl
  · dsimp only; split <;> rfl
@[simp] theorem postRec_ctrs (d : Dev) (r : EvtRec) : (postRec d r).ctrs = d.ctrs := by
  unfold postRec copyForCan; split
  · rfl
  · dsimp only; split <;> rfl
@[simp] theorem postRec_cores (d : Dev) (r : EvtRec) : (postRec d r).cores = d.cores := by
  unfold postRec copyForCan; split
  · rfl
  · dsimp only; split <;> rfl
@[simp] theorem postRec_se (d : Dev) (r : EvtRec) : (postRec d r).se = d.se := by
  unfold postRec copyForCan; split
  · rfl
  · dsimp only; split <;> rfl
@[simp] theorem postRec_mpe (d : Dev) (r : EvtRec) : (postRec d r).mpe = d.mpe := by
  unfold postRec copyForCan; split
  · rfl
  · dsimp only; split <;> rfl
@[simp] theorem postRec_cams (d : Dev) (r : EvtRec) : (postRec d r).cams = d.cams := by
  unfold postRec copyForCan; split
  · rfl
  · dsimp only; split <;> rfl
@[simp] theorem postRec_ics (d : Dev) (r : EvtRec) : (postRec d r).ics = d.ics := by
  unfold postRec copyForCan; split
  · rfl
  · dsimp only; split <;> rfl
@[simp] theorem postRec_ipl (d : Dev) (r : EvtRec) : (postRec d r).ipl = d.ipl := by
  unfold postRec copyForCan; split
  · rfl
  · dsimp only; split <;> rfl
@[simp] theorem postRec_afe (d : Dev) (r : EvtRec) : (postRec d r).afe = d.afe := by
  unfold postRec copyForCan; split
  · rfl
  · dsimp only; split <;> rfl
@[simp] theorem postRec_ports (d : Dev) (r : EvtRec) : (postRec d r).ports = d.ports := by
  unfold postRec copyForCan; split
  · rfl
  · dsimp only; split <;> rfl
@[simp] theorem postRec_power (d : Dev) (r : EvtRec) : (postRec d r).power = d.power := by
  unfold postRec copyForCan; split
  · rfl
  · dsimp only; split <;> rfl
@[simp] theorem postRec_ctl (d : Dev) (r : EvtRec) : (postRec d r).ctl = d.ctl := by
  unfold postRec copyForCan; split
  · rfl
  · dsimp only; split <;> rfl
@[simp] theorem postRec_boot (d : Dev) (r : EvtRec) : (postRec d r).boot = d.boot := by
  unfold postRec copyForCan; split
  · rfl
  · dsimp only; split <;> rfl
@[simp] theorem postRec_tu (d : Dev) (r : EvtRec) : (postRec d r).tu = d.tu := by
  unfold postRec copyForCan; split
  · rfl
  · dsimp only; split <;> rfl
@[simp] theorem postRec_store0 (d : Dev) (r : EvtRec) : (postRec d r).store0 = d.store0 := by
  unfold postRec copyForCan; split
  · rfl
  · dsimp only; split <;> rfl
@[simp] theorem postRec_store1 (d : Dev) (r : EvtRec) : (postRec d r).store1 = d.store1 := by
  unfold postRec copyForCan; split
  · rfl
  · dsimp only; split <;> rfl
@[simp] theorem postRec_regs (d : Dev) (r : EvtRec) : (postRec d r).regs = d.regs := by
  unfold postRec copyForCan; split
  · rfl
  · dsimp only; split <;> rfl
@[simp] theorem postRec_once (d : Dev) (r : EvtRec) : (postRec d r).once = d.once := by
  unfold postRec copyForCan; split
  · rfl
  · dsimp only; split <;> rfl
@[simp] theorem postRec_freeNo (d : Dev) (r : EvtRec) : (postRec d r).freeNo = d.freeNo := by
  unfold postRec copyForCan; split
  · rfl
  · dsimp only; split <;> rfl

/-- An event posted while no trip holds the port: the record goes to the port, and to the MGC's copies when its class is wanted. -/
theorem postRec_cp (d : Dev) (r : EvtRec) (h : d.ctl.tripped = false) : (postRec d r).cp = portTake d.cp r := by
  unfold postRec copyForCan; rw [if_neg (by simp [h])]; dsimp only; split <;> rfl

@[simp] theorem postEvent_clk (d : Dev) (a b c e : Nat) : (postEvent d a b c e).clk = d.clk := postRec_clk d _
@[simp] theorem postEventWc_clk (d : Dev) (a b c w e : Nat) : (postEventWc d a b c w e).clk = d.clk := postRec_clk d _
@[simp] theorem postEvent_breath (d : Dev) (a b c e : Nat) : (postEvent d a b c e).breath = d.breath := postRec_breath d _
@[simp] theorem postEventWc_breath (d : Dev) (a b c w e : Nat) : (postEventWc d a b c w e).breath = d.breath := postRec_breath d _
@[simp] theorem postEvent_od (d : Dev) (a b c e : Nat) : (postEvent d a b c e).od = d.od := postRec_od d _
@[simp] theorem postEventWc_od (d : Dev) (a b c w e : Nat) : (postEventWc d a b c w e).od = d.od := postRec_od d _
@[simp] theorem postEvent_apc (d : Dev) (a b c e : Nat) : (postEvent d a b c e).apc = d.apc := postRec_apc d _
@[simp] theorem postEventWc_apc (d : Dev) (a b c w e : Nat) : (postEventWc d a b c w e).apc = d.apc := postRec_apc d _
@[simp] theorem postEvent_dmc (d : Dev) (a b c e : Nat) : (postEvent d a b c e).dmc = d.dmc := postRec_dmc d _
@[simp] theorem postEventWc_dmc (d : Dev) (a b c w e : Nat) : (postEventWc d a b c w e).dmc = d.dmc := postRec_dmc d _
@[simp] theorem postEvent_ctrs (d : Dev) (a b c e : Nat) : (postEvent d a b c e).ctrs = d.ctrs := postRec_ctrs d _
@[simp] theorem postEventWc_ctrs (d : Dev) (a b c w e : Nat) : (postEventWc d a b c w e).ctrs = d.ctrs := postRec_ctrs d _
@[simp] theorem postEvent_cores (d : Dev) (a b c e : Nat) : (postEvent d a b c e).cores = d.cores := postRec_cores d _
@[simp] theorem postEventWc_cores (d : Dev) (a b c w e : Nat) : (postEventWc d a b c w e).cores = d.cores := postRec_cores d _
@[simp] theorem postEvent_se (d : Dev) (a b c e : Nat) : (postEvent d a b c e).se = d.se := postRec_se d _
@[simp] theorem postEventWc_se (d : Dev) (a b c w e : Nat) : (postEventWc d a b c w e).se = d.se := postRec_se d _
@[simp] theorem postEvent_mpe (d : Dev) (a b c e : Nat) : (postEvent d a b c e).mpe = d.mpe := postRec_mpe d _
@[simp] theorem postEventWc_mpe (d : Dev) (a b c w e : Nat) : (postEventWc d a b c w e).mpe = d.mpe := postRec_mpe d _
@[simp] theorem postEvent_cams (d : Dev) (a b c e : Nat) : (postEvent d a b c e).cams = d.cams := postRec_cams d _
@[simp] theorem postEventWc_cams (d : Dev) (a b c w e : Nat) : (postEventWc d a b c w e).cams = d.cams := postRec_cams d _
@[simp] theorem postEvent_ics (d : Dev) (a b c e : Nat) : (postEvent d a b c e).ics = d.ics := postRec_ics d _
@[simp] theorem postEventWc_ics (d : Dev) (a b c w e : Nat) : (postEventWc d a b c w e).ics = d.ics := postRec_ics d _
@[simp] theorem postEvent_ipl (d : Dev) (a b c e : Nat) : (postEvent d a b c e).ipl = d.ipl := postRec_ipl d _
@[simp] theorem postEventWc_ipl (d : Dev) (a b c w e : Nat) : (postEventWc d a b c w e).ipl = d.ipl := postRec_ipl d _
@[simp] theorem postEvent_afe (d : Dev) (a b c e : Nat) : (postEvent d a b c e).afe = d.afe := postRec_afe d _
@[simp] theorem postEventWc_afe (d : Dev) (a b c w e : Nat) : (postEventWc d a b c w e).afe = d.afe := postRec_afe d _
@[simp] theorem postEvent_ports (d : Dev) (a b c e : Nat) : (postEvent d a b c e).ports = d.ports := postRec_ports d _
@[simp] theorem postEventWc_ports (d : Dev) (a b c w e : Nat) : (postEventWc d a b c w e).ports = d.ports := postRec_ports d _
@[simp] theorem postEvent_power (d : Dev) (a b c e : Nat) : (postEvent d a b c e).power = d.power := postRec_power d _
@[simp] theorem postEventWc_power (d : Dev) (a b c w e : Nat) : (postEventWc d a b c w e).power = d.power := postRec_power d _
@[simp] theorem postEvent_ctl (d : Dev) (a b c e : Nat) : (postEvent d a b c e).ctl = d.ctl := postRec_ctl d _
@[simp] theorem postEventWc_ctl (d : Dev) (a b c w e : Nat) : (postEventWc d a b c w e).ctl = d.ctl := postRec_ctl d _
@[simp] theorem postEvent_boot (d : Dev) (a b c e : Nat) : (postEvent d a b c e).boot = d.boot := postRec_boot d _
@[simp] theorem postEventWc_boot (d : Dev) (a b c w e : Nat) : (postEventWc d a b c w e).boot = d.boot := postRec_boot d _
@[simp] theorem postEvent_tu (d : Dev) (a b c e : Nat) : (postEvent d a b c e).tu = d.tu := postRec_tu d _
@[simp] theorem postEventWc_tu (d : Dev) (a b c w e : Nat) : (postEventWc d a b c w e).tu = d.tu := postRec_tu d _
@[simp] theorem postEvent_store0 (d : Dev) (a b c e : Nat) : (postEvent d a b c e).store0 = d.store0 := postRec_store0 d _
@[simp] theorem postEventWc_store0 (d : Dev) (a b c w e : Nat) : (postEventWc d a b c w e).store0 = d.store0 := postRec_store0 d _
@[simp] theorem postEvent_store1 (d : Dev) (a b c e : Nat) : (postEvent d a b c e).store1 = d.store1 := postRec_store1 d _
@[simp] theorem postEventWc_store1 (d : Dev) (a b c w e : Nat) : (postEventWc d a b c w e).store1 = d.store1 := postRec_store1 d _
@[simp] theorem postEvent_regs (d : Dev) (a b c e : Nat) : (postEvent d a b c e).regs = d.regs := postRec_regs d _
@[simp] theorem postEventWc_regs (d : Dev) (a b c w e : Nat) : (postEventWc d a b c w e).regs = d.regs := postRec_regs d _
@[simp] theorem postEvent_once (d : Dev) (a b c e : Nat) : (postEvent d a b c e).once = d.once := postRec_once d _
@[simp] theorem postEventWc_once (d : Dev) (a b c w e : Nat) : (postEventWc d a b c w e).once = d.once := postRec_once d _
@[simp] theorem postEvent_freeNo (d : Dev) (a b c e : Nat) : (postEvent d a b c e).freeNo = d.freeNo := postRec_freeNo d _
@[simp] theorem postEventWc_freeNo (d : Dev) (a b c w e : Nat) : (postEventWc d a b c w e).freeNo = d.freeNo := postRec_freeNo d _
@[simp] theorem postOnce_clk (d : Dev) (k a b c e : Nat) : (postOnce d k a b c e).clk = d.clk := by
  unfold postOnce; split <;> simp
@[simp] theorem postOnce_breath (d : Dev) (k a b c e : Nat) : (postOnce d k a b c e).breath = d.breath := by
  unfold postOnce; split <;> simp
@[simp] theorem postOnce_od (d : Dev) (k a b c e : Nat) : (postOnce d k a b c e).od = d.od := by
  unfold postOnce; split <;> simp
@[simp] theorem postOnce_apc (d : Dev) (k a b c e : Nat) : (postOnce d k a b c e).apc = d.apc := by
  unfold postOnce; split <;> simp
@[simp] theorem postOnce_dmc (d : Dev) (k a b c e : Nat) : (postOnce d k a b c e).dmc = d.dmc := by
  unfold postOnce; split <;> simp
@[simp] theorem postOnce_ctrs (d : Dev) (k a b c e : Nat) : (postOnce d k a b c e).ctrs = d.ctrs := by
  unfold postOnce; split <;> simp
@[simp] theorem postOnce_cores (d : Dev) (k a b c e : Nat) : (postOnce d k a b c e).cores = d.cores := by
  unfold postOnce; split <;> simp
@[simp] theorem postOnce_se (d : Dev) (k a b c e : Nat) : (postOnce d k a b c e).se = d.se := by
  unfold postOnce; split <;> simp
@[simp] theorem postOnce_mpe (d : Dev) (k a b c e : Nat) : (postOnce d k a b c e).mpe = d.mpe := by
  unfold postOnce; split <;> simp
@[simp] theorem postOnce_cams (d : Dev) (k a b c e : Nat) : (postOnce d k a b c e).cams = d.cams := by
  unfold postOnce; split <;> simp
@[simp] theorem postOnce_ics (d : Dev) (k a b c e : Nat) : (postOnce d k a b c e).ics = d.ics := by
  unfold postOnce; split <;> simp
@[simp] theorem postOnce_ipl (d : Dev) (k a b c e : Nat) : (postOnce d k a b c e).ipl = d.ipl := by
  unfold postOnce; split <;> simp
@[simp] theorem postOnce_afe (d : Dev) (k a b c e : Nat) : (postOnce d k a b c e).afe = d.afe := by
  unfold postOnce; split <;> simp
@[simp] theorem postOnce_ports (d : Dev) (k a b c e : Nat) : (postOnce d k a b c e).ports = d.ports := by
  unfold postOnce; split <;> simp
@[simp] theorem postOnce_power (d : Dev) (k a b c e : Nat) : (postOnce d k a b c e).power = d.power := by
  unfold postOnce; split <;> simp
@[simp] theorem postOnce_ctl (d : Dev) (k a b c e : Nat) : (postOnce d k a b c e).ctl = d.ctl := by
  unfold postOnce; split <;> simp
@[simp] theorem postOnce_boot (d : Dev) (k a b c e : Nat) : (postOnce d k a b c e).boot = d.boot := by
  unfold postOnce; split <;> simp
@[simp] theorem postOnce_tu (d : Dev) (k a b c e : Nat) : (postOnce d k a b c e).tu = d.tu := by
  unfold postOnce; split <;> simp
@[simp] theorem postOnce_store0 (d : Dev) (k a b c e : Nat) : (postOnce d k a b c e).store0 = d.store0 := by
  unfold postOnce; split <;> simp
@[simp] theorem postOnce_store1 (d : Dev) (k a b c e : Nat) : (postOnce d k a b c e).store1 = d.store1 := by
  unfold postOnce; split <;> simp
@[simp] theorem postOnce_regs (d : Dev) (k a b c e : Nat) : (postOnce d k a b c e).regs = d.regs := by
  unfold postOnce; split <;> simp
@[simp] theorem postOnce_freeNo (d : Dev) (k a b c e : Nat) : (postOnce d k a b c e).freeNo = d.freeNo := by
  unfold postOnce; split <;> simp

/-! ### Memory: reads and writes touch memory, the DMC, counters, events and their latches only -/

@[simp] theorem violation_clk (d : Dev) (g : Nat) (w : Bool) (a : Nat) : (violation d g w a).clk = d.clk := by simp [violation]
@[simp] theorem addressError_clk (d : Dev) (s a : Nat) : (addressError d s a).clk = d.clk := postEvent_clk d _ _ _ _
@[simp] theorem linkRead_clk (d : Dev) (a : Nat) : (linkRead d a).1.clk = d.clk := by
  simp only [linkRead]
  by_cases h0 : sget (fun _ => 0) d.dmc.linkErr (a / 64) = 0
  · simp [h0]
  · by_cases h1 : sget (fun _ => 0) d.dmc.linkErr (a / 64) = 1
    · simp only [h1, one_ne_zero, if_true, if_false]
      split <;> simp
    · simp [h0, h1]
@[simp] theorem sbCorrect_clk (d : Dev) (a : Nat) : (sbCorrect d a).clk = d.clk := by
  simp only [sbCorrect]
  split
  · rfl
  · split
    · split <;> simp
    · simp
@[simp] theorem readGranule_clk (d : Dev) (g : Option Nat) (s a : Nat) : (readGranule d g s a).1.clk = d.clk := by
  cases g <;> simp only [readGranule] <;> split
  all_goals first | (split <;> simp) | simp
@[simp] theorem readGranules_clk (g : Option Nat) (s : Nat) (l : List Nat) (d : Dev) : (readGranules d g s l).1.clk = d.clk := by
  induction l generalizing d with
  | nil => rfl
  | cons a t ih => simp [readGranules, ih]
@[simp] theorem memRead_clk (d : Dev) (g : Option Nat) (s a n : Nat) : (memRead d g s a n).1.clk = d.clk := by simp [memRead]
@[simp] theorem readMarked_clk (g : Option Nat) (s : Nat) (l : List Nat) (d : Dev) : (readMarked d g s l).1.clk = d.clk := by
  induction l generalizing d with
  | nil => rfl
  | cons a t ih => simp [readMarked, ih]
@[simp] theorem memReadMarked_clk (d : Dev) (g : Option Nat) (s a n : Nat) : (memReadMarked d g s a n).1.clk = d.clk := by simp [memReadMarked]
@[simp] theorem writeGranule_clk (d : Dev) (g : Option Nat) (s a : Nat) (bs : List Byte) (p q : Bool) : (writeGranule d g s a bs p q).clk = d.clk := by
  cases g <;> simp only [writeGranule] <;> split
  all_goals first | (split <;> simp [apply_ite Dev.clk]) | simp
@[simp] theorem writeGranules_clk (g : Option Nat) (s : Nat) (p : Bool) (k : Nat) (d : Dev) (a : Nat) (bs : List Byte) : (writeGranules d g s k a bs p).clk = d.clk := by
  induction k generalizing d a bs with
  | zero => rfl
  | succ k ih => cases bs with
    | nil => rfl
    | cons b bs => simp [writeGranules, ih]
@[simp] theorem memWrite_clk (d : Dev) (g : Option Nat) (s a : Nat) (bs : List Byte) (p : Bool) : (memWrite d g s a bs p).clk = d.clk := writeGranules_clk g s p _ d a bs
@[simp] theorem violation_breath (d : Dev) (g : Nat) (w : Bool) (a : Nat) : (violation d g w a).breath = d.breath := by simp [violation]
@[simp] theorem addressError_breath (d : Dev) (s a : Nat) : (addressError d s a).breath = d.breath := postEvent_breath d _ _ _ _
@[simp] theorem linkRead_breath (d : Dev) (a : Nat) : (linkRead d a).1.breath = d.breath := by
  simp only [linkRead]
  by_cases h0 : sget (fun _ => 0) d.dmc.linkErr (a / 64) = 0
  · simp [h0]
  · by_cases h1 : sget (fun _ => 0) d.dmc.linkErr (a / 64) = 1
    · simp only [h1, one_ne_zero, if_true, if_false]
      split <;> simp
    · simp [h0, h1]
@[simp] theorem sbCorrect_breath (d : Dev) (a : Nat) : (sbCorrect d a).breath = d.breath := by
  simp only [sbCorrect]
  split
  · rfl
  · split
    · split <;> simp
    · simp
@[simp] theorem readGranule_breath (d : Dev) (g : Option Nat) (s a : Nat) : (readGranule d g s a).1.breath = d.breath := by
  cases g <;> simp only [readGranule] <;> split
  all_goals first | (split <;> simp) | simp
@[simp] theorem readGranules_breath (g : Option Nat) (s : Nat) (l : List Nat) (d : Dev) : (readGranules d g s l).1.breath = d.breath := by
  induction l generalizing d with
  | nil => rfl
  | cons a t ih => simp [readGranules, ih]
@[simp] theorem memRead_breath (d : Dev) (g : Option Nat) (s a n : Nat) : (memRead d g s a n).1.breath = d.breath := by simp [memRead]
@[simp] theorem readMarked_breath (g : Option Nat) (s : Nat) (l : List Nat) (d : Dev) : (readMarked d g s l).1.breath = d.breath := by
  induction l generalizing d with
  | nil => rfl
  | cons a t ih => simp [readMarked, ih]
@[simp] theorem memReadMarked_breath (d : Dev) (g : Option Nat) (s a n : Nat) : (memReadMarked d g s a n).1.breath = d.breath := by simp [memReadMarked]
@[simp] theorem writeGranule_breath (d : Dev) (g : Option Nat) (s a : Nat) (bs : List Byte) (p q : Bool) : (writeGranule d g s a bs p q).breath = d.breath := by
  cases g <;> simp only [writeGranule] <;> split
  all_goals first | (split <;> simp [apply_ite Dev.breath]) | simp
@[simp] theorem writeGranules_breath (g : Option Nat) (s : Nat) (p : Bool) (k : Nat) (d : Dev) (a : Nat) (bs : List Byte) : (writeGranules d g s k a bs p).breath = d.breath := by
  induction k generalizing d a bs with
  | zero => rfl
  | succ k ih => cases bs with
    | nil => rfl
    | cons b bs => simp [writeGranules, ih]
@[simp] theorem memWrite_breath (d : Dev) (g : Option Nat) (s a : Nat) (bs : List Byte) (p : Bool) : (memWrite d g s a bs p).breath = d.breath := writeGranules_breath g s p _ d a bs
@[simp] theorem violation_apc (d : Dev) (g : Nat) (w : Bool) (a : Nat) : (violation d g w a).apc = d.apc := by simp [violation]
@[simp] theorem addressError_apc (d : Dev) (s a : Nat) : (addressError d s a).apc = d.apc := postEvent_apc d _ _ _ _
@[simp] theorem linkRead_apc (d : Dev) (a : Nat) : (linkRead d a).1.apc = d.apc := by
  simp only [linkRead]
  by_cases h0 : sget (fun _ => 0) d.dmc.linkErr (a / 64) = 0
  · simp [h0]
  · by_cases h1 : sget (fun _ => 0) d.dmc.linkErr (a / 64) = 1
    · simp only [h1, one_ne_zero, if_true, if_false]
      split <;> simp
    · simp [h0, h1]
@[simp] theorem sbCorrect_apc (d : Dev) (a : Nat) : (sbCorrect d a).apc = d.apc := by
  simp only [sbCorrect]
  split
  · rfl
  · split
    · split <;> simp
    · simp
@[simp] theorem readGranule_apc (d : Dev) (g : Option Nat) (s a : Nat) : (readGranule d g s a).1.apc = d.apc := by
  cases g <;> simp only [readGranule] <;> split
  all_goals first | (split <;> simp) | simp
@[simp] theorem readGranules_apc (g : Option Nat) (s : Nat) (l : List Nat) (d : Dev) : (readGranules d g s l).1.apc = d.apc := by
  induction l generalizing d with
  | nil => rfl
  | cons a t ih => simp [readGranules, ih]
@[simp] theorem memRead_apc (d : Dev) (g : Option Nat) (s a n : Nat) : (memRead d g s a n).1.apc = d.apc := by simp [memRead]
@[simp] theorem readMarked_apc (g : Option Nat) (s : Nat) (l : List Nat) (d : Dev) : (readMarked d g s l).1.apc = d.apc := by
  induction l generalizing d with
  | nil => rfl
  | cons a t ih => simp [readMarked, ih]
@[simp] theorem memReadMarked_apc (d : Dev) (g : Option Nat) (s a n : Nat) : (memReadMarked d g s a n).1.apc = d.apc := by simp [memReadMarked]
@[simp] theorem violation_ctrs (d : Dev) (g : Nat) (w : Bool) (a : Nat) : (violation d g w a).ctrs = d.ctrs := by simp [violation]
@[simp] theorem addressError_ctrs (d : Dev) (s a : Nat) : (addressError d s a).ctrs = d.ctrs := postEvent_ctrs d _ _ _ _
@[simp] theorem linkRead_ctrs (d : Dev) (a : Nat) : (linkRead d a).1.ctrs = d.ctrs := by
  simp only [linkRead]
  by_cases h0 : sget (fun _ => 0) d.dmc.linkErr (a / 64) = 0
  · simp [h0]
  · by_cases h1 : sget (fun _ => 0) d.dmc.linkErr (a / 64) = 1
    · simp only [h1, one_ne_zero, if_true, if_false]
      split <;> simp
    · simp [h0, h1]
@[simp] theorem sbCorrect_ctrs (d : Dev) (a : Nat) : (sbCorrect d a).ctrs = d.ctrs := by
  simp only [sbCorrect]
  split
  · rfl
  · split
    · split <;> simp
    · simp
@[simp] theorem readGranule_ctrs (d : Dev) (g : Option Nat) (s a : Nat) : (readGranule d g s a).1.ctrs = d.ctrs := by
  cases g <;> simp only [readGranule] <;> split
  all_goals first | (split <;> simp) | simp
@[simp] theorem readGranules_ctrs (g : Option Nat) (s : Nat) (l : List Nat) (d : Dev) : (readGranules d g s l).1.ctrs = d.ctrs := by
  induction l generalizing d with
  | nil => rfl
  | cons a t ih => simp [readGranules, ih]
@[simp] theorem memRead_ctrs (d : Dev) (g : Option Nat) (s a n : Nat) : (memRead d g s a n).1.ctrs = d.ctrs := by simp [memRead]
@[simp] theorem readMarked_ctrs (g : Option Nat) (s : Nat) (l : List Nat) (d : Dev) : (readMarked d g s l).1.ctrs = d.ctrs := by
  induction l generalizing d with
  | nil => rfl
  | cons a t ih => simp [readMarked, ih]
@[simp] theorem memReadMarked_ctrs (d : Dev) (g : Option Nat) (s a n : Nat) : (memReadMarked d g s a n).1.ctrs = d.ctrs := by simp [memReadMarked]
@[simp] theorem writeGranule_ctrs (d : Dev) (g : Option Nat) (s a : Nat) (bs : List Byte) (p q : Bool) : (writeGranule d g s a bs p q).ctrs = d.ctrs := by
  cases g <;> simp only [writeGranule] <;> split
  all_goals first | (split <;> simp [apply_ite Dev.ctrs]) | simp
@[simp] theorem writeGranules_ctrs (g : Option Nat) (s : Nat) (p : Bool) (k : Nat) (d : Dev) (a : Nat) (bs : List Byte) : (writeGranules d g s k a bs p).ctrs = d.ctrs := by
  induction k generalizing d a bs with
  | zero => rfl
  | succ k ih => cases bs with
    | nil => rfl
    | cons b bs => simp [writeGranules, ih]
@[simp] theorem memWrite_ctrs (d : Dev) (g : Option Nat) (s a : Nat) (bs : List Byte) (p : Bool) : (memWrite d g s a bs p).ctrs = d.ctrs := writeGranules_ctrs g s p _ d a bs
@[simp] theorem violation_cores (d : Dev) (g : Nat) (w : Bool) (a : Nat) : (violation d g w a).cores = d.cores := by simp [violation]
@[simp] theorem addressError_cores (d : Dev) (s a : Nat) : (addressError d s a).cores = d.cores := postEvent_cores d _ _ _ _
@[simp] theorem linkRead_cores (d : Dev) (a : Nat) : (linkRead d a).1.cores = d.cores := by
  simp only [linkRead]
  by_cases h0 : sget (fun _ => 0) d.dmc.linkErr (a / 64) = 0
  · simp [h0]
  · by_cases h1 : sget (fun _ => 0) d.dmc.linkErr (a / 64) = 1
    · simp only [h1, one_ne_zero, if_true, if_false]
      split <;> simp
    · simp [h0, h1]
@[simp] theorem sbCorrect_cores (d : Dev) (a : Nat) : (sbCorrect d a).cores = d.cores := by
  simp only [sbCorrect]
  split
  · rfl
  · split
    · split <;> simp
    · simp
@[simp] theorem readGranule_cores (d : Dev) (g : Option Nat) (s a : Nat) : (readGranule d g s a).1.cores = d.cores := by
  cases g <;> simp only [readGranule] <;> split
  all_goals first | (split <;> simp) | simp
@[simp] theorem readGranules_cores (g : Option Nat) (s : Nat) (l : List Nat) (d : Dev) : (readGranules d g s l).1.cores = d.cores := by
  induction l generalizing d with
  | nil => rfl
  | cons a t ih => simp [readGranules, ih]
@[simp] theorem memRead_cores (d : Dev) (g : Option Nat) (s a n : Nat) : (memRead d g s a n).1.cores = d.cores := by simp [memRead]
@[simp] theorem readMarked_cores (g : Option Nat) (s : Nat) (l : List Nat) (d : Dev) : (readMarked d g s l).1.cores = d.cores := by
  induction l generalizing d with
  | nil => rfl
  | cons a t ih => simp [readMarked, ih]
@[simp] theorem memReadMarked_cores (d : Dev) (g : Option Nat) (s a n : Nat) : (memReadMarked d g s a n).1.cores = d.cores := by simp [memReadMarked]
@[simp] theorem writeGranule_cores (d : Dev) (g : Option Nat) (s a : Nat) (bs : List Byte) (p q : Bool) : (writeGranule d g s a bs p q).cores = d.cores := by
  cases g <;> simp only [writeGranule] <;> split
  all_goals first | (split <;> simp [apply_ite Dev.cores]) | simp
@[simp] theorem writeGranules_cores (g : Option Nat) (s : Nat) (p : Bool) (k : Nat) (d : Dev) (a : Nat) (bs : List Byte) : (writeGranules d g s k a bs p).cores = d.cores := by
  induction k generalizing d a bs with
  | zero => rfl
  | succ k ih => cases bs with
    | nil => rfl
    | cons b bs => simp [writeGranules, ih]
@[simp] theorem memWrite_cores (d : Dev) (g : Option Nat) (s a : Nat) (bs : List Byte) (p : Bool) : (memWrite d g s a bs p).cores = d.cores := writeGranules_cores g s p _ d a bs
@[simp] theorem violation_se (d : Dev) (g : Nat) (w : Bool) (a : Nat) : (violation d g w a).se = d.se := by simp [violation]
@[simp] theorem addressError_se (d : Dev) (s a : Nat) : (addressError d s a).se = d.se := postEvent_se d _ _ _ _
@[simp] theorem linkRead_se (d : Dev) (a : Nat) : (linkRead d a).1.se = d.se := by
  simp only [linkRead]
  by_cases h0 : sget (fun _ => 0) d.dmc.linkErr (a / 64) = 0
  · simp [h0]
  · by_cases h1 : sget (fun _ => 0) d.dmc.linkErr (a / 64) = 1
    · simp only [h1, one_ne_zero, if_true, if_false]
      split <;> simp
    · simp [h0, h1]
@[simp] theorem sbCorrect_se (d : Dev) (a : Nat) : (sbCorrect d a).se = d.se := by
  simp only [sbCorrect]
  split
  · rfl
  · split
    · split <;> simp
    · simp
@[simp] theorem readGranule_se (d : Dev) (g : Option Nat) (s a : Nat) : (readGranule d g s a).1.se = d.se := by
  cases g <;> simp only [readGranule] <;> split
  all_goals first | (split <;> simp) | simp
@[simp] theorem readGranules_se (g : Option Nat) (s : Nat) (l : List Nat) (d : Dev) : (readGranules d g s l).1.se = d.se := by
  induction l generalizing d with
  | nil => rfl
  | cons a t ih => simp [readGranules, ih]
@[simp] theorem memRead_se (d : Dev) (g : Option Nat) (s a n : Nat) : (memRead d g s a n).1.se = d.se := by simp [memRead]
@[simp] theorem readMarked_se (g : Option Nat) (s : Nat) (l : List Nat) (d : Dev) : (readMarked d g s l).1.se = d.se := by
  induction l generalizing d with
  | nil => rfl
  | cons a t ih => simp [readMarked, ih]
@[simp] theorem memReadMarked_se (d : Dev) (g : Option Nat) (s a n : Nat) : (memReadMarked d g s a n).1.se = d.se := by simp [memReadMarked]
@[simp] theorem writeGranule_se (d : Dev) (g : Option Nat) (s a : Nat) (bs : List Byte) (p q : Bool) : (writeGranule d g s a bs p q).se = d.se := by
  cases g <;> simp only [writeGranule] <;> split
  all_goals first | (split <;> simp [apply_ite Dev.se]) | simp
@[simp] theorem writeGranules_se (g : Option Nat) (s : Nat) (p : Bool) (k : Nat) (d : Dev) (a : Nat) (bs : List Byte) : (writeGranules d g s k a bs p).se = d.se := by
  induction k generalizing d a bs with
  | zero => rfl
  | succ k ih => cases bs with
    | nil => rfl
    | cons b bs => simp [writeGranules, ih]
@[simp] theorem memWrite_se (d : Dev) (g : Option Nat) (s a : Nat) (bs : List Byte) (p : Bool) : (memWrite d g s a bs p).se = d.se := writeGranules_se g s p _ d a bs
@[simp] theorem violation_mpe (d : Dev) (g : Nat) (w : Bool) (a : Nat) : (violation d g w a).mpe = d.mpe := by simp [violation]
@[simp] theorem addressError_mpe (d : Dev) (s a : Nat) : (addressError d s a).mpe = d.mpe := postEvent_mpe d _ _ _ _
@[simp] theorem linkRead_mpe (d : Dev) (a : Nat) : (linkRead d a).1.mpe = d.mpe := by
  simp only [linkRead]
  by_cases h0 : sget (fun _ => 0) d.dmc.linkErr (a / 64) = 0
  · simp [h0]
  · by_cases h1 : sget (fun _ => 0) d.dmc.linkErr (a / 64) = 1
    · simp only [h1, one_ne_zero, if_true, if_false]
      split <;> simp
    · simp [h0, h1]
@[simp] theorem sbCorrect_mpe (d : Dev) (a : Nat) : (sbCorrect d a).mpe = d.mpe := by
  simp only [sbCorrect]
  split
  · rfl
  · split
    · split <;> simp
    · simp
@[simp] theorem readGranule_mpe (d : Dev) (g : Option Nat) (s a : Nat) : (readGranule d g s a).1.mpe = d.mpe := by
  cases g <;> simp only [readGranule] <;> split
  all_goals first | (split <;> simp) | simp
@[simp] theorem readGranules_mpe (g : Option Nat) (s : Nat) (l : List Nat) (d : Dev) : (readGranules d g s l).1.mpe = d.mpe := by
  induction l generalizing d with
  | nil => rfl
  | cons a t ih => simp [readGranules, ih]
@[simp] theorem memRead_mpe (d : Dev) (g : Option Nat) (s a n : Nat) : (memRead d g s a n).1.mpe = d.mpe := by simp [memRead]
@[simp] theorem readMarked_mpe (g : Option Nat) (s : Nat) (l : List Nat) (d : Dev) : (readMarked d g s l).1.mpe = d.mpe := by
  induction l generalizing d with
  | nil => rfl
  | cons a t ih => simp [readMarked, ih]
@[simp] theorem memReadMarked_mpe (d : Dev) (g : Option Nat) (s a n : Nat) : (memReadMarked d g s a n).1.mpe = d.mpe := by simp [memReadMarked]
@[simp] theorem writeGranule_mpe (d : Dev) (g : Option Nat) (s a : Nat) (bs : List Byte) (p q : Bool) : (writeGranule d g s a bs p q).mpe = d.mpe := by
  cases g <;> simp only [writeGranule] <;> split
  all_goals first | (split <;> simp [apply_ite Dev.mpe]) | simp
@[simp] theorem writeGranules_mpe (g : Option Nat) (s : Nat) (p : Bool) (k : Nat) (d : Dev) (a : Nat) (bs : List Byte) : (writeGranules d g s k a bs p).mpe = d.mpe := by
  induction k generalizing d a bs with
  | zero => rfl
  | succ k ih => cases bs with
    | nil => rfl
    | cons b bs => simp [writeGranules, ih]
@[simp] theorem memWrite_mpe (d : Dev) (g : Option Nat) (s a : Nat) (bs : List Byte) (p : Bool) : (memWrite d g s a bs p).mpe = d.mpe := writeGranules_mpe g s p _ d a bs
@[simp] theorem violation_cams (d : Dev) (g : Nat) (w : Bool) (a : Nat) : (violation d g w a).cams = d.cams := by simp [violation]
@[simp] theorem addressError_cams (d : Dev) (s a : Nat) : (addressError d s a).cams = d.cams := postEvent_cams d _ _ _ _
@[simp] theorem linkRead_cams (d : Dev) (a : Nat) : (linkRead d a).1.cams = d.cams := by
  simp only [linkRead]
  by_cases h0 : sget (fun _ => 0) d.dmc.linkErr (a / 64) = 0
  · simp [h0]
  · by_cases h1 : sget (fun _ => 0) d.dmc.linkErr (a / 64) = 1
    · simp only [h1, one_ne_zero, if_true, if_false]
      split <;> simp
    · simp [h0, h1]
@[simp] theorem sbCorrect_cams (d : Dev) (a : Nat) : (sbCorrect d a).cams = d.cams := by
  simp only [sbCorrect]
  split
  · rfl
  · split
    · split <;> simp
    · simp
@[simp] theorem readGranule_cams (d : Dev) (g : Option Nat) (s a : Nat) : (readGranule d g s a).1.cams = d.cams := by
  cases g <;> simp only [readGranule] <;> split
  all_goals first | (split <;> simp) | simp
@[simp] theorem readGranules_cams (g : Option Nat) (s : Nat) (l : List Nat) (d : Dev) : (readGranules d g s l).1.cams = d.cams := by
  induction l generalizing d with
  | nil => rfl
  | cons a t ih => simp [readGranules, ih]
@[simp] theorem memRead_cams (d : Dev) (g : Option Nat) (s a n : Nat) : (memRead d g s a n).1.cams = d.cams := by simp [memRead]
@[simp] theorem readMarked_cams (g : Option Nat) (s : Nat) (l : List Nat) (d : Dev) : (readMarked d g s l).1.cams = d.cams := by
  induction l generalizing d with
  | nil => rfl
  | cons a t ih => simp [readMarked, ih]
@[simp] theorem memReadMarked_cams (d : Dev) (g : Option Nat) (s a n : Nat) : (memReadMarked d g s a n).1.cams = d.cams := by simp [memReadMarked]
@[simp] theorem writeGranule_cams (d : Dev) (g : Option Nat) (s a : Nat) (bs : List Byte) (p q : Bool) : (writeGranule d g s a bs p q).cams = d.cams := by
  cases g <;> simp only [writeGranule] <;> split
  all_goals first | (split <;> simp [apply_ite Dev.cams]) | simp
@[simp] theorem writeGranules_cams (g : Option Nat) (s : Nat) (p : Bool) (k : Nat) (d : Dev) (a : Nat) (bs : List Byte) : (writeGranules d g s k a bs p).cams = d.cams := by
  induction k generalizing d a bs with
  | zero => rfl
  | succ k ih => cases bs with
    | nil => rfl
    | cons b bs => simp [writeGranules, ih]
@[simp] theorem memWrite_cams (d : Dev) (g : Option Nat) (s a : Nat) (bs : List Byte) (p : Bool) : (memWrite d g s a bs p).cams = d.cams := writeGranules_cams g s p _ d a bs
@[simp] theorem violation_ics (d : Dev) (g : Nat) (w : Bool) (a : Nat) : (violation d g w a).ics = d.ics := by simp [violation]
@[simp] theorem addressError_ics (d : Dev) (s a : Nat) : (addressError d s a).ics = d.ics := postEvent_ics d _ _ _ _
@[simp] theorem linkRead_ics (d : Dev) (a : Nat) : (linkRead d a).1.ics = d.ics := by
  simp only [linkRead]
  by_cases h0 : sget (fun _ => 0) d.dmc.linkErr (a / 64) = 0
  · simp [h0]
  · by_cases h1 : sget (fun _ => 0) d.dmc.linkErr (a / 64) = 1
    · simp only [h1, one_ne_zero, if_true, if_false]
      split <;> simp
    · simp [h0, h1]
@[simp] theorem sbCorrect_ics (d : Dev) (a : Nat) : (sbCorrect d a).ics = d.ics := by
  simp only [sbCorrect]
  split
  · rfl
  · split
    · split <;> simp
    · simp
@[simp] theorem readGranule_ics (d : Dev) (g : Option Nat) (s a : Nat) : (readGranule d g s a).1.ics = d.ics := by
  cases g <;> simp only [readGranule] <;> split
  all_goals first | (split <;> simp) | simp
@[simp] theorem readGranules_ics (g : Option Nat) (s : Nat) (l : List Nat) (d : Dev) : (readGranules d g s l).1.ics = d.ics := by
  induction l generalizing d with
  | nil => rfl
  | cons a t ih => simp [readGranules, ih]
@[simp] theorem memRead_ics (d : Dev) (g : Option Nat) (s a n : Nat) : (memRead d g s a n).1.ics = d.ics := by simp [memRead]
@[simp] theorem readMarked_ics (g : Option Nat) (s : Nat) (l : List Nat) (d : Dev) : (readMarked d g s l).1.ics = d.ics := by
  induction l generalizing d with
  | nil => rfl
  | cons a t ih => simp [readMarked, ih]
@[simp] theorem memReadMarked_ics (d : Dev) (g : Option Nat) (s a n : Nat) : (memReadMarked d g s a n).1.ics = d.ics := by simp [memReadMarked]
@[simp] theorem writeGranule_ics (d : Dev) (g : Option Nat) (s a : Nat) (bs : List Byte) (p q : Bool) : (writeGranule d g s a bs p q).ics = d.ics := by
  cases g <;> simp only [writeGranule] <;> split
  all_goals first | (split <;> simp [apply_ite Dev.ics]) | simp
@[simp] theorem writeGranules_ics (g : Option Nat) (s : Nat) (p : Bool) (k : Nat) (d : Dev) (a : Nat) (bs : List Byte) : (writeGranules d g s k a bs p).ics = d.ics := by
  induction k generalizing d a bs with
  | zero => rfl
  | succ k ih => cases bs with
    | nil => rfl
    | cons b bs => simp [writeGranules, ih]
@[simp] theorem memWrite_ics (d : Dev) (g : Option Nat) (s a : Nat) (bs : List Byte) (p : Bool) : (memWrite d g s a bs p).ics = d.ics := writeGranules_ics g s p _ d a bs
@[simp] theorem violation_ipl (d : Dev) (g : Nat) (w : Bool) (a : Nat) : (violation d g w a).ipl = d.ipl := by simp [violation]
@[simp] theorem addressError_ipl (d : Dev) (s a : Nat) : (addressError d s a).ipl = d.ipl := postEvent_ipl d _ _ _ _
@[simp] theorem linkRead_ipl (d : Dev) (a : Nat) : (linkRead d a).1.ipl = d.ipl := by
  simp only [linkRead]
  by_cases h0 : sget (fun _ => 0) d.dmc.linkErr (a / 64) = 0
  · simp [h0]
  · by_cases h1 : sget (fun _ => 0) d.dmc.linkErr (a / 64) = 1
    · simp only [h1, one_ne_zero, if_true, if_false]
      split <;> simp
    · simp [h0, h1]
@[simp] theorem sbCorrect_ipl (d : Dev) (a : Nat) : (sbCorrect d a).ipl = d.ipl := by
  simp only [sbCorrect]
  split
  · rfl
  · split
    · split <;> simp
    · simp
@[simp] theorem readGranule_ipl (d : Dev) (g : Option Nat) (s a : Nat) : (readGranule d g s a).1.ipl = d.ipl := by
  cases g <;> simp only [readGranule] <;> split
  all_goals first | (split <;> simp) | simp
@[simp] theorem readGranules_ipl (g : Option Nat) (s : Nat) (l : List Nat) (d : Dev) : (readGranules d g s l).1.ipl = d.ipl := by
  induction l generalizing d with
  | nil => rfl
  | cons a t ih => simp [readGranules, ih]
@[simp] theorem memRead_ipl (d : Dev) (g : Option Nat) (s a n : Nat) : (memRead d g s a n).1.ipl = d.ipl := by simp [memRead]
@[simp] theorem readMarked_ipl (g : Option Nat) (s : Nat) (l : List Nat) (d : Dev) : (readMarked d g s l).1.ipl = d.ipl := by
  induction l generalizing d with
  | nil => rfl
  | cons a t ih => simp [readMarked, ih]
@[simp] theorem memReadMarked_ipl (d : Dev) (g : Option Nat) (s a n : Nat) : (memReadMarked d g s a n).1.ipl = d.ipl := by simp [memReadMarked]
@[simp] theorem writeGranule_ipl (d : Dev) (g : Option Nat) (s a : Nat) (bs : List Byte) (p q : Bool) : (writeGranule d g s a bs p q).ipl = d.ipl := by
  cases g <;> simp only [writeGranule] <;> split
  all_goals first | (split <;> simp [apply_ite Dev.ipl]) | simp
@[simp] theorem writeGranules_ipl (g : Option Nat) (s : Nat) (p : Bool) (k : Nat) (d : Dev) (a : Nat) (bs : List Byte) : (writeGranules d g s k a bs p).ipl = d.ipl := by
  induction k generalizing d a bs with
  | zero => rfl
  | succ k ih => cases bs with
    | nil => rfl
    | cons b bs => simp [writeGranules, ih]
@[simp] theorem memWrite_ipl (d : Dev) (g : Option Nat) (s a : Nat) (bs : List Byte) (p : Bool) : (memWrite d g s a bs p).ipl = d.ipl := writeGranules_ipl g s p _ d a bs
@[simp] theorem violation_afe (d : Dev) (g : Nat) (w : Bool) (a : Nat) : (violation d g w a).afe = d.afe := by simp [violation]
@[simp] theorem addressError_afe (d : Dev) (s a : Nat) : (addressError d s a).afe = d.afe := postEvent_afe d _ _ _ _
@[simp] theorem linkRead_afe (d : Dev) (a : Nat) : (linkRead d a).1.afe = d.afe := by
  simp only [linkRead]
  by_cases h0 : sget (fun _ => 0) d.dmc.linkErr (a / 64) = 0
  · simp [h0]
  · by_cases h1 : sget (fun _ => 0) d.dmc.linkErr (a / 64) = 1
    · simp only [h1, one_ne_zero, if_true, if_false]
      split <;> simp
    · simp [h0, h1]
@[simp] theorem sbCorrect_afe (d : Dev) (a : Nat) : (sbCorrect d a).afe = d.afe := by
  simp only [sbCorrect]
  split
  · rfl
  · split
    · split <;> simp
    · simp
@[simp] theorem readGranule_afe (d : Dev) (g : Option Nat) (s a : Nat) : (readGranule d g s a).1.afe = d.afe := by
  cases g <;> simp only [readGranule] <;> split
  all_goals first | (split <;> simp) | simp
@[simp] theorem readGranules_afe (g : Option Nat) (s : Nat) (l : List Nat) (d : Dev) : (readGranules d g s l).1.afe = d.afe := by
  induction l generalizing d with
  | nil => rfl
  | cons a t ih => simp [readGranules, ih]
@[simp] theorem memRead_afe (d : Dev) (g : Option Nat) (s a n : Nat) : (memRead d g s a n).1.afe = d.afe := by simp [memRead]
@[simp] theorem readMarked_afe (g : Option Nat) (s : Nat) (l : List Nat) (d : Dev) : (readMarked d g s l).1.afe = d.afe := by
  induction l generalizing d with
  | nil => rfl
  | cons a t ih => simp [readMarked, ih]
@[simp] theorem memReadMarked_afe (d : Dev) (g : Option Nat) (s a n : Nat) : (memReadMarked d g s a n).1.afe = d.afe := by simp [memReadMarked]
@[simp] theorem writeGranule_afe (d : Dev) (g : Option Nat) (s a : Nat) (bs : List Byte) (p q : Bool) : (writeGranule d g s a bs p q).afe = d.afe := by
  cases g <;> simp only [writeGranule] <;> split
  all_goals first | (split <;> simp [apply_ite Dev.afe]) | simp
@[simp] theorem writeGranules_afe (g : Option Nat) (s : Nat) (p : Bool) (k : Nat) (d : Dev) (a : Nat) (bs : List Byte) : (writeGranules d g s k a bs p).afe = d.afe := by
  induction k generalizing d a bs with
  | zero => rfl
  | succ k ih => cases bs with
    | nil => rfl
    | cons b bs => simp [writeGranules, ih]
@[simp] theorem memWrite_afe (d : Dev) (g : Option Nat) (s a : Nat) (bs : List Byte) (p : Bool) : (memWrite d g s a bs p).afe = d.afe := writeGranules_afe g s p _ d a bs
@[simp] theorem violation_ports (d : Dev) (g : Nat) (w : Bool) (a : Nat) : (violation d g w a).ports = d.ports := by simp [violation]
@[simp] theorem addressError_ports (d : Dev) (s a : Nat) : (addressError d s a).ports = d.ports := postEvent_ports d _ _ _ _
@[simp] theorem linkRead_ports (d : Dev) (a : Nat) : (linkRead d a).1.ports = d.ports := by
  simp only [linkRead]
  by_cases h0 : sget (fun _ => 0) d.dmc.linkErr (a / 64) = 0
  · simp [h0]
  · by_cases h1 : sget (fun _ => 0) d.dmc.linkErr (a / 64) = 1
    · simp only [h1, one_ne_zero, if_true, if_false]
      split <;> simp
    · simp [h0, h1]
@[simp] theorem sbCorrect_ports (d : Dev) (a : Nat) : (sbCorrect d a).ports = d.ports := by
  simp only [sbCorrect]
  split
  · rfl
  · split
    · split <;> simp
    · simp
@[simp] theorem readGranule_ports (d : Dev) (g : Option Nat) (s a : Nat) : (readGranule d g s a).1.ports = d.ports := by
  cases g <;> simp only [readGranule] <;> split
  all_goals first | (split <;> simp) | simp
@[simp] theorem readGranules_ports (g : Option Nat) (s : Nat) (l : List Nat) (d : Dev) : (readGranules d g s l).1.ports = d.ports := by
  induction l generalizing d with
  | nil => rfl
  | cons a t ih => simp [readGranules, ih]
@[simp] theorem memRead_ports (d : Dev) (g : Option Nat) (s a n : Nat) : (memRead d g s a n).1.ports = d.ports := by simp [memRead]
@[simp] theorem readMarked_ports (g : Option Nat) (s : Nat) (l : List Nat) (d : Dev) : (readMarked d g s l).1.ports = d.ports := by
  induction l generalizing d with
  | nil => rfl
  | cons a t ih => simp [readMarked, ih]
@[simp] theorem memReadMarked_ports (d : Dev) (g : Option Nat) (s a n : Nat) : (memReadMarked d g s a n).1.ports = d.ports := by simp [memReadMarked]
@[simp] theorem writeGranule_ports (d : Dev) (g : Option Nat) (s a : Nat) (bs : List Byte) (p q : Bool) : (writeGranule d g s a bs p q).ports = d.ports := by
  cases g <;> simp only [writeGranule] <;> split
  all_goals first | (split <;> simp [apply_ite Dev.ports]) | simp
@[simp] theorem writeGranules_ports (g : Option Nat) (s : Nat) (p : Bool) (k : Nat) (d : Dev) (a : Nat) (bs : List Byte) : (writeGranules d g s k a bs p).ports = d.ports := by
  induction k generalizing d a bs with
  | zero => rfl
  | succ k ih => cases bs with
    | nil => rfl
    | cons b bs => simp [writeGranules, ih]
@[simp] theorem memWrite_ports (d : Dev) (g : Option Nat) (s a : Nat) (bs : List Byte) (p : Bool) : (memWrite d g s a bs p).ports = d.ports := writeGranules_ports g s p _ d a bs
@[simp] theorem violation_power (d : Dev) (g : Nat) (w : Bool) (a : Nat) : (violation d g w a).power = d.power := by simp [violation]
@[simp] theorem addressError_power (d : Dev) (s a : Nat) : (addressError d s a).power = d.power := postEvent_power d _ _ _ _
@[simp] theorem linkRead_power (d : Dev) (a : Nat) : (linkRead d a).1.power = d.power := by
  simp only [linkRead]
  by_cases h0 : sget (fun _ => 0) d.dmc.linkErr (a / 64) = 0
  · simp [h0]
  · by_cases h1 : sget (fun _ => 0) d.dmc.linkErr (a / 64) = 1
    · simp only [h1, one_ne_zero, if_true, if_false]
      split <;> simp
    · simp [h0, h1]
@[simp] theorem sbCorrect_power (d : Dev) (a : Nat) : (sbCorrect d a).power = d.power := by
  simp only [sbCorrect]
  split
  · rfl
  · split
    · split <;> simp
    · simp
@[simp] theorem readGranule_power (d : Dev) (g : Option Nat) (s a : Nat) : (readGranule d g s a).1.power = d.power := by
  cases g <;> simp only [readGranule] <;> split
  all_goals first | (split <;> simp) | simp
@[simp] theorem readGranules_power (g : Option Nat) (s : Nat) (l : List Nat) (d : Dev) : (readGranules d g s l).1.power = d.power := by
  induction l generalizing d with
  | nil => rfl
  | cons a t ih => simp [readGranules, ih]
@[simp] theorem memRead_power (d : Dev) (g : Option Nat) (s a n : Nat) : (memRead d g s a n).1.power = d.power := by simp [memRead]
@[simp] theorem readMarked_power (g : Option Nat) (s : Nat) (l : List Nat) (d : Dev) : (readMarked d g s l).1.power = d.power := by
  induction l generalizing d with
  | nil => rfl
  | cons a t ih => simp [readMarked, ih]
@[simp] theorem memReadMarked_power (d : Dev) (g : Option Nat) (s a n : Nat) : (memReadMarked d g s a n).1.power = d.power := by simp [memReadMarked]
@[simp] theorem writeGranule_power (d : Dev) (g : Option Nat) (s a : Nat) (bs : List Byte) (p q : Bool) : (writeGranule d g s a bs p q).power = d.power := by
  cases g <;> simp only [writeGranule] <;> split
  all_goals first | (split <;> simp [apply_ite Dev.power]) | simp
@[simp] theorem writeGranules_power (g : Option Nat) (s : Nat) (p : Bool) (k : Nat) (d : Dev) (a : Nat) (bs : List Byte) : (writeGranules d g s k a bs p).power = d.power := by
  induction k generalizing d a bs with
  | zero => rfl
  | succ k ih => cases bs with
    | nil => rfl
    | cons b bs => simp [writeGranules, ih]
@[simp] theorem memWrite_power (d : Dev) (g : Option Nat) (s a : Nat) (bs : List Byte) (p : Bool) : (memWrite d g s a bs p).power = d.power := writeGranules_power g s p _ d a bs
@[simp] theorem violation_ctl (d : Dev) (g : Nat) (w : Bool) (a : Nat) : (violation d g w a).ctl = d.ctl := by simp [violation]
@[simp] theorem addressError_ctl (d : Dev) (s a : Nat) : (addressError d s a).ctl = d.ctl := postEvent_ctl d _ _ _ _
@[simp] theorem linkRead_ctl (d : Dev) (a : Nat) : (linkRead d a).1.ctl = d.ctl := by
  simp only [linkRead]
  by_cases h0 : sget (fun _ => 0) d.dmc.linkErr (a / 64) = 0
  · simp [h0]
  · by_cases h1 : sget (fun _ => 0) d.dmc.linkErr (a / 64) = 1
    · simp only [h1, one_ne_zero, if_true, if_false]
      split <;> simp
    · simp [h0, h1]
@[simp] theorem sbCorrect_ctl (d : Dev) (a : Nat) : (sbCorrect d a).ctl = d.ctl := by
  simp only [sbCorrect]
  split
  · rfl
  · split
    · split <;> simp
    · simp
@[simp] theorem readGranule_ctl (d : Dev) (g : Option Nat) (s a : Nat) : (readGranule d g s a).1.ctl = d.ctl := by
  cases g <;> simp only [readGranule] <;> split
  all_goals first | (split <;> simp) | simp
@[simp] theorem readGranules_ctl (g : Option Nat) (s : Nat) (l : List Nat) (d : Dev) : (readGranules d g s l).1.ctl = d.ctl := by
  induction l generalizing d with
  | nil => rfl
  | cons a t ih => simp [readGranules, ih]
@[simp] theorem memRead_ctl (d : Dev) (g : Option Nat) (s a n : Nat) : (memRead d g s a n).1.ctl = d.ctl := by simp [memRead]
@[simp] theorem readMarked_ctl (g : Option Nat) (s : Nat) (l : List Nat) (d : Dev) : (readMarked d g s l).1.ctl = d.ctl := by
  induction l generalizing d with
  | nil => rfl
  | cons a t ih => simp [readMarked, ih]
@[simp] theorem memReadMarked_ctl (d : Dev) (g : Option Nat) (s a n : Nat) : (memReadMarked d g s a n).1.ctl = d.ctl := by simp [memReadMarked]
@[simp] theorem writeGranule_ctl (d : Dev) (g : Option Nat) (s a : Nat) (bs : List Byte) (p q : Bool) : (writeGranule d g s a bs p q).ctl = d.ctl := by
  cases g <;> simp only [writeGranule] <;> split
  all_goals first | (split <;> simp [apply_ite Dev.ctl]) | simp
@[simp] theorem writeGranules_ctl (g : Option Nat) (s : Nat) (p : Bool) (k : Nat) (d : Dev) (a : Nat) (bs : List Byte) : (writeGranules d g s k a bs p).ctl = d.ctl := by
  induction k generalizing d a bs with
  | zero => rfl
  | succ k ih => cases bs with
    | nil => rfl
    | cons b bs => simp [writeGranules, ih]
@[simp] theorem memWrite_ctl (d : Dev) (g : Option Nat) (s a : Nat) (bs : List Byte) (p : Bool) : (memWrite d g s a bs p).ctl = d.ctl := writeGranules_ctl g s p _ d a bs
@[simp] theorem violation_boot (d : Dev) (g : Nat) (w : Bool) (a : Nat) : (violation d g w a).boot = d.boot := by simp [violation]
@[simp] theorem addressError_boot (d : Dev) (s a : Nat) : (addressError d s a).boot = d.boot := postEvent_boot d _ _ _ _
@[simp] theorem linkRead_boot (d : Dev) (a : Nat) : (linkRead d a).1.boot = d.boot := by
  simp only [linkRead]
  by_cases h0 : sget (fun _ => 0) d.dmc.linkErr (a / 64) = 0
  · simp [h0]
  · by_cases h1 : sget (fun _ => 0) d.dmc.linkErr (a / 64) = 1
    · simp only [h1, one_ne_zero, if_true, if_false]
      split <;> simp
    · simp [h0, h1]
@[simp] theorem sbCorrect_boot (d : Dev) (a : Nat) : (sbCorrect d a).boot = d.boot := by
  simp only [sbCorrect]
  split
  · rfl
  · split
    · split <;> simp
    · simp
@[simp] theorem readGranule_boot (d : Dev) (g : Option Nat) (s a : Nat) : (readGranule d g s a).1.boot = d.boot := by
  cases g <;> simp only [readGranule] <;> split
  all_goals first | (split <;> simp) | simp
@[simp] theorem readGranules_boot (g : Option Nat) (s : Nat) (l : List Nat) (d : Dev) : (readGranules d g s l).1.boot = d.boot := by
  induction l generalizing d with
  | nil => rfl
  | cons a t ih => simp [readGranules, ih]
@[simp] theorem memRead_boot (d : Dev) (g : Option Nat) (s a n : Nat) : (memRead d g s a n).1.boot = d.boot := by simp [memRead]
@[simp] theorem readMarked_boot (g : Option Nat) (s : Nat) (l : List Nat) (d : Dev) : (readMarked d g s l).1.boot = d.boot := by
  induction l generalizing d with
  | nil => rfl
  | cons a t ih => simp [readMarked, ih]
@[simp] theorem memReadMarked_boot (d : Dev) (g : Option Nat) (s a n : Nat) : (memReadMarked d g s a n).1.boot = d.boot := by simp [memReadMarked]
@[simp] theorem writeGranule_boot (d : Dev) (g : Option Nat) (s a : Nat) (bs : List Byte) (p q : Bool) : (writeGranule d g s a bs p q).boot = d.boot := by
  cases g <;> simp only [writeGranule] <;> split
  all_goals first | (split <;> simp [apply_ite Dev.boot]) | simp
@[simp] theorem writeGranules_boot (g : Option Nat) (s : Nat) (p : Bool) (k : Nat) (d : Dev) (a : Nat) (bs : List Byte) : (writeGranules d g s k a bs p).boot = d.boot := by
  induction k generalizing d a bs with
  | zero => rfl
  | succ k ih => cases bs with
    | nil => rfl
    | cons b bs => simp [writeGranules, ih]
@[simp] theorem memWrite_boot (d : Dev) (g : Option Nat) (s a : Nat) (bs : List Byte) (p : Bool) : (memWrite d g s a bs p).boot = d.boot := writeGranules_boot g s p _ d a bs
@[simp] theorem violation_tu (d : Dev) (g : Nat) (w : Bool) (a : Nat) : (violation d g w a).tu = d.tu := by simp [violation]
@[simp] theorem addressError_tu (d : Dev) (s a : Nat) : (addressError d s a).tu = d.tu := postEvent_tu d _ _ _ _
@[simp] theorem linkRead_tu (d : Dev) (a : Nat) : (linkRead d a).1.tu = d.tu := by
  simp only [linkRead]
  by_cases h0 : sget (fun _ => 0) d.dmc.linkErr (a / 64) = 0
  · simp [h0]
  · by_cases h1 : sget (fun _ => 0) d.dmc.linkErr (a / 64) = 1
    · simp only [h1, one_ne_zero, if_true, if_false]
      split <;> simp
    · simp [h0, h1]
@[simp] theorem sbCorrect_tu (d : Dev) (a : Nat) : (sbCorrect d a).tu = d.tu := by
  simp only [sbCorrect]
  split
  · rfl
  · split
    · split <;> simp
    · simp
@[simp] theorem readGranule_tu (d : Dev) (g : Option Nat) (s a : Nat) : (readGranule d g s a).1.tu = d.tu := by
  cases g <;> simp only [readGranule] <;> split
  all_goals first | (split <;> simp) | simp
@[simp] theorem readGranules_tu (g : Option Nat) (s : Nat) (l : List Nat) (d : Dev) : (readGranules d g s l).1.tu = d.tu := by
  induction l generalizing d with
  | nil => rfl
  | cons a t ih => simp [readGranules, ih]
@[simp] theorem memRead_tu (d : Dev) (g : Option Nat) (s a n : Nat) : (memRead d g s a n).1.tu = d.tu := by simp [memRead]
@[simp] theorem readMarked_tu (g : Option Nat) (s : Nat) (l : List Nat) (d : Dev) : (readMarked d g s l).1.tu = d.tu := by
  induction l generalizing d with
  | nil => rfl
  | cons a t ih => simp [readMarked, ih]
@[simp] theorem memReadMarked_tu (d : Dev) (g : Option Nat) (s a n : Nat) : (memReadMarked d g s a n).1.tu = d.tu := by simp [memReadMarked]
@[simp] theorem writeGranule_tu (d : Dev) (g : Option Nat) (s a : Nat) (bs : List Byte) (p q : Bool) : (writeGranule d g s a bs p q).tu = d.tu := by
  cases g <;> simp only [writeGranule] <;> split
  all_goals first | (split <;> simp [apply_ite Dev.tu]) | simp
@[simp] theorem writeGranules_tu (g : Option Nat) (s : Nat) (p : Bool) (k : Nat) (d : Dev) (a : Nat) (bs : List Byte) : (writeGranules d g s k a bs p).tu = d.tu := by
  induction k generalizing d a bs with
  | zero => rfl
  | succ k ih => cases bs with
    | nil => rfl
    | cons b bs => simp [writeGranules, ih]
@[simp] theorem memWrite_tu (d : Dev) (g : Option Nat) (s a : Nat) (bs : List Byte) (p : Bool) : (memWrite d g s a bs p).tu = d.tu := writeGranules_tu g s p _ d a bs
@[simp] theorem violation_store0 (d : Dev) (g : Nat) (w : Bool) (a : Nat) : (violation d g w a).store0 = d.store0 := by simp [violation]
@[simp] theorem addressError_store0 (d : Dev) (s a : Nat) : (addressError d s a).store0 = d.store0 := postEvent_store0 d _ _ _ _
@[simp] theorem linkRead_store0 (d : Dev) (a : Nat) : (linkRead d a).1.store0 = d.store0 := by
  simp only [linkRead]
  by_cases h0 : sget (fun _ => 0) d.dmc.linkErr (a / 64) = 0
  · simp [h0]
  · by_cases h1 : sget (fun _ => 0) d.dmc.linkErr (a / 64) = 1
    · simp only [h1, one_ne_zero, if_true, if_false]
      split <;> simp
    · simp [h0, h1]
@[simp] theorem sbCorrect_store0 (d : Dev) (a : Nat) : (sbCorrect d a).store0 = d.store0 := by
  simp only [sbCorrect]
  split
  · rfl
  · split
    · split <;> simp
    · simp
@[simp] theorem readGranule_store0 (d : Dev) (g : Option Nat) (s a : Nat) : (readGranule d g s a).1.store0 = d.store0 := by
  cases g <;> simp only [readGranule] <;> split
  all_goals first | (split <;> simp) | simp
@[simp] theorem readGranules_store0 (g : Option Nat) (s : Nat) (l : List Nat) (d : Dev) : (readGranules d g s l).1.store0 = d.store0 := by
  induction l generalizing d with
  | nil => rfl
  | cons a t ih => simp [readGranules, ih]
@[simp] theorem memRead_store0 (d : Dev) (g : Option Nat) (s a n : Nat) : (memRead d g s a n).1.store0 = d.store0 := by simp [memRead]
@[simp] theorem readMarked_store0 (g : Option Nat) (s : Nat) (l : List Nat) (d : Dev) : (readMarked d g s l).1.store0 = d.store0 := by
  induction l generalizing d with
  | nil => rfl
  | cons a t ih => simp [readMarked, ih]
@[simp] theorem memReadMarked_store0 (d : Dev) (g : Option Nat) (s a n : Nat) : (memReadMarked d g s a n).1.store0 = d.store0 := by simp [memReadMarked]
@[simp] theorem writeGranule_store0 (d : Dev) (g : Option Nat) (s a : Nat) (bs : List Byte) (p q : Bool) : (writeGranule d g s a bs p q).store0 = d.store0 := by
  cases g <;> simp only [writeGranule] <;> split
  all_goals first | (split <;> simp [apply_ite Dev.store0]) | simp
@[simp] theorem writeGranules_store0 (g : Option Nat) (s : Nat) (p : Bool) (k : Nat) (d : Dev) (a : Nat) (bs : List Byte) : (writeGranules d g s k a bs p).store0 = d.store0 := by
  induction k generalizing d a bs with
  | zero => rfl
  | succ k ih => cases bs with
    | nil => rfl
    | cons b bs => simp [writeGranules, ih]
@[simp] theorem memWrite_store0 (d : Dev) (g : Option Nat) (s a : Nat) (bs : List Byte) (p : Bool) : (memWrite d g s a bs p).store0 = d.store0 := writeGranules_store0 g s p _ d a bs
@[simp] theorem violation_store1 (d : Dev) (g : Nat) (w : Bool) (a : Nat) : (violation d g w a).store1 = d.store1 := by simp [violation]
@[simp] theorem addressError_store1 (d : Dev) (s a : Nat) : (addressError d s a).store1 = d.store1 := postEvent_store1 d _ _ _ _
@[simp] theorem linkRead_store1 (d : Dev) (a : Nat) : (linkRead d a).1.store1 = d.store1 := by
  simp only [linkRead]
  by_cases h0 : sget (fun _ => 0) d.dmc.linkErr (a / 64) = 0
  · simp [h0]
  · by_cases h1 : sget (fun _ => 0) d.dmc.linkErr (a / 64) = 1
    · simp only [h1, one_ne_zero, if_true, if_false]
      split <;> simp
    · simp [h0, h1]
@[simp] theorem sbCorrect_store1 (d : Dev) (a : Nat) : (sbCorrect d a).store1 = d.store1 := by
  simp only [sbCorrect]
  split
  · rfl
  · split
    · split <;> simp
    · simp
@[simp] theorem readGranule_store1 (d : Dev) (g : Option Nat) (s a : Nat) : (readGranule d g s a).1.store1 = d.store1 := by
  cases g <;> simp only [readGranule] <;> split
  all_goals first | (split <;> simp) | simp
@[simp] theorem readGranules_store1 (g : Option Nat) (s : Nat) (l : List Nat) (d : Dev) : (readGranules d g s l).1.store1 = d.store1 := by
  induction l generalizing d with
  | nil => rfl
  | cons a t ih => simp [readGranules, ih]
@[simp] theorem memRead_store1 (d : Dev) (g : Option Nat) (s a n : Nat) : (memRead d g s a n).1.store1 = d.store1 := by simp [memRead]
@[simp] theorem readMarked_store1 (g : Option Nat) (s : Nat) (l : List Nat) (d : Dev) : (readMarked d g s l).1.store1 = d.store1 := by
  induction l generalizing d with
  | nil => rfl
  | cons a t ih => simp [readMarked, ih]
@[simp] theorem memReadMarked_store1 (d : Dev) (g : Option Nat) (s a n : Nat) : (memReadMarked d g s a n).1.store1 = d.store1 := by simp [memReadMarked]
@[simp] theorem writeGranule_store1 (d : Dev) (g : Option Nat) (s a : Nat) (bs : List Byte) (p q : Bool) : (writeGranule d g s a bs p q).store1 = d.store1 := by
  cases g <;> simp only [writeGranule] <;> split
  all_goals first | (split <;> simp [apply_ite Dev.store1]) | simp
@[simp] theorem writeGranules_store1 (g : Option Nat) (s : Nat) (p : Bool) (k : Nat) (d : Dev) (a : Nat) (bs : List Byte) : (writeGranules d g s k a bs p).store1 = d.store1 := by
  induction k generalizing d a bs with
  | zero => rfl
  | succ k ih => cases bs with
    | nil => rfl
    | cons b bs => simp [writeGranules, ih]
@[simp] theorem memWrite_store1 (d : Dev) (g : Option Nat) (s a : Nat) (bs : List Byte) (p : Bool) : (memWrite d g s a bs p).store1 = d.store1 := writeGranules_store1 g s p _ d a bs
@[simp] theorem violation_regs (d : Dev) (g : Nat) (w : Bool) (a : Nat) : (violation d g w a).regs = d.regs := by simp [violation]
@[simp] theorem addressError_regs (d : Dev) (s a : Nat) : (addressError d s a).regs = d.regs := postEvent_regs d _ _ _ _
@[simp] theorem linkRead_regs (d : Dev) (a : Nat) : (linkRead d a).1.regs = d.regs := by
  simp only [linkRead]
  by_cases h0 : sget (fun _ => 0) d.dmc.linkErr (a / 64) = 0
  · simp [h0]
  · by_cases h1 : sget (fun _ => 0) d.dmc.linkErr (a / 64) = 1
    · simp only [h1, one_ne_zero, if_true, if_false]
      split <;> simp
    · simp [h0, h1]
@[simp] theorem sbCorrect_regs (d : Dev) (a : Nat) : (sbCorrect d a).regs = d.regs := by
  simp only [sbCorrect]
  split
  · rfl
  · split
    · split <;> simp
    · simp
@[simp] theorem readGranule_regs (d : Dev) (g : Option Nat) (s a : Nat) : (readGranule d g s a).1.regs = d.regs := by
  cases g <;> simp only [readGranule] <;> split
  all_goals first | (split <;> simp) | simp
@[simp] theorem readGranules_regs (g : Option Nat) (s : Nat) (l : List Nat) (d : Dev) : (readGranules d g s l).1.regs = d.regs := by
  induction l generalizing d with
  | nil => rfl
  | cons a t ih => simp [readGranules, ih]
@[simp] theorem memRead_regs (d : Dev) (g : Option Nat) (s a n : Nat) : (memRead d g s a n).1.regs = d.regs := by simp [memRead]
@[simp] theorem readMarked_regs (g : Option Nat) (s : Nat) (l : List Nat) (d : Dev) : (readMarked d g s l).1.regs = d.regs := by
  induction l generalizing d with
  | nil => rfl
  | cons a t ih => simp [readMarked, ih]
@[simp] theorem memReadMarked_regs (d : Dev) (g : Option Nat) (s a n : Nat) : (memReadMarked d g s a n).1.regs = d.regs := by simp [memReadMarked]
@[simp] theorem writeGranule_regs (d : Dev) (g : Option Nat) (s a : Nat) (bs : List Byte) (p q : Bool) : (writeGranule d g s a bs p q).regs = d.regs := by
  cases g <;> simp only [writeGranule] <;> split
  all_goals first | (split <;> simp [apply_ite Dev.regs]) | simp
@[simp] theorem writeGranules_regs (g : Option Nat) (s : Nat) (p : Bool) (k : Nat) (d : Dev) (a : Nat) (bs : List Byte) : (writeGranules d g s k a bs p).regs = d.regs := by
  induction k generalizing d a bs with
  | zero => rfl
  | succ k ih => cases bs with
    | nil => rfl
    | cons b bs => simp [writeGranules, ih]
@[simp] theorem memWrite_regs (d : Dev) (g : Option Nat) (s a : Nat) (bs : List Byte) (p : Bool) : (memWrite d g s a bs p).regs = d.regs := writeGranules_regs g s p _ d a bs
@[simp] theorem violation_freeNo (d : Dev) (g : Nat) (w : Bool) (a : Nat) : (violation d g w a).freeNo = d.freeNo := by simp [violation]
@[simp] theorem addressError_freeNo (d : Dev) (s a : Nat) : (addressError d s a).freeNo = d.freeNo := postEvent_freeNo d _ _ _ _
@[simp] theorem linkRead_freeNo (d : Dev) (a : Nat) : (linkRead d a).1.freeNo = d.freeNo := by
  simp only [linkRead]
  by_cases h0 : sget (fun _ => 0) d.dmc.linkErr (a / 64) = 0
  · simp [h0]
  · by_cases h1 : sget (fun _ => 0) d.dmc.linkErr (a / 64) = 1
    · simp only [h1, one_ne_zero, if_true, if_false]
      split <;> simp
    · simp [h0, h1]
@[simp] theorem sbCorrect_freeNo (d : Dev) (a : Nat) : (sbCorrect d a).freeNo = d.freeNo := by
  simp only [sbCorrect]
  split
  · rfl
  · split
    · split <;> simp
    · simp
@[simp] theorem readGranule_freeNo (d : Dev) (g : Option Nat) (s a : Nat) : (readGranule d g s a).1.freeNo = d.freeNo := by
  cases g <;> simp only [readGranule] <;> split
  all_goals first | (split <;> simp) | simp
@[simp] theorem readGranules_freeNo (g : Option Nat) (s : Nat) (l : List Nat) (d : Dev) : (readGranules d g s l).1.freeNo = d.freeNo := by
  induction l generalizing d with
  | nil => rfl
  | cons a t ih => simp [readGranules, ih]
@[simp] theorem memRead_freeNo (d : Dev) (g : Option Nat) (s a n : Nat) : (memRead d g s a n).1.freeNo = d.freeNo := by simp [memRead]
@[simp] theorem readMarked_freeNo (g : Option Nat) (s : Nat) (l : List Nat) (d : Dev) : (readMarked d g s l).1.freeNo = d.freeNo := by
  induction l generalizing d with
  | nil => rfl
  | cons a t ih => simp [readMarked, ih]
@[simp] theorem memReadMarked_freeNo (d : Dev) (g : Option Nat) (s a n : Nat) : (memReadMarked d g s a n).1.freeNo = d.freeNo := by simp [memReadMarked]
@[simp] theorem writeGranule_freeNo (d : Dev) (g : Option Nat) (s a : Nat) (bs : List Byte) (p q : Bool) : (writeGranule d g s a bs p q).freeNo = d.freeNo := by
  cases g <;> simp only [writeGranule] <;> split
  all_goals first | (split <;> simp [apply_ite Dev.freeNo]) | simp
@[simp] theorem writeGranules_freeNo (g : Option Nat) (s : Nat) (p : Bool) (k : Nat) (d : Dev) (a : Nat) (bs : List Byte) : (writeGranules d g s k a bs p).freeNo = d.freeNo := by
  induction k generalizing d a bs with
  | zero => rfl
  | succ k ih => cases bs with
    | nil => rfl
    | cons b bs => simp [writeGranules, ih]
@[simp] theorem memWrite_freeNo (d : Dev) (g : Option Nat) (s a : Nat) (bs : List Byte) (p : Bool) : (memWrite d g s a bs p).freeNo = d.freeNo := writeGranules_freeNo g s p _ d a bs

end Sys2Proof.Machine
end

