-- ==== Sys2Proof/Laws/Access.lean ====
section
/-! SUPPORT. Reading a named part of the device after a named change: the changed key reads the new value, every other key and every other part read as before. -/

namespace Sys2Proof.Machine

open Sys2Proof

section
variable (d : Dev)

/-! ### The key that was changed, and the keys beside it -/

@[simp] theorem setting_setSetting (i sub v : Nat) : setting (setSetting d i sub v) i sub = v := sget_sset _ _ _ _
theorem setting_setSetting_ne (i sub v : Nat) {j q : Nat} (h : odKey j q ≠ odKey i sub) : setting (setSetting d i sub v) j q = setting d j q := sget_sset_ne _ _ _ h
@[simp] theorem cnt_setCnt (i sub v : Nat) : cnt (setCnt d i sub v) i sub = v := sget_sset _ _ _ _
theorem cnt_setCnt_ne (i sub v : Nat) {j q : Nat} (h : odKey j q ≠ odKey i sub) : cnt (setCnt d i sub v) j q = cnt d j q := sget_sset_ne _ _ _ h
@[simp] theorem domOf_setDom (i sub : Nat) (v : List Byte) : domOf (setDom d i sub v) i sub = v := sget_sset _ _ _ _
theorem domOf_setDom_ne (i sub : Nat) (v : List Byte) {j q : Nat} (h : odKey j q ≠ odKey i sub) : domOf (setDom d i sub v) j q = domOf d j q := sget_sset_ne _ _ _ h
@[simp] theorem cnt_bump (i sub w n : Nat) : cnt (bump d i sub w n) i sub = (cnt d i sub + n) % 256 ^ w := sget_sset _ _ _ _
theorem cnt_bump_ne (i sub w n : Nat) {j q : Nat} (h : odKey j q ≠ odKey i sub) : cnt (bump d i sub w n) j q = cnt d j q := sget_sset_ne _ _ _ h
@[simp] theorem coreOf_updCore (n : Nat) (f : Core → Core) : coreOf (updCore d n f) n = f (coreOf d n) := sget_supd _ _ _
theorem coreOf_updCore_ne {n j : Nat} (f : Core → Core) (h : j ≠ n) : coreOf (updCore d n f) j = coreOf d j := sget_supd_ne _ _ h
@[simp] theorem wcOf_updWc (w : Nat) (f : Wc → Wc) : wcOf (updWc d w f) w = f (wcOf d w) := sget_supd _ _ _
theorem wcOf_updWc_ne {w j : Nat} (f : Wc → Wc) (h : j ≠ w) : wcOf (updWc d w f) j = wcOf d j := sget_supd_ne _ _ h
@[simp] theorem ringOf_updRing (r : Nat) (f : Ring → Ring) : ringOf (updRing d r f) r = f (ringOf d r) := sget_supd _ _ _
theorem ringOf_updRing_ne {r j : Nat} (f : Ring → Ring) (h : j ≠ r) : ringOf (updRing d r f) j = ringOf d j := sget_supd_ne _ _ h
@[simp] theorem cam_updCam (p : Nat) (f : Cam → Cam) : cam (updCam d p f) p = f (cam d p) := sget_supd _ _ _
theorem cam_updCam_ne {p j : Nat} (f : Cam → Cam) (h : j ≠ p) : cam (updCam d p f) j = cam d j := sget_supd_ne _ _ h
@[simp] theorem ic_updIc (n : Nat) (f : Ic → Ic) : ic (updIc d n f) n = f (ic d n) := sget_supd _ _ _
theorem ic_updIc_ne {n j : Nat} (f : Ic → Ic) (h : j ≠ n) : ic (updIc d n f) j = ic d j := sget_supd_ne _ _ h
@[simp] theorem island_updIsland (n : Nat) (f : Island → Island) : island (updIsland d n f) n = f (island d n) := sget_supd _ _ _
theorem island_updIsland_ne {n j : Nat} (f : Island → Island) (h : j ≠ n) : island (updIsland d n f) j = island d j := sget_supd_ne _ _ h
@[simp] theorem ctrOf_setCtr (k : Nat) (v : TileCtr) : ctrOf (setCtr d k v) k = v := sget_sset _ _ _ _
theorem ctrOf_setCtr_ne {k j : Nat} (v : TileCtr) (h : j ≠ k) : ctrOf (setCtr d k v) j = ctrOf d j := sget_sset_ne _ _ _ h
@[simp] theorem chan_setChan (c : Nat) (v : Chan) : chan (setChan d c v) c = v := sget_sset _ _ _ _
theorem chan_setChan_ne {c j : Nat} (v : Chan) (h : j ≠ c) : chan (setChan d c v) j = chan d j := sget_sset_ne _ _ _ h
@[simp] theorem arr_setArr (c : Core) (a : Nat) (v : Arr) : arr (setArr c a v) a = v := sget_sset _ _ _ _
theorem arr_setArr_ne (c : Core) {a b : Nat} (v : Arr) (h : b ≠ a) : arr (setArr c a v) b = arr c b := sget_sset_ne _ _ _ h
@[simp] theorem arr_updArr (n a : Nat) (f : Arr → Arr) : arr (coreOf (updArr d n a f) n) a = f (arr (coreOf d n) a) := by simp [updArr]
theorem arr_updArr_ne {n a b : Nat} (f : Arr → Arr) (h : b ≠ a) : arr (coreOf (updArr d n a f) n) b = arr (coreOf d n) b := by simp [updArr, arr_setArr_ne _ _ h]
theorem coreOf_updArr_ne {n a j : Nat} (f : Arr → Arr) (h : j ≠ n) : coreOf (updArr d n a f) j = coreOf d j := coreOf_updCore_ne d _ h
@[simp] theorem win_setWin (c : Core) (i : Nat) (w : Win) : win (setWin c i w) i = w := sget_sset _ _ _ _
theorem win_setWin_ne (c : Core) {i j : Nat} (w : Win) (h : j ≠ i) : win (setWin c i w) j = win c j := sget_sset_ne _ _ _ h

/-! ### Parts that a change does not touch -/

@[simp] theorem cnt_setSetting (i sub v : Nat) (j q : Nat) : cnt (setSetting d i sub v) j q = cnt d j q := rfl
@[simp] theorem domOf_setSetting (i sub v : Nat) (j q : Nat) : domOf (setSetting d i sub v) j q = domOf d j q := rfl
@[simp] theorem coreOf_setSetting (i sub v : Nat) (n0 : Nat) : coreOf (setSetting d i sub v) n0 = coreOf d n0 := rfl
@[simp] theorem wcOf_setSetting (i sub v : Nat) (w0 : Nat) : wcOf (setSetting d i sub v) w0 = wcOf d w0 := rfl
@[simp] theorem ringOf_setSetting (i sub v : Nat) (r0 : Nat) : ringOf (setSetting d i sub v) r0 = ringOf d r0 := rfl
@[simp] theorem ctrOf_setSetting (i sub v : Nat) (k0 : Nat) : ctrOf (setSetting d i sub v) k0 = ctrOf d k0 := rfl
@[simp] theorem chan_setSetting (i sub v : Nat) (c0 : Nat) : chan (setSetting d i sub v) c0 = chan d c0 := rfl
@[simp] theorem cam_setSetting (i sub v : Nat) (p0 : Nat) : cam (setSetting d i sub v) p0 = cam d p0 := rfl
@[simp] theorem ic_setSetting (i sub v : Nat) (n0 : Nat) : ic (setSetting d i sub v) n0 = ic d n0 := rfl
@[simp] theorem region_setSetting (i sub v : Nat) (r0 : Nat) : region (setSetting d i sub v) r0 = region d r0 := rfl
@[simp] theorem island_setSetting (i sub v : Nat) (n0 : Nat) : island (setSetting d i sub v) n0 = island d n0 := rfl
@[simp] theorem setting_setCnt (i sub v : Nat) (j q : Nat) : setting (setCnt d i sub v) j q = setting d j q := rfl
@[simp] theorem domOf_setCnt (i sub v : Nat) (j q : Nat) : domOf (setCnt d i sub v) j q = domOf d j q := rfl
@[simp] theorem coreOf_setCnt (i sub v : Nat) (n0 : Nat) : coreOf (setCnt d i sub v) n0 = coreOf d n0 := rfl
@[simp] theorem wcOf_setCnt (i sub v : Nat) (w0 : Nat) : wcOf (setCnt d i sub v) w0 = wcOf d w0 := rfl
@[simp] theorem ringOf_setCnt (i sub v : Nat) (r0 : Nat) : ringOf (setCnt d i sub v) r0 = ringOf d r0 := rfl
@[simp] theorem ctrOf_setCnt (i sub v : Nat) (k0 : Nat) : ctrOf (setCnt d i sub v) k0 = ctrOf d k0 := rfl
@[simp] theorem chan_setCnt (i sub v : Nat) (c0 : Nat) : chan (setCnt d i sub v) c0 = chan d c0 := rfl
@[simp] theorem cam_setCnt (i sub v : Nat) (p0 : Nat) : cam (setCnt d i sub v) p0 = cam d p0 := rfl
@[simp] theorem ic_setCnt (i sub v : Nat) (n0 : Nat) : ic (setCnt d i sub v) n0 = ic d n0 := rfl
@[simp] theorem region_setCnt (i sub v : Nat) (r0 : Nat) : region (setCnt d i sub v) r0 = region d r0 := rfl
@[simp] theorem island_setCnt (i sub v : Nat) (n0 : Nat) : island (setCnt d i sub v) n0 = island d n0 := rfl
@[simp] theorem setting_bump (i sub w n : Nat) (j q : Nat) : setting (bump d i sub w n) j q = setting d j q := rfl
@[simp] theorem domOf_bump (i sub w n : Nat) (j q : Nat) : domOf (bump d i sub w n) j q = domOf d j q := rfl
@[simp] theorem coreOf_bump (i sub w n : Nat) (n0 : Nat) : coreOf (bump d i sub w n) n0 = coreOf d n0 := rfl
@[simp] theorem wcOf_bump (i sub w n : Nat) (w0 : Nat) : wcOf (bump d i sub w n) w0 = wcOf d w0 := rfl
@[simp] theorem ringOf_bump (i sub w n : Nat) (r0 : Nat) : ringOf (bump d i sub w n) r0 = ringOf d r0 := rfl
@[simp] theorem ctrOf_bump (i sub w n : Nat) (k0 : Nat) : ctrOf (bump d i sub w n) k0 = ctrOf d k0 := rfl
@[simp] theorem chan_bump (i sub w n : Nat) (c0 : Nat) : chan (bump d i sub w n) c0 = chan d c0 := rfl
@[simp] theorem cam_bump (i sub w n : Nat) (p0 : Nat) : cam (bump d i sub w n) p0 = cam d p0 := rfl
@[simp] theorem ic_bump (i sub w n : Nat) (n0 : Nat) : ic (bump d i sub w n) n0 = ic d n0 := rfl
@[simp] theorem region_bump (i sub w n : Nat) (r0 : Nat) : region (bump d i sub w n) r0 = region d r0 := rfl
@[simp] theorem island_bump (i sub w n : Nat) (n0 : Nat) : island (bump d i sub w n) n0 = island d n0 := rfl
@[simp] theorem setting_setDom (i sub : Nat) (v : List Byte) (j q : Nat) : setting (setDom d i sub v) j q = setting d j q := rfl
@[simp] theorem cnt_setDom (i sub : Nat) (v : List Byte) (j q : Nat) : cnt (setDom d i sub v) j q = cnt d j q := rfl
@[simp] theorem coreOf_setDom (i sub : Nat) (v : List Byte) (n0 : Nat) : coreOf (setDom d i sub v) n0 = coreOf d n0 := rfl
@[simp] theorem wcOf_setDom (i sub : Nat) (v : List Byte) (w0 : Nat) : wcOf (setDom d i sub v) w0 = wcOf d w0 := rfl
@[simp] theorem ringOf_setDom (i sub : Nat) (v : List Byte) (r0 : Nat) : ringOf (setDom d i sub v) r0 = ringOf d r0 := rfl
@[simp] theorem ctrOf_setDom (i sub : Nat) (v : List Byte) (k0 : Nat) : ctrOf (setDom d i sub v) k0 = ctrOf d k0 := rfl
@[simp] theorem chan_setDom (i sub : Nat) (v : List Byte) (c0 : Nat) : chan (setDom d i sub v) c0 = chan d c0 := rfl
@[simp] theorem cam_setDom (i sub : Nat) (v : List Byte) (p0 : Nat) : cam (setDom d i sub v) p0 = cam d p0 := rfl
@[simp] theorem ic_setDom (i sub : Nat) (v : List Byte) (n0 : Nat) : ic (setDom d i sub v) n0 = ic d n0 := rfl
@[simp] theorem region_setDom (i sub : Nat) (v : List Byte) (r0 : Nat) : region (setDom d i sub v) r0 = region d r0 := rfl
@[simp] theorem island_setDom (i sub : Nat) (v : List Byte) (n0 : Nat) : island (setDom d i sub v) n0 = island d n0 := rfl
@[simp] theorem setting_latch (k : Nat) (j q : Nat) : setting (latch d k) j q = setting d j q := rfl
@[simp] theorem cnt_latch (k : Nat) (j q : Nat) : cnt (latch d k) j q = cnt d j q := rfl
@[simp] theorem domOf_latch (k : Nat) (j q : Nat) : domOf (latch d k) j q = domOf d j q := rfl
@[simp] theorem coreOf_latch (k : Nat) (n0 : Nat) : coreOf (latch d k) n0 = coreOf d n0 := rfl
@[simp] theorem wcOf_latch (k : Nat) (w0 : Nat) : wcOf (latch d k) w0 = wcOf d w0 := rfl
@[simp] theorem ringOf_latch (k : Nat) (r0 : Nat) : ringOf (latch d k) r0 = ringOf d r0 := rfl
@[simp] theorem ctrOf_latch (k : Nat) (k0 : Nat) : ctrOf (latch d k) k0 = ctrOf d k0 := rfl
@[simp] theorem chan_latch (k : Nat) (c0 : Nat) : chan (latch d k) c0 = chan d c0 := rfl
@[simp] theorem cam_latch (k : Nat) (p0 : Nat) : cam (latch d k) p0 = cam d p0 := rfl
@[simp] theorem ic_latch (k : Nat) (n0 : Nat) : ic (latch d k) n0 = ic d n0 := rfl
@[simp] theorem region_latch (k : Nat) (r0 : Nat) : region (latch d k) r0 = region d r0 := rfl
@[simp] theorem island_latch (k : Nat) (n0 : Nat) : island (latch d k) n0 = island d n0 := rfl
@[simp] theorem setting_raiseIrq (k : Nat) (j q : Nat) : setting (raiseIrq d k) j q = setting d j q := rfl
@[simp] theorem cnt_raiseIrq (k : Nat) (j q : Nat) : cnt (raiseIrq d k) j q = cnt d j q := rfl
@[simp] theorem domOf_raiseIrq (k : Nat) (j q : Nat) : domOf (raiseIrq d k) j q = domOf d j q := rfl
@[simp] theorem coreOf_raiseIrq (k : Nat) (n0 : Nat) : coreOf (raiseIrq d k) n0 = coreOf d n0 := rfl
@[simp] theorem wcOf_raiseIrq (k : Nat) (w0 : Nat) : wcOf (raiseIrq d k) w0 = wcOf d w0 := rfl
@[simp] theorem ringOf_raiseIrq (k : Nat) (r0 : Nat) : ringOf (raiseIrq d k) r0 = ringOf d r0 := rfl
@[simp] theorem ctrOf_raiseIrq (k : Nat) (k0 : Nat) : ctrOf (raiseIrq d k) k0 = ctrOf d k0 := rfl
@[simp] theorem chan_raiseIrq (k : Nat) (c0 : Nat) : chan (raiseIrq d k) c0 = chan d c0 := rfl
@[simp] theorem cam_raiseIrq (k : Nat) (p0 : Nat) : cam (raiseIrq d k) p0 = cam d p0 := rfl
@[simp] theorem ic_raiseIrq (k : Nat) (n0 : Nat) : ic (raiseIrq d k) n0 = ic d n0 := rfl
@[simp] theorem region_raiseIrq (k : Nat) (r0 : Nat) : region (raiseIrq d k) r0 = region d r0 := rfl
@[simp] theorem island_raiseIrq (k : Nat) (n0 : Nat) : island (raiseIrq d k) n0 = island d n0 := rfl
@[simp] theorem setting_updCore (n : Nat) (f : Core → Core) (j q : Nat) : setting (updCore d n f) j q = setting d j q := rfl
@[simp] theorem cnt_updCore (n : Nat) (f : Core → Core) (j q : Nat) : cnt (updCore d n f) j q = cnt d j q := rfl
@[simp] theorem domOf_updCore (n : Nat) (f : Core → Core) (j q : Nat) : domOf (updCore d n f) j q = domOf d j q := rfl
@[simp] theorem wcOf_updCore (n : Nat) (f : Core → Core) (w0 : Nat) : wcOf (updCore d n f) w0 = wcOf d w0 := rfl
@[simp] theorem ringOf_updCore (n : Nat) (f : Core → Core) (r0 : Nat) : ringOf (updCore d n f) r0 = ringOf d r0 := rfl
@[simp] theorem ctrOf_updCore (n : Nat) (f : Core → Core) (k0 : Nat) : ctrOf (updCore d n f) k0 = ctrOf d k0 := rfl
@[simp] theorem chan_updCore (n : Nat) (f : Core → Core) (c0 : Nat) : chan (updCore d n f) c0 = chan d c0 := rfl
@[simp] theorem cam_updCore (n : Nat) (f : Core → Core) (p0 : Nat) : cam (updCore d n f) p0 = cam d p0 := rfl
@[simp] theorem ic_updCore (n : Nat) (f : Core → Core) (n0 : Nat) : ic (updCore d n f) n0 = ic d n0 := rfl
@[simp] theorem region_updCore (n : Nat) (f : Core → Core) (r0 : Nat) : region (updCore d n f) r0 = region d r0 := rfl
@[simp] theorem island_updCore (n : Nat) (f : Core → Core) (n0 : Nat) : island (updCore d n f) n0 = island d n0 := rfl
@[simp] theorem setting_updArr (n a : Nat) (f : Arr → Arr) (j q : Nat) : setting (updArr d n a f) j q = setting d j q := rfl
@[simp] theorem cnt_updArr (n a : Nat) (f : Arr → Arr) (j q : Nat) : cnt (updArr d n a f) j q = cnt d j q := rfl
@[simp] theorem domOf_updArr (n a : Nat) (f : Arr → Arr) (j q : Nat) : domOf (updArr d n a f) j q = domOf d j q := rfl
@[simp] theorem wcOf_updArr (n a : Nat) (f : Arr → Arr) (w0 : Nat) : wcOf (updArr d n a f) w0 = wcOf d w0 := rfl
@[simp] theorem ringOf_updArr (n a : Nat) (f : Arr → Arr) (r0 : Nat) : ringOf (updArr d n a f) r0 = ringOf d r0 := rfl
@[simp] theorem ctrOf_updArr (n a : Nat) (f : Arr → Arr) (k0 : Nat) : ctrOf (updArr d n a f) k0 = ctrOf d k0 := rfl
@[simp] theorem chan_updArr (n a : Nat) (f : Arr → Arr) (c0 : Nat) : chan (updArr d n a f) c0 = chan d c0 := rfl
@[simp] theorem cam_updArr (n a : Nat) (f : Arr → Arr) (p0 : Nat) : cam (updArr d n a f) p0 = cam d p0 := rfl
@[simp] theorem ic_updArr (n a : Nat) (f : Arr → Arr) (n0 : Nat) : ic (updArr d n a f) n0 = ic d n0 := rfl
@[simp] theorem region_updArr (n a : Nat) (f : Arr → Arr) (r0 : Nat) : region (updArr d n a f) r0 = region d r0 := rfl
@[simp] theorem island_updArr (n a : Nat) (f : Arr → Arr) (n0 : Nat) : island (updArr d n a f) n0 = island d n0 := rfl
@[simp] theorem setting_updWc (w : Nat) (f : Wc → Wc) (j q : Nat) : setting (updWc d w f) j q = setting d j q := rfl
@[simp] theorem cnt_updWc (w : Nat) (f : Wc → Wc) (j q : Nat) : cnt (updWc d w f) j q = cnt d j q := rfl
@[simp] theorem domOf_updWc (w : Nat) (f : Wc → Wc) (j q : Nat) : domOf (updWc d w f) j q = domOf d j q := rfl
@[simp] theorem coreOf_updWc (w : Nat) (f : Wc → Wc) (n0 : Nat) : coreOf (updWc d w f) n0 = coreOf d n0 := rfl
@[simp] theorem ringOf_updWc (w : Nat) (f : Wc → Wc) (r0 : Nat) : ringOf (updWc d w f) r0 = ringOf d r0 := rfl
@[simp] theorem ctrOf_updWc (w : Nat) (f : Wc → Wc) (k0 : Nat) : ctrOf (updWc d w f) k0 = ctrOf d k0 := rfl
@[simp] theorem chan_updWc (w : Nat) (f : Wc → Wc) (c0 : Nat) : chan (updWc d w f) c0 = chan d c0 := rfl
@[simp] theorem cam_updWc (w : Nat) (f : Wc → Wc) (p0 : Nat) : cam (updWc d w f) p0 = cam d p0 := rfl
@[simp] theorem ic_updWc (w : Nat) (f : Wc → Wc) (n0 : Nat) : ic (updWc d w f) n0 = ic d n0 := rfl
@[simp] theorem region_updWc (w : Nat) (f : Wc → Wc) (r0 : Nat) : region (updWc d w f) r0 = region d r0 := rfl
@[simp] theorem island_updWc (w : Nat) (f : Wc → Wc) (n0 : Nat) : island (updWc d w f) n0 = island d n0 := rfl
@[simp] theorem setting_updRing (r : Nat) (f : Ring → Ring) (j q : Nat) : setting (updRing d r f) j q = setting d j q := rfl
@[simp] theorem cnt_updRing (r : Nat) (f : Ring → Ring) (j q : Nat) : cnt (updRing d r f) j q = cnt d j q := rfl
@[simp] theorem domOf_updRing (r : Nat) (f : Ring → Ring) (j q : Nat) : domOf (updRing d r f) j q = domOf d j q := rfl
@[simp] theorem coreOf_updRing (r : Nat) (f : Ring → Ring) (n0 : Nat) : coreOf (updRing d r f) n0 = coreOf d n0 := rfl
@[simp] theorem wcOf_updRing (r : Nat) (f : Ring → Ring) (w0 : Nat) : wcOf (updRing d r f) w0 = wcOf d w0 := rfl
@[simp] theorem ctrOf_updRing (r : Nat) (f : Ring → Ring) (k0 : Nat) : ctrOf (updRing d r f) k0 = ctrOf d k0 := rfl
@[simp] theorem chan_updRing (r : Nat) (f : Ring → Ring) (c0 : Nat) : chan (updRing d r f) c0 = chan d c0 := rfl
@[simp] theorem cam_updRing (r : Nat) (f : Ring → Ring) (p0 : Nat) : cam (updRing d r f) p0 = cam d p0 := rfl
@[simp] theorem ic_updRing (r : Nat) (f : Ring → Ring) (n0 : Nat) : ic (updRing d r f) n0 = ic d n0 := rfl
@[simp] theorem region_updRing (r : Nat) (f : Ring → Ring) (r0 : Nat) : region (updRing d r f) r0 = region d r0 := rfl
@[simp] theorem island_updRing (r : Nat) (f : Ring → Ring) (n0 : Nat) : island (updRing d r f) n0 = island d n0 := rfl
@[simp] theorem setting_setCtr (k : Nat) (v : TileCtr) (j q : Nat) : setting (setCtr d k v) j q = setting d j q := rfl
@[simp] theorem cnt_setCtr (k : Nat) (v : TileCtr) (j q : Nat) : cnt (setCtr d k v) j q = cnt d j q := rfl
@[simp] theorem domOf_setCtr (k : Nat) (v : TileCtr) (j q : Nat) : domOf (setCtr d k v) j q = domOf d j q := rfl
@[simp] theorem coreOf_setCtr (k : Nat) (v : TileCtr) (n0 : Nat) : coreOf (setCtr d k v) n0 = coreOf d n0 := rfl
@[simp] theorem wcOf_setCtr (k : Nat) (v : TileCtr) (w0 : Nat) : wcOf (setCtr d k v) w0 = wcOf d w0 := rfl
@[simp] theorem ringOf_setCtr (k : Nat) (v : TileCtr) (r0 : Nat) : ringOf (setCtr d k v) r0 = ringOf d r0 := rfl
@[simp] theorem chan_setCtr (k : Nat) (v : TileCtr) (c0 : Nat) : chan (setCtr d k v) c0 = chan d c0 := rfl
@[simp] theorem cam_setCtr (k : Nat) (v : TileCtr) (p0 : Nat) : cam (setCtr d k v) p0 = cam d p0 := rfl
@[simp] theorem ic_setCtr (k : Nat) (v : TileCtr) (n0 : Nat) : ic (setCtr d k v) n0 = ic d n0 := rfl
@[simp] theorem region_setCtr (k : Nat) (v : TileCtr) (r0 : Nat) : region (setCtr d k v) r0 = region d r0 := rfl
@[simp] theorem island_setCtr (k : Nat) (v : TileCtr) (n0 : Nat) : island (setCtr d k v) n0 = island d n0 := rfl
@[simp] theorem setting_setChan (c : Nat) (v : Chan) (j q : Nat) : setting (setChan d c v) j q = setting d j q := rfl
@[simp] theorem cnt_setChan (c : Nat) (v : Chan) (j q : Nat) : cnt (setChan d c v) j q = cnt d j q := rfl
@[simp] theorem domOf_setChan (c : Nat) (v : Chan) (j q : Nat) : domOf (setChan d c v) j q = domOf d j q := rfl
@[simp] theorem coreOf_setChan (c : Nat) (v : Chan) (n0 : Nat) : coreOf (setChan d c v) n0 = coreOf d n0 := rfl
@[simp] theorem wcOf_setChan (c : Nat) (v : Chan) (w0 : Nat) : wcOf (setChan d c v) w0 = wcOf d w0 := rfl
@[simp] theorem ringOf_setChan (c : Nat) (v : Chan) (r0 : Nat) : ringOf (setChan d c v) r0 = ringOf d r0 := rfl
@[simp] theorem ctrOf_setChan (c : Nat) (v : Chan) (k0 : Nat) : ctrOf (setChan d c v) k0 = ctrOf d k0 := rfl
@[simp] theorem cam_setChan (c : Nat) (v : Chan) (p0 : Nat) : cam (setChan d c v) p0 = cam d p0 := rfl
@[simp] theorem ic_setChan (c : Nat) (v : Chan) (n0 : Nat) : ic (setChan d c v) n0 = ic d n0 := rfl
@[simp] theorem region_setChan (c : Nat) (v : Chan) (r0 : Nat) : region (setChan d c v) r0 = region d r0 := rfl
@[simp] theorem island_setChan (c : Nat) (v : Chan) (n0 : Nat) : island (setChan d c v) n0 = island d n0 := rfl
@[simp] theorem setting_updCam (p : Nat) (f : Cam → Cam) (j q : Nat) : setting (updCam d p f) j q = setting d j q := rfl
@[simp] theorem cnt_updCam (p : Nat) (f : Cam → Cam) (j q : Nat) : cnt (updCam d p f) j q = cnt d j q := rfl
@[simp] theorem domOf_updCam (p : Nat) (f : Cam → Cam) (j q : Nat) : domOf (updCam d p f) j q = domOf d j q := rfl
@[simp] theorem coreOf_updCam (p : Nat) (f : Cam → Cam) (n0 : Nat) : coreOf (updCam d p f) n0 = coreOf d n0 := rfl
@[simp] theorem wcOf_updCam (p : Nat) (f : Cam → Cam) (w0 : Nat) : wcOf (updCam d p f) w0 = wcOf d w0 := rfl
@[simp] theorem ringOf_updCam (p : Nat) (f : Cam → Cam) (r0 : Nat) : ringOf (updCam d p f) r0 = ringOf d r0 := rfl
@[simp] theorem ctrOf_updCam (p : Nat) (f : Cam → Cam) (k0 : Nat) : ctrOf (updCam d p f) k0 = ctrOf d k0 := rfl
@[simp] theorem chan_updCam (p : Nat) (f : Cam → Cam) (c0 : Nat) : chan (updCam d p f) c0 = chan d c0 := rfl
@[simp] theorem ic_updCam (p : Nat) (f : Cam → Cam) (n0 : Nat) : ic (updCam d p f) n0 = ic d n0 := rfl
@[simp] theorem region_updCam (p : Nat) (f : Cam → Cam) (r0 : Nat) : region (updCam d p f) r0 = region d r0 := rfl
@[simp] theorem island_updCam (p : Nat) (f : Cam → Cam) (n0 : Nat) : island (updCam d p f) n0 = island d n0 := rfl
@[simp] theorem setting_updIc (n : Nat) (f : Ic → Ic) (j q : Nat) : setting (updIc d n f) j q = setting d j q := rfl
@[simp] theorem cnt_updIc (n : Nat) (f : Ic → Ic) (j q : Nat) : cnt (updIc d n f) j q = cnt d j q := rfl
@[simp] theorem domOf_updIc (n : Nat) (f : Ic → Ic) (j q : Nat) : domOf (updIc d n f) j q = domOf d j q := rfl
@[simp] theorem coreOf_updIc (n : Nat) (f : Ic → Ic) (n0 : Nat) : coreOf (updIc d n f) n0 = coreOf d n0 := rfl
@[simp] theorem wcOf_updIc (n : Nat) (f : Ic → Ic) (w0 : Nat) : wcOf (updIc d n f) w0 = wcOf d w0 := rfl
@[simp] theorem ringOf_updIc (n : Nat) (f : Ic → Ic) (r0 : Nat) : ringOf (updIc d n f) r0 = ringOf d r0 := rfl
@[simp] theorem ctrOf_updIc (n : Nat) (f : Ic → Ic) (k0 : Nat) : ctrOf (updIc d n f) k0 = ctrOf d k0 := rfl
@[simp] theorem chan_updIc (n : Nat) (f : Ic → Ic) (c0 : Nat) : chan (updIc d n f) c0 = chan d c0 := rfl
@[simp] theorem cam_updIc (n : Nat) (f : Ic → Ic) (p0 : Nat) : cam (updIc d n f) p0 = cam d p0 := rfl
@[simp] theorem region_updIc (n : Nat) (f : Ic → Ic) (r0 : Nat) : region (updIc d n f) r0 = region d r0 := rfl
@[simp] theorem island_updIc (n : Nat) (f : Ic → Ic) (n0 : Nat) : island (updIc d n f) n0 = island d n0 := rfl
@[simp] theorem setting_updMgc (f : Mgc → Mgc) (j q : Nat) : setting (updMgc d f) j q = setting d j q := rfl
@[simp] theorem cnt_updMgc (f : Mgc → Mgc) (j q : Nat) : cnt (updMgc d f) j q = cnt d j q := rfl
@[simp] theorem domOf_updMgc (f : Mgc → Mgc) (j q : Nat) : domOf (updMgc d f) j q = domOf d j q := rfl
@[simp] theorem coreOf_updMgc (f : Mgc → Mgc) (n0 : Nat) : coreOf (updMgc d f) n0 = coreOf d n0 := rfl
@[simp] theorem wcOf_updMgc (f : Mgc → Mgc) (w0 : Nat) : wcOf (updMgc d f) w0 = wcOf d w0 := rfl
@[simp] theorem ringOf_updMgc (f : Mgc → Mgc) (r0 : Nat) : ringOf (updMgc d f) r0 = ringOf d r0 := rfl
@[simp] theorem ctrOf_updMgc (f : Mgc → Mgc) (k0 : Nat) : ctrOf (updMgc d f) k0 = ctrOf d k0 := rfl
@[simp] theorem chan_updMgc (f : Mgc → Mgc) (c0 : Nat) : chan (updMgc d f) c0 = chan d c0 := rfl
@[simp] theorem cam_updMgc (f : Mgc → Mgc) (p0 : Nat) : cam (updMgc d f) p0 = cam d p0 := rfl
@[simp] theorem ic_updMgc (f : Mgc → Mgc) (n0 : Nat) : ic (updMgc d f) n0 = ic d n0 := rfl
@[simp] theorem region_updMgc (f : Mgc → Mgc) (r0 : Nat) : region (updMgc d f) r0 = region d r0 := rfl
@[simp] theorem island_updMgc (f : Mgc → Mgc) (n0 : Nat) : island (updMgc d f) n0 = island d n0 := rfl
@[simp] theorem setting_updTu (f : Tu → Tu) (j q : Nat) : setting (updTu d f) j q = setting d j q := rfl
@[simp] theorem cnt_updTu (f : Tu → Tu) (j q : Nat) : cnt (updTu d f) j q = cnt d j q := rfl
@[simp] theorem domOf_updTu (f : Tu → Tu) (j q : Nat) : domOf (updTu d f) j q = domOf d j q := rfl
@[simp] theorem coreOf_updTu (f : Tu → Tu) (n0 : Nat) : coreOf (updTu d f) n0 = coreOf d n0 := rfl
@[simp] theorem wcOf_updTu (f : Tu → Tu) (w0 : Nat) : wcOf (updTu d f) w0 = wcOf d w0 := rfl
@[simp] theorem ringOf_updTu (f : Tu → Tu) (r0 : Nat) : ringOf (updTu d f) r0 = ringOf d r0 := rfl
@[simp] theorem ctrOf_updTu (f : Tu → Tu) (k0 : Nat) : ctrOf (updTu d f) k0 = ctrOf d k0 := rfl
@[simp] theorem chan_updTu (f : Tu → Tu) (c0 : Nat) : chan (updTu d f) c0 = chan d c0 := rfl
@[simp] theorem cam_updTu (f : Tu → Tu) (p0 : Nat) : cam (updTu d f) p0 = cam d p0 := rfl
@[simp] theorem ic_updTu (f : Tu → Tu) (n0 : Nat) : ic (updTu d f) n0 = ic d n0 := rfl
@[simp] theorem region_updTu (f : Tu → Tu) (r0 : Nat) : region (updTu d f) r0 = region d r0 := rfl
@[simp] theorem island_updTu (f : Tu → Tu) (n0 : Nat) : island (updTu d f) n0 = island d n0 := rfl
@[simp] theorem setting_updBoot (f : Boot → Boot) (j q : Nat) : setting (updBoot d f) j q = setting d j q := rfl
@[simp] theorem cnt_updBoot (f : Boot → Boot) (j q : Nat) : cnt (updBoot d f) j q = cnt d j q := rfl
@[simp] theorem domOf_updBoot (f : Boot → Boot) (j q : Nat) : domOf (updBoot d f) j q = domOf d j q := rfl
@[simp] theorem coreOf_updBoot (f : Boot → Boot) (n0 : Nat) : coreOf (updBoot d f) n0 = coreOf d n0 := rfl
@[simp] theorem wcOf_updBoot (f : Boot → Boot) (w0 : Nat) : wcOf (updBoot d f) w0 = wcOf d w0 := rfl
@[simp] theorem ringOf_updBoot (f : Boot → Boot) (r0 : Nat) : ringOf (updBoot d f) r0 = ringOf d r0 := rfl
@[simp] theorem ctrOf_updBoot (f : Boot → Boot) (k0 : Nat) : ctrOf (updBoot d f) k0 = ctrOf d k0 := rfl
@[simp] theorem chan_updBoot (f : Boot → Boot) (c0 : Nat) : chan (updBoot d f) c0 = chan d c0 := rfl
@[simp] theorem cam_updBoot (f : Boot → Boot) (p0 : Nat) : cam (updBoot d f) p0 = cam d p0 := rfl
@[simp] theorem ic_updBoot (f : Boot → Boot) (n0 : Nat) : ic (updBoot d f) n0 = ic d n0 := rfl
@[simp] theorem region_updBoot (f : Boot → Boot) (r0 : Nat) : region (updBoot d f) r0 = region d r0 := rfl
@[simp] theorem island_updBoot (f : Boot → Boot) (n0 : Nat) : island (updBoot d f) n0 = island d n0 := rfl
@[simp] theorem setting_updBreath (f : Breath → Breath) (j q : Nat) : setting (updBreath d f) j q = setting d j q := rfl
@[simp] theorem cnt_updBreath (f : Breath → Breath) (j q : Nat) : cnt (updBreath d f) j q = cnt d j q := rfl
@[simp] theorem domOf_updBreath (f : Breath → Breath) (j q : Nat) : domOf (updBreath d f) j q = domOf d j q := rfl
@[simp] theorem coreOf_updBreath (f : Breath → Breath) (n0 : Nat) : coreOf (updBreath d f) n0 = coreOf d n0 := rfl
@[simp] theorem wcOf_updBreath (f : Breath → Breath) (w0 : Nat) : wcOf (updBreath d f) w0 = wcOf d w0 := rfl
@[simp] theorem ringOf_updBreath (f : Breath → Breath) (r0 : Nat) : ringOf (updBreath d f) r0 = ringOf d r0 := rfl
@[simp] theorem ctrOf_updBreath (f : Breath → Breath) (k0 : Nat) : ctrOf (updBreath d f) k0 = ctrOf d k0 := rfl
@[simp] theorem chan_updBreath (f : Breath → Breath) (c0 : Nat) : chan (updBreath d f) c0 = chan d c0 := rfl
@[simp] theorem cam_updBreath (f : Breath → Breath) (p0 : Nat) : cam (updBreath d f) p0 = cam d p0 := rfl
@[simp] theorem ic_updBreath (f : Breath → Breath) (n0 : Nat) : ic (updBreath d f) n0 = ic d n0 := rfl
@[simp] theorem region_updBreath (f : Breath → Breath) (r0 : Nat) : region (updBreath d f) r0 = region d r0 := rfl
@[simp] theorem island_updBreath (f : Breath → Breath) (n0 : Nat) : island (updBreath d f) n0 = island d n0 := rfl
@[simp] theorem setting_updApc (f : Apc → Apc) (j q : Nat) : setting (updApc d f) j q = setting d j q := rfl
@[simp] theorem cnt_updApc (f : Apc → Apc) (j q : Nat) : cnt (updApc d f) j q = cnt d j q := rfl
@[simp] theorem domOf_updApc (f : Apc → Apc) (j q : Nat) : domOf (updApc d f) j q = domOf d j q := rfl
@[simp] theorem coreOf_updApc (f : Apc → Apc) (n0 : Nat) : coreOf (updApc d f) n0 = coreOf d n0 := rfl
@[simp] theorem wcOf_updApc (f : Apc → Apc) (w0 : Nat) : wcOf (updApc d f) w0 = wcOf d w0 := rfl
@[simp] theorem ringOf_updApc (f : Apc → Apc) (r0 : Nat) : ringOf (updApc d f) r0 = ringOf d r0 := rfl
@[simp] theorem ctrOf_updApc (f : Apc → Apc) (k0 : Nat) : ctrOf (updApc d f) k0 = ctrOf d k0 := rfl
@[simp] theorem chan_updApc (f : Apc → Apc) (c0 : Nat) : chan (updApc d f) c0 = chan d c0 := rfl
@[simp] theorem cam_updApc (f : Apc → Apc) (p0 : Nat) : cam (updApc d f) p0 = cam d p0 := rfl
@[simp] theorem ic_updApc (f : Apc → Apc) (n0 : Nat) : ic (updApc d f) n0 = ic d n0 := rfl
@[simp] theorem region_updApc (f : Apc → Apc) (r0 : Nat) : region (updApc d f) r0 = region d r0 := rfl
@[simp] theorem island_updApc (f : Apc → Apc) (n0 : Nat) : island (updApc d f) n0 = island d n0 := rfl
@[simp] theorem setting_updPorts (f : Ports → Ports) (j q : Nat) : setting (updPorts d f) j q = setting d j q := rfl
@[simp] theorem cnt_updPorts (f : Ports → Ports) (j q : Nat) : cnt (updPorts d f) j q = cnt d j q := rfl
@[simp] theorem domOf_updPorts (f : Ports → Ports) (j q : Nat) : domOf (updPorts d f) j q = domOf d j q := rfl
@[simp] theorem coreOf_updPorts (f : Ports → Ports) (n0 : Nat) : coreOf (updPorts d f) n0 = coreOf d n0 := rfl
@[simp] theorem wcOf_updPorts (f : Ports → Ports) (w0 : Nat) : wcOf (updPorts d f) w0 = wcOf d w0 := rfl
@[simp] theorem ringOf_updPorts (f : Ports → Ports) (r0 : Nat) : ringOf (updPorts d f) r0 = ringOf d r0 := rfl
@[simp] theorem ctrOf_updPorts (f : Ports → Ports) (k0 : Nat) : ctrOf (updPorts d f) k0 = ctrOf d k0 := rfl
@[simp] theorem chan_updPorts (f : Ports → Ports) (c0 : Nat) : chan (updPorts d f) c0 = chan d c0 := rfl
@[simp] theorem cam_updPorts (f : Ports → Ports) (p0 : Nat) : cam (updPorts d f) p0 = cam d p0 := rfl
@[simp] theorem ic_updPorts (f : Ports → Ports) (n0 : Nat) : ic (updPorts d f) n0 = ic d n0 := rfl
@[simp] theorem region_updPorts (f : Ports → Ports) (r0 : Nat) : region (updPorts d f) r0 = region d r0 := rfl
@[simp] theorem island_updPorts (f : Ports → Ports) (n0 : Nat) : island (updPorts d f) n0 = island d n0 := rfl
@[simp] theorem setting_updPower (f : Power → Power) (j q : Nat) : setting (updPower d f) j q = setting d j q := rfl
@[simp] theorem cnt_updPower (f : Power → Power) (j q : Nat) : cnt (updPower d f) j q = cnt d j q := rfl
@[simp] theorem domOf_updPower (f : Power → Power) (j q : Nat) : domOf (updPower d f) j q = domOf d j q := rfl
@[simp] theorem coreOf_updPower (f : Power → Power) (n0 : Nat) : coreOf (updPower d f) n0 = coreOf d n0 := rfl
@[simp] theorem wcOf_updPower (f : Power → Power) (w0 : Nat) : wcOf (updPower d f) w0 = wcOf d w0 := rfl
@[simp] theorem ringOf_updPower (f : Power → Power) (r0 : Nat) : ringOf (updPower d f) r0 = ringOf d r0 := rfl
@[simp] theorem ctrOf_updPower (f : Power → Power) (k0 : Nat) : ctrOf (updPower d f) k0 = ctrOf d k0 := rfl
@[simp] theorem chan_updPower (f : Power → Power) (c0 : Nat) : chan (updPower d f) c0 = chan d c0 := rfl
@[simp] theorem cam_updPower (f : Power → Power) (p0 : Nat) : cam (updPower d f) p0 = cam d p0 := rfl
@[simp] theorem ic_updPower (f : Power → Power) (n0 : Nat) : ic (updPower d f) n0 = ic d n0 := rfl
@[simp] theorem region_updPower (f : Power → Power) (r0 : Nat) : region (updPower d f) r0 = region d r0 := rfl
@[simp] theorem setting_updIsland (n : Nat) (f : Island → Island) (j q : Nat) : setting (updIsland d n f) j q = setting d j q := rfl
@[simp] theorem cnt_updIsland (n : Nat) (f : Island → Island) (j q : Nat) : cnt (updIsland d n f) j q = cnt d j q := rfl
@[simp] theorem domOf_updIsland (n : Nat) (f : Island → Island) (j q : Nat) : domOf (updIsland d n f) j q = domOf d j q := rfl
@[simp] theorem coreOf_updIsland (n : Nat) (f : Island → Island) (n0 : Nat) : coreOf (updIsland d n f) n0 = coreOf d n0 := rfl
@[simp] theorem wcOf_updIsland (n : Nat) (f : Island → Island) (w0 : Nat) : wcOf (updIsland d n f) w0 = wcOf d w0 := rfl
@[simp] theorem ringOf_updIsland (n : Nat) (f : Island → Island) (r0 : Nat) : ringOf (updIsland d n f) r0 = ringOf d r0 := rfl
@[simp] theorem ctrOf_updIsland (n : Nat) (f : Island → Island) (k0 : Nat) : ctrOf (updIsland d n f) k0 = ctrOf d k0 := rfl
@[simp] theorem chan_updIsland (n : Nat) (f : Island → Island) (c0 : Nat) : chan (updIsland d n f) c0 = chan d c0 := rfl
@[simp] theorem cam_updIsland (n : Nat) (f : Island → Island) (p0 : Nat) : cam (updIsland d n f) p0 = cam d p0 := rfl
@[simp] theorem ic_updIsland (n : Nat) (f : Island → Island) (n0 : Nat) : ic (updIsland d n f) n0 = ic d n0 := rfl
@[simp] theorem region_updIsland (n : Nat) (f : Island → Island) (r0 : Nat) : region (updIsland d n f) r0 = region d r0 := rfl
theorem postRec_wcs (r : EvtRec) : (postRec d r).cp.wcs = d.cp.wcs := by
  have h : ∀ cp : Cp, (portTake cp r).wcs = cp.wcs := fun cp => by unfold portTake; split <;> rfl
  unfold postRec copyForCan; split
  · rfl
  · dsimp only; split <;> exact h _
theorem postRec_rings (r : EvtRec) : (postRec d r).cp.rings = d.cp.rings := by
  have h : ∀ cp : Cp, (portTake cp r).rings = cp.rings := fun cp => by unfold portTake; split <;> rfl
  unfold postRec copyForCan; split
  · rfl
  · dsimp only; split <;> exact h _
@[simp] theorem setting_postEvent (a b c e : Nat) (j q : Nat) : setting (postEvent d a b c e) j q = setting d j q := by simp [setting]
@[simp] theorem cnt_postEvent (a b c e : Nat) (j q : Nat) : cnt (postEvent d a b c e) j q = cnt d j q := by simp [cnt]
@[simp] theorem domOf_postEvent (a b c e : Nat) (j q : Nat) : domOf (postEvent d a b c e) j q = domOf d j q := by simp [domOf]
@[simp] theorem coreOf_postEvent (a b c e : Nat) (n0 : Nat) : coreOf (postEvent d a b c e) n0 = coreOf d n0 := by simp [coreOf]
@[simp] theorem ctrOf_postEvent (a b c e : Nat) (k0 : Nat) : ctrOf (postEvent d a b c e) k0 = ctrOf d k0 := by simp [ctrOf]
@[simp] theorem chan_postEvent (a b c e : Nat) (c0 : Nat) : chan (postEvent d a b c e) c0 = chan d c0 := by simp [chan]
@[simp] theorem cam_postEvent (a b c e : Nat) (p0 : Nat) : cam (postEvent d a b c e) p0 = cam d p0 := by simp [cam]
@[simp] theorem ic_postEvent (a b c e : Nat) (n0 : Nat) : ic (postEvent d a b c e) n0 = ic d n0 := by simp [ic]
@[simp] theorem region_postEvent (a b c e : Nat) (r0 : Nat) : region (postEvent d a b c e) r0 = region d r0 := by simp [region]
@[simp] theorem island_postEvent (a b c e : Nat) (n0 : Nat) : island (postEvent d a b c e) n0 = island d n0 := by simp [island]
@[simp] theorem wcOf_postEvent (a b c e : Nat) (w0 : Nat) : wcOf (postEvent d a b c e) w0 = wcOf d w0 := by
  have h : (postEvent d a b c e).cp.wcs = d.cp.wcs := postRec_wcs d _
  simp [wcOf, h]
@[simp] theorem ringOf_postEvent (a b c e : Nat) (r0 : Nat) : ringOf (postEvent d a b c e) r0 = ringOf d r0 := by
  have h : (postEvent d a b c e).cp.rings = d.cp.rings := postRec_rings d _
  simp [ringOf, h]
@[simp] theorem setting_postEventWc (a b c w e : Nat) (j q : Nat) : setting (postEventWc d a b c w e) j q = setting d j q := by simp [setting]
@[simp] theorem cnt_postEventWc (a b c w e : Nat) (j q : Nat) : cnt (postEventWc d a b c w e) j q = cnt d j q := by simp [cnt]
@[simp] theorem domOf_postEventWc (a b c w e : Nat) (j q : Nat) : domOf (postEventWc d a b c w e) j q = domOf d j q := by simp [domOf]
@[simp] theorem coreOf_postEventWc (a b c w e : Nat) (n0 : Nat) : coreOf (postEventWc d a b c w e) n0 = coreOf d n0 := by simp [coreOf]
@[simp] theorem ctrOf_postEventWc (a b c w e : Nat) (k0 : Nat) : ctrOf (postEventWc d a b c w e) k0 = ctrOf d k0 := by simp [ctrOf]
@[simp] theorem chan_postEventWc (a b c w e : Nat) (c0 : Nat) : chan (postEventWc d a b c w e) c0 = chan d c0 := by simp [chan]
@[simp] theorem cam_postEventWc (a b c w e : Nat) (p0 : Nat) : cam (postEventWc d a b c w e) p0 = cam d p0 := by simp [cam]
@[simp] theorem ic_postEventWc (a b c w e : Nat) (n0 : Nat) : ic (postEventWc d a b c w e) n0 = ic d n0 := by simp [ic]
@[simp] theorem region_postEventWc (a b c w e : Nat) (r0 : Nat) : region (postEventWc d a b c w e) r0 = region d r0 := by simp [region]
@[simp] theorem island_postEventWc (a b c w e : Nat) (n0 : Nat) : island (postEventWc d a b c w e) n0 = island d n0 := by simp [island]
@[simp] theorem wcOf_postEventWc (a b c w e : Nat) (w0 : Nat) : wcOf (postEventWc d a b c w e) w0 = wcOf d w0 := by
  have h : (postEventWc d a b c w e).cp.wcs = d.cp.wcs := postRec_wcs d _
  simp [wcOf, h]
@[simp] theorem ringOf_postEventWc (a b c w e : Nat) (r0 : Nat) : ringOf (postEventWc d a b c w e) r0 = ringOf d r0 := by
  have h : (postEventWc d a b c w e).cp.rings = d.cp.rings := postRec_rings d _
  simp [ringOf, h]
@[simp] theorem setting_postOnce (k a b c e : Nat) (j q : Nat) : setting (postOnce d k a b c e) j q = setting d j q := by simp [setting]
@[simp] theorem cnt_postOnce (k a b c e : Nat) (j q : Nat) : cnt (postOnce d k a b c e) j q = cnt d j q := by simp [cnt]
@[simp] theorem domOf_postOnce (k a b c e : Nat) (j q : Nat) : domOf (postOnce d k a b c e) j q = domOf d j q := by simp [domOf]
@[simp] theorem coreOf_postOnce (k a b c e : Nat) (n0 : Nat) : coreOf (postOnce d k a b c e) n0 = coreOf d n0 := by simp [coreOf]
@[simp] theorem ctrOf_postOnce (k a b c e : Nat) (k0 : Nat) : ctrOf (postOnce d k a b c e) k0 = ctrOf d k0 := by simp [ctrOf]
@[simp] theorem chan_postOnce (k a b c e : Nat) (c0 : Nat) : chan (postOnce d k a b c e) c0 = chan d c0 := by simp [chan]
@[simp] theorem cam_postOnce (k a b c e : Nat) (p0 : Nat) : cam (postOnce d k a b c e) p0 = cam d p0 := by simp [cam]
@[simp] theorem ic_postOnce (k a b c e : Nat) (n0 : Nat) : ic (postOnce d k a b c e) n0 = ic d n0 := by simp [ic]
@[simp] theorem region_postOnce (k a b c e : Nat) (r0 : Nat) : region (postOnce d k a b c e) r0 = region d r0 := by simp [region]
@[simp] theorem island_postOnce (k a b c e : Nat) (n0 : Nat) : island (postOnce d k a b c e) n0 = island d n0 := by simp [island]
@[simp] theorem wcOf_postOnce (k a b c e : Nat) (w0 : Nat) : wcOf (postOnce d k a b c e) w0 = wcOf d w0 := by
  have h : (postOnce d k a b c e).cp.wcs = d.cp.wcs := by unfold postOnce; split; rfl; exact postRec_wcs _ _
  simp [wcOf, h]
@[simp] theorem ringOf_postOnce (k a b c e : Nat) (r0 : Nat) : ringOf (postOnce d k a b c e) r0 = ringOf d r0 := by
  have h : (postOnce d k a b c e).cp.rings = d.cp.rings := by unfold postOnce; split; rfl; exact postRec_rings _ _
  simp [ringOf, h]

end

end Sys2Proof.Machine
end

