-- ==== Sys2Proof/Laws/Exec.lean ====
section
/-! SUPPORT. What the shapes of a command's meaning can answer, said once. -/

namespace Sys2Proof.Machine

open Sys2Proof

section
variable {s : State} {f : Dev → Dev} {g : State → State}

theorem nextDev_awake (h : Awake s) : nextDev s f = .next (onDev s f) := by simp [nextDev, h]
theorem nextMgc_awake (h : MgcAwake s) : nextMgc s f = .next (onDev s f) := by simp [nextMgc, h]
theorem nextAll_awake (h : MgcAwake s) : nextAll s g = .next (g s) := by simp [nextAll, h]
theorem nextDev_held (h : s.dev.ctl.held = true) : nextDev s f = .next s := by simp [nextDev, h]
theorem nextMgc_held (h : s.dev.ctl.heldMgc = true) : nextMgc s f = .next s := by simp [nextMgc, h]
theorem nextAll_held (h : s.dev.ctl.heldMgc = true) : nextAll s g = .next s := by simp [nextAll, h]

/-- A low PORST_N holds every island. -/
theorem held_of_porstLow (h : s.dev.ctl.porstLow = true) : s.dev.ctl.heldMgc = true ∧ s.dev.ctl.held = true := by
  simp [Ctl.held, Ctl.heldMgc, h]
/-- Where the blocks are awake, so is the management controller's island. -/
theorem mgcAwake_of_awake (h : Awake s) : MgcAwake s := by
  unfold Awake Ctl.held at h; simp only [Bool.or_eq_false_iff] at h; exact h.1

/-- A command of this shape answers a state with the queue and the fuses of the state it ran on. -/
theorem nextDev_answers {t : State} (h : nextDev s f = .next t) : t.pending = s.pending ∧ t.otp = s.otp := by
  unfold nextDev at h; cases h; split <;> simp
theorem nextMgc_answers {t : State} (h : nextMgc s f = .next t) : t.pending = s.pending ∧ t.otp = s.otp := by
  unfold nextMgc at h; cases h; split <;> simp

end

/-- With one command waiting at the front, a step is that command on the rest of the queue. -/
theorem step_cons {c : Instr} {rest : List Instr} {s : State} (h : s.pending = c :: rest) : step s = exec c { s with pending := rest } := by
  simp [step, h]

end Sys2Proof.Machine
end

