-- ==== Sys2Proof/WellFormed.lean ====
section
/-! DEFINITION. Which command terms stand for something that can happen: the limits on operands that their types do not say. A term outside them is no command of the hardware; every meaning is total on it all the same. -/

namespace Sys2Proof

/-- Elements of a row: at most 64 codes, or 64 elements of memory, or a slice of the window register (Table 3.3, Table 6.1). -/
def RowSrc.wf : RowSrc → Bool
  | .codes xs => decide (xs.length ≤ 64)
  | .mem _ off step k => decide (k ≤ 64) && decide (off + step * (k - 1) < 2 ^ 20)
  | .wreg _ _ _ => true

/-- A feeder-queue entry (R27, R28, R44): a marker of the four, a format of Table 5.4, at most 64 elements, a PM entry, or for a piccolo cycle a token of 0 to 7. -/
def FeedRow.wf (r : FeedRow) : Bool :=
  decide (r.mark < 4) && decide (r.fmt < 9) && r.src.wf && decide (r.entry < (if r.mark = 3 then 8 else 1024))

/-- A step of the weight loader (R34, R42, R45): a row of the array, a weight or activation format, columns of the array, a codebook for CB4. -/
def RowLoad.wf (r : RowLoad) : Bool :=
  decide (r.k < 32) && decide (r.fmt < 9) && decide (r.off < 2 ^ 20) && decide (r.hi ≤ 32) && (r.fmt != 1 || r.books.length == (if r.block then 4 else 1))

/-- A disturbance: one of the 33 columns (128 and the checksum in piccolo form), one of the four row groups, one of the 8 rows of a group (Table 2.1, R44). -/
def Upset.wf (u : Upset) : Bool := decide (u.col < 129) && decide (u.group < 4) && decide (u.row < 8)

/-- A CAN frame (R437, Table 13.10): an 11-bit identifier unless IDE; 64 data bytes at most, 8 in a classical frame; no BRS without FDF, no RTR with it. -/
def CanFrame.wf (f : CanFrame) : Bool :=
  (f.ide || decide (f.id.toNat < 2 ^ 11)) && decide (f.data.length ≤ 64) && (f.fdf || decide (f.data.length ≤ 8)) && (f.fdf || !f.brs) && !(f.fdf && f.rtr)

/-- An optional operand. -/
def wfOpt {α : Type} (p : α → Bool) : Option α → Bool
  | some x => p x
  | none => true

/-- A command is well formed. -/
def Instr.wf : Instr → Bool
  | .bootDirectoryRead _ main backup => main.length == 512 && backup.length == 512
  | .canRequestFrame bs => decide (1 ≤ bs.length) && decide (bs.length ≤ 64)
  | .issueCycle _ p q => wfOpt FeedRow.wf p.1 && wfOpt FeedRow.wf p.2 && wfOpt FeedRow.wf q.1 && wfOpt FeedRow.wf q.2
  | .shadowRowLoad _ a k fmt off r => RowLoad.wf { r with arrays := a, k := k, fmt := fmt, off := off }
  | .rowLands _ _ u => wfOpt Upset.wf u
  | .drainEntry _ _ _ _ u => wfOpt Upset.wf u
  | .mpeLine u1 u2 => wfOpt Upset.wf u1 && wfOpt Upset.wf u2
  | .narrowWrite _ _ _ off _ bs _ => (bs.length == 4 || bs.length == 8 || bs.length == 16) && off.toNat % bs.length == 0
  | .granuleArrive _ _ off _ _ _ bs _ hollow => decide (bs.length ≤ 64) && (hollow || decide (off.toNat % 64 + bs.length ≤ 64))
  | .sbPartialWrite _ a bs _ _ _ => decide (1 ≤ bs.length) && decide (a.toNat % 64 + bs.length ≤ 64) && decide (bs.length < 64)
  | .dramAccess _ _ n write bs _ _ => if write then decide (1 ≤ bs.length) else decide (1 ≤ n.toNat)
  | .imageLinePacket _ payload _ => decide (payload.length < 2 ^ 16)
  | .embeddedDataPacket _ payload => decide (payload.length < 2 ^ 16)
  | .i3cCommandDone _ _ bytes rx => decide (bytes.toNat ≤ 256) && decide (rx.length ≤ 128)
  | .shadowWrite _ off bs => (bs.length == 2 || bs.length == 4 || bs.length == 8) && off.toNat % bs.length == 0
  | .pdmSample _ v => v.length == 32
  | .tdmFrameSync _ v => decide (v.length ≤ 16)
  | .descriptorComplete p q bs _ _ => (p == 0 && decide (q.val < 16)) || bs.isEmpty
  | .ethFrameReceive _ f _ => decide (14 ≤ f.length)
  | .canFrameReceive f => f.wf
  | .uartDataRead arrived => decide (arrived.length ≤ 64)
  | .thermalSample ts => ts.length == 20
  | _ => true

end Sys2Proof
end

