-- ==== Sys2Proof/Tests/Slice0.lean ====
section
/-! SUPPORT. The model's own small tests: ill-formed terms that the checks refuse, a state and operands for the hypotheses of every statement, and values of the spec's examples and tables. -/

namespace Sys2Proof.Tests

open Sys2Proof Sys2Proof.Machine

set_option Elab.async false

/-- A state whose device is the reset device, changed. -/
def on (f : Dev → Dev) : State := onDev State.reset f

/-! ### Ill-formed commands are refused -/

theorem test_wf_bootDirectoryRead : (Instr.bootDirectoryRead 0 [0#8] []).wf = false := by decide
theorem test_wf_canRequestFrame : (Instr.canRequestFrame []).wf = false ∧ (Instr.canRequestFrame [1#8]).wf = true := by decide
theorem test_wf_issueCycle : (Instr.issueCycle 0 (some { mark := 4 }, none) (none, none)).wf = false ∧ (Instr.issueCycle 0 (none, none) (some { src := .codes (List.replicate 65 0) }, none)).wf = false
    ∧ (Instr.issueCycle 0 (none, some { entry := 1024 }) (none, none)).wf = false := by decide
theorem test_wf_shadowRowLoad : (Instr.shadowRowLoad 0 1 32 2 0 {}).wf = false ∧ (Instr.shadowRowLoad 0 1 0 1 0 {}).wf = false := by decide
theorem test_wf_rowLands : (Instr.rowLands 0 0 (some { col := 129 })).wf = false := by decide
theorem test_wf_drainEntry : (Instr.drainEntry 0 0 0#16 0#32 (some { group := 4 })).wf = false := by decide
theorem test_wf_mpeLine : (Instr.mpeLine none (some { col := 129 })).wf = false := by decide
theorem test_wf_narrowWrite : (Instr.narrowWrite 0 0 false 2#20 0xF#16 [0#8, 0#8, 0#8, 0#8] false).wf = false := by decide
theorem test_wf_granuleArrive : (Instr.granuleArrive 0 false 60#20 0#32 0#16 0#8 (List.replicate 8 (0#8, false)) false false).wf = false := by decide
theorem test_wf_sbPartialWrite : (Instr.sbPartialWrite none 0x1000000000#40 (List.replicate 64 0#8) false 0 0).wf = false := by decide
theorem test_wf_dramAccess : (Instr.dramAccess none 0#40 0#16 false [] false 0).wf = false ∧ (Instr.dramAccess none 0#40 0#16 true [] false 0).wf = false := by decide
theorem test_wf_imageLinePacket : (Instr.imageLinePacket 0 (List.replicate 65536 0#8) true).wf = false := by decide +kernel
theorem test_wf_embeddedDataPacket : (Instr.embeddedDataPacket 0 (List.replicate 65536 0#8)).wf = false := by decide +kernel
theorem test_wf_i3cCommandDone : (Instr.i3cCommandDone 0 0 257#9 []).wf = false := by decide
theorem test_wf_shadowWrite : (Instr.shadowWrite 0 1#14 [0#8, 0#8]).wf = false := by decide
theorem test_wf_pdmSample : (Instr.pdmSample false []).wf = false := by decide
theorem test_wf_tdmFrameSync : (Instr.tdmFrameSync 0 (List.replicate 17 0#32)).wf = false := by decide
theorem test_wf_descriptorComplete : (Instr.descriptorComplete 1 0 [0#8] true false).wf = false := by decide
theorem test_wf_ethFrameReceive : (Instr.ethFrameReceive 0 [] false).wf = false := by decide
theorem test_wf_canFrameReceive : (Instr.canFrameReceive { id := 0x800#29, data := [] }).wf = false ∧ (Instr.canFrameReceive { rtr := true }).wf = false := by decide
theorem test_wf_uartDataRead : (Instr.uartDataRead (List.replicate 65 0#8)).wf = false := by decide
theorem test_wf_thermalSample : (Instr.thermalSample []).wf = false := by decide


/-! ### The block, fuses, resets and boot -/

/-- PORST_N is low. -/
def low : State := on fun d => { d with ctl := { d.ctl with porstLow := true } }
/-- A rollback programming is in progress. -/
def advancing : State := { on fun d => { d with tu := { d.tu with fuse := some (.advance 2) } } with
  otp := { rollback := 1#64 }, pending := [.fuseProgramDone] }

theorem test_witness_StepRunsTheFrontCommand : ({ low with pending := [.tapReset] } : State).pending = .tapReset :: [] := by decide

theorem test_witness_IdleStepPassesTime : low.pending = [] ∧ low.dev.ctl.porstLow = true ∧ State.reset.pending = [] ∧ MgcAwake State.reset := by decide

theorem test_witness_FusesOnlyBlow : OtpLe {} advancing.otp ∧ ∃ t, step advancing = .next t :=
  ⟨⟨rfl, rfl, rfl, rfl, rfl, rfl, by decide, fun _ => ⟨rfl, rfl, rfl, id⟩⟩, _, rfl⟩

theorem test_fuses_only_blow_refuses_unblowing : ¬ OtpLe { rollback := 3#64 } { rollback := 1#64 } := fun h => absurd h.rollback (by decide)

theorem test_witness_LowPorstStopsEverything : low.dev.ctl.porstLow = true ∧ pinCommand .heartbeat = false := by decide

theorem test_witness_CommandsKeepMemory : (keepsMemory .heartbeat = true ∧ ∃ t, exec .heartbeat low = .next t)
    ∧ onlyReads (.issueCycle 0 (none, none) (none, none)) = true ∧ ∃ t, exec (.issueCycle 0 (none, none) (none, none)) low = .next t := ⟨⟨by decide, _, rfl⟩, by decide, _, rfl⟩

theorem test_witness_RollbackReachesItsValue : rollbackCount {} ≤ 0 ∧ rollbackCount {} ≤ 64 ∧ (64 : Nat) ≤ 64 := by decide

theorem test_witness_ResetsReturnTheDevice :
    low.dev.ctl.porstLow = true ∧ Awake State.reset ∧ 1000 ≤ (1000#32).toNat := by decide

theorem test_witness_ResetMarksFusedArrays : ∃ t, exec (.porstNFall 0#64) State.reset = .next t := ⟨_, rfl⟩

theorem test_witness_OverlappingResetsResolve :
    (99#32).toNat < 100 ∧ (1000 ≤ (1000#32).toNat ∧ low.dev.ctl.porstLow = true)
    ∧ ((on fun d => { d with ctl := { d.ctl with tripped := true } }).dev.ctl.tripped = true
      ∧ (on fun d => { d with ctl := { d.ctl with tripped := true } }).dev.ctl.porstLow = false) := by decide

theorem test_witness_TapSelectsPublicInstructions :
    State.reset.dev.ctl.porstLow = false ∧ (∀ k, TapOp.bypass ≠ .debug k) ∧ low.dev.ctl.porstLow = true := by decide

/-- The TU's tests have passed; medium 0 names one container of TYPE 0x01. -/
def readMedium : State := on fun d => { d with boot := { d.boot with
  kat := some true, dirs := [(0, some (some [{ ty := 1, offset := 0x1000, length := 0x2000 }]))] } }

theorem test_witness_BootRomStepsRun :
    (MgcAwake State.reset ∧ State.reset.dev.boot.kat = none)
    ∧ (Awake readMedium ∧ readMedium.dev.boot.kat = some true ∧ (1 : Fin 2).val ∈ mediaOrder readMedium.dev.boot.mode ∧ dirOf readMedium.dev.boot 1 = none)
    ∧ (readMedium.dev.boot.recovery = false ∧ readMedium.dev.boot.mgc = false ∧ readMedium.dev.boot.passed2 = false
      ∧ (candidates readMedium.dev.boot (bootType readMedium.dev.boot))[0]? = some (0, 0, { ty := 1, offset := 0x1000, length := 0x2000 }))
    ∧ (let s := on fun d => { d with boot := { d.boot with kat := some true, recovery := true } }
       Awake s ∧ s.dev.boot.kat = some true ∧ s.dev.boot.recovery = true ∧ s.dev.boot.mgc = false ∧ s.dev.boot.passed2 = false) := by decide

theorem test_witness_BootChainRuns :
    let s1 := on fun d => { d with boot := { d.boot with passed2 := true } }
    let s2 := on fun d => { d with boot := { d.boot with mgc := true, training := some true } }
    let s3 := on fun d => setStage { d with boot := { d.boot with restored := true } } 4
    (Awake State.reset ∧ State.reset.dev.boot.training = none)
    ∧ (MgcAwake s1 ∧ s1.dev.boot.passed2 = true ∧ s1.dev.boot.mgc = false)
    ∧ (Awake s2 ∧ s2.dev.boot.mgc = true ∧ s2.dev.boot.ac0 = false ∧ s2.dev.boot.training.isSome = true)
    ∧ (MgcAwake s2 ∧ s2.dev.boot.restored = false ∧ s2.dev.store0.valid = false ∧ s2.dev.store1.valid = false)
    ∧ (Awake s3 ∧ s3.dev.boot.restored = true ∧ bootStage s3.dev = 4 ∧ s3.dev.boot.tested = false) := by decide

/-- The self-test runs. -/
def testing : State := on fun d => { d with boot := { d.boot with testing := true } }

theorem test_witness_SelfTestDecidesReadyOrFailed : Awake testing ∧ testing.dev.boot.testing = true ∧ testing.dev.boot.tested = false := by decide

theorem test_witness_StartUpMapDisables : Awake testing ∧ ∃ t, exec (.selfTestComplete 3#64 1#16) testing = .next t := ⟨by decide, _, rfl⟩

theorem test_witness_TuCommandsStart :
    let s := on fun d => { d with tu := { d.tu with op := some (1, 0) } }
    (Awake State.reset ∧ State.reset.dev.tu.op = none) ∧ (Awake s ∧ s.dev.tu.op.isSome = true) := by decide

theorem test_witness_TuOperationsEnd :
    let s (op : Nat) := on fun d => { d with tu := { d.tu with op := some (op, 0) } }
    let s3 := on fun d => setStage { d with tu := { d.tu with op := some (4, 0) } } 3
    let s1 := on fun d => { d with tu := { d.tu with op := some (1, 0), loaderTried := true } }
    (MgcAwake (s 1) ∧ (s 1).dev.tu.op = some (1, 0) ∧ (s 1).dev.tu.loaderTried = false ∧ bootStage (s 1).dev < 4)
    ∧ s1.dev.tu.loaderTried = true ∧ bootStage (s 4).dev ≠ 3 ∧ bootStage s3.dev = 3
    ∧ (tuRead (on fun d => { d with tu := { d.tu with op := some (3, sbBase) } }).dev sbBase 72).2.2 = false ∧ (s 3).dev.tu.meas.length < 12 := by decide

/-! ### Reports, tokens, the object dictionary and functions -/

theorem test_witness_FuseProgrammingCompletes :
    let s := on fun d => { d with tu := { d.tu with fuse := some (.revoke 1) } }
    (MgcAwake s ∧ s.dev.tu.fuse = some (.revoke 1)) ∧ (MgcAwake advancing ∧ advancing.dev.tu.fuse = some (.advance 2)) := by decide

theorem test_witness_CutProgrammingEndsBetween : rollbackCount advancing.otp ≤ 2 ∧ (2 : Nat) ≤ 64 ∧ rollbackCount advancing.otp ≤ 64 := by decide

theorem test_witness_ReportIsSigned : MgcAwake State.reset ∧ cnt (setCnt State.reset.dev 0x6021 2 1) 0x6021 2 = 1 ∧ cnt State.reset.dev 0x6021 2 ≠ 1 := by decide

theorem test_witness_DebugTokensAreTested :
    let s := on fun d => { d with tu := { d.tu with tokens := [[]] } }
    MgcAwake s ∧ s.dev.tu.tokens = [] :: [] ∧ cnt s.dev 0x6030 3 ≠ 2 ∧ cnt (setCnt s.dev 0x6030 3 2) 0x6030 3 = 2 := by decide

theorem test_witness_MailboxPostQueues :
    MgcAwake State.reset ∧ mbState (mboxHeader State.reset.dev 0) ≠ 2
    ∧ mbState (mboxHeader { State.reset.dev with mgc := { mbox := [(0, 2#8)] } } 0) = 2 := by decide

/-- The MGC has joined the CAN FD bus as node 5. -/
def onBus : State := on fun d => setCnt { d with mgc := { d.mgc with joined := true } } 0x1300 3 5

theorem test_witness_CanRequestsQueue :
    let s := on fun d => { (setCnt d 0x1300 3 5) with mgc := { joined := true, odq := List.replicate 64 (.can []) } }
    (MgcAwake onBus ∧ onBus.dev.mgc.joined = true ∧ nodeId onBus.dev ≠ 0 ∧ canFifo onBus.dev < 64)
    ∧ (s.dev.mgc.joined = true ∧ nodeId s.dev ≠ 0 ∧ 64 ≤ canFifo s.dev ∧ 5 ≤ [1#8, 0#8, 0#8, 0x10#8, 1#8].length ∧ busOff s.dev = false)
    ∧ (State.reset.dev.mgc.joined = false ∨ nodeId State.reset.dev = 0) := by decide

/-- A CAN FD request of this operation, entry and value. -/
def asks (op i sub : Nat) (v : List Byte) : OdReq := .can (leBytes 1 op ++ [0#8] ++ leBytes 2 i ++ leBytes 1 sub ++ [0#8] ++ leBytes 2 v.length ++ v)
/-- A request at the front of the MGC's queue. -/
def asked (r : OdReq) : State := on fun d => { d with mgc := { d.mgc with odq := [r] } }

theorem test_witness_FrontRequestIsServed :
    let k (op i sub v : Nat) := reqKind State.reset.dev (asks op i sub (leBytes 1 v))
    MgcAwake (asked (asks 1 0x1000 7 [])) ∧ (asked (asks 1 0x1000 7 [])).dev.mgc.odq = asks 1 0x1000 7 [] :: []
    ∧ isRead true (k 1 0x1000 7 0) = true ∧ (k 2 0x1100 2 0).1 = 2 ∧ (k 3 0x1000 0 0).1 = 3 ∧ overCan (asks 4 0 0 []) = true
    ∧ (k 4 0 0 0).1 = 4 ∧ (k 5 0 0 0).1 = 5 ∧ (k 6 0 0 0).1 = 6
    ∧ isRequested 2 (k 2 0x1106 2 2) = true ∧ isRequested 0 (k 2 0x1106 2 0) = true
    ∧ isWrite 0x1400 1 (k 2 0x1400 1 1) = true ∧ (k 2 0x1400 1 1).2.2.2 = 1 ∧ isWrite 0x1400 1 (k 2 0x1400 1 2) = true ∧ (k 2 0x1400 1 2).2.2.2 = 2
    ∧ isWrite 0x6001 3 (k 2 0x6001 3 0) = true ∧ isWrite 0x6001 4 (k 2 0x6001 4 0) = true ∧ isWrite 0x6001 5 (k 2 0x6001 5 1) = true
    ∧ isWrite 0x6021 1 (k 2 0x6021 1 0) = true ∧ isWrite 0x6030 2 (k 2 0x6030 2 0) = true := by decide

/-- The device has reached Ready. -/
def ready : Dev := setCnt State.reset.dev 0x1010 1 1
/-- One key slot programmed for boot images, and another. -/
def twoSlots : Otp := { slots := [(0, { edHash := [1#8], use := 1#3 }), (1, { edHash := [2#8], use := 1#3 })] }

theorem test_witness_CheckedWritesTakeEffect :
    (checkAbort ready false 0x1100 2 1 = none ∧ leNat [2#8] = 2 ∧ actual ready 0 = 0 ∧ deviceState ready ≠ 3 ∧ startFault ready 0 = none)
    ∧ (checkAbort ready false 0x1105 2 1 = none ∧ actual ready 5 = 0 ∧ (startFault (setSetting ready 0x4800 1 1) 5).isSome = true)
    ∧ (checkAbort ready false 0x1121 2 1 = none ∧ leNat [0#8] = 0 ∧ actual (setCnt ready 0x1121 3 2) 0x21 = 2 ∧ actual (setCnt ready 0x1121 3 4) 0x21 = 4)
    ∧ (checkAbort ready false 0x1400 1 1 = none ∧ leNat [1#8] = 1)
    ∧ (checkAbort ready false 0x6001 3 1 = none ∧ revokeBad twoSlots ready 0 = false ∧ revokeBad twoSlots ready 4 = true)
    ∧ (checkAbort ready false 0x6001 4 1 = none ∧ advanceBad {} ready 64 = false)
    ∧ checkAbort ready false 0x6001 5 1 = none ∧ checkAbort ready false 0x6021 1 32 = none
    ∧ (checkAbort ready false 0x6030 2 5485 = none ∧ cnt ready 0x6030 3 ≠ 2) := by decide +kernel

theorem test_witness_RefusedWritesChangeNothing :
    (odRow 0x1FFF 1 = none ∧ topSub 0x1FFF = none)
    ∧ ((odRow 0x6001 3).isSome = true ∧ (odRow 0x6001 3).map (·.acc) = some .wo)
    ∧ ((odRow 0x1000 1).map (·.acc) = some .const ∧ (odRow 0x1010 1).map (·.acc) = some .ro)
    ∧ ((odRow 0x3000 1).map (·.acc) = some .rws ∧ actual (setCnt ready 0x1101 3 2) (odOwner 0x3000) ≠ 0)
    ∧ ((odRow 0x1200 1).map (·.acc) = some .rw ∧ (odRow 0x1200 1).map (fun r => odSize r.ty) = some 1 ∧ [0#8, 0#8].length ≠ 1)
    ∧ ((odRow 0x1300 1).map (fun r => (r.acc, odSize r.ty, odInRange r 0xFF)) = some (.rw, 1, false) ∧ entryBusy ready 0x1300 1 = false) := by decide +kernel

theorem test_witness_ReadGivesTheWrittenValue :
    (odRow 0x1200 1).map (fun r => (r.acc, odSize r.ty)) = some (.rw, 1) ∧ liveNum {} ready 0x1200 1 = none ∧ deviceState ready ≠ 0 := by decide +kernel

theorem test_witness_CanReadAnswers :
    let d := { onBus.dev with od := { ready.od with cnts := (setCnt ready 0x1300 3 5).od.cnts } }
    odRead {} d 0x1010 1 = .ok [1#8] ∧ d.mgc.joined = true ∧ nodeId d ≠ 0 ∧ busOff d = false ∧ [1#8].length ≤ 56
    ∧ (56 < (List.replicate 57 0#8).length) ∧ d.mgc.seg = none ∧ ({ d.mgc with seg := some {} } : Mgc).seg.isSome = true := by decide +kernel

theorem test_witness_ReadSegmentsGiveTheValue : (List.replicate 116 1#8).length ≤ 56 + 60 * 1 := by decide

theorem test_witness_TimedSendsRun :
    let s := { onBus with dev := { onBus.dev with mgc := { onBus.dev.mgc with seg := some {}, canEvq := [⟨0x0110, 0, none, 0, 0⟩] } } }
    MgcAwake s ∧ s.dev.mgc.seg = some {} ∧ s.dev.mgc.joined = true ∧ nodeId s.dev ≠ 0 ∧ busOff s.dev = false ∧ s.dev.mgc.canEvq = ⟨0x0110, 0, none, 0, 0⟩ :: []
    ∧ s.dev.mgc.evSent < setting s.dev 0x1200 2 ∧ setting s.dev 0x1200 2 ≤ ({ s.dev.mgc with evSent := 255 } : Mgc).evSent := by decide +kernel

theorem test_witness_FunctionTransitions :
    let s (v : Nat) := on fun d => setActual d 3 v
    Awake (s 1) ∧ actual (s 1).dev 3 = 1 ∧ (actual (s 3).dev 3 = 3 ∧ mayStop (s 3).dev 3 = true) ∧ actual (s 2).dev 3 = 2 ∧ actual (s 0).dev 3 = 0
    ∧ (3 < 5 ∨ (3 : Nat) = 0x21) := by decide

theorem test_witness_RequestsMoveOneFunction : actual ready 0 ≤ 4 ∧ actual ready 33 ≤ 4 := by decide

theorem test_witness_StoreCompletes :
    let s (x) := on fun d => { d with mgc := { d.mgc with storing := x } }
    MgcAwake (s none) ∧ (s (some (some []))).dev.mgc.storing = some (some []) ∧ (s (some none)).dev.mgc.storing = some none ∧ (s none).dev.mgc.storing = none := by decide

theorem test_witness_CanStopOverCanIsRefused :
    leNat [0#8] = 0 ∧ checkAbort ready true 0x1120 2 1 = none ∧ checkAbort ready false 0x1120 2 1 = none ∧ actual (setCnt ready 0x1120 3 2) 0x20 = 2 := by decide +kernel

/-! ### The command processor and the instructions -/

/-- One region opens DRAM and SB to every agent; 1 MiB of DRAM. -/
def mapped : Dev := setCnt { State.reset.dev with dmc := { everEnabled := true, regions := [(0, BitVec.ofNat 256 (1 + 0xFFFF * 2 ^ 144 + 0x1000800 * 2 ^ 228))] } } 0x2400 1 0x100000
/-- Work context 5 with a completion ring of 16 in the SB, ring 0 of 16 records, and the changes of `f`. -/
def wc5 (f : Wc → Wc) : State := on fun _ => updWc mapped 5 fun _ =>
  f { cached := true, state := 1#4, ro := BitVec.ofNat 2048 (pack [(32, 8, 1), (275, 5, 4), (280, 40, 0x1000000000), (531, 5, 4)]) }

theorem test_witness_CpTakes : CpTakes (wc5 id).dev 5 := ⟨rfl, by decide +kernel, by decide +kernel⟩

/-- Work context 5 Disabled, with these bytes of its entry in DRAM. -/
def disabledWith (bs : List (Nat × Byte)) : State :=
  { wc5 (fun c => { c with state := 0#4 }) with dev := { (wc5 fun c => { c with state := 0#4 }).dev with mem := { ram := bs } } }
/-- The device with the ENABLE in the queue and the entry read again. -/
def filled (bs : List (Nat × Byte)) : Dev × Bool :=
  let s := disabledWith bs
  ensureCached (updWc { s.dev with cp := { s.dev.cp with cmds := [cmdWord 1 5 0] } } 5 fun c => { c with cached := false }) 5

theorem test_witness_EnableWorkContext :
    CpTakes (disabledWith []).dev 5 ∧ CpTakes (disabledWith [(1314, 0x20#8)]).dev 5
    ∧ ((filled []).2 = true ∧ (wcOf (filled []).1 5).state = 0#4 ∧ entryFault (wcOf (filled []).1 5) = some 275)
    ∧ ((filled [(1314, 0x20#8)]).2 = true ∧ (wcOf (filled [(1314, 0x20#8)]).1 5).state = 0#4 ∧ entryFault (wcOf (filled [(1314, 0x20#8)]).1 5) = none)
    ∧ (wcOf (wc5 id).dev 5).state ≠ 0#4 := ⟨⟨rfl, by decide +kernel, by decide +kernel⟩, ⟨rfl, by decide +kernel, by decide +kernel⟩, by decide +kernel⟩

/-- A record of ring 0 is in flight on core 0. -/
def inFlight (s : State) : State := { s with dev := updCore s.dev 0 fun c => { c with ops := [{ wc := 5 }] } }

theorem test_witness_WorkContextCommands :
    let p := wc5 fun c => { c with placement := 64#40, stages := [{}] }
    Awake (wc5 id) ∧ ((wcOf (wc5 id).dev 5).state = 1#4 ∧ (wcOf (wc5 id).dev 5).inflight = 0 ∧ (wcOf (wc5 id).dev 5).placement = 0#40
      ∧ (wcOf (wc5 id).dev 5).releasePending = false)
    ∧ ((wcOf p.dev 5).state = 1#4 ∧ (wcOf p.dev 5).placement ≠ 0#40 ∧ stageInflight p.dev 5 = false) ∧ stageInflight (inFlight p).dev 5 = true := by decide +kernel

theorem test_witness_WrongStateIsReported :
    (wcOf (disabledWith []).dev 5).state = 0#4 ∧ (wcOf (wc5 fun c => { c with inflight := 1 }).dev 5).inflight ≠ 0
    ∧ (wcOf (wc5 fun c => { c with placement := 64#40 }).dev 5).placement ≠ 0#40 ∧ (wcOf (wc5 fun c => { c with state := 3#4 }).dev 5).state = 3#4
    ∧ (wc5 id).dev.cp.cmds = [] := by decide +kernel

theorem test_witness_FullQueueDiscards :
    let s := on fun d => { d with cp := { d.cp with cmds := List.replicate 64 0#64 } }
    Awake s ∧ 64 ≤ s.dev.cp.cmds.length ∧ Instr.cancel 5 ∈ [Instr.enable 5, .disable 5, .cancel 5] := by decide +kernel

theorem test_witness_CompletionRecordIsWritten :
    let d := (wc5 id).dev
    let a := wComplBase (wcOf d 5) + (wcOf d 5).complTail.toNat % 2 ^ wComplLog2 (wcOf d 5) * 32
    areaOf d a = .sb 0 ∧ a % 32 = 0 ∧ agentMay d agCp true (a / 64 * 64) = true := by decide +kernel

theorem test_witness_DoorbellWrites :
    let d := (wc5 id).dev
    let far : Ring := { tail := 16#32, head := 0#32 }
    (wcOf d 5).cached = true ∧ wRingEnable (wcOf d 5) (40 % 8) = true ∧ ¬ wRingEnable (wcOf d 5) (41 % 8) = true
    ∧ ((15#32 - far.tail).toInt < 0) ∧ (0 ≤ (17#32 - far.tail).toInt ∧ 2 ^ wRingLog2 (wcOf d 5) 0 < (17#32 - far.head).toNat)
    ∧ (0 ≤ (16#32 - far.tail).toInt ∧ (16#32 - far.head).toNat ≤ 2 ^ wRingLog2 (wcOf d 5) 0) := by decide +kernel

theorem test_witness_DoorbellsTouchOneRing : ∃ t, exec (.doorbellWrite 40 3 true) (wc5 id) = .next t := ⟨_, rfl⟩

theorem test_witness_EventHeadWrites :
    let c : Cp := { evtTail := 3#24, evtHead := 1#24 }
    (3#24 - c.evtHead).toNat ≤ (c.evtTail - c.evtHead).toNat ∧ ¬(4#24 - c.evtHead).toNat ≤ (c.evtTail - c.evtHead).toNat ∧ 1#24 = c.evtHead := by decide +kernel

theorem test_witness_CpRegisterWrites :
    let d := (wc5 id).dev
    (State.reset.dev.cp.wcs.any fun e => e.2.state != 0#4) = false ∧ (d.cp.wcs.any fun e => e.2.state != 0#4) = true
    ∧ bit State.reset.dev.cp.evtCtrl 0 = false ∧ bit (1#64) 0 = true ∧ fld (1#64) 24 40 ≠ fld (0x1000001#64) 24 40
    ∧ (wcOf d 5).cached = true ∧ d.cp.cmds = [] ∧ (wcOf d 5).releasePending = false
    ∧ (1#32 - (wcOf d 5).complHead).toNat ≤ ((wcOf d 5).complTail - (wcOf d 5).complHead).toNat
    ∧ ¬(2#32 - (wcOf d 5).complHead).toNat ≤ ((wcOf d 5).complTail - (wcOf d 5).complHead).toNat := by decide +kernel

theorem test_witness_ContextCacheRuns :
    (wcOf State.reset.dev 5).cached = false ∧ cachedCount State.reset.dev < 3072 ∧ (wcOf (wc5 id).dev 5).cached = true
    ∧ (wcOf (wc5 fun c => { c with dirty := true }).dev 5).dirty = true ∧ (wcOf (wc5 id).dev 5).dirty = false ∧ (wc5 id).dev.cp.cmds = [] := by decide +kernel

/-- Ring 40 with one NOP ready, the compute pool Running. -/
def oneReady : State := on fun _ =>
  setRequested (setActual (updRing (wc5 id).dev 40 fun _ => { tail := 1#32, ready := [[(0x30#512, false)]] }) 0 2) 0 2

theorem test_witness_CpEngineRuns :
    let c (n) := on fun d => { d with cp := { d.cp with evtCtrl := BitVec.ofNat 64 (1 + 4 * 2 ^ 16), lostSince := n, port := [⟨0x0110, 0, none, 0, 0⟩] } }
    let st := setSetting (setSetting { updRing (updWc State.reset.dev 5 fun c => { c with ro := BitVec.ofNat 2048 (2 * 2 ^ 50) }) 40 (fun r => { r with tail := 1#32 }) with
      clk := { State.reset.dev.clk with ns := 10 ^ 9 } } 0x2600 2 1) 0x2600 1 100
    ((wcOf (wc5 id).dev 5).cached = true ∧ (wcOf (wc5 id).dev 5).state = 1#4 ∧ wRingEnable (wcOf (wc5 id).dev 5) 0 = true ∧ bit (wcOf (wc5 id).dev 5).halted 0 = false)
    ∧ (chosenRing oneReady.dev = some 40 ∧ (ringOf oneReady.dev 40).ready = [(0x30#512, false)] :: [] ∧ (ringOf oneReady.dev 40).refused = none)
    ∧ chosenRing State.reset.dev = none
    ∧ (2 ≤ wClass (wcOf st 5) ∧ (ringOf st 40).tail ≠ (ringOf st 40).head ∧ (ringOf st 40).starved = false ∧ setting st 0x2600 2 = 1
      ∧ setting st 0x2600 1 * 1000 < st.clk.ns - (ringOf st 40).since)
    ∧ (bit (c 1).dev.cp.evtCtrl 0 = true ∧ ((c 1).dev.cp.evtTail - (c 1).dev.cp.evtHead).toNat < 2 ^ fld (c 1).dev.cp.evtCtrl 16 5 ∧ (c 1).dev.cp.lostSince ≠ 0)
    ∧ ((c 0).dev.cp.lostSince = 0 ∧ (c 0).dev.cp.port = ⟨0x0110, 0, none, 0, 0⟩ :: []) := by decide +kernel

theorem test_witness_DispatchOrder : chosenRing oneReady.dev = some 40 ∧ 40 ∈ readyRings oneReady.dev := by decide +kernel

theorem test_witness_EventsAreKeptOrCounted :
    State.reset.dev.ctl.tripped = false ∧ State.reset.dev.cp.port.length < 64 ∧ 64 ≤ (List.replicate 64 (⟨0x0110, 0, none, 0, 0⟩ : EvtRec)).length := by decide +kernel

theorem test_witness_CancellationRuns :
    let s := wc5 fun c => { c with state := 2#4, cancel := some {} }
    (wcOf (wc5 id).dev 5).state ≠ 2#4 ∧ ((wcOf s.dev 5).state = 2#4 ∧ (0 : Fin 29).val < 16 ∧ 17 ≤ (24 : Fin 29).val ∧ (24 : Fin 29).val < 25 ∧ 25 ≤ (28 : Fin 29).val)
    ∧ ((wcOf s.dev 5).cancel = some {} ∧ (wcOf s.dev 5).inflight = 0 ∧ countsClear s.dev 5 = true ∧ s.dev.cp.cmds = [] ∧ ({} : Cancel).extra = 0
      ∧ 0 < freeSlots (wcOf s.dev 5)) ∧ (wcOf (wc5 id).dev 5).cancel = none := by decide +kernel

/-- Core 0 holds one record of work context 5. -/
def holding (v : Nat) (f : Op → Op := id) : State := on fun _ => updCore (wc5 id).dev 0 fun c => { c with ops := [f { wc := 5, word := BitVec.ofNat 512 v }] }
/-- The instruction at position i of core n is taken next, and issue reaches its own effect. -/
def issuesNow (d : Dev) (n i : Nat) (o : Op) : Bool :=
  !(coreOf d n).stopped && !(coreOf d n).disabled && decide (chosenOp (beforeIssue d n) n = some (i, o)) && !(issuedOp d n i o).poisoned
    && ((walksWindow o && decide (rGroup o.word = 0)) || !namesHollow (coreOf (issuedDev d n i o) n) (issuedOp d n i o))
/-- The record that core 0 holds issues. -/
def issuing (v : Nat) : Bool := issuesNow (holding v).dev 0 0 { wc := 5, word := BitVec.ofNat 512 v }

theorem issues_of_issuesNow {d : Dev} {n i : Nat} {o : Op} (h : issuesNow d n i o = true) : Issues d n i o := by
  simp only [issuesNow, Bool.and_eq_true, Bool.or_eq_true, Bool.not_eq_true', decide_eq_true_eq] at h
  exact { running := h.1.1.1.1, enabled := h.1.1.1.2, chosen := h.1.1.2, clean := h.1.2, whole := h.2 }

/-- A NOP, and a poisoned one. -/
theorem test_witness_SyncInstructionsRun : Awake (holding 0x30) ∧ issuing 0x30 = true
    ∧ issuing 0x20 = true ∧ issuing 0x21 = true ∧ issuing (0x21 + 2 ^ 119) = true ∧ issuing 0x22 = true ∧ issuing 0x23 = true ∧ issuing 0x24 = true
    ∧ issuing (0x24 + 2 ^ 121) = true ∧ rScope (BitVec.ofNat 512 (0x21 + 2 ^ 119)) = 1 ∧ rLsrc (BitVec.ofNat 512 (0x24 + 2 ^ 121)) = 1 := by decide +kernel

theorem test_witness_Issues : Issues (holding 0x30).dev 0 0 { wc := 5, word := 0x30#512 } := issues_of_issuesNow (by decide +kernel)

theorem test_witness_MatrixInstructionsRun :
    let live (v : Nat) := (holding v fun o => { o with issued := true }).dev
    let m : Dev := { mapped with mpe := { mapped.mpe with recs := [{ op := { wc := 5, word := 0x0A#512 } }] } }
    issuing 0x01 = true ∧ issuing 0x03 = true ∧ issuing (0x01 + 2 ^ 168) = true ∧ issuing (0x03 + 2 ^ 168) = true ∧ rGroup (BitVec.ofNat 512 (0x01 + 2 ^ 168)) ≠ 0
    ∧ (issuing 0x02 = true ∧ streamPending (holding 0x02).dev 0 = none) ∧ (issuing 0x08 = true ∧ cnvPending (holding 0x08).dev 0 0x08 = none)
    ∧ (issuing 0x09 = true ∧ cnvPending (holding 0x09).dev 0 0x09 = none)
    ∧ (streamPending (live 0x02) 0).isSome = true ∧ (cnvPending (live 0x08) 0 0x08).isSome = true ∧ (cnvPending (live 0x09) 0 0x09).isSome = true
    ∧ ((withPos m.mpe.recs).find? fun x => !x.2.op.issued) = some (0, { op := { wc := 5, word := 0x0A#512 } }) := by decide +kernel

theorem test_witness_IntegerProductIsExact :
    let x : Mat := { a := { format := 2 }, w := { format := 2 }, dk := 65535 }
    matFa x = .int8 ∧ matFw x = .int8 ∧ x.dk ≤ 65535 ∧ matFa { x with a := { format := 3 } } = .uint8 ∧ matFw { x with w := { format := 0 } } = .int4 := by decide +kernel

theorem test_witness_VectorInstructionsRun :
    issuing 0x10 = true ∧ issuing (0x10 + 0x30 * 2 ^ 84) = true ∧ rFunc (BitVec.ofNat 512 (0x10 + 0x30 * 2 ^ 84)) = 0x30
    ∧ issuing (0x10 + 0x31 * 2 ^ 84) = true ∧ issuing (0x11 + 0x60 * 2 ^ 84) = true ∧ issuing (0x11 + 0x63 * 2 ^ 84) = true ∧ issuing 0x12 = true
    ∧ rFunc (BitVec.ofNat 512 (0x10 + 0x50 * 2 ^ 84)) = 0x50 ∧ issuing (0x10 + 0x50 * 2 ^ 84) = true := by decide +kernel

/-- NaN operands and others for the clauses on a VEC's element: INT8 zeros, and one bad FP16 word. -/
theorem test_witness_VectorElementValues :
    let f (k : Nat) := rFunc (BitVec.ofNat 512 (0x10 + k * 2 ^ 84))
    let a : VSrc := { p := {}, t := { format := 2 }, ext := [1, 1, 1, 1] }
    let b : VSrc := { p := { space := 1 }, t := { format := 7 }, ext := [1, 1, 1, 1] }
    let nan : Dev := { State.reset.dev with mem := { ram := [(amBase 0, 0xFF#8), (amBase 0 + 1, 0x7F#8)] } }
    (∀ k ∈ [0x00, 0x01, 0x02, 0x03, 0x04, 0x05, 0x06, 0x10, 0x11, 0x12, 0x13, 0x50, 0x20], f k = k)
    ∧ vAt State.reset.dev a [0, 0, 0, 0] ≠ .nan ∧ vAt nan b [0, 0, 0, 0] = .nan := by decide +kernel

theorem test_witness_ReduceValues : ∀ v ∈ [Val.zero false, .num 3 1], v ≠ .nan := by decide

/-- Channel 0 set up with core 0 as producer and its window 0 as receiver. -/
def channelled (v : Nat) : Dev := setChan (holding v).dev 0 { rw := BitVec.ofNat 256 (2 ^ 162 + 2 ^ 31 + 2 ^ 28) }

theorem test_witness_MovementInstructionsRun :
    let x (k : Nat) := 0x1A + k * 2 ^ 92
    issuing 0x18 = true ∧ issuing 0x19 = true ∧ (∀ k ∈ [0, 1, 2, 3, 4], issuing (x k) = true ∧ rXop (BitVec.ofNat 512 (x k)) = k)
    ∧ producerOk (chan (channelled (x 0)) 0) 0 = true ∧ producerOk (chan (holding (x 0)).dev 0) 0 = false
    ∧ receiverOk (chan (channelled (x 1)) 0) 0 0 = true ∧ receiverOk (chan (holding (x 1)).dev 0) 0 0 = false
    ∧ (win (coreOf (updCore (channelled (x 2)) 0 fun c => setWin c 0 { state := 1, writer := 0x2000#16 }) 0) 0).writer = BitVec.ofNat 16 (0x2000 + 0)
    ∧ (win (coreOf (updCore (holding (x 2)).dev 0 fun c => setWin c 0 { state := 1, writer := 0x1000#16 }) 0) 0).writer.toNat / 4096 ≠ 2
    ∧ (win (coreOf (holding (x 2)).dev 0) 0).state = 0 := by decide +kernel

theorem test_witness_IssueKeepsOrder : chosenOp (holding 0x30).dev 0 = some (0, { wc := 5, word := 0x30#512 }) := by decide +kernel

/-- A scoreboard conflict to exclude: an issued instruction beside the one that issues. -/
theorem test_witness_ScoreboardKeepsApart :
    let d := (holding 0x30 id).dev
    let d := updCore d 0 fun c => { c with ops := { wc := 6, word := 0x30#512, issued := true } :: c.ops }
    chosenOp d 0 = some (1, { wc := 5, word := 0x30#512 }) ∧ (coreOf d 0).ops[0]? = some { wc := 6, word := 0x30#512, issued := true } := by decide +kernel

theorem test_witness_WaitsAreKept : chosenOp (holding 0x23).dev 0 = some (0, { wc := 5, word := 0x23#512 }) ∧ chosenOp (holding 0x22).dev 0 = some (0, { wc := 5, word := 0x22#512 }) := by decide +kernel

/-- The record that core 0 holds is taken, and its word in the descriptor store is poisoned. -/
def takenPoisoned (v : Nat) : Bool :=
  let d : Dev := { (holding v).dev with mem := { poison := [dsBase 0 / 32] } }
  let o : Op := { wc := 5, word := BitVec.ofNat 512 v }
  !(coreOf d 0).stopped && !(coreOf d 0).disabled && decide (chosenOp (beforeIssue d 0) 0 = some (0, o)) && (issuedOp d 0 0 o).poisoned

theorem test_witness_PoisonedCommandIssuesNothing :
    ([0x01, 0x03, 0x12, 0x18, 0x19, 0x20, 0x22, 0x23, 0x24, 0x30, 0x10, 0x11, 0x1A, 0x21].all takenPoisoned) = true
    ∧ (takenPoisoned 0x02 = true ∧ streamPending (holding 0x02).dev 0 = none) ∧ (takenPoisoned 0x08 = true ∧ cnvPending (holding 0x08).dev 0 0x08 = none)
    ∧ (takenPoisoned 0x09 = true ∧ cnvPending (holding 0x09).dev 0 0x09 = none) := by decide +kernel

theorem test_witness_InstructionsRetire :
    let c (o : Op) := coreOf (holding 0x30 fun _ => o).dev 0
    let o : Op := { wc := 5, word := 0x30#512, issued := true, done := true }
    ((c o).ops[0]? = some o ∧ (c o).disabled = false ∧ mayRetire (c o) o = true) ∧ mayRetire (c { o with done := false }) { o with done := false } = false
    ∧ (c o).fe.any (xferOf o) = false := by decide +kernel

theorem test_witness_RoundingIsNearestAway : (0 : Int) < 1 ∧ 2 * (roundAway 5 0 1 * 2 ^ (1 - 0 : Int).toNat - 5).natAbs = 2 ^ (1 - 0 : Int).toNat := by decide

theorem test_witness_NarrowingSaturates : fmtIsInt .uint8 = true ∧ (255 : Nat) < 256 ∧ (narrow .uint8 255 0 (.num 0 0)).clipped = false ∧ (narrow .int8 0 0 (.num 200 0)).clipped = true := by decide

theorem test_witness_ZeroSigns : Val.num (-3) 0 ≠ .nan ∧ ∀ c, Val.num (-3) 0 ≠ .inf c := by decide

theorem test_witness_GeneratedExponentIsSmallest : (-128 : Int) ≤ 0 ∧ 0 < genExp .int8 0 [.num 255 0] ∧ genExp .int8 0 [.num 255 0] < 127 := by decide +kernel

theorem test_witness_PmAddsSaturate :
    let e : PmEntry := { bits := 0x7FFFFFFF#32 }
    let f : PmEntry := { bits := 0x80000000#32 }
    (e.bits.toInt + 0 ≤ 2147483647 ∧ -2147483648 ≤ e.bits.toInt + 0) ∧ 2147483647 < e.bits.toInt + 1 ∧ f.bits.toInt + (-1) < -2147483648 := by decide

/-! ### The matrix array, core memories, windows and channels -/

/-- The reset device with array 0 of core 0 changed. -/
def arrayed (f : Arr → Arr) : State := on fun d => updArr d 0 0 f

/-- Every array of core 0 meets what an issue cycle with no new entries asks of it. -/
def steady (s : State) : Bool := (List.range 4).all fun k =>
  let a := arr (coreOf s.dev 0) k
  a.cause == 0 && a.changing == 0#4 && decide (a.dutyPos < 16) && (a.ramp == 0 || a.ramp == 4)

theorem test_witness_ArrayIssues :
    let c (x : Arr) := coreOf (arrayed fun _ => x).dev 0
    let full : Tile := { loaded := 32 }
    let runs (x : Arr) : Bool := steady (arrayed fun _ => x) && x.ramp == 0 && x.beats == 0 && mayIssue (c x) 0
    Awake State.reset ∧ (coreOf State.reset.dev 0).disabled = false ∧ (coreOf State.reset.dev 0).stopped = false
    ∧ (on fun d => updCore d 0 fun c => { c with stopped := true }).dev.ctl.held = false
    ∧ steady State.reset = true ∧ (arr (coreOf State.reset.dev 0) 0).feeder = [] ∧ dutyLets {} 1 = true ∧ dutyLets { duty := 4, dutyUsed := 4 } 1 = false
    ∧ steady (arrayed fun _ => { feeder := [{}], beats := 2 }) = true
    ∧ runs { feeder := [{}] } = true ∧ runs { feeder := [{ mark := 1 }], shadow := full } = true ∧ runs { feeder := [{ mark := 3 }] } = true
    ∧ (runs { feeder := [{ mark := 2 }], passes := 1, openPasses := [{}] } = true
      ∧ ([({} : PassRec)].find? fun q => q.id + 1 == 1) = some {})
    ∧ (mayIssue (c { feeder := [{ mark := 1 }] }) 0 = false ∧ steady (arrayed fun _ => { feeder := [{ mark := 1 }] }) = true)
    ∧ steady (arrayed fun _ => { feeder := [{ valid := false }] }) = true
    ∧ (steady (arrayed fun _ => { feeder := [{}], ramp := 4 }) = true ∧ allReady (c { feeder := [{}], ramp := 4 }) (mates (c { feeder := [{}], ramp := 4 }) 0) = true) := by decide +kernel

theorem test_witness_ArrayStepsAdvance :
    let a (f : Arr → Arr) := arr (coreOf (arrayed f).dev 0) 0
    let c := a fun x => { x with swapAt := some 0, changing := 1#4, cycle := 1 }
    let late := a fun x => { x with swapAt := some 0, changing := 15#4, cycle := 1 }
    let core := coreOf State.reset.dev 0
    (c.swapAt = some 0 ∧ bit c.changing (0 : Fin 4) = true ∧ 0 + 1 + (0 : Fin 4).val ≤ c.cycle)
    ∧ (late.swapAt = some 0 ∧ late.cycle < 0 + 1 + (1 : Fin 4).val ∧ (0 : Nat) < (1 : Fin 4).val ∧ bit late.changing 0 = true) ∧ (a id).swapAt = none
    ∧ ((0 ∈ arraysOn core ∧ bit (1#4) 0 = true ∧ mayLoad (changeDue (arr core 0)) { k := 1 } = false) ∧ ∀ b ∈ arraysOn core, bit (0#4) b = false)
    ∧ (core.stopped = false ∧ core.disabled = false ∧ (a id).cause = 0 ∧ bit (1#4) (0 : Fin 4) = true ∧ State.reset.dev.mem.latent = []
      ∧ (∀ b ∈ arraysOn core, bit (1#4) b = true → mayLoad (changeDue (arr core b)) {} = true) ∧ ∀ b ∈ arraysOn core, bit (1#4) b = true → mayLoad (changeDue (arr core b)) { block := true } = true)
    ∧ (0 < (a fun x => { x with gap := 10 ^ 9 }).gap ∧ setting State.reset.dev 0x2200 2 ≤ 10 ^ 9) ∧ setting State.reset.dev 0x2200 3 / 4 ≤ 10 ^ 9 ∧ setting State.reset.dev 0x2200 4 / 4 ≤ 10 ^ 9
    ∧ (a id).dutyPos = 0 ∧ (a fun x => { x with dutyPos := 3 }).dutyPos ≠ 0 ∧ core.dutyLimit = (a id).duty ∧ core.dutyLimit < (a fun x => { x with duty := 17 }).duty
    ∧ (a fun x => { x with duty := 3 }).duty < core.dutyLimit := by decide +kernel

/-- A beat in flight: ordinary, piccolo, and of the checksum kind, with its check due and failed. -/
theorem test_witness_RowsLandInPm :
    let p (m w : Nat) : PipeRow := { row := { mark := m }, outs := [List.replicate w 1], chk := [[0]] }
    let bad (m w : Nat) : PipeRow := { p m w with due := true, landed := 0 }
    let s (x : PipeRow) := arrayed fun a => { a with pipe := [x], cycle := 6, openPasses := [{}] }
    (∀ x ∈ [p 0 32, p 3 128, p 2 32], Awake (s x) ∧ (arr (coreOf (s x).dev 0) 0).pipe = [x] ∧ x.taken + x.landed + 6 ≤ (arr (coreOf (s x).dev 0) 0).cycle
      ∧ (disturb x none).outs.length ≤ (disturb x none).landed ∧ x.due = false)
    ∧ (∀ x ∈ [bad 0 32, bad 3 128], rowGood (disturb x none) = false)
    ∧ (let q := { bad 2 32 with chk := [[5]] }
       ((arr (coreOf (s q).dev 0) 0).openPasses.find? (fun y => y.id == q.pass)).bind (badColumn (disturb q none)) = some 0)
    ∧ (arr (coreOf (arrayed fun a => { a with pipe := [p 0 32], cycle := 5 }).dev 0) 0).cycle < (p 0 32).taken + (p 0 32).landed + 6 := by decide +kernel

theorem test_witness_MismatchRetriesThenRetires :
    let d := State.reset.dev
    let u : UnitTag := { tile := 4 }
    let e := updCore d 0 fun c => { c with retry := [u] }
    let f := updArr (updArr e 0 1 fun a => { a with cause := 2 }) 0 2 fun a => { a with cause := 2 }
    u ∉ (coreOf d 0).retry ∧ u ∈ (coreOf e 0).retry ∧ (coreOf e 0).disabled = false
    ∧ 3 ≤ ((List.range 4).filter fun b => b != 0 && (arr (coreOf e 0) b).cause == 0).length
    ∧ ((List.range 4).filter fun b => b != 0 && (arr (coreOf f 0) b).cause == 0).length < 3 := by decide +kernel

/-- A record whose descriptor 0 stands for every operand: e × 1 INT8. -/
def wide (v e : Nat) : Op := { wc := 5, word := BitVec.ofNat 512 v, issued := true, descs := [(0, 0, BitVec.ofNat 512 (pack [(60, 4, 2), (64, 32, e), (96, 32, 1), (128, 32, 1), (160, 32, 1)]))] }
/-- Core 0 holds these records. -/
def core0 (l : List Op) (f : Core → Core := id) : State := on fun _ => updCore (wc5 id).dev 0 fun c => f { c with ops := l }
/-- The tile 0 of a record of core 0 has its first PM row complete; with `three`, on three arrays. -/
def filledRow (three : Bool) (c : Core) : Core :=
  let c := if three then { c with arrays := sset (fun _ => {}) c.arrays 3 { cause := 1 } } else c
  { c with pmRows := [(0, { unit := some { wc := 5 }, done := true })] }

/-- One part of 32 columns, and, refolded on three arrays, two. -/
theorem test_witness_RegionsReleaseAndDrain :
    let m32 := wide 1 32
    let m64 := wide (1 + 2 ^ 90) 64
    let dw : Op := { wide (8 + 2 * 2 ^ 290) 2 with wc := 6 }
    let held : Op := { m64 with ctr := some (3, 7#16), tiles := [0] }
    let may (o : Op) (t : Bool) : Bool :=
      let s := core0 [o] (filledRow t)
      let c := coreOf s.dev 0
      match unitParts s.dev 0 o 0 with
      | p :: _ => isMatrix o && c.released.isEmpty && unitQuiet c (unitOf o 0) && regionFull s.dev 0 o (unitOf o 0) (pmRowsIn (regionRows s.dev 0 o 0 p)) && summed c o (regionRows s.dev 0 o 0 p)
          && unitPasses s.dev 0 o 0 != 0
      | [] => false
    (coreOf State.reset.dev 0).ops[0]? = none ∧ unitParts (core0 [dw]).dev 0 dw 0 = []
    ∧ (may m32 false = true ∧ (unitParts (core0 [m32] (filledRow false)).dev 0 m32 0).length = 1)
    ∧ (regionFull (core0 [m32]).dev 0 m32 (unitOf m32 0) [0] = false)
    ∧ (may held true = true ∧ may m64 true = true ∧ (unitParts (core0 [m64] (filledRow true)).dev 0 m64 0).length = 2)
    ∧ vuFree (coreOf (core0 [m64]).dev 0) m64 = true ∧ vuFree (coreOf (core0 [m64, dw]).dev 0) m64 = false := by decide +kernel

theorem test_witness_RegionsDrain :
    let o := wide 1 32
    let l : Op := { o with lists := [(0, 0, [5])] }
    let r : Release := { unit := unitOf o 0, rows := [0], keys := [0] }
    let s (o : Op) := core0 [o] fun c => { filledRow false c with released := [r] }
    let c := coreOf (s o).dev 0
    let rows (o : Op) := (unitParts (s o).dev 0 o 0).flatMap fun p => regionRows (s o).dev 0 o 0 p
    (c.released.find? fun r => r.unit == unitOf o 0 && r.rows.contains 0) = some r ∧ ((rows o).find? fun r => r.m == 0).isSome = true
    ∧ ((rows o).find? fun r => r.m == 9) = none ∧ vuFree c o = true ∧ wCheckMode (wcOf (s o).dev 5) = 0 ∧ (s o).dev.mem.latent = []
    ∧ drainOk c (unitFloat o) 0 (drainEntries c none 0) = true ∧ drainOk c (unitFloat o) 0 (drainEntries c (some { bits := 1#32 }) 0) = false
    ∧ (rows l).filter (fun r => r.m == 0) ≠ [] ∧ (opList l (rDescA l.word)).isEmpty = false ∧ isMatrix l = true
    ∧ (satSlot (coreOf State.reset.dev 0) 0).narrowed < 2 ^ setting State.reset.dev 0x2220 2
    ∧ 2 ^ setting State.reset.dev 0x2220 2 ≤ (satSlot (coreOf (updCore State.reset.dev 0 fun c => setSat c 0 { narrowed := 2 ^ 30 }) 0) 0).narrowed := by decide +kernel

theorem test_witness_TilesAreSharedOut :
    let o : Op := { wide 1 32 with ctr := some (3, 7#16) }
    let d (f : Op → Op) (c : TileCtr) : Dev := setCtr (core0 [f o]).dev 3 c
    let put (f : Op → Op) (r : List Release) : Dev := updCore (d f {}) 0 fun c => { c with released := r }
    let has (f : Op → Op) (c : Core) : Bool := findIdxElem (fun o => o.issued && !o.done && !o.cancelled && o.ctr.isSome && vuFree c o
      && (match o.tiles with | t :: _ => !c.retry.contains (unitOf o t) | [] => false)) c.ops 0 == some (0, f o)
    let next (f : Op → Op) : Bool :=
      let s := d f {}
      drawingOp (coreOf s 0) (fun o => o.reply.isSome && (match o.reply with | some (.grant t) => tileReady s 0 o t | _ => true)) == some (0, f o)
    let g : Op := { o with reply := some (.grant 0) }
    let cv : Op := { wide 8 32 with ctr := some (3, 7#16), incomplete := true, reply := some (.grant 0) }
    (∀ c ∈ [({ gen := 7#16, state := 1, total := 2 } : TileCtr), { gen := 7#16, state := 1, total := 0 }, { gen := 6#16, state := 1 }, { gen := 7#16, state := 3 }],
      drawingOp (coreOf (d id c) 0) (fun x => x.reply.isNone && (coreOf (d id c) 0).retry.isEmpty && decide (x.tiles.length < tileRoom x)) = some (0, o) ∧ ctrOf (d id c) 3 = c)
    ∧ (∀ r ∈ [TileReply.grant 0, .exhausted, .stale], next (fun o => { o with reply := some r }) = true) ∧ tileHollow (d (fun _ => g) {}) 0 g 0 = false
    ∧ next (fun _ => cv) = true ∧ tileHollow (d (fun _ => cv) {}) 0 cv 0 = true
    ∧ (∀ r ∈ [[], [{ unit := unitOf o 4 }]], has (fun o => { o with tiles := [4] }) (coreOf (put (fun o => { o with tiles := [4] }) r) 0) = true)
    ∧ (testAndSet (d id {}) 3 4).2 = false ∧ (testAndSet (testAndSet (d id {}) 3 4).1 3 4).2 = true := by decide +kernel

theorem test_witness_CoreMemoryReadsCorrect :
    let q (l : List Nat) := on fun d => updCore d 0 fun c => { c with scrub := sset (fun _ => []) c.scrub 0 l }
    ∀ l ∈ [[], [1, 2, 3, 4]], Awake (q l) ∧ (0 : Nat) < memWords 0 ∧ sget (fun _ => []) (coreOf (q l).dev 0).scrub 0 = l
      ∧ sget (fun _ => 0) (q l).dev.mem.latent (latentKey 0 0 0) = 0 := by decide +kernel

theorem test_witness_ScrubberRepairs :
    let s := on fun d => updCore d 0 fun c => { c with scrub := sset (fun _ => []) c.scrub 0 [1] }
    sget (fun _ => []) (coreOf s.dev 0).scrub 0 = 1 :: [] ∧ setting State.reset.dev 0x2240 1 = 1 ∧ setting (setSetting State.reset.dev 0x2240 1 0) 0x2240 1 ≠ 1 := by decide +kernel

theorem test_witness_NarrowWritesGather :
    let g : Gather := { word := 0, mask := 2 ^ 32 - 1, bytes := List.replicate 32 1#8 }
    let s := on fun d => updCore d 0 fun c => { c with gatherAm := [g] }
    let w := on fun d => updCore d 0 fun c => setWin c 0 { state := 1 }
    let four := coreOf (on fun d => updCore d 0 fun c => { c with gatherAm := [1, 2, 3, 4].map fun k => { g with word := k } }).dev 0
    Awake (holding 1) ∧ (coreOf (holding 1).dev 0).ops[0]?.isSome = true ∧ gatherOf (coreOf (holding 1).dev 0) false 0 = none
    ∧ (gatherBuf (coreOf (holding 1).dev 0) false).length < 4 ∧ (gatherBuf (coreOf s.dev 0) false)[0]? = some g ∧ g.mask = 2 ^ 32 - 1 ∧ g.bytes.length = 32
    ∧ windowAt (coreOf s.dev 0) false 0 = none ∧ gatherOf (coreOf s.dev 0) false 0 = some g ∧ windowAt (coreOf w.dev 0) false 0 = some 0
    ∧ gatherOf four false 0 = none ∧ (gatherBuf four false).length = 3 + 1 := by decide +kernel

theorem test_witness_SbPartialWritesMerge :
    areaOf mapped 0x1000000000 = .sb 0 ∧ keyMissing mapped 0x1000000000 = false ∧ agentMay State.reset.dev (0 : Fin 8) true 0x1000000000 = false ∧ (∀ k, areaOf mapped 0 ≠ .sb k) := by
  refine ⟨by decide +kernel, by decide +kernel, by decide +kernel, ?_⟩
  have h : areaOf mapped 0 = .dram := by decide +kernel
  intro k; rw [h]; simp

theorem test_witness_WindowRegisterFills :
    let s := holding 8 fun o => { o with issued := true }
    let o : Op := { wc := 5, word := 8#512, issued := true }
    let x := cnvOf s.dev 0 o false
    (coreOf s.dev 0).ops[0]? = some o ∧ (coreOf s.dev 0).disabled = false ∧ isConvOp (rOpcode o.word) = true ∧ bit (coreOf s.dev 0).wregFull (coreOf s.dev 0).wregHalf.toNat = false
    ∧ inRow x (cnvTile x 0).oy 0 = some 0 ∧ ((blockSlices x (cnvTile x 0).nb)[0]?).isSome = true
    ∧ bit (coreOf (updCore s.dev 0 fun c => { c with wregFull := 3#2 }) 0).wregFull 0 = true := by decide +kernel

/-- Window 0 of core 0 in this state. -/
def windowed (w : Win) : State := on fun d => updCore d 0 fun c => setWin c 0 w

theorem test_witness_GranulesLandOrAreDiscarded :
    let w : Win := { state := 1, granted := 1#12 }
    windowAt (coreOf (windowed w).dev 0) false 0 = some 0 ∧ win (coreOf (windowed w).dev 0) 0 = w ∧ unitGranted w 0 = true ∧ landOffset w 0 0 = 0 / 512 * 512 ∧ winChecked (windowed w).dev 0 0 = w
    ∧ mthinRuns (coreOf (windowed w).dev 0) = false ∧ mthinRuns (coreOf (holding 3 fun o => { o with issued := true }).dev 0) = true
    ∧ windowAt (coreOf (windowed { w with state := 3 }).dev 0) false 0 = some 0 ∧ w.writer ≠ 1#16 ∧ windowAt (coreOf State.reset.dev 0) false 0 = none := by decide +kernel

theorem test_witness_OnlyTheWriterWritesAWindow : (winAt State.reset.dev 0 0).state = 0 := by decide +kernel

theorem test_witness_WindowsDrainAndCreditsReturn :
    let w (k : Nat) : Win := { state := 1, writer := BitVec.ofNat 16 (k * 4096), pendingCredits := 1 }
    let s := windowed (w 2)
    (winAt (windowed { state := 2 }).dev 0 0).state = 2 ∧ (winAt State.reset.dev 0 0).state = 0
    ∧ (winAt s.dev 0 0 = w 2 ∧ (w 2).writer.toNat / 4096 ≠ 1 ∧ (coreOf s.dev 0).disabled = false
      ∧ recvOf (chan (setChan s.dev 0 { rw := BitVec.ofNat 256 (2 ^ 31 + 2 ^ 28) }) ((w 2).writer.toNat % 4096)) 0 0 = some 0)
    ∧ (winAt (windowed (w 1)).dev 0 0).writer.toNat / 4096 = 1 := by decide +kernel

/-- Channel 0 in this state. -/
def streamed (c : Chan) : Dev := setChan State.reset.dev 0 c
/-- A channel of work context 0 with one unit to send to window 0 of core 0, and to window 1. -/
def sending : Chan := { rw := BitVec.ofNat 256 (2 ^ 31 + 2 ^ 28 + 2 ^ 63 + 2 ^ 60 + 2 ^ 51), state := 2, frames := [{ units := [[(1#8, false)]] }] }

theorem test_witness_ChannelsOpenAndClose :
    (chan State.reset.dev 0).state = 0 ∧ (chan (streamed { state := 1 }) 0).state = 1
    ∧ (∀ r < 4, isWinRecv (chan (streamed { state := 1 }) 0) r = true → recvOpen (streamed { state := 1 }) 0 r = true)
    ∧ (chan (streamed { state := 4 }) 0).state = 4 := by decide +kernel

theorem test_witness_ChannelsSend :
    let both := setCredit (setCredit sending 0 1) 1 1
    let one := setCredit sending 0 1
    let owing := setOwed one 0 1
    let ov : Chan := { one with frames := [{ ends := true }] }
    chosenChan (streamed both) 0 = some 0 ∧ chosenChan State.reset.dev 0 = none
    ∧ ((reattach one).state = 2 ∧ (nextUnit (reattach one)).isSome = true ∧ ((attached (reattach one)).filter fun r => chCredit (reattach one) r == 0) = [1]
      ∧ ((attached (reattach one)).filter fun r => chCredit (reattach one) r != 0) = [0] ∧ owedRecvs (reattach { owing with detached := 1#4 }) = [0])
    ∧ (owing.state = 2 ∧ isWinRecv owing (0 : Fin 4) = true ∧ chOwed owing 0 ≠ 0 ∧ chCredit owing 0 ≠ 0)
    ∧ (ov.frames = { ends := true } :: [] ∧ isWinRecv ov 0 = true ∧ bit ov.ended 0 = false ∧ chOwed ov 0 = 0) := by decide +kernel

theorem test_witness_LoadTurnGranted :
    let c := wcOf (updWc State.reset.dev 5 fun c => { c with asks := 1#16, ro := BitVec.ofNat 2048 (2 ^ 40) }) 5
    wLoadWidth c ≠ 0 ∧ (coresIn c.turns).length < wLoadWidth c ∧ (turnOrder c.lastTurn).find? (fun n => bit c.asks n) = some 0 := by decide +kernel

theorem test_witness_FetchEngineRuns :
    let x : Xfer := { wc := 5, len := 64 }
    let g : Gran := { wc := 5, data := [(1#8, false)] }
    let s (v : Nat) (f : Core → Core) := (updCore (holding v fun o => { o with issued := true }).dev 0 f)
    let o (v : Nat) : Op := { wc := 5, word := BitVec.ofNat 512 v, issued := true }
    opAt (coreOf (updCore State.reset.dev 0 fun c => { c with fe := [x] }) 0) 5 0 0#32 = none ∧ (∀ v ∈ [0x18, 0x19], let d := s v fun c => { c with fe := [x] }
      (coreOf d 0).fe = x :: [] ∧ opAt (coreOf d 0) 5 0 0#32 = some (0, o v) ∧ rOpcode (o v).word = v ∧ x.len ≤ (256 - (coreOf d 0).landing.length) * 64 - 64)
    ∧ (let d := s 0x18 fun c => { c with landing := [g] }
       (coreOf d 0).landing = g :: [] ∧ (coreOf d 0).disabled = false ∧ g.epoch = (wcOf (feSub (updCore d 0 fun c => { c with landing := [] }) 0 5 1) 5).epoch
       ∧ opAt (coreOf d 0) 5 0 0#32 = some (0, o 0x18) ∧ ({ g with epoch := 1#8 } : Gran).epoch ≠ (wcOf d 5).epoch) := by decide +kernel

/-! ### MPE, cameras, sensor control and the ledger -/

/-- The reset device with these MPE records. -/
def mouth (l : List MpeRec) : State := on fun d => { d with mpe := { d.mpe with recs := l } }

theorem test_witness_MpeRecordsRun :
    let q : MpeRec := { op := { wc := 5, word := 0x0A#512, issued := true } }
    (((withPos (mouth [q]).dev.mpe.recs).find? fun x => mayReside (mouth [q]).dev x.1 x.2) = some (0, q))
    ∧ (((withPos (mouth []).dev.mpe.recs).find? fun x => mayReside (mouth []).dev x.1 x.2) = none)
    ∧ (((withPos (mouth [q]).dev.mpe.recs).filter fun x => mpeReady (mouth [q]).dev x.2) = []) := by decide +kernel

/-- A resident record whose first line is ready. -/
theorem test_witness_MpeLineReady :
    let q : MpeRec := { op := { wc := 5, word := 0x0A#512, issued := true }, resident := true }
    ((withPos (mouth [q]).dev.mpe.recs).filter fun x => mpeReady (mouth [q]).dev x.2) = [(0, q)] := by decide +kernel

/-- Ready, camera port 0 and image context 0 Running with 4 × 2 RAW10 frames, and the changes of `f`. -/
def filming (f : Dev → Dev) : State := on fun d =>
  let d := setActual (setActual (setCnt d 0x1010 1 1) (camFn 0) 2) (icFn 0) 2
  f (setSetting (setSetting (setSetting d (icX 0 + 1) 3 0x2B) (icX 0 + 1) 4 4) (icX 0 + 1) 5 2)
/-- Port 0 with this header waiting. -/
def headed (h : Nat × Nat × Nat) (d : Dev) : Dev := updCam d 0 fun c => { c with burst := true, header := some h }
/-- Image context 0 with this frame. -/
def framed (f : IcFrame) (d : Dev) : Dev := updIc d 0 fun c => { c with frames := [f], count := 1 }

theorem test_witness_CameraLinkRuns :
    let s := filming fun d => updCam (setSetting d (camB 0) 2 1000) 0 fun c => { c with burst := true }
    let fast := filming fun d => setSetting d (camB 0) 2 2000
    termOn State.reset.dev 0 = false ∧ termOn s.dev 0 = true ∧ setting s.dev (camB 0) 2 ≤ 1500 ∧ (1500 < setting fast.dev (camB 0) 2 ∧ (cam fast.dev 0).deskewed = false)
    ∧ (cam s.dev 0).burst = true ∧ (cam s.dev 0).skip = false ∧ (0x2B#6).toNat ∈ imageTypes ∧ 0x12 < (0x30#6).toNat ∧ (0x30#6).toNat ∉ imageTypes := by decide +kernel

theorem test_witness_FramesOpenAndClose :
    let fs := filming (headed (0, 0, 0))
    let fe := filming fun d => framed {} (headed (0, 1, 0) d)
    pendingHeader fs.dev 0 (· == 0x00) = some (0, 0, 0) ∧ routed (dropHeader fs.dev 0) 0 0 = [0] ∧ routed (dropHeader fs.dev 0) 0 1 = []
    ∧ pendingHeader fe.dev 0 (· == 0x01) = some (0, 1, 0) ∧ routed (dropHeader fe.dev 0) 0 0 = [0] ∧ openFrame fe.dev 0 = some {}
    ∧ (∀ g ∈ (ic fe.dev 0).frames, g.opened = true → g = {})
    ∧ (openFrame fs.dev 0 = none ∧ (ic fs.dev 0).dropping = false ∧ fnUp fs.dev (icFn 0) = true ∧ actual fs.dev (camFn (icPort fs.dev 0)) = 2)
    ∧ fnUp State.reset.dev (icFn 0) = false ∧ governorDrops fs.dev 0 = false ∧ governorDrops (filming fun d => setSetting (setSetting d (icX 0 + 0x3E) 1 1) (icX 0 + 0x3E) 2 0).dev 0 = true
    ∧ pendingHeader State.reset.dev 0 (· == 0x00) = none ∧ openFrame State.reset.dev 0 = none := by decide +kernel

theorem test_witness_ImageLinesEnter :
    let s (f : IcFrame) (l : List RxLine) := filming fun d => framed f (headed (0, 0x2B, 5) { d with ipl := { d.ipl with rx := l } })
    (∀ x ∈ [(({} : IcFrame), ([] : List RxLine)), ({ lines := 2 }, []), ({}, [{ bytes := 16384 }])],
      pendingHeader (s x.1 x.2).dev 0 (imageTypes.contains ·) = some (0, 0x2B, 5) ∧ imageTarget (dropHeader (s x.1 x.2).dev 0) 0 0 0x2B = some 0
      ∧ openFrame (s x.1 x.2).dev 0 = some x.1 ∧ x.1.incomplete = false)
    ∧ (let b := filming (headed (1, 0x2B, 5)); pendingHeader b.dev 0 (imageTypes.contains ·) = some (1, 0x2B, 5) ∧ imageTarget (dropHeader b.dev 0) 0 1 0x2B = none)
    ∧ (let b := filming (headed (0, 0x2B, 5)); imageTarget (dropHeader b.dev 0) 0 0 0x2B = some 0 ∧ openFrame b.dev 0 = none)
    ∧ (icHeight (s {} []).dev 0 = 2 ∧ fifoUsed (s {} []).dev 0 + lineBytes 0x2B 4 ≤ 16384 ∧ 16384 < fifoUsed (s {} [{ bytes := 16384 }]).dev 0 + lineBytes 0x2B 4) := by decide +kernel

theorem test_witness_EmbeddedDataIsStored :
    let s := filming fun d => framed {} (headed (0, 0x12, 4) (setSetting d (icX 0 + 1) 9 1))
    let f : IcFrame := { opened := false, embStamp := true }
    (let b := filming (headed (0, 0x12, 4)); pendingHeader b.dev 0 (· == 0x12) = some (0, 0x12, 4) ∧ ((routed (dropHeader b.dev 0) 0 0).find? fun n => setting (dropHeader b.dev 0) (icX n + 1) 9 == 1) = none)
    ∧ pendingHeader s.dev 0 (· == 0x12) = some (0, 0x12, 4) ∧ ((routed (dropHeader s.dev 0) 0 0).find? fun n => setting (dropHeader s.dev 0) (icX n + 1) 9 == 1) = some 0
    ∧ openFrame (dropHeader s.dev 0) 0 = some {} ∧ (ic (filming (framed f)).dev 0).frames.find? (fun f => f.embStamp && !f.opened) = some f := by decide +kernel

theorem test_witness_SensorCommandsRun :
    let s (i : I3c) := on fun d => updCam d 0 fun c => { c with i3c := i, pulseDue := true }
    ((cam (s { busy := true }).dev 0).i3c.busy = true) ∧ ((cam (s {}).dev 0).i3c.busy = false) ∧ ((cam (s { busy := true, running := true }).dev 0).i3c.running = true)
    ∧ setting State.reset.dev (camB 0 + 1) 1 = 0 ∧ setting (setSetting State.reset.dev (camB 0 + 1) 1 1) (camB 0 + 1) 1 ≠ 0
    ∧ (cam (s {}).dev 0).pulseDue = true ∧ (cam State.reset.dev 0).pulseDue = false := by decide +kernel

theorem test_witness_LedgerEntriesRun :
    let x (k : Nat) : LedgerEntry := { state := BitVec.ofNat 4 k }
    let s (k : Nat) := filming fun d => updLedger d 0 0 fun _ => x k
    let late := filming fun d => updIc d 0 fun c => { c with count := 1 }
    let up (s : State) := updLedger s.dev 0 0 fun x => { x with state := 1#4, tag := 0#8 }
    let iss := on fun d => updCam d 0 fun c => { c with issuing := [3] }
    (armedLate (up (s 0)) 0 (x 0) = false ∧ (x 0).state ≠ 1#4 ∧ (x 0).state ≠ 2#4) ∧ armedLate (up late) 0 (ledgerAt (cam late.dev 0) 0) = true
    ∧ (x 2).state = 2#4 ∧ (ledgerAt (cam (s 2).dev 0) 0).state = 2#4 ∧ mayLedger (s 1).dev 0 (ledgerAt (cam (s 1).dev 0) 0) = true ∧ mayLedger (s 0).dev 0 (ledgerAt (cam (s 0).dev 0) 0) = false
    ∧ (cam iss.dev 0).issuing = 3 :: [] ∧ (cam iss.dev 0).i3c.running = false ∧ frameStarted iss.dev (ledgerIc iss.dev 0) 0 = false
    ∧ frameStarted late.dev (ledgerIc late.dev 0) 0 = true := by decide +kernel


/-! ### The image pipeline -/

theorem test_witness_RawFrontRuns :
    let x : RxLine := { px := [1, 2, 3, 4] }
    let s (fs : List IcFrame) := on fun d => updIc { d with ipl := { d.ipl with rx := [x] } } 0 fun c => { c with frames := fs }
    ((fifoHeads (s [{}]).dev.ipl.rx []).find? (lineReady (s [{}]).dev) = some x ∧ frameOf (s [{}]).dev 0 0 = some {}
      ∧ ∀ g ∈ (ic (s [{}]).dev 0).frames, g.no = 0 → g = {})
    ∧ ((fifoHeads (s []).dev.ipl.rx []).find? (lineReady (s []).dev) = some x ∧ frameOf (s []).dev 0 0 = none)
    ∧ (fifoHeads State.reset.dev.ipl.rx []).find? (lineReady State.reset.dev) = none := by decide +kernel

theorem test_witness_RawStagesCompute : (0 : Nat) ≤ 32767 ∧ (65535 : Nat) ≤ 65535 ∧ subBlack 0 65535 = 65535 ∧ mirror (-1) 4 = 1 ∧ mirror 4 4 = 2 := by decide

theorem test_witness_RawPixelsUnpack : [1#8, 2#8, 3#8, 4#8, 0xE4#8].length = 5 ∧ unpackGroup 0x2B [1#8, 2#8, 3#8, 4#8, 0xE4#8] = [4, 9, 14, 19] := by decide

theorem test_witness_ShadowWritesApply :
    let s (b : Bool) := on fun d => updIc d 0 fun c => { c with copying := b }
    (ic (s false).dev 0).copying = false ∧ (ic (s true).dev 0).copying = true ∧ shadowWritable 0 = true := by decide +kernel

theorem test_witness_PipelineLinesRun :
    let geo (d : Dev) : Dev := setSetting (setSetting d (icX 0 + 1) 4 16) (icX 0 + 3) 1 16
    let s (w : Win) (f : IcFrame) := on fun d => { framed f (geo d) with mpe := { d.mpe with wins := sset (fun _ => {}) d.mpe.wins 2 w } }
    let open' : Win := { state := 1, writer := 0x3000#16, granted := 8#12 }
    let f : IcFrame := { neural := true, raw := [List.replicate 16 1, List.replicate 16 2] }
    let g : IcFrame := { opened := false, lines := 2, raw := [List.replicate 16 1, List.replicate 16 2] }
    let l : IcFrame := { linear := [List.replicate 16 (0, 0, 0)] }
    let us := chunks 512 (ceilDiv ((f.raw.flatMap (segment (s open' f).dev 0 0)).length) 512) (f.raw.flatMap (segment (s open' f).dev 0 0))
    (nextPair (s open' f).dev 0 = some (f, f.raw) ∧ iplEntry (s open' f).dev 0 = some 2 ∧ us.length ≤ (open'.granted - open'.fill).toNat
      ∧ us.length ≠ 0 ∧ iplEntry (s { open' with granted := 0#12 } f).dev 0 = some 2)
    ∧ (icYuv (s {} g).dev 0 = false ∧ (ic (s {} g).dev 0).frames.find? demosaicReady = some g ∧ ∀ g' ∈ (ic (s {} g).dev 0).frames, g'.no = g.no → g' = g)
    ∧ ((ic (s {} f).dev 0).frames.find? (fun f => beOwes f && !f.lost) = some f ∧ f.neural = true ∧ beLanded (s {} f).dev 0 = false)
    ∧ beLanded (updIc (s {} f).dev 0 fun c => { c with beWin := { state := 1, fill := 1#12, granted := 8#12, size := 7 } }) 0 = true
    ∧ ((ic (s {} l).dev 0).frames.find? (fun f => beOwes f && !f.lost) = some l ∧ l.neural = false ∧ l.linear[l.rgb.length]? = some (List.replicate 16 (0, 0, 0)))
    ∧ (∀ r ∈ [[], [List.replicate 16 1]], let y : IcFrame := { raw := r }
      let t := on fun d => framed y (setSetting (geo d) (icX 0 + 1) 3 0x1E)
      icYuv t.dev 0 = true ∧ (ic t.dev 0).frames.find? (fun f => beOwes f && !f.lost) = some y ∧ y.rgb.length = 0)
    ∧ ((ic (s {} f).dev 0).frames.any fun f => f.neural && !f.lost && beOwes f) = true ∧ ((ic (s {} l).dev 0).frames.any fun f => f.neural && !f.lost && beOwes f) = false := by decide +kernel

theorem test_witness_DemosaicKeepsOwnColour : cfa 0 0 0 = 0 ∧ cfa 0 1 0 = 1 ∧ cfa 0 0 1 = 2 ∧ cfa 0 1 1 = 3 := by decide

theorem test_witness_OutputCodesFit : Val.nan = .nan ∧ codeOf (.num 300 0) 255 = 255 := by decide

/-- Formatter 0 of image context 0 on, one line high, on channel 0. -/
def formatting (f : Dev → Dev) (fr : IcFrame) : State := on fun d =>
  f (framed fr ((([(1, 1), (3, 8), (4, 1), (6, 0)] : List (Nat × Nat))).foldl (fun d x => setSetting d (icX 0 + 4) x.1 x.2) d))

theorem test_witness_OutputsAreWritten :
    let row (n : Nat) : IcFrame := { rgb := List.replicate n (List.replicate 8 (0, 0, 0)) }
    let fin : IcFrame := { opened := false, fmts := [{ lines := 1, begun := true }, {}, {}] }
    let recv : Chan := { rw := BitVec.ofNat 256 (2 ^ 31 + 2 ^ 28), state := 2, frames := [{ more := true }] }
    let d (s : State) := beginFrame s.dev 0 0 fin
    let s := formatting (fun d => setChan d 0 (setCredit recv 0 1)) fin
    let c := appendUnits [((headerBytes s.dev 0 0 fin).map fun b => (b, false))] [bufAddr s.dev 0 0 fin.no] false (chan (d s) 0)
    let ov : IcFrame := { opened := false }
    let st := on (framed { opened := false, statA := true, statB := true, lost := true })
    (fmtFrame (formatting id (row 4)).dev 0 0 = some (row 4) ∧ (fmtRun (row 4) 0).lines < fmtSet (formatting id (row 4)).dev 0 0 4
      ∧ fmtFrame (formatting id (row 0)).dev 0 0 = some (row 0) ∧ outReady (formatting id (row 0)).dev 0 0 (row 0) 0 = false)
    ∧ (fmtFrame s.dev 0 0 = some fin ∧ linesDone s.dev 0 0 fin = true ∧ chanTakes (chan (d s) 0) = true ∧ (chan (d s) 0).frames ≠ []
      ∧ (c.frames.map fun x => x.units.length).sum = 1 ∧ chosenChan (setChan (d s) 0 c) 0 = some 0)
    ∧ (linesDone (formatting id fin).dev 0 0 fin = true ∧ chanTakes (chan (beginFrame (formatting id fin).dev 0 0 fin) 0) = false)
    ∧ linesDone (formatting id (row 0)).dev 0 0 (row 0) = false ∧ fmtFrame State.reset.dev 0 0 = none
    ∧ outReady (setSetting (formatting id (row 8)).dev (icX 0 + 1) 5 8) 0 0 (row 8) 0 = true
    ∧ (ic (on (framed ov)).dev 0).frames.find? (frameDone (on (framed ov)).dev 0) = some ov
    ∧ (ic State.reset.dev 0).frames.find? (frameDone State.reset.dev 0) = none
    ∧ ((ic st.dev 0).frames.find? (fun f => f.statA && rawDone f)).isSome = true ∧ ((ic st.dev 0).frames.find? (fun f => f.statB && rgbFinal f)).isSome = true := by decide +kernel

/-! ### Audio, ports and interrupts -/

/-- Audio group 0 Running with microphone 0 and a block of this breath. -/
def listening : State := on fun d =>
  { setSetting (setSetting (setActual d (grpFn 0) 2) 0x5010 1 1) 0x5010 6 0 with
    afe := { d.afe with groups := sset (fun _ => {}) d.afe.groups 0 { cur := some {}, closed := [{}] } }, breath := { d.breath with ns := 1000000 } }

theorem test_witness_AudioRuns :
    grpLive listening.dev 0 = true ∧ grpSet listening.dev 0 4 = 0 ∧ grpSet listening.dev 0 6 ≠ 1 ∧ grpMics listening.dev 0 ≠ [] ∧ (agrp listening.dev 0).cur = some {}
    ∧ groupDelay 0 ≤ listening.dev.breath.ns ∧ (agrp listening.dev 0).closed = {} :: [] ∧ (agrp listening.dev 1).closed = []
    ∧ tdmSet (setSetting State.reset.dev 0x5001 7 1) 0 7 = 1 ∧ tdmUsed State.reset.dev 0 = false ∧ tdmSet State.reset.dev 0 7 ≠ 1 := by decide +kernel

theorem test_witness_PortQueuesRun :
    let s := on fun d => updQ (setActual d (portFn 3) 2) 3 0 fun q => { q with cur := some 0#256 }
    (0 : Nat) < queueCount 3 ∧ queueCount 3 ≤ 2 ∧ bit (1#64) 0 = true ∧ fnLive s.dev (portFn 3) = true ∧ isTx 1 0 = true ∧ isTx 0 0 = false ∧ isTx 3 1 = false
    ∧ (pq s.dev 3 0).cur = some 0#256 := by decide +kernel

theorem test_witness_UsbRuns :
    let s := on fun d => updPorts d fun x => { x with term := true }
    s.dev.ports.term = true ∧ State.reset.dev.ports.term = false ∧ setting s.dev 0x5800 1 ≠ 1 ∧ setting (setSetting s.dev 0x5800 1 1) 0x5800 1 = 1 := by decide +kernel

theorem test_witness_EthernetAndPtpRun :
    let s (b : Bool) := on fun d => updQ (setCnt (setActual d (portFn 1) 2) 0x5900 7 3) 1 4 fun q => { q with cur := if b then some 0#256 else none, tail := 1#32 }
    let f := List.replicate 60 0#8
    (∀ b, fnUp (s b).dev (portFn 1) = true ∧ cnt (s b).dev 0x5900 7 ≠ 0 ∧ 64 ≤ f.length + 4 ∧ f.length + 4 ≤ ethSet (s b).dev 0 2 ∧ isPause f = false
      ∧ hasBuffer (s b).dev 1 (rxQueue (s b).dev 0 f) = b) ∧ fnUp State.reset.dev (portFn 1) = false
    ∧ (let g := List.replicate 12 0#8 ++ [0x88#8, 0x08#8] ++ List.replicate 46 0#8; g.length = f.length ∧ isPause g = true)
    ∧ (ethSet State.reset.dev 0 1 = 1 ↔ (3 : Fin 5) = 4) ∧ (2#64 : W64) ≠ 1#64 := by decide +kernel

theorem test_witness_CanBusRuns :
    let a : CanFrame := { id := 5#29, data := [] }
    let m : MgcFrame := { id := 0x100 }
    let s (t : List Byte) (b : Option (BitVec 256)) := on fun d => updQ { setDom (setActual mapped (portFn 3) 2) 0x5B00 6 t with mgc := { d.mgc with canTx := [m] } } 3 1 fun q => { q with cur := b, tail := 1#32 }
    let all := List.replicate 128 0#8
    let none' := (List.range 16).flatMap fun _ => [0xFF#8, 0#8, 0#8, 0#8, 0#8, 0#8, 0#8, 0#8]
    let two := updQ (s all none).dev 3 0 fun q => { q with cur := some (BitVec.ofNat 256 (8 * 2 ^ 192)), tail := 1#32 }
    MgcAwake (s all none) ∧ busOff (s all none).dev = false ∧ ¬ (a.ide = false ∧ nodeId (s all none).dev ≠ 0 ∧ a.id.toNat = 0x640 + nodeId (s all none).dev)
    ∧ fnUp (s all none).dev (portFn 3) = true ∧ ((List.range 16).any (filterHits (s all none).dev a.id.toNat)) = true ∧ hasBuffer (s all (some 0#256)).dev 3 1 = true
    ∧ ((List.range 16).any (filterHits (s none' none).dev a.id.toNat)) = false
    ∧ mgcNext (s all none).dev = some m ∧ canApc (s all none).dev = none ∧ two.ports.canOwed = none ∧ mgcNext two = some m ∧ (canApc two).isSome = true
    ∧ busOff (setCnt (s all none).dev 0x5B00 7 2) = true ∧ mgcNext { two with mgc := { two.mgc with canTx := [] } } = none ∧ (canApc { two with mgc := { two.mgc with canTx := [] } }).isSome = true
    ∧ mgcNext State.reset.dev = none ∧ canApc State.reset.dev = none
    ∧ setting (setSetting State.reset.dev 0x5B00 5 1) 0x5B00 5 = 1 := by decide +kernel

theorem test_witness_PinsAndInterruptsRun :
    let s := on fun d => updApc d fun x => { x with pending := 2 ^ 23, prio := [(23, 1)], enable := [(0, BitVec.ofNat 32 (2 ^ 23))] }
    bit State.reset.dev.ports.gpioIn 0 = false ∧ claimChoice s.dev 0 = some 23 ∧ claimChoice State.reset.dev 0 = none
    ∧ (updPorts State.reset.dev fun x => { x with uartRx := [1#8] }).ports.uartRx = 1#8 :: [] := by decide +kernel

/-! ### Memory controller, power, breath and register writes -/

theorem test_witness_MemoryControllerRuns :
    let s : State := on fun _ => mapped
    let e : BitVec 256 := BitVec.ofNat 256 0
    0x40 + 64 ≤ dramSize s.dev ∧ dramSize s.dev ≤ 0x800000000 ∧ (0x40 % 64 + 64 ≤ 64) ∧ agentMay s.dev 0 true (0x40 / 64 * 64) = true
    ∧ sget (fun _ => 0) s.dev.mem.encTag 1 = encSetting s.dev 0x40 ∧ accessRefused s.dev 0x3FFFFFFFFF true true = true ∧ accessRefused s.dev 0 true true = false
    ∧ (bit (region s.dev 1) 3 = false ∧ bit (region s.dev 1) 0 = false ∧ encryptFits s.dev e = true) ∧ bit (region { s.dev with dmc := { s.dev.dmc with regions := [(1, 8#256)] } } 1) 3 = true
    ∧ lowestChan (2#8 : BitVec 8) = some 1 ∧ lowestChan (0#8 : BitVec 8) = none ∧ (s.dev.dmc.everEnabled = true ∨ (0 : Nat) ≠ 6)
    ∧ (let d := { s.dev with dmc := { s.dev.dmc with regions := [(1, 1#256)] } }; bit (region d 1) 0 = true ∧ regionShape 17#256 ≠ regionShape (region d 1))
    ∧ encryptFits s.dev (BitVec.ofNat 256 (17 + 0x100 * 2 ^ 228)) = true ∧ encryptFits s.dev (BitVec.ofNat 256 (17 + 0x1000 * 2 ^ 228)) = false
    ∧ (decidingRegion s.dev 0 = some 0 ∧ keyMissing s.dev 0 = false) ∧ agentMay State.reset.dev 0 true (0 / 64 * 64) = false ∧ areaOf mapped 0x1000000000 = .sb 0
    ∧ (∀ r < 16, regionHolds (region State.reset.dev r) 0 = false) := by decide +kernel

theorem test_witness_PowerLoopsRun :
    let m : List Byte := [0#8, 0#8, 0#8, 0#8, 1#8, 0#8, 0#8, 0#8]
    let s := on fun d => setDom d 0x2001 3 m
    let idle := on fun d => updCore d 0 fun c => { c with arrays := (List.range 4).map fun k => (k, { ramp := 4 }) }
    (monMap State.reset.dev 0).2.2 = 0 ∧ (monMap s.dev 0).2.2 ≠ 0 ∧ MgcAwake s ∧ s.dev.power.failed = false ∧ cnt s.dev 0x2000 5 = 0
    ∧ s.dev.ctl.tripped = false ∧ 1150 ≤ (1150#16).toInt ∧ (1050#16).toInt < 1150 ∧ 1050 ≤ (1050#16).toInt
    ∧ (cnt (setCnt s.dev 0x2000 5 1) 0x2000 5 = 1 ∧ (updPower s.dev fun q => { q with failed := true }).power.failed = true)
    ∧ (on fun d => { d with ctl := { d.ctl with tripped := true } }).dev.ctl.tripped = true ∧ (1000#16).toInt < 1050 ∧ islandIdle (coreOf idle.dev 0) = true ∧ islandIdle (coreOf State.reset.dev 0) = false := by decide +kernel

theorem test_witness_VoltageFollowsSlack :
    let s (v f a : Nat) := on fun d => updIsland d 0 fun x => { x with volt := v, freq := f, avs := a }
    let t (s : State) : Int := setting s.dev 0x2002 3
    (0#16 - 2000#16).toInt < t State.reset - 10 ∧ t State.reset + 10 < (2000#16).toInt ∧ t State.reset - 10 ≤ (BitVec.ofInt 16 (t State.reset)).toInt
    ∧ (BitVec.ofInt 16 (t State.reset)).toInt ≤ t State.reset + 10
    ∧ (island (s 850 650 1800).dev 0).volt = 850 ∧ 650 ≤ (island (s 850 650 1800).dev 0).freq ∧ (coreOf (s 850 650 1800).dev 0).disabled = false
    ∧ (island (s 550 600 1700).dev 0).avs < 1800 ∧ 1800 ≤ (island (s 550 600 1800).dev 0).avs := by decide +kernel

theorem test_witness_BreathAdvances :
    let s (src : Nat) := on fun d => { setActual d (icFn 0) 2 with breath := { d.breath with source := src } }
    MgcAwake State.reset ∧ (5 : Int).natAbs ≤ 2000000 ∧ (5 : Int).natAbs ≤ setting State.reset.dev 0x2100 6 ∧ State.reset.dev.breath.source ≠ 1
    ∧ (eventFor (s 1).dev.breath).isSome = true ∧ eventFor { State.reset.dev.breath with took := true, tookNext := true, source := 1 } = none
    ∧ (s 2).dev.breath.ic = 0 ∧ fnLive (s 2).dev (icFn 0) = true ∧ (0 : Nat) < State.reset.dev.breath.num := by decide +kernel

theorem test_witness_RegisterWritesAct :
    areaOf mapped 0x1000 = .dram ∧ areaOf mapped 0x2000000008 = .doorbell 1 ∧ areaOf mapped 0x3FFFFFFFFF = .unmapped ∧ areaOf mapped 0x1100000000 = .wm 0 0
    ∧ areaOf mapped 0x3000000008 = .periph 0 8 ∧ areaOf mapped 0x3001D00000 = .periph 0x1D 0 ∧ areaOf mapped 0x3001E00000 = .periph 0x1E 0 ∧ areaOf mapped 0x3000100000 = .periph 1 0
    ∧ areaOf mapped 0x2010000008 = .cpPage 8 ∧ areaOf mapped 0x2010008000 = .mailbox 0 0 ∧ areaOf mapped 0x3040000000 = .plic 0 ∧ areaOf mapped 0x1000000000 = .sb 0 ∧ areaOf mapped 0x3000200000 = .periph 2 0 ∧ (coreOf mapped 0).disabled = false := by decide +kernel

/-! ### The spec's worked examples -/

/-- Chapter 3, product table of the summariser: code 0xB300 is −0.21875, and −37 times it is 8.09375. -/
theorem test_example_codebook_product : toF32 (decodeFloat f16 0xB300) = toF32 (.num (-7) (-5)) ∧ toF32 (fmul (.num (-37) 0) (decodeFloat f16 0xB300)) = toF32 (.num 259 (-5)) := by decide +kernel

/-- Table 3.6: 106,653 plus −5,125.5, times 1.5 × 2^−8, times 2^−6, narrows to 74 at the generated exponent −3. -/
theorem test_example_rescale :
    let v := fmul (fadd (.num 106653 0) (.num (-10251) (-1))) (decodeFloat f16 0x1E00)
    genExp .int8 0 [.num 73 (-5), .num (-956826) (-16)] = -3 ∧ (narrow .int8 0 (-3) (vscale v (-6))).raw = 74 := by decide +kernel

/-- Table 11.11: 8 stripes of a 3840-pixel line; a pair sends 38 units and U_BE is 45; a side camera 19 and 23. -/
theorem test_example_stripes :
    let d (w : Nat) := setSetting (setSetting (setSetting State.reset.dev (icX 0 + 1) 4 w) (icX 0 + 3) 1 512) (icX 0 + 3) 2 64
    icStripes (d 3840) 0 = 8 ∧ pairUnits (d 3840) 0 = 38 ∧ uBe (d 3840) 0 = 45 ∧ icStripes (d 1920) 0 = 4 ∧ pairUnits (d 1920) 0 = 19 ∧ uBe (d 1920) 0 = 23 := by decide +kernel

/-- Table 9.16: READ OD 0x1100.03 over CAN FD at node 5 is answered on 0x6C5 with 3, padded to 12 bytes. -/
theorem test_example_can_read :
    let s : State := { onBus with dev := { setActual (setCnt onBus.dev 0x1010 1 1) 0 3 with
      mgc := { onBus.dev.mgc with odq := [.can [0x01#8, 0x17#8, 0x00#8, 0x11#8, 0x03#8, 0#8, 0#8, 0#8]] } } }
    (match exec .odRead s with
     | .next t => t.dev.mgc.canTx
     | _ => []) = [{ kind := 1, id := 0x6C5, data := [0x81#8, 0x17#8, 0#8, 0x11#8, 3#8, 0#8, 1#8, 0#8, 3#8, 0#8, 0#8, 0#8] }] := by decide +kernel

/-- Table 9.16: DRONE_LIMIT 300 passes every check but the range check, which ends in 0x0906. -/
theorem test_example_drone_limit : checkAbort ready false 0x2200 2 2 = none ∧ (odRow 0x2200 2).map (fun r => (odInRange r 300, odInRange r 255)) = some (false, true) := by decide +kernel

/-- R297 to R299: the next image context is 0x40 further; R456: bits 10:8 XOR bits 18:16. -/
theorem test_addresses : dramChannel 0x10300 = 2 ∧ dramChannel 0x700 = 7 ∧ areaOf mapped 0x1101300040 = .ds 1 0x40 := by decide +kernel

end Sys2Proof.Tests
end

/-! Signs of zero sums and products on the exact floating data path (R74). -/

namespace Sys2Proof.Proofs

open Sys2Proof.Machine

/-- A sum of zeros is −0 only when both are −0. -/
@[simp] theorem vadd_zero_zero (a b : Bool) : vadd (.zero a) (.zero b) = .zero (a && b) := rfl

/-- NaN and the infinities are left out because they make the product NaN (R73). -/
theorem vmul_zero_left {v : Val} (hnan : v ≠ .nan) (hinf : ∀ c, v ≠ .inf c) (b : Bool) :
    vmul (.zero b) v = .zero (b != isNegVal v) := by
  cases v with
  | nan => exact absurd rfl hnan
  | inf c => exact absurd rfl (hinf c)
  | zero c => rfl
  | num m e => rfl

/-- Holds of every operand: with NaN or an infinity both products are NaN. -/
theorem vmul_zero_comm (v : Val) (b : Bool) : vmul v (.zero b) = vmul (.zero b) v := by
  cases v with
  | nan => rfl
  | inf c => rfl
  | zero c => exact congrArg Val.zero bne_comm
  | num m e => exact congrArg Val.zero bne_comm

theorem vmul_zero_right {v : Val} (hnan : v ≠ .nan) (hinf : ∀ c, v ≠ .inf c) (b : Bool) :
    vmul v (.zero b) = .zero (isNegVal v != b) := by
  rw [vmul_zero_comm, vmul_zero_left hnan hinf, bne_comm]

/-- Settles O30, from the sum of two zeros and the product with a zero on either side. -/
theorem zeroSigns : Obligations.ZeroSigns :=
  ⟨vadd_zero_zero false true, vadd_zero_zero true false,
    fun _ b hnan hinf => ⟨vmul_zero_left hnan hinf b, vmul_zero_right hnan hinf b⟩⟩

end Sys2Proof.Proofs

/-! Writes of EVT_HEAD, the head of the device event ring (R291). -/

namespace Sys2Proof.Proofs

open Sys2Proof.Machine

/-- R291's window: `h` lies from the last head accepted up to EVT_TAIL, counted modulo 2^24. -/
def HeadInWindow (d : Dev) (h : BitVec 24) : Prop :=
  (h - d.cp.evtHead).toNat ≤ (d.cp.evtTail - d.cp.evtHead).toNat

/-- The last head accepted lies in its own window, however full the ring is. -/
theorem headInWindow_self (d : Dev) : HeadInWindow d d.cp.evtHead := by
  have hzero : (d.cp.evtHead - d.cp.evtHead).toNat = 0 := by simp
  exact hzero.trans_le (Nat.zero_le _)

section
variable {d : Dev} {v : W64}

theorem evtHeadWrite_of_inWindow (h : HeadInWindow d (BitVec.ofNat 24 v.toNat)) :
    evtHeadWrite d v = updCp d fun c => { c with evtHead := BitVec.ofNat 24 v.toNat } := if_pos h

theorem evtHeadWrite_of_not_inWindow (h : ¬HeadInWindow d (BitVec.ofNat 24 v.toNat)) :
    evtHeadWrite d v = bump d 0x2602 7 4 1 := if_neg h

theorem evtHeadWrite_same (h : BitVec.ofNat 24 v.toNat = d.cp.evtHead) : evtHeadWrite d v = d := by
  rw [evtHeadWrite_of_inWindow (h ▸ headInWindow_self d), h]
  rfl

end

/-- Outside a reset the command is the write itself, on the device part alone. -/
theorem exec_evtHeadWrite {s : State} (hs : Awake s) (v : W64) :
    exec (.evtHeadWrite v) s = .next { s with dev := evtHeadWrite s.dev v } := nextDev_awake hs

/-- Settles O22, from the write in and outside R291's window; the last head accepted is a value in
the window whose acceptance changes nothing. -/
theorem eventHeadWrites : Obligations.EventHeadWrites := by
  intro s v hs h
  rw [exec_evtHeadWrite hs]
  refine ⟨fun hin => ?_, fun hsame => ?_, fun hout => ?_⟩
  · rw [evtHeadWrite_of_inWindow hin]; rfl
  · rw [evtHeadWrite_same hsame]
  · rw [evtHeadWrite_of_not_inWindow hout]; rfl

end Sys2Proof.Proofs

/-! Writes of REQUESTED, and a stop of the CAN FD port function (R304, R306, R309). -/

namespace Sys2Proof.Proofs

open Sys2Proof.Machine

/-! ### The entries REQUESTED and ACTUAL of a function -/

section
variable (d : Dev) (f v : Nat)

@[simp] theorem actual_setActual : actual (setActual d f v) f = v := cnt_setCnt d _ _ v

@[simp] theorem requested_setRequested : requested (setRequested d f v) f = v := setting_setSetting d _ _ v

@[simp] theorem requested_setActual (g : Nat) : requested (setActual d f v) g = requested d g := rfl

end

/-- The dictionary's row of REQUESTED, the same for all 34 functions. -/
def requestedRow : OdRow := ⟨0x1100, 1, 34, 2, .u8, .rw, 0, 0, 0, 1, [2]⟩

/-- Every entry whose range the row's limits do not say lies at 0x2100 or above. -/
theorem rangeExtra_of_lt (d : Dev) {i : Nat} (hi : i < 0x2100) (sub v : Nat) : rangeExtra d i sub v = true := by
  unfold rangeExtra
  repeat rw [if_neg (by omega)]

section
variable {f : Nat} (hf : f < 34)
include hf

theorem odRow_requested : odRow (0x1100 + f) 2 = some requestedRow := by
  have hrows : ∀ g < 34, odRow (0x1100 + g) 2 = some requestedRow := by decide +kernel
  exact hrows f hf

/-- R304: REQUESTED takes 0 (Stopped) and 2 (Running) only. -/
theorem numOk_requested_iff (o : Otp) (d : Dev) (v : Nat) :
    numOk o d requestedRow (0x1100 + f) 2 v = true ↔ v = 0 ∨ v = 2 := by
  have hextra : rangeExtra d (0x1100 + f) 2 v = true := rangeExtra_of_lt d (by omega) 2 v
  simp [numOk, rangeOk, hextra, odInRange, requestedRow, Nat.mod_one]

/-- R304: with the checks before the range passed, a value in range reaches the function. -/
theorem odWrite_requested (o : Otp) {d : Dev} {can : Bool} {bs : List Byte}
    (hcheck : checkAbort d can (0x1100 + f) 2 bs.length = none) (hval : leNat bs = 0 ∨ leNat bs = 2) :
    odWrite o d can (0x1100 + f) 2 bs = writeRequested d can f (leNat bs) := by
  have hnum : numOk o d requestedRow (0x1100 + f) 2 (leNat bs) = true := (numOk_requested_iff hf o d _).2 hval
  have hsize : odSize requestedRow.ty = 1 := rfl
  have hindex : 0x1100 + f < 0x1122 := by omega
  simp [odWrite, hcheck, odRow_requested hf, hsize, hnum, hindex]

end

/-! ### Requests to stop -/

/-- R309: over CAN FD, whatever state the CAN FD port function is in. -/
theorem writeRequested_canStop (d : Dev) :
    writeRequested d true (portFn 3) 0 = (d, some (0x090C, 0x1100 + portFn 3, 2)) := rfl

/-- R304, R306: over the mailbox a Running or Faulted function accepts a stop. -/
theorem writeRequested_stop {d : Dev} {f : Nat} (hup : actual d f = 2 ∨ actual d f = 4) :
    writeRequested d false f 0 = (requestStopped d f, none) := by
  unfold writeRequested
  rw [if_neg (by simp), if_neg (by omega), if_neg (by decide)]

/-- R306: only USB and the compute pool do more at a request to stop than move to Stopping. -/
theorem requestStopped_of_ne {d : Dev} {f : Nat} (husb : f ≠ portFn 0) (hpool : f ≠ 0) :
    requestStopped d f = setActual (setRequested d f 0) f 3 := by
  simp only [requestStopped, if_neg husb, if_neg hpool]

/-- Settles O15: the write reaches the CAN FD port function's REQUESTED over both transports, and
there the refusal of R309 asks for CAN FD. -/
theorem canStopOverCanIsRefused : Obligations.CanStopOverCanIsRefused := by
  intro o d bs hstop
  have hf : (0x20 : Nat) < 34 := by decide
  refine ⟨fun hcheck => ?overCan, fun hcheck hup => ?overMailbox⟩
  case overCan =>
    rw [odWrite_requested hf o hcheck (.inl hstop), hstop]
    exact writeRequested_canStop d
  case overMailbox =>
    refine ⟨setActual (setRequested d 0x20 0) 0x20 3, ?_, by simp, by simp⟩
    rw [odWrite_requested hf o hcheck (.inl hstop), hstop, writeRequested_stop hup,
      requestStopped_of_ne (by decide) (by decide)]

end Sys2Proof.Proofs

/-! How the DRAM channels interleave over an aligned 2 KiB block (R456). -/

namespace Sys2Proof.Proofs

open Sys2Proof.Machine

/-- Within an aligned 2 KiB block bits 18:16 of the address are constant: they are those of the
block's number `b`, and the 256 B sub-block alone moves the channel. -/
theorem dramChannel_block (b : Nat) {i : Nat} (hi : i < 2048) :
    dramChannel (2048 * b + i) = (i / 256) ^^^ (b / 32 % 8) := by
  have hlow : (2048 * b + i) / 256 % 8 = i / 256 := by omega
  have hhigh : (2048 * b + i) / 65536 % 8 = b / 32 % 8 := by omega
  rw [dramChannel, hlow, hhigh]

/-- XOR undoes itself, so within a block each channel is met in exactly one 256 B sub-block. -/
theorem dramChannel_block_eq_iff (b ch : Nat) {i : Nat} (hi : i < 2048) :
    dramChannel (2048 * b + i) = ch ↔ i / 256 = ch ^^^ (b / 32 % 8) := by
  rw [dramChannel_block b hi]
  constructor
  · rintro rfl
    exact (Nat.xor_xor_cancel_right _ _).symm
  · intro h
    rw [h, Nat.xor_xor_cancel_right]

/-- A sub-block of 256 B that lies in the 2 KiB block holds 256 of its bytes. -/
theorem count_subblock {j : Nat} (hj : j < 8) : Nat.count (fun i => i / 256 = j) 2048 = 256 := by
  have hIco : {i ∈ Finset.range 2048 | i / 256 = j} = Finset.Ico (256 * j) (256 * j + 256) := by
    ext i
    simp only [Finset.mem_filter, Finset.mem_range, Finset.mem_Ico]
    omega
  rw [Nat.count_eq_card_filter_range, hIco, Nat.card_Ico, Nat.add_sub_cancel_left]

/-- Settles O56: a channel's bytes in the block are those of the one sub-block it is met in. -/
theorem dramChannelsInterleave : Obligations.DramChannelsInterleave := by
  refine ⟨fun a => rfl, fun b ch hch => ?_⟩
  have hsub : ch ^^^ (b / 32 % 8) < 8 :=
    Nat.xor_lt_two_pow (n := 3) hch (Nat.mod_lt _ (by decide))
  have hfilter : ((List.range 2048).filter fun i => dramChannel (2048 * b + i) == ch)
      = (List.range 2048).filter fun i => decide (i / 256 = ch ^^^ (b / 32 % 8)) :=
    List.filter_congr fun i hi => by
      rw [Bool.eq_iff_iff, beq_iff_eq, decide_eq_true_iff]
      exact dramChannel_block_eq_iff b ch (List.mem_range.1 hi)
  rw [hfilter, ← List.countP_eq_length_filter]
  exact count_subblock hsub

end Sys2Proof.Proofs

/-! Bits of machine words, and the ways in which a command reaches its next state. -/

namespace Sys2Proof.Proofs

open Sys2Proof.Machine

/-! ### Bits -/

/-- The model's bit of a word is the library's. -/
theorem bit_eq_getLsbD {n : Nat} (r : BitVec n) (i : Nat) : bit r i = r.getLsbD i := by
  rw [bit, fld, BitVec.getLsbD, Nat.testBit_eq_decide_div_mod_eq, Nat.shiftRight_eq_div_pow, pow_one]
  exact Bool.beq_eq_decide_eq _ _

theorem bit_or {n : Nat} (a b : BitVec n) (i : Nat) : bit (a ||| b) i = (bit a i || bit b i) := by
  simp only [bit_eq_getLsbD, BitVec.getLsbD_or]

theorem bit_and {n : Nat} (a b : BitVec n) (i : Nat) : bit (a &&& b) i = (bit a i && bit b i) := by
  simp only [bit_eq_getLsbD, BitVec.getLsbD_and]

theorem bit_ofNat_two_pow {n i : Nat} (j : Nat) (hi : i < n) : bit (BitVec.ofNat n (2 ^ j)) i = decide (j = i) := by
  rw [bit_eq_getLsbD, BitVec.getLsbD_ofNat, Nat.testBit_two_pow]
  simp [hi]

/-! ### How a command reaches its next state -/

/-- What each command comes to: a change of the device unless its island is held in reset, the end of a fuse
programming, or a reset or an instruction of the test access port, which no island's reset stops. -/
inductive Form (s : State) : Instr → Host.Outcome State Fault Refusal → Prop
  | dev (c : Instr) (f : Dev → Dev) : Form s c (nextDev s f)
  | mgc (c : Instr) (f : Dev → Dev) : Form s c (nextMgc s f)
  | fuses : Form s .fuseProgramDone (nextAll s fuseProgramDone)
  | porstFall (mask : BitVec 64) : Form s (.porstNFall mask) (.next (porstFall s mask))
  | porstRise (mode : Fin 4) (node : BitVec 6) (test : Bool) :
      Form s (.porstNRise mode node test) (.next (porstRise s mode node.toNat test))
  | sysrstAssert (ns : BitVec 32) (mask : BitVec 64) : Form s (.sysrstNAssert ns mask) (.next (sysrstAssert s ns.toNat mask))
  | sysrstRise : Form s .sysrstNRise (.next (sysrstRise s))
  | warm (c : Instr) (cause : Nat) (mask : BitVec 64) : Form s c (.next (warmReset s cause mask false))
  | tapReset : Form s .tapReset (.next (onDev s fun d => { d with ctl := { d.ctl with tap := .idcode } }))
  | tap (t : TapOp) : Form s (.tapInstruction t) (.next (onDev s fun d => tapInstruction d t))

/-- A register write by the application cluster on the device part alone (R9). -/
def registerEffect (a n : Nat) (v : W64) (d : Dev) : Dev := match registerWrite d a n v with
  | .done e => e
  | .refused => apcAddressError d a

theorem exec_registerWrite (a : Addr) (k : Fin 4) (v : W64) (s : State) :
    exec (.registerWrite a k v) s = nextDev s (registerEffect a.toNat (2 ^ k.val) v) := by
  change execRegisterWrite a k v s = _
  unfold execRegisterWrite nextDev onDev
  split
  · rfl
  · rw [registerEffect]
    cases registerWrite s.dev a.toNat (2 ^ k.val) v <;> rfl

/-- Every command takes one of the forms; all but those named change the device from outside the MGC's island. -/
theorem exec_form (c : Instr) (s : State) : Form s c (exec c s) := by
  cases c with
  | porstNFall mask => exact .porstFall mask
  | porstNRise mode node test => exact .porstRise mode node test
  | sysrstNAssert ns mask => exact .sysrstAssert ns mask
  | sysrstNRise => exact .sysrstRise
  | watchdogReset mask => exact .warm _ 2 mask
  | softwareReset mask => exact .warm _ 3 mask
  | tapReset => exact .tapReset
  | tapInstruction t => exact .tap t
  | fuseProgramDone => exact .fuses
  | registerWrite a k v => exact exec_registerWrite a k v s ▸ .dev _ _
  | canRequestFrame | monitorRead | thermalSample | bellowsWindow | tuOperationDone | attestSigned | debugTokenTested
  | tuKnownAnswerTests | mgcFirmwareStart | canJoin | canFrameReceive | canArbitration | canBusOff | canBusRecovery
  | canErrorStateChange | breathBoundary | storeComplete | storeRestore | mailboxPost | odRead | odWrite | odDescribe
  | writeSeg | readSeg | abandon | segTimeout | heartbeat | canEventFrame | requestRunning | requestStopped | store
  | storeErase | revoke | rollbackAdvance | fuseLock | attestNonce | debugToken | syncReferenceEvent => exact .mgc _ _
  | _ => exact .dev _ _

/-- Every command answers, keeps the queue, and touches the fuses only as the end of a programming or as a reset
that cuts one off (R522). -/
theorem exec_answers (c : Instr) (s : State) : ∃ t, exec c s = .next t ∧ t.pending = s.pending
    ∧ (t.otp = s.otp ∨ (∃ f, s.dev.tu.fuse = some f ∧ t.otp = fuseDone s.otp f) ∨ ∃ mask, t.otp = cutFuses s mask) := by
  generalize ho : exec c s = o
  have hform : Form s c o := ho ▸ exec_form c s
  cases hform with
  | dev c f =>
    have h := nextDev_answers (s := s) (f := f) rfl
    exact ⟨_, rfl, h.1, .inl h.2⟩
  | mgc c f =>
    have h := nextMgc_answers (s := s) (f := f) rfl
    exact ⟨_, rfl, h.1, .inl h.2⟩
  | fuses =>
    refine ⟨_, rfl, ?_⟩
    split
    · exact ⟨rfl, .inl rfl⟩
    · unfold fuseProgramDone
      split
      · exact ⟨rfl, .inl rfl⟩
      · rename_i f hf
        exact ⟨rfl, .inr (.inl ⟨f, hf, rfl⟩)⟩
  | porstFall mask => exact ⟨_, rfl, rfl, .inr (.inr ⟨mask, rfl⟩)⟩
  | porstRise mode node test =>
    refine ⟨_, rfl, ?_⟩
    unfold porstRise
    split <;> exact ⟨rfl, .inl rfl⟩
  | sysrstAssert ns mask =>
    refine ⟨_, rfl, ?_⟩
    simp only [sysrstAssert, warmReset]
    split
    · split
      · exact ⟨rfl, .inl rfl⟩
      · split
        · exact ⟨rfl, .inl rfl⟩
        · exact ⟨rfl, .inr (.inr ⟨mask, rfl⟩)⟩
    · exact ⟨rfl, .inl rfl⟩
  | sysrstRise => exact ⟨_, rfl, rfl, .inl rfl⟩
  | warm c cause mask =>
    refine ⟨_, rfl, ?_⟩
    unfold warmReset
    split
    · exact ⟨rfl, .inl rfl⟩
    · exact ⟨rfl, .inr (.inr ⟨mask, rfl⟩)⟩
  | tapReset => exact ⟨_, rfl, rfl, .inl rfl⟩
  | tap t => exact ⟨_, rfl, rfl, .inl rfl⟩

/-! ### The step, resets and the queue -/

/-- Settles O1: a step matches on the queue. -/
theorem stepRunsTheFrontCommand : Obligations.StepRunsTheFrontCommand :=
  fun _ _ _ hpending => step_cons hpending

/-- A step with no command waiting lets time pass. -/
theorem step_nil {s : State} (h : s.pending = []) : step s = .next (onDev s idleTick) := by
  rw [step, h]

theorem porstLow_false_of_mgcAwake {s : State} (h : MgcAwake s) : s.dev.ctl.porstLow = false := by
  cases hlow : s.dev.ctl.porstLow with
  | false => rfl
  | true => exact absurd h (by simp [(held_of_porstLow hlow).1])

/-- Settles O2: the idle tick by what holds the clock and the breath. -/
theorem idleStepPassesTime : Obligations.IdleStepPassesTime := by
  intro s hidle
  rw [step_nil hidle]
  refine ⟨fun hawake => ?awake, fun hlow hheld => ?mgcHeld, fun hlow => ?low⟩
  case awake =>
    have hlow := porstLow_false_of_mgcAwake hawake
    simp [onDev, idleTick, hlow, show s.dev.ctl.heldMgc = false from hawake]
  case mgcHeld => simp [onDev, idleTick, hlow, hheld]
  case low => simp [onDev, idleTick, hlow]

/-- Settles O3: every table of the reset state is empty, so each value read is its default. -/
theorem resetState : Obligations.ResetState := by
  refine ⟨rfl, fun w => ⟨rfl, rfl⟩, rfl, rfl, rfl, rfl, fun r => rfl, fun f _ => rfl, rfl, rfl, rfl, rfl, rfl,
    fun i sub => rfl, fun a => rfl⟩

/-- Settles O4 from the forms that a command can take. -/
theorem everyCommandRuns : Obligations.EveryCommandRuns := by
  intro c s
  obtain ⟨t, hexec, hpending, -⟩ := exec_answers c s
  exact ⟨t, hexec, hpending⟩

/-- Settles O7: a low PORST_N holds every island, a warm reset and the test access port alike. -/
theorem lowPorstStopsEverything : Obligations.LowPorstStopsEverything := by
  intro c s hlow hpin
  obtain ⟨hmgc, hheld⟩ := held_of_porstLow hlow
  generalize ho : exec c s = o
  have hform : Form s c o := ho ▸ exec_form c s
  cases hform with
  | dev c f => exact nextDev_held hheld
  | mgc c f => exact nextMgc_held hmgc
  | fuses => exact nextAll_held hmgc
  | warm c cause mask => simp [warmReset, hheld]
  | tap t => simp [onDev, tapInstruction, hlow]
  | _ => exact Bool.noConfusion (show true = false from hpin)

/-! ### The order of fuses -/

theorem slotLe_refl (k : KeySlot) : SlotLe k k := ⟨rfl, rfl, rfl, id⟩

theorem slotLe_trans {a b c : KeySlot} (hab : SlotLe a b) (hbc : SlotLe b c) : SlotLe a c := by
  obtain ⟨hed, hml, huse, hrev⟩ := hab
  obtain ⟨hed', hml', huse', hrev'⟩ := hbc
  exact ⟨hed.trans hed', hml.trans hml', huse.trans huse', fun h => hrev' (hrev h)⟩

/-- No rollback fuse is unblown exactly when each blown fuse stays blown. -/
theorem rollback_and_eq_iff {a b : BitVec 64} : a &&& b = a ↔ ∀ i, bit a i = true → bit b i = true := by
  constructor
  · intro h i hi
    have hbit : bit (a &&& b) i = true := by rw [h]; exact hi
    rw [bit_and, Bool.and_eq_true] at hbit
    exact hbit.2
  · intro h
    refine BitVec.eq_of_getLsbD_eq fun i _ => ?_
    rw [BitVec.getLsbD_and, ← bit_eq_getLsbD, ← bit_eq_getLsbD]
    cases hi : bit a i with
    | false => rfl
    | true => rw [h i hi, Bool.and_self]

theorem otpLe_trans {a b c : Otp} (hab : OtpLe a b) (hbc : OtpLe b c) : OtpLe a c where
  grade := hab.grade.trans hbc.grade
  siliconRev := hab.siliconRev.trans hbc.siliconRev
  serial := hab.serial.trans hbc.serial
  secret := hab.secret.trans hbc.secret
  fusedOff := hab.fusedOff.trans hbc.fusedOff
  repair := hab.repair.trans hbc.repair
  rollback := rollback_and_eq_iff.2 fun i hi =>
    rollback_and_eq_iff.1 hbc.rollback i (rollback_and_eq_iff.1 hab.rollback i hi)
  slots := fun k => slotLe_trans (hab.slots k) (hbc.slots k)

/-- A change of the rollback fuses alone that unblows none. -/
theorem otpLe_of_rollback (o : Otp) {r : BitVec 64} (h : ∀ i, bit o.rollback i = true → bit r i = true) :
    OtpLe o { o with rollback := r } :=
  ⟨rfl, rfl, rfl, rfl, rfl, rfl, rollback_and_eq_iff.2 h, fun _ => slotLe_refl _⟩

theorem otpLe_refl (o : Otp) : OtpLe o o := otpLe_of_rollback o fun _ => id

/-! ### Programming and cutting off -/

/-- Blowing a REVOKED fuse leaves the other slots, and all of its own slot but that fuse. -/
theorem otpLe_blowRevoked (o : Otp) (s : Nat) : OtpLe o (blowRevoked o s) := by
  refine ⟨rfl, rfl, rfl, rfl, rfl, rfl, BitVec.and_self, fun k => ?_⟩
  by_cases hk : k = s
  · subst hk
    have hslot : keySlot (blowRevoked o k) k = { keySlot o k with revoked := true } :=
      sget_supd (dflt := fun _ => ({} : KeySlot)) o.slots k fun x => { x with revoked := true }
    rw [hslot]
    exact ⟨rfl, rfl, rfl, fun _ => rfl⟩
  · have hslot : keySlot (blowRevoked o s) k = keySlot o k :=
      sget_supd_ne (dflt := fun _ => ({} : KeySlot)) o.slots (fun x => { x with revoked := true }) hk
    rw [hslot]
    exact slotLe_refl _

/-- Blown rollback fuses of a word. -/
def blown (r : BitVec 64) : Nat := (List.range 64).countP fun i => bit r i

@[simp] theorem rollbackCount_eq_blown (o : Otp) : rollbackCount o = blown o.rollback := rfl

theorem rollback_fuseDone_advance (o : Otp) (v : Nat) : (fuseDone o (.advance v)).rollback = thermo o v := rfl

theorem blown_mono {a b : BitVec 64} (h : ∀ i, bit a i = true → bit b i = true) : blown a ≤ blown b :=
  List.countP_mono_left fun i _ hi => h i hi

theorem blown_le (r : BitVec 64) : blown r ≤ 64 :=
  List.countP_le_length.trans List.length_range.le

theorem countP_or_le {α : Type} (p q : α → Bool) (l : List α) : l.countP (fun x => p x || q x) ≤ l.countP p + l.countP q := by
  induction l with
  | nil => exact Nat.le_refl 0
  | cons x l ih =>
    simp only [List.countP_cons]
    cases p x <;> cases q x <;> simp only [Bool.or_false, Bool.or_true] <;> omega

/-- One fuse more adds at most one to the count. -/
theorem blown_or_two_pow_le (r : BitVec 64) (j : Nat) : blown (r ||| BitVec.ofNat 64 (2 ^ j)) ≤ blown r + 1 := by
  have hone : (List.range 64).countP (fun i => i == j) ≤ 1 :=
    List.nodup_iff_count_le_one.1 List.nodup_range j
  have hbits : blown (r ||| BitVec.ofNat 64 (2 ^ j)) ≤ (List.range 64).countP (fun i => bit r i || i == j) := by
    refine List.countP_mono_left fun i hi hb => ?_
    rw [bit_or, bit_ofNat_two_pow j (List.mem_range.1 hi)] at hb
    simpa [eq_comm (a := i)] using hb
  exact hbits.trans ((countP_or_le _ _ _).trans (Nat.add_le_add_left hone _))

/-- Step i of an advance: fuse i is blown while the count is short of the value. -/
def thermoStep (v : Nat) (r : BitVec 64) (i : Nat) : BitVec 64 := if blown r < v then r ||| BitVec.ofNat 64 (2 ^ i) else r

theorem thermo_eq_foldl (o : Otp) (v : Nat) : thermo o v = (List.range 64).foldl (thermoStep v) o.rollback := rfl

theorem bit_thermoStep {v i j : Nat} {r : BitVec 64} (h : bit r j = true) : bit (thermoStep v r i) j = true := by
  unfold thermoStep
  split
  · rw [bit_or, h, Bool.true_or]
  · exact h

/-- After n steps every fuse below n is blown, or the count has reached the value; it never passes it. -/
theorem thermo_prefix {v : Nat} {r : BitVec 64} (hr : blown r ≤ v) (n : Nat) (hn : n ≤ 64) :
    let t := (List.range n).foldl (thermoStep v) r
    (∀ i, bit r i = true → bit t i = true) ∧ blown t ≤ v ∧ (blown t < v → ∀ i < n, bit t i = true) := by
  induction n with
  | zero => exact ⟨fun _ => id, hr, fun _ i hi => absurd hi (Nat.not_lt_zero i)⟩
  | succ n ih =>
    obtain ⟨hkeep, hle, hall⟩ := ih (by omega)
    rw [List.range_succ, List.foldl_append, List.foldl_cons, List.foldl_nil]
    generalize (List.range n).foldl (thermoStep v) r = t at hkeep hle hall
    refine ⟨fun i hi => bit_thermoStep (hkeep i hi), ?_, fun hlt i hi => ?_⟩
    · unfold thermoStep
      split
      · have := blown_or_two_pow_le t n
        omega
      · exact hle
    · by_cases hshort : blown t < v
      · rcases Nat.lt_succ_iff_lt_or_eq.1 hi with hi | rfl
        · exact bit_thermoStep (hall hshort i hi)
        · rw [thermoStep, if_pos hshort, bit_or, bit_ofNat_two_pow _ (by omega)]
          simp
      · rw [thermoStep, if_neg hshort] at hlt
        exact absurd hlt hshort

/-- An advance unblows nothing, whatever its value. -/
theorem bit_thermo (o : Otp) (v : Nat) {i : Nat} (h : bit o.rollback i = true) : bit (thermo o v) i = true := by
  rw [thermo_eq_foldl]
  exact List.foldlRecOn (motive := fun r => bit r i = true) _ _ h fun r hr j _ => bit_thermoStep hr

/-- An advance to a value it can reach reaches it (R521). -/
theorem blown_thermo {o : Otp} {v : Nat} (hlo : rollbackCount o ≤ v) (hhi : v ≤ 64) : blown (thermo o v) = v := by
  obtain ⟨-, hle, hall⟩ := thermo_prefix hlo 64 le_rfl
  rw [← thermo_eq_foldl] at hle hall
  by_contra hne
  have hfull : (List.range 64).countP (fun i => bit (thermo o v) i) = (List.range 64).length :=
    List.countP_eq_length.2 fun i hi => hall (by omega) i (List.mem_range.1 hi)
  have h64 : blown (thermo o v) = 64 := by rw [blown, hfull, List.length_range]
  omega

theorem otpLe_fuseDone (o : Otp) (f : FuseOp) : OtpLe o (fuseDone o f) := by
  cases f with
  | revoke k => exact otpLe_blowRevoked o k
  | advance v => exact otpLe_of_rollback o fun i => bit_thermo o v

theorem otpLe_fuseCut (o : Otp) (mask : BitVec 64) (f : FuseOp) : OtpLe o (fuseCut o mask f) := by
  cases f with
  | revoke k =>
    change OtpLe o (if bit mask 0 then blowRevoked o k else o)
    split
    · exact otpLe_blowRevoked o k
    · exact otpLe_refl o
  | advance v => exact otpLe_of_rollback o fun i hi => by rw [bit_or, hi, Bool.true_or]

theorem otpLe_cutFuses (s : State) (mask : BitVec 64) : OtpLe s.otp (cutFuses s mask) := by
  unfold cutFuses
  split
  · exact otpLe_fuseCut _ _ _
  · exact otpLe_refl _

theorem otpLe_exec {c : Instr} {s t : State} (h : exec c s = .next t) : OtpLe s.otp t.otp := by
  obtain ⟨u, hu, -, hotp⟩ := exec_answers c s
  obtain rfl : u = t := by rw [hu] at h; exact Host.Outcome.next.inj h
  rcases hotp with hsame | ⟨f, -, hdone⟩ | ⟨mask, hcut⟩
  · exact hsame ▸ otpLe_refl _
  · exact hdone ▸ otpLe_fuseDone _ f
  · exact hcut ▸ otpLe_cutFuses s mask

/-- Settles O5: each way in which a command touches the fuses only blows some. -/
theorem fusesOnlyBlow : Obligations.FusesOnlyBlow := by
  intro o s t hle hstep
  refine otpLe_trans hle ?_
  cases hpending : s.pending with
  | nil =>
    rw [step_nil hpending] at hstep
    exact Host.Outcome.next.inj hstep ▸ otpLe_refl _
  | cons c rest =>
    rw [step_cons hpending] at hstep
    exact otpLe_exec (s := { s with pending := rest }) hstep

/-- The commands of the MGC's island and of the fuses while no reset holds it. -/
theorem exec_fuseProgramDone {s : State} (h : MgcAwake s) : exec .fuseProgramDone s = .next (fuseProgramDone s) :=
  nextAll_awake h

theorem fuseProgrammingCompletes : Claim.FuseProgrammingCompletes := by
  intro s
  refine ⟨fun hawake k hfuse => ?revoke, fun hawake v hfuse => ?advance, fun v mask hfuse => ⟨_, rfl, ?cut⟩⟩
  case revoke => rw [exec_fuseProgramDone hawake, fuseProgramDone, hfuse]; rfl
  case advance => rw [exec_fuseProgramDone hawake, fuseProgramDone, hfuse]; rfl
  case cut =>
    change cutFuses s mask = _
    rw [cutFuses, hfuse]
    rfl

theorem rollbackReachesItsValue : Claim.RollbackReachesItsValue := fun o v hlo hhi =>
  ⟨by rw [rollbackCount_eq_blown, rollback_fuseDone_advance, blown_thermo hlo hhi], (otpLe_fuseDone o (.advance v)).rollback⟩

/-- What is blown after a cut lies between the old fuses and those of the whole programming. -/
theorem cutProgrammingEndsBetween : Claim.CutProgrammingEndsBetween := by
  intro o v mask hlo hhi
  refine ⟨blown_mono fun i hi => ?_, ?_⟩
  · exact rollback_and_eq_iff.1 (otpLe_fuseCut o mask (.advance v)).rollback i hi
  · refine (blown_mono fun i hi => ?_).trans (blown_thermo hlo hhi).le
    change bit (o.rollback ||| (thermo o v &&& mask)) i = true at hi
    rw [bit_or, bit_and, Bool.or_eq_true, Bool.and_eq_true] at hi
    rcases hi with hold | ⟨hnew, -⟩
    · exact bit_thermo o v hold
    · exact hnew

/-- Settles O17. -/
theorem fusesBlowAsWritten : Obligations.FusesBlowAsWritten :=
  ⟨fuseProgrammingCompletes, rollbackReachesItsValue, cutProgrammingEndsBetween⟩

end Sys2Proof.Proofs

/-! The integer data path: INT8 and UINT8 rows against INT4 and INT8 weights (R82, R85, R170). -/

namespace Sys2Proof.Proofs

open Sys2Proof.Machine

/-! ### Integers as exact values -/

@[simp] theorem intVal_ofInt (n : Int) : intVal (ofInt n) = n := by
  unfold ofInt mkVal
  split
  · simp [intVal, *]
  · simp [intVal, pow2]

/-- Products of integers are exact. -/
theorem intVal_vmul_ofInt (m n : Int) : intVal (vmul (ofInt m) (ofInt n)) = m * n := by
  unfold ofInt mkVal
  split <;> split <;> simp [vmul, intVal, pow2, *]

/-- The sum of a column is the sum of the integers its products are (R82). -/
theorem intColumn_eq_sum (ps : List Val) : intColumn ps = (ps.map intVal).sum := by
  have hfold : ∀ (l : List Val) (s : Int), l.foldl (fun s p => s + intVal p) s = s + (l.map intVal).sum := by
    intro l
    induction l with
    | nil => simp
    | cons p l ih => intro s; rw [List.foldl_cons, ih, List.map_cons, List.sum_cons, Int.add_assoc]
  rw [intColumn, hfold, Int.zero_add]

/-- A sum whose terms are at most B in magnitude. -/
theorem natAbs_sum_le {α : Type} (f : α → Int) (B : Nat) (l : List α) (h : ∀ x ∈ l, (f x).natAbs ≤ B) :
    ((l.map f).sum).natAbs ≤ l.length * B := by
  induction l with
  | nil => simp
  | cons x l ih =>
    have hx := h x List.mem_cons_self
    have hl := ih fun y hy => h y (List.mem_cons_of_mem _ hy)
    rw [List.map_cons, List.sum_cons, List.length_cons, Nat.succ_mul]
    omega

/-! ### Elements of the integer formats -/

/-- Elements of a format are integers of at most B in magnitude. -/
def IntegerElements (f : Fmt) (B : Nat) : Prop := ∀ raw, ∃ n : Int, elemVal f raw = ofInt n ∧ n.natAbs ≤ B

theorem natAbs_sext_le (w v : Nat) (hw : 0 < w) : (sext w v).natAbs ≤ 2 ^ (w - 1) := by
  have hlt : v % 2 ^ w < 2 ^ w := Nat.mod_lt _ (by positivity)
  have hdouble : (2 : Nat) ^ w = 2 * 2 ^ (w - 1) := by rw [← Nat.pow_succ', Nat.succ_eq_add_one, Nat.sub_add_cancel hw]
  have hcast : ((2 : Int) ^ w) = ((2 ^ w : Nat) : Int) := by push_cast; rfl
  simp only [sext]
  split <;> omega

theorem integerElements_int8 : IntegerElements .int8 128 := fun raw => ⟨_, rfl, natAbs_sext_le 8 raw (by decide)⟩

theorem integerElements_int4 : IntegerElements .int4 128 := fun raw =>
  ⟨_, rfl, (natAbs_sext_le 4 raw (by decide)).trans (by decide)⟩

theorem integerElements_uint8 : IntegerElements .uint8 255 := fun raw => ⟨_, rfl, by
  change (((raw % 256 : Nat) : Int)).natAbs ≤ 255
  omega⟩

/-! ### PM adds of integers -/

/-- Where a sum stays within INT32, the clamp leaves it. -/
theorem satInt_of_inRange {v : Int} (hlo : -2147483648 ≤ v) (hhi : v ≤ 2147483647) : satInt v = (v, false) := by
  rw [satInt, if_neg (by omega), if_neg (by omega)]

theorem toInt_ofInt_of_inRange {v : Int} (hlo : -2147483648 ≤ v) (hhi : v ≤ 2147483647) :
    (BitVec.ofInt 32 v).toInt = v := by
  rw [BitVec.toInt_ofInt]
  exact Int.bmod_eq_of_le (by omega) (by omega)

/-- An add, or the write in place of the first block, whose sum stays within INT32 (R85, R87). -/
theorem pmInt_of_inRange {e : PmEntry} {first : Bool} {c v : Int} {p : Bool} (hv : (if first then c else e.bits.toInt + c) = v)
    (hlo : -2147483648 ≤ v) (hhi : v ≤ 2147483647) :
    (pmInt e first c p).bits.toInt = v ∧ (pmInt e first c p).sat = (!first && e.sat)
      ∧ (pmInt e first c p).poison = (p || (!first && e.poison)) := by
  simp only [pmInt, hv, satInt_of_inRange hlo hhi]
  exact ⟨toInt_ofInt_of_inRange hlo hhi, Bool.false_or _, trivial⟩

/-! ### One pass -/

/-- A pair of integer formats but INT16 runs in one beat, whose contribution is the exact sum of the products. -/
theorem beatSums_eq {fa fw : Fmt} (hpair : floatPair fa fw = false) (ha : fa ≠ .int16) (hw : fw ≠ .int16)
    (gs : List (List Nat)) (as ws : List Val) :
    beatSums fa fw gs as ws = [{ v := ofInt (intColumn (List.zipWith vmul as ws)) }] := by
  have hact : actParts fa fw = fun v => [v] := by
    funext v
    cases fa <;> simp_all [actParts]
  have hwgt : wgtParts fa fw = fun v => [v] := by
    funext v
    cases fw <;> simp_all [wgtParts]
  have hlen : ∀ l : List Val, ((l.map fun v => [v]).headD [.zero false]).length = 1 := by
    intro l
    cases l <;> rfl
  simp only [beatSums, hact, hwgt, hlen, List.range_one, List.flatMap_cons, List.flatMap_nil, List.map_cons, List.map_nil,
    List.append_nil, columnSum, hpair, List.zipWith_map, List.getD_cons_zero]
  rfl

/-- The elements of the first n passes, and of the pass after them. -/
theorem range_passes_succ (kd dk n : Nat) :
    List.range (min dk ((n + 1) * kd)) = List.range (min dk (n * kd)) ++ kRange kd dk n := by
  rw [kRange]
  by_cases h : n * kd ≤ dk
  · have hsum : min dk ((n + 1) * kd) = n * kd + min kd (dk - n * kd) := by rw [Nat.succ_mul]; omega
    rw [hsum, Nat.min_eq_right h, List.range_add]
  · have hnone : min kd (dk - n * kd) = 0 := by omega
    have hsame : min dk ((n + 1) * kd) = min dk (n * kd) := by rw [Nat.succ_mul]; omega
    rw [hnone, hsame, List.range_zero, List.map_nil, List.append_nil]

/-- The product of row m's element k and channel ch's weight of it, as the integer it is. -/
def intProduct (d : Dev) (x : Mat) (m ch k : Nat) : Int := intVal (aVal d x m k) * intVal (wVal d x k ch)

/-- What a pass over the elements ks adds on the integer path. -/
theorem pass_contribution {d : Dev} {x : Mat} {m ch : Nat} (ks : List Nat) {B C : Nat}
    (ha : IntegerElements (matFa x) B) (hw : IntegerElements (matFw x) C) (hcb : matFw x ≠ .cb4) :
    intColumn (List.zipWith vmul (ks.map (aVal d x m)) (ks.map fun k => wVal d x k ch)) = (ks.map (intProduct d x m ch)).sum
    ∧ ∀ k, (intProduct d x m ch k).natAbs ≤ B * C := by
  have hproduct : ∀ k, intVal (vmul (aVal d x m k) (wVal d x k ch)) = intProduct d x m ch k
      ∧ (intProduct d x m ch k).natAbs ≤ B * C := by
    intro k
    obtain ⟨i, hi, hiB⟩ := ha (if x.list.contains k then realZero (matFa x) (dZp x.a) else aRaw d x m k)
    obtain ⟨j, hj, hjC⟩ := hw (elemRaw d x.pw x.w (wIx x k ch))
    have haVal : aVal d x m k = ofInt i := hi
    have hwVal : wVal d x k ch = ofInt j := (if_neg hcb).trans hj
    rw [intProduct, haVal, hwVal, intVal_vmul_ofInt, intVal_ofInt, intVal_ofInt, Int.natAbs_mul]
    exact ⟨rfl, Nat.mul_le_mul hiB hjC⟩
  refine ⟨?_, fun k => (hproduct k).2⟩
  rw [intColumn_eq_sum, List.zipWith_map, List.zipWith_self, List.map_map]
  exact congrArg List.sum (List.map_congr_left fun k _ => (hproduct k).1)

/-! ### Every pass -/

/-- After n passes of bounded products the entry holds their exact sum, with no saturation. -/
theorem passes_exact {float : Bool} (hfloat : float = false) {prod : Nat → Int} {kd dk B : Nat} (hB : ∀ k, (prod k).natAbs ≤ B)
    (hfits : dk * B ≤ 2147483647) (poison : Nat → Bool) (n : Nat) :
    let e := (List.range n).foldl (fun (e : PmEntry) kb =>
      pmRow float e (kb == 0) (poison kb) [{ v := ofInt ((kRange kd dk kb).map prod).sum }]) {}
    e.bits.toInt = ((List.range (min dk (n * kd))).map prod).sum ∧ e.sat = false := by
  induction n with
  | zero => simp
  | succ n ih =>
    rw [List.range_succ, List.foldl_append, List.foldl_cons, List.foldl_nil]
    generalize (List.range n).foldl _ _ = e at ih
    obtain ⟨hbits, hsat⟩ := ih
    have hbound : ((List.range (min dk ((n + 1) * kd))).map prod).sum.natAbs ≤ 2147483647 := by
      refine (natAbs_sum_le prod B _ fun k _ => hB k).trans (le_trans ?_ hfits)
      rw [List.length_range]
      exact Nat.mul_le_mul_right B (Nat.min_le_left _ _)
    have hvalue : (if (n == 0) then ((kRange kd dk n).map prod).sum else e.bits.toInt + ((kRange kd dk n).map prod).sum)
        = ((List.range (min dk ((n + 1) * kd))).map prod).sum := by
      rw [range_passes_succ, List.map_append, List.sum_append]
      cases n with
      | zero => simp
      | succ n => rw [hbits]; rfl
    subst hfloat
    have hstep := pmInt_of_inRange (p := poison n) hvalue (by omega) (by omega)
    simp only [pmRow, intVal_ofInt, Bool.false_eq_true, if_false]
    exact ⟨hstep.1, by rw [hstep.2.1, hsat, Bool.and_false]⟩

/-- Settles O28: 65,535 products of at most 255 × 128 stay within INT32. -/
theorem integerProductIsExact : Obligations.IntegerProductIsExact := by
  intro d x held ai m ch hfa hfw hdk
  have ha : IntegerElements (matFa x) 255 := by
    rcases hfa with h | h <;> rw [h]
    · exact fun raw => (integerElements_int8 raw).imp fun n hn => ⟨hn.1, hn.2.trans (by decide)⟩
    · exact integerElements_uint8
  have hw : IntegerElements (matFw x) 128 := by
    rcases hfw with h | h <;> rw [h]
    · exact integerElements_int4
    · exact integerElements_int8
  have hformats : floatPair (matFa x) (matFw x) = false ∧ matFa x ≠ .int16 ∧ matFw x ≠ .int16 ∧ matFw x ≠ .cb4 := by
    rcases hfa with ha | ha <;> rcases hfw with hw | hw <;> rw [ha, hw] <;> decide
  obtain ⟨hpair, ha16, hw16, hcb⟩ := hformats
  have hpass (ks : List Nat) := pass_contribution (d := d) (m := m) (ch := ch) ks ha hw hcb
  simp only [accumulate, beatSums_eq hpair ha16 hw16, (hpass _).1]
  exact passes_exact hpair (hpass []).2 (by omega) _ _

end Sys2Proof.Proofs

/-! The TU's tests of images and tokens, its reports, and the requests that reach the management controller. -/

namespace Sys2Proof.Proofs

open Sys2Proof.Machine

/-! ### Chains of tests (Tables 17.4 and 17.10) -/

/-- A chain of tests passes when its first test does and the rest of the chain. -/
theorem ite_some_eq_none_iff {α : Type} {c : Prop} [Decidable c] {a : α} {rest : Option α} :
    (if c then some a else rest) = none ↔ ¬c ∧ rest = none := by
  by_cases h : c <;> simp [h]

theorem slotOk_iff (o : Otp) (k use : Nat) : slotOk o k use = true ↔
    k < 4 ∧ programmed (keySlot o k) = true ∧ (keySlot o k).revoked = false ∧ bit (keySlot o k).use use = true := by
  simp [slotOk, and_assoc]

theorem keysOk_iff (o : Otp) (k : Nat) (ed ml : List Byte) : keysOk o k ed ml = true ↔
    Config.sha512 ed = (keySlot o k).edHash ∧ Config.sha512 ml = (keySlot o k).mldsaHash := by
  simp [keysOk]

theorem passedHeaderMeetsEveryTest : Claim.PassedHeaderMeetsEveryTest := by
  intro o want at' h
  simp only [headerTests, ite_some_eq_none_iff, not_or, not_not, Bool.not_eq_false, slotOk_iff, keysOk_iff, Nat.not_lt,
    and_assoc, and_true]

theorem passedTokenMeetsEveryTest : Claim.PassedTokenMeetsEveryTest := by
  intro o d t
  simp only [tokenFault, ite_some_eq_none_iff, not_or, not_not, Bool.not_eq_false, slotOk_iff, keysOk_iff, Nat.not_le,
    and_assoc, and_true]

/-- Settles O16: both tests are chains that pass exactly when each link does. -/
theorem passedImagesMeetEveryTest : Obligations.PassedImagesMeetEveryTest :=
  ⟨passedHeaderMeetsEveryTest, passedTokenMeetsEveryTest⟩

/-! ### Reports (R533, R534) -/

section
variable {s : State} (h : MgcAwake s)
include h

theorem exec_attestSigned : exec .attestSigned s = .next (onDev s (attestSigned s.otp)) := nextMgc_awake h
theorem exec_debugTokenTested : exec .debugTokenTested s = .next (onDev s (tokenTested s.otp)) := nextMgc_awake h

end

/-- A change that leaves the device leaves the state. -/
theorem onDev_eq_self {s : State} {f : Dev → Dev} (h : f s.dev = s.dev) : onDev s f = s := by
  rw [onDev, h]

@[simp] theorem length_fit (n : Nat) (bs : List Byte) : (fit n bs).length = n := by
  rw [fit, List.length_append, List.length_take, List.length_replicate]
  omega

/-- Padding or cutting leaves what fits in both. -/
theorem take_fit {m n : Nat} {bs : List Byte} (hbs : m ≤ bs.length) (hn : m ≤ n) : (fit n bs).take m = bs.take m := by
  rw [fit, List.take_append_of_le_length (by rw [List.length_take]; omega), List.take_take, Nat.min_eq_left hn]

theorem reportIsSigned : Claim.ReportIsSigned := by
  intro s h
  rw [exec_attestSigned h]
  refine ⟨fun hasked => ?_, fun hnot => ?_⟩
  · simp only [onDev, attestSigned, hasked, if_true, identitySign, List.append_assoc]
  · rw [onDev_eq_self (by rw [attestSigned, if_neg hnot])]

/-- The report's first eight bytes: magic, version 1, count of measurements (Table 17.9). -/
theorem take_reportBody (o : Otp) (d : Dev) :
    (reportBody o d).take 8 = leBytes 4 0x4C514154 ++ leBytes 2 1 ++ leBytes 2 d.tu.meas.length := by
  rw [reportBody, take_fit (by simp only [List.length_append, leBytes, List.length_cons, List.length_nil]; omega) (by decide)]
  rfl

theorem reportHasItsLength : Claim.ReportHasItsLength := by
  intro o d
  have hlength : (reportBody o d).length = 1088 := length_fit _ _
  refine ⟨hlength, ?_, ?_, ?_⟩
  · have htake : (reportBody o d).take 4 = ((reportBody o d).take 8).take 4 := by rw [List.take_take]; rfl
    rw [htake, take_reportBody]
    rfl
  · have hslice : bslice (reportBody o d) 6 2 = ((reportBody o d).take 8).drop 6 := by rw [bslice, List.drop_take]
    rw [hslice, take_reportBody]
    rfl
  · rw [List.length_append, hlength, identitySign, List.length_append, length_fit, length_fit]

/-! ### Debug tokens (R538) -/

@[simp] theorem drawNonce_tu (d : Dev) : (drawNonce d).tu = d.tu := rfl
@[simp] theorem domOf_drawNonce (d : Dev) : domOf (drawNonce d) 0x6030 1 = (List.range 16).map (Config.trng d.freeNo) :=
  domOf_setDom _ _ _ _
@[simp] theorem cnt_drawNonce (d : Dev) (i sub : Nat) : cnt (drawNonce d) i sub = cnt d i sub := rfl

theorem tokenTested_of_nil {o : Otp} {d : Dev} (h : d.tu.tokens = []) : tokenTested o d = d := by
  simp only [tokenTested, h]

section
variable {o : Otp} {d : Dev} {tok : List Byte} {rest : List (List Byte)} (htokens : d.tu.tokens = tok :: rest)
include htokens

theorem tokenTested_of_lockedOut (h : cnt d 0x6030 3 = 2) :
    tokenTested o d = { d with tu := { d.tu with tokens := rest } } := by
  simp only [tokenTested, htokens]
  exact if_pos h

theorem tokenTested_of_pass (h : cnt d 0x6030 3 ≠ 2) (hpass : tokenFault o d tok = none) :
    tokenTested o d = drawNonce (postEvent (setCnt (setCnt (updTu d fun u => { u with tokens := rest }) 0x6030 3 1) 0x6030 4
      (cnt d 0x6030 4 ||| bfield tok 7 1)) 0x1104 2 srcTu (bfield tok 7 1 + bfield tok 6 1 % 4 * 256)) := by
  have hfault : tokenFault o (updTu d fun u => { u with tokens := rest }) tok = none := hpass
  simp only [tokenTested, htokens, cnt_updTu, if_neg h, hfault]

theorem tokenTested_of_fault (h : cnt d 0x6030 3 ≠ 2) {c : Nat} (hfault : tokenFault o d tok = some c) :
    let n := cnt d 0x6030 5 + 1
    let e := setCnt (updTu d fun u => { u with tokens := rest }) 0x6030 5 n
    tokenTested o d = drawNonce (postEvent (if 8 ≤ n then setCnt e 0x6030 3 2 else e) 0x1105 2 srcTu (c + n * 256)) := by
  have hfault : tokenFault o (updTu d fun u => { u with tokens := rest }) tok = some c := hfault
  simp only [tokenTested, htokens, cnt_updTu, if_neg h, hfault]
  rfl

end

theorem debugTokensAreTested : Claim.DebugTokensAreTested := by
  intro s h
  rw [exec_debugTokenTested h]
  refine ⟨fun hnone => by rw [onDev_eq_self (tokenTested_of_nil hnone)], fun tok rest htokens => ⟨fun hlocked => ?_, fun hopen => ?_⟩⟩
  · rw [onDev, tokenTested_of_lockedOut htokens hlocked]
    rfl
  · refine ⟨_, rfl, rfl, rfl, ?_⟩
    cases hfault : tokenFault s.otp s.dev tok with
    | none =>
      rw [onDev_dev, tokenTested_of_pass htokens hopen hfault]
      simp (disch := decide) [cnt_setCnt_ne]
    | some c =>
      have htested := tokenTested_of_fault htokens hopen hfault
      simp only at htested
      rw [onDev_dev, htested]
      by_cases hlimit : 8 ≤ cnt s.dev 0x6030 5 + 1 <;> simp (disch := decide) [hlimit, cnt_setCnt_ne]

/-- Settles O18. -/
theorem reportsAndTokensRun : Obligations.ReportsAndTokensRun :=
  ⟨reportIsSigned, reportHasItsLength, debugTokensAreTested⟩

/-! ### The request at the front of the queue (R300, R317) -/

/-- A request of the kind wanted leaves the queue and is served over the transport it came by. -/
theorem serveFront_eq {want : Bool → Nat × Nat × Nat × Nat → Bool} {o : Otp} {d : Dev} {r : OdReq} {rest : List OdReq}
    (hqueue : d.mgc.odq = r :: rest) (hwant : want (overCan r) (reqKind d r) = true) :
    serveFront want o d = servedBy o { d with mgc := { d.mgc with odq := rest } } r := by
  cases r with
  | can bs =>
    rw [overCan] at hwant
    simp only [serveFront, hqueue, hwant, if_true]
    rfl
  | mailbox n =>
    rw [overCan] at hwant
    simp only [serveFront, hqueue, hwant, if_true]
    rfl

/-- A row that serves requests of the kind wanted. -/
theorem serves {s : State} {r : OdReq} {rest : List OdReq} (h : MgcAwake s) (hqueue : s.dev.mgc.odq = r :: rest)
    {want : Bool → Nat × Nat × Nat × Nat → Bool} (hwant : want (overCan r) (reqKind s.dev r) = true) :
    nextMgc s (serveFront want s.otp) = .next { s with dev := servedBy s.otp { s.dev with mgc := { s.dev.mgc with odq := rest } } r } := by
  rw [nextMgc_awake h, onDev, serveFront_eq hqueue hwant]

/-- Settles O13: every request row serves the front request of the kind it wants. -/
theorem frontRequestIsServed : Obligations.FrontRequestIsServed := by
  intro s r rest h hqueue
  have serve {want : Bool → Nat × Nat × Nat × Nat → Bool} (hwant : want (overCan r) (reqKind s.dev r) = true) :=
    serves h hqueue hwant
  refine ⟨_, rfl, fun hread => serve (want := isRead) hread, fun hkind => ?write, fun hkind => ?describe,
    fun hcan hkind => ?writeSeg, fun hcan hkind => ?readSeg, fun hcan hkind => ?abandon, fun hreq => ?running, fun hreq => ?stopped,
    fun hwrite hval => ?store, fun hwrite hval => ?erase, fun hwrite => ?revoke, fun hwrite => ?advance, fun hwrite => ?lock,
    fun hwrite => ?nonce, fun hwrite => ?token⟩
  case write => exact serve (want := fun _ k => k.1 == 2) (by simp [hkind])
  case describe => exact serve (want := fun _ k => k.1 == 3) (by simp [hkind])
  case writeSeg => exact serve (want := fun c k => c && k.1 == 4) (by simp [hkind, hcan])
  case readSeg => exact serve (want := fun c k => c && k.1 == 5) (by simp [hkind, hcan])
  case abandon => exact serve (want := fun c k => c && k.1 == 6) (by simp [hkind, hcan])
  case running => exact serve (want := fun _ k => isRequested 2 k) hreq
  case stopped => exact serve (want := fun _ k => isRequested 0 k) hreq
  case store => exact serve (want := fun _ k => isWrite 0x1400 1 k && k.2.2.2 == 1) (by simp [hwrite, hval])
  case erase => exact serve (want := fun _ k => isWrite 0x1400 1 k && k.2.2.2 == 2) (by simp [hwrite, hval])
  case revoke => exact serve (want := fun _ k => isWrite 0x6001 3 k) hwrite
  case advance => exact serve (want := fun _ k => isWrite 0x6001 4 k) hwrite
  case lock => exact serve (want := fun _ k => isWrite 0x6001 5 k) hwrite
  case nonce => exact serve (want := fun _ k => isWrite 0x6021 1 k) hwrite
  case token => exact serve (want := fun _ k => isWrite 0x6030 2 k) hwrite

end Sys2Proof.Proofs

/-! Requests that join the management controller's queue, and its timed sends (R314, R320 to R323). -/

namespace Sys2Proof.Proofs

open Sys2Proof.Machine

/-! ### What an event leaves of the management controller -/

/-- A posted event adds at most its copy for CAN FD (R323). -/
theorem postRec_mgc (d : Dev) (r : EvtRec) : ∃ q, (postRec d r).mgc = { d.mgc with canEvq := q } := by
  unfold postRec copyForCan
  split
  · exact ⟨_, rfl⟩
  · split <;> exact ⟨_, rfl⟩

section
variable (d : Dev) (r : EvtRec)

@[simp] theorem postRec_odq : (postRec d r).mgc.odq = d.mgc.odq := by
  obtain ⟨q, hq⟩ := postRec_mgc d r
  rw [hq]

@[simp] theorem postRec_canTx : (postRec d r).mgc.canTx = d.mgc.canTx := by
  obtain ⟨q, hq⟩ := postRec_mgc d r
  rw [hq]

end

section
variable (d : Dev) (k a b c e : Nat)

@[simp] theorem postOnce_odq : (postOnce d k a b c e).mgc.odq = d.mgc.odq := by
  unfold postOnce
  split
  · rfl
  · exact postRec_odq _ _

@[simp] theorem postOnce_canTx : (postOnce d k a b c e).mgc.canTx = d.mgc.canTx := by
  unfold postOnce
  split
  · rfl
  · exact postRec_canTx _ _

end

/-! ### Frames queued for the bus (R316, R317) -/

section
variable {d : Dev}

theorem canQueue_of_ready (hnode : nodeId d ≠ 0) (hjoined : d.mgc.joined = true) (hbus : busOff d = false)
    (kind base : Nat) (bs : List Byte) : canQueue d kind base bs = { d with mgc := { d.mgc with
      canTx := d.mgc.canTx ++ [{ kind := kind, id := base + nodeId d, data := padDlc bs }] } } := by
  rw [canQueue, if_neg (by simp [hnode, hjoined, hbus])]
  rfl

theorem canQueue_of_not_ready (h : nodeId d = 0 ∨ d.mgc.joined = false ∨ busOff d = true) (kind base : Nat) (bs : List Byte) :
    canQueue d kind base bs = d := if_pos h

@[simp] theorem canQueue_od (d : Dev) (kind base : Nat) (bs : List Byte) : (canQueue d kind base bs).od = d.od := by
  unfold canQueue
  split <;> rfl

@[simp] theorem canQueue_odq (d : Dev) (kind base : Nat) (bs : List Byte) : (canQueue d kind base bs).mgc.odq = d.mgc.odq := by
  unfold canQueue
  split <;> rfl

@[simp] theorem cnt_canQueue (d : Dev) (kind base : Nat) (bs : List Byte) (i sub : Nat) :
    cnt (canQueue d kind base bs) i sub = cnt d i sub := by simp [cnt]

end

/-! ### Requests (R314, R321) -/

theorem mailboxPostQueues : Claim.MailboxPostQueues := by
  intro s n h
  have hexec : exec (.mailboxPost n) s = .next (onDev s fun d => mailboxPost d n) := nextMgc_awake h
  rw [hexec]
  refine ⟨fun htaken => ?_, fun hfree => ?_⟩
  · rw [onDev, mailboxPost, if_pos htaken]; rfl
  · rw [onDev, mailboxPost, if_neg hfree]; rfl

theorem requestIn_of_off {d : Dev} (h : d.mgc.joined = false ∨ nodeId d = 0) (bs : List Byte) : requestIn d bs = d := if_pos h

theorem canRequestsQueue : Claim.CanRequestsQueue := by
  intro s bs h
  have hexec : exec (.canRequestFrame bs) s = .next (onDev s fun d => requestIn d bs) := nextMgc_awake h
  rw [hexec]
  refine ⟨fun hjoined hnode hroom => ?room, fun hjoined hnode hfull hlong => ?full, fun hjoined hnode hfull hshort => ?lost,
    fun hoff => ?off⟩
  case room =>
    rw [onDev, requestIn, if_neg (by simp [hjoined, hnode]), if_pos hroom]
    rfl
  case full =>
    refine ⟨_, rfl, ?_⟩
    rw [onDev_dev, requestIn, if_neg (by simp [hjoined, hnode]), if_neg (by omega), if_neg (by omega)]
    refine ⟨by simp [canAbort, canRespond], by simp [canAbort, canRespond], fun hbus => ?_⟩
    have hnode' : nodeId (bump s.dev 0x1300 7 4 1) = nodeId s.dev := cnt_bump_ne _ _ _ _ _ (by decide)
    have hbus' : busOff (bump s.dev 0x1300 7 4 1) = false := by
      rw [busOff, cnt_bump_ne _ _ _ _ _ (by decide)]; exact hbus
    rw [postOnce_canTx, canAbort, canRespond, canQueue_of_ready (d := bump s.dev 0x1300 7 4 1) (by rw [hnode']; exact hnode) hjoined hbus',
      hnode']
    exact ⟨_, rfl, rfl, rfl⟩
  case lost =>
    refine ⟨_, rfl, ?_⟩
    rw [onDev_dev, requestIn, if_neg (by simp [hjoined, hnode]), if_neg (by omega), if_pos hshort]
    simp
  case off => rw [onDev_eq_self (requestIn_of_off hoff bs)]

/-! ### Timed sends (R320, R322, R323) -/

section
variable {s : State} (h : MgcAwake s)
include h

theorem exec_segTimeout : exec .segTimeout s = .next (onDev s segTimeout) := nextMgc_awake h
theorem exec_heartbeat : exec .heartbeat s = .next (onDev s heartbeat) := nextMgc_awake h
theorem exec_canEventFrame : exec .canEventFrame s = .next (onDev s canEventFrame) := nextMgc_awake h

end

section
variable {d : Dev} (hjoined : d.mgc.joined = true) (hnode : nodeId d ≠ 0)
include hjoined hnode

theorem heartbeat_of_joined : heartbeat d = updMgc (canQueue d 0 0x7C0 (leBytes 8
    (pack [(32, 32, d.breath.number), (24, 8, faultedCount d), (8, 8, d.mgc.hb), (0, 8, shownState d)]))) fun m => { m with hb := m.hb + 1 } :=
  if_neg (by simp [hjoined, hnode])

theorem canEventFrame_of_cons {r : EvtRec} {rest : List EvtRec} (hqueue : d.mgc.canEvq = r :: rest) :
    canEventFrame d = if setting d 0x1200 2 ≤ d.mgc.evSent then bump { d with mgc := { d.mgc with canEvq := rest } } 0x1200 4 4 1
      else canQueue { d with freeNo := d.freeNo + 1, mgc := { d.mgc with canEvq := rest, evSent := d.mgc.evSent + 1 } } 2 0x0C0
        (eventBytes r (Config.canEventSeq d.freeNo)) := by
  unfold canEventFrame
  rw [if_neg (by simp [hjoined, hnode])]
  simp only [hqueue]
  rfl

end

theorem timedSendsRun : Claim.TimedSendsRun := by
  intro s h
  rw [exec_segTimeout h, exec_heartbeat h, exec_canEventFrame h]
  refine ⟨fun x hopen => ?timeout, fun hnone => ?noTransfer, fun hjoined hnode hbus => ?beat, fun hjoined hnode hbus => ?beatOff,
    fun r rest hjoined hnode hqueue => ⟨fun hlimit => ?dropped, fun hlimit hbus => ?sent⟩, fun hoff => ?noEvent, fun hoff => ?noBeat⟩
  case timeout => simp only [onDev, segTimeout, hopen]; rfl
  case noTransfer => rw [onDev_eq_self (by simp only [segTimeout, hnone])]
  case beat => rw [onDev, heartbeat_of_joined hjoined hnode, canQueue_of_ready hnode hjoined hbus]; rfl
  case beatOff => rw [onDev, heartbeat_of_joined hjoined hnode, canQueue_of_not_ready (.inr (.inr hbus))]; rfl
  case dropped => rw [onDev, canEventFrame_of_cons hjoined hnode hqueue, if_pos hlimit]; rfl
  case sent =>
    rw [onDev, canEventFrame_of_cons hjoined hnode hqueue, if_neg (by omega), canQueue_of_ready]
    · rfl
    · exact hnode
    · exact hjoined
    · exact hbus
  case noEvent =>
    rw [onDev_eq_self]
    unfold canEventFrame
    split
    · rfl
    · rename_i hon
      have hempty : s.dev.mgc.canEvq = [] := by tauto
      simp only [hempty]
  case noBeat => rw [onDev_eq_self (show heartbeat s.dev = s.dev from if_pos hoff)]

/-- Settles O19. -/
theorem requestsQueueAndSendsRun : Obligations.RequestsQueueAndSendsRun :=
  ⟨mailboxPostQueues, canRequestsQueue, timedSendsRun⟩

end Sys2Proof.Proofs


/-! ## The sequencer's order (O31) -/

namespace Sys2Proof.Proofs
open Sys2Proof.Machine

/-- What the scan of `bestOf` ends with is what it began with or an entry of the list. -/
theorem foldl_best_mem {α : Type} (rank : α → Nat) (x : α) (l : List α) (b : Option α)
    (h : l.foldl (fun b x => match b with | some y => if rank x < rank y then some x else some y | none => some x) b = some x) :
    b = some x ∨ x ∈ l := by
  induction l generalizing b with
  | nil => exact .inl h
  | cons y ys ih =>
    have hb := ih _ h
    rcases hb with hb | hb
    · cases b with
      | none => right; simp only [Option.some.injEq] at hb; simp [hb]
      | some z =>
        dsimp only at hb
        split at hb <;> simp only [Option.some.injEq] at hb <;> simp [hb]
    · right; simp [hb]

theorem bestOf_mem {α : Type} {rank : α → Nat} {l : List α} {x : α} (h : bestOf rank l = some x) : x ∈ l :=
  (foldl_best_mem rank x l none h).resolve_left (by simp)

theorem mem_withPos {α : Type} {l : List α} {i : Nat} {a : α} : (i, a) ∈ withPos l ↔ l[i]? = some a := by
  simp only [withPos, List.mem_iff_getElem?, List.getElem?_zip_eq_some, List.getElem?_eq_some_iff (l := List.range _),
    List.getElem_range, exists_prop]
  constructor
  · rintro ⟨j, ⟨-, rfl⟩, ha⟩; exact ha
  · intro ha
    exact ⟨i, ⟨by simpa using (List.getElem?_eq_some_iff.mp ha).1, rfl⟩, ha⟩

/-- An instruction taken by the sequencer stands in the queue of an enabled core and is ready. -/
theorem chosenOp_ready {d : Dev} {n i : Nat} {o : Op} (h : chosenOp d n = some (i, o)) :
    (coreOf d n).disabled = false ∧ (coreOf d n).ops[i]? = some o ∧ readyToIssue d n i o = true := by
  unfold chosenOp at h
  split at h
  case isTrue => exact absurd h (by simp)
  case isFalse hd =>
    have hm := List.mem_filter.mp (bestOf_mem h)
    exact ⟨by simpa using hd, mem_withPos.mp hm.1, hm.2⟩

theorem mem_earlierOps {c : Core} {i w j : Nat} {b : Op} (hj : j < i) (hb : c.ops[j]? = some b) (hw : b.wc = w) :
    b ∈ earlierOps c i w := by
  refine List.mem_filter.mpr ⟨List.mem_iff_getElem?.mpr ⟨j, ?_⟩, by simpa using hw⟩
  simpa [List.getElem?_take, hj] using hb

/-- The parts of readiness that the order of issue rests on. -/
theorem readyToIssue_parts {d : Dev} {n i : Nat} {o : Op} (h : readyToIssue d n i o = true) :
    turnReached (coreOf d n) i o = true
    ∧ scoreboardOk (coreOf d n) (opRanges o).1 (opRanges o).2 = true
    ∧ (rOpcode o.word = 0x22 ∨ rOpcode o.word = 0x21 → earlierOps (coreOf d n) i o.wc = [])
    ∧ (rOpcode o.word = 0x23 → signalReached (signalOf (wcOf d o.wc) (rIndex o.word)) (rValue o.word) = true)
    ∧ phaseOk d n o = true := by
  simp only [readyToIssue, readyBut, Bool.and_eq_true] at h
  obtain ⟨⟨⟨⟨⟨⟨⟨⟨ht, hs⟩, -⟩, -⟩, -⟩, -⟩, hb⟩, hw⟩, hp⟩ := h
  refine ⟨ht, hs, fun hop => ?_, fun hop => ?_, hp⟩
  · rw [if_pos (by simpa using hop)] at hb
    simpa using hb
  · rwa [if_pos hop] at hw

theorem turnReached_iff {c : Core} {i : Nat} {o : Op} : turnReached c i o = true ↔
    o.issued = false ∧ ∀ b ∈ earlierOps c i o.wc, b.issued = true ∧ rOpcode b.word ≠ 0x21 := by
  simp [turnReached]

theorem phaseOk_parts {d : Dev} {n : Nat} {o : Op} (h : phaseOk d n o = true) :
    (isMatrix o = true → loadActive (coreOf d n) = false)
    ∧ (isMatrix o = false → isLoad o = true → matrixActive (coreOf d n) = false) := by
  unfold phaseOk at h
  constructor
  · intro hm
    simp only [hm, if_true, Bool.and_eq_true, Bool.not_eq_true'] at h
    exact h.1
  · intro hm hl
    simp only [hm, hl, Bool.false_eq_true, if_true, if_false, Bool.and_eq_true, Bool.not_eq_true'] at h
    exact h.1.1

/-- What the scoreboard says of each issued instruction. -/
theorem scoreboardOk_apart {c : Core} {src dst : List Range} {h : Op} (hs : scoreboardOk c src dst = true)
    (hm : h ∈ c.ops) (hi : h.issued = true) :
    (∀ a ∈ src, ∀ b ∈ h.dst, rangesMeet a b = false) ∧ (∀ a ∈ dst, ∀ b ∈ h.dst, rangesMeet a b = false)
    ∧ (h.released = false → ∀ a ∈ dst, ∀ b ∈ h.src, rangesMeet a b = false) := by
  simp only [scoreboardOk, Bool.and_eq_true, List.all_eq_true] at hs
  have hh := hs.2 h (List.mem_filter.mpr ⟨hm, hi⟩)
  obtain ⟨⟨h1, h2⟩, h3⟩ := hh
  simp only [Bool.not_eq_true', List.any_eq_false, Bool.or_eq_true, Bool.not_eq_true] at h1 h2 h3
  exact ⟨h1, h2, fun hr => h3.resolve_left (by simp [hr])⟩

/-- Settles O31: what the sequencer takes is ready, and readiness holds each of the three conditions. -/
theorem issueKeepsOrder : Obligations.IssueKeepsOrder := by
  refine ⟨?order, ?waits, ?apart⟩
  case order =>
    intro d n i o h
    obtain ⟨hd, ho, hr⟩ := chosenOp_ready h
    obtain ⟨ht, hs, -, -, hp⟩ := readyToIssue_parts hr
    obtain ⟨hi, hb⟩ := turnReached_iff.mp ht
    obtain ⟨hm, hl⟩ := phaseOk_parts hp
    exact ⟨ho, hd, hi, fun j b hj hjb hw => hb b (mem_earlierOps hj hjb hw), hs, hm, hl⟩
  case waits =>
    intro d n i o h
    obtain ⟨-, -, hr⟩ := chosenOp_ready h
    obtain ⟨-, -, hbar, hwait, -⟩ := readyToIssue_parts hr
    refine ⟨fun hop => ?_, fun hop j b hj hjb hw => ?_⟩
    · have hv := hwait hop
      rw [signalReached, Bool.not_eq_true', BitVec.msb_eq_toInt] at hv
      simpa using hv
    · have hmem := mem_earlierOps hj hjb hw
      rw [hbar hop] at hmem
      exact absurd hmem (by simp)
  case apart =>
    intro d n i o h a b hc hm hi
    obtain ⟨-, -, hr⟩ := chosenOp_ready hc
    obtain ⟨-, hs, -, -, -⟩ := readyToIssue_parts hr
    obtain ⟨hread, hwrite, hkeep⟩ := scoreboardOk_apart hs hm hi
    exact ⟨fun ha hb => hread a ha b hb, fun ha hb => hwrite a ha b hb, fun ha hb hrel => hkeep hrel a ha b hb⟩

end Sys2Proof.Proofs


/-! ## Discarded units (O40) and doorbells (O25) -/

namespace Sys2Proof.Proofs
open Sys2Proof.Machine

/-! ### Discarded units -/

/-- The blocks that hold stored data and windows are as they were. -/
structure SameStores (d e : Dev) : Prop where
  mem : e.mem = d.mem
  mpe : e.mpe = d.mpe
  cores : e.cores = d.cores
  ics : e.ics = d.ics

theorem SameStores.refl (d : Dev) : SameStores d d := ⟨rfl, rfl, rfl, rfl⟩

theorem SameStores.trans {d e f : Dev} (h : SameStores d e) (k : SameStores e f) : SameStores d f :=
  ⟨k.mem.trans h.mem, k.mpe.trans h.mpe, k.cores.trans h.cores, k.ics.trans h.ics⟩

theorem SameStores.winAt {d e : Dev} (h : SameStores d e) (node i : Nat) : winAt e node i = winAt d node i := by
  simp [Machine.winAt, coreOf, ic, h.mpe, h.cores, h.ics]

theorem discardGranule_sameStores (d : Dev) (node : Nat) (stale : Bool) (addr : Nat) (writer : BitVec 16) :
    SameStores d (discardGranule d node stale addr writer) := by
  unfold discardGranule
  constructor <;> repeat' split
  all_goals simp

theorem discardUnit_sameStores (d : Dev) (node : Nat) (stale : Bool) (addr : Nat) (writer : BitVec 16) (gs : Nat) :
    SameStores d (discardUnit d node stale addr writer gs) := by
  unfold discardUnit
  induction List.range gs generalizing d with
  | nil => exact .refl d
  | cons g gs ih => exact (discardGranule_sameStores d node stale _ writer).trans (ih _)

theorem giveCredits_sameStores (d : Dev) (node i : Nat) (writer : BitVec 16) (n : Nat) :
    SameStores d (giveCredits d node i writer n) := by
  unfold giveCredits
  dsimp only
  split
  · split
    · exact ⟨rfl, rfl, rfl, rfl⟩
    · exact .refl d
  · exact .refl d

theorem sinkUnit_sameStores (d : Dev) (node i : Nat) (writer : BitVec 16) (gs : Nat) :
    SameStores d (sinkUnit d node i writer gs) :=
  SameStores.trans (e := bump d (0x2300 + node) 6 8 gs) ⟨rfl, rfl, rfl, rfl⟩ (giveCredits_sameStores _ node i writer 1)

theorem winChecked_state (d : Dev) (node i : Nat) : (winChecked d node i).state = (winAt d node i).state := by
  unfold winChecked; dsimp only; split <;> rfl

theorem winChecked_epoch (d : Dev) (node i : Nat) : (winChecked d node i).epoch = (winAt d node i).epoch := by
  unfold winChecked; dsimp only; split <;> rfl

theorem winChecked_writer (d : Dev) (node i : Nat) : (winChecked d node i).writer = (winAt d node i).writer := by
  unfold winChecked; dsimp only; split <;> rfl

/-- A unit that its window does not take is sunk or discarded. -/
theorem deliverUnit_sameStores {d : Dev} {node i u : Nat} {writer : BitVec 16} {epoch : BitVec 8}
    (bs : List (Byte × Bool)) (hollow : Bool)
    (h : (winAt d node i).state = 0 ∨ (winAt d node i).state = 3 ∨ (winAt d node i).epoch ≠ epoch
      ∨ (winAt d node i).writer ≠ writer ∨ unitGranted (winChecked d node i) u = false) :
    SameStores d (deliverUnit d node i writer epoch u bs hollow) := by
  unfold deliverUnit
  simp only [winChecked_state, winChecked_epoch, winChecked_writer]
  split
  · exact sinkUnit_sameStores ..
  · split
    · exact discardUnit_sameStores ..
    · rename_i hn
      rw [if_neg]
      · exact discardUnit_sameStores ..
      · rintro ⟨hst, hwr, hg⟩
        rcases h with h | h | h | h | h
        · simp [h] at hst
        · exact hn (.inl h)
        · exact hn (.inr ⟨hst, h⟩)
        · exact h hwr
        · simp [h] at hg

/-- Settles O40. -/
theorem onlyTheWriterWritesAWindow : Obligations.OnlyTheWriterWritesAWindow := by
  intro d node i u writer epoch bs hollow w h e
  have hs : SameStores d e := deliverUnit_sameStores bs hollow h
  exact ⟨hs.mem, by rw [hs.mpe], fun n => by simp [coreOf, hs.cores], hs.winAt node i⟩

/-! ### Doorbells -/

theorem ensureCached_of_cached {d : Dev} {w : Nat} (h : (wcOf d w).cached = true) : ensureCached d w = (touchWc d w, true) := by
  simp [ensureCached, h]

/-- A touch leaves what a doorbell reads of the work context. -/
theorem wcOf_touchWc (d : Dev) (w : Nat) :
    wcOf (touchWc d w) w = { wcOf d w with lastUse := d.cp.useClock + 1 } :=
  wcOf_updWc _ w _

theorem ringOf_touchWc (d : Dev) (w r : Nat) : ringOf (touchWc d w) r = ringOf d r := rfl

theorem msb_iff_toInt_neg (x : W32) : x.msb = true ↔ x.toInt < 0 := by
  rw [BitVec.msb_eq_toInt]; simp

/-- What a doorbell of a cached work context does, reason by reason. -/
theorem doorbell_of_cached {d : Dev} {r : Nat} (v : W64) (whole : Bool) (h : (wcOf d (r / 8)).cached = true) :
    doorbell d r v whole =
      let c := wcOf d (r / 8)
      let x := ringOf d r
      let t := BitVec.ofNat 32 v.toNat
      if whole = false then refuseDoorbell (touchWc d (r / 8)) r 1 t.toNat
      else if ¬((c.state = 1#4 ∨ c.state = 2#4) ∧ wRingEnable c (r % 8) = true) then refuseDoorbell (touchWc d (r / 8)) r 2 t.toNat
      else if (t - x.tail).toInt < 0 then refuseDoorbell (touchWc d (r / 8)) r 3 t.toNat
      else if 2 ^ wRingLog2 c (r % 8) < (t - x.head).toNat then refuseDoorbell (touchWc d (r / 8)) r 4 t.toNat
      else updRing (touchWc d (r / 8)) r fun y => { y with tail := t, since := if y.tail = y.head then d.clk.ns else y.since } := by
  unfold doorbell
  rw [ensureCached_of_cached h]
  dsimp only
  rw [wcOf_touchWc, ringOf_touchWc]
  have henable : ∀ c : Wc, wRingEnable { c with lastUse := d.cp.useClock + 1 } (r % 8) = wRingEnable c (r % 8) := fun _ => rfl
  have hlog : ∀ c : Wc, wRingLog2 { c with lastUse := d.cp.useClock + 1 } (r % 8) = wRingLog2 c (r % 8) := fun _ => rfl
  simp only [henable, hlog, ← msb_iff_toInt_neg, Bool.not_eq_true', Bool.or_eq_true, Bool.and_eq_true, ne_eq,
    decide_eq_true_eq, not_and_or, not_or, Bool.not_eq_true]
  rfl

/-- A refused doorbell is counted and reported with its ring, reason and tail. -/
theorem refuseDoorbell_toNat (d : Dev) (r reason : Nat) (t : W32) : refuseDoorbell d r reason t.toNat =
    postEventWc (bump d 0x2602 3 4 1) 0x0820 1 srcCp (r / 8) (r + reason * 65536 + t.toNat * 2 ^ 32) := by
  rw [refuseDoorbell, Nat.mod_eq_of_lt t.isLt]

theorem ringOf_refuseDoorbell (d : Dev) (r reason tail q : Nat) : ringOf (refuseDoorbell d r reason tail) q = ringOf d q := by
  simp [refuseDoorbell]

theorem exec_doorbellWrite {s : State} (h : Awake s) (r : BitVec 15) (v : W64) (whole : Bool) :
    exec (.doorbellWrite r v whole) s = .next (onDev s fun d => doorbell d r.toNat v whole) := nextDev_awake h

theorem doorbellWrites_claim : Sys2Proof.Claim.DoorbellWrites := by
  intro s r v whole h hc c x tail refused
  have hrefused (why : Nat) (hd : doorbell s.dev r.toNat v whole = refuseDoorbell (touchWc s.dev (r.toNat / 8)) r.toNat why tail.toNat) :
      refused why := by
    show exec (.doorbellWrite r v whole) s = _
    rw [exec_doorbellWrite h, onDev, onDev, hd, refuseDoorbell_toNat]
  have hd := doorbell_of_cached (r := r.toNat) v whole hc
  dsimp only at hd
  refine ⟨fun hw => ?_, fun hw hn => ?_, fun hw hst hen => ⟨fun hneg => ?_, fun hpos hbig => ?_, fun hpos hfit => ?_⟩⟩
  · exact hrefused 1 (by rw [hd, if_pos hw])
  · exact hrefused 2 (by rw [hd, if_neg (by simp [hw]), if_pos hn])
  · exact hrefused 3 (by rw [hd, if_neg (by simp [hw]), if_neg (not_not_intro ⟨hst, hen⟩), if_pos hneg])
  · exact hrefused 4 (by
      rw [hd, if_neg (by simp [hw]), if_neg (not_not_intro ⟨hst, hen⟩), if_neg (not_lt.mpr hpos), if_pos hbig])
  · rw [exec_doorbellWrite h, onDev, onDev, hd, if_neg (by simp [hw]), if_neg (not_not_intro ⟨hst, hen⟩),
      if_neg (not_lt.mpr hpos), if_neg (not_lt.mpr hfit)]

/-- What a doorbell of a cached work context leaves of the rings. -/
theorem doorbell_rings {d : Dev} {r : Nat} (v : W64) (whole : Bool) (h : (wcOf d (r / 8)).cached = true) :
    (∀ q, ringOf (doorbell d r v whole) q = ringOf d q)
    ∨ (whole = true ∧ (∀ q, q ≠ r → ringOf (doorbell d r v whole) q = ringOf d q)
        ∧ (ringOf (doorbell d r v whole) r).head = (ringOf d r).head
        ∧ (ringOf (doorbell d r v whole) r).tail = BitVec.ofNat 32 v.toNat) := by
  rw [doorbell_of_cached v whole h]
  dsimp only
  split
  · left; intro q; rw [ringOf_refuseDoorbell, ringOf_touchWc]
  · rename_i hw
    split
    · left; intro q; rw [ringOf_refuseDoorbell, ringOf_touchWc]
    · split
      · left; intro q; rw [ringOf_refuseDoorbell, ringOf_touchWc]
      · split
        · left; intro q; rw [ringOf_refuseDoorbell, ringOf_touchWc]
        · right
          refine ⟨by simpa using hw, fun q hq => ?_, ?_, ?_⟩
          · rw [ringOf_updRing_ne _ _ hq, ringOf_touchWc]
          · rw [ringOf_updRing, ringOf_touchWc]
          · rw [ringOf_updRing]

/-- A command of the device either finds it held or acts on it. -/
theorem nextDev_eq_or {s t : State} {f : Dev → Dev} (h : nextDev s f = .next t) : t.dev = s.dev ∨ t.dev = f s.dev := by
  simp only [nextDev, Host.Outcome.next.injEq] at h
  subst h
  split
  · exact .inl rfl
  · exact .inr rfl

theorem doorbellsTouchOneRing : Sys2Proof.Claim.DoorbellsTouchOneRing := by
  intro s t r v whole q hc ht
  rcases nextDev_eq_or (f := fun d => doorbell d r.toNat v whole) ht with hd | hd
  · rw [hd]; exact ⟨fun _ => rfl, rfl, fun _ => rfl, .inl rfl⟩
  · rw [hd]
    rcases doorbell_rings v whole hc with hall | ⟨hw, hne, hhead, htail⟩
    · exact ⟨fun _ => hall q, by rw [hall], fun _ => hall _, .inl (by rw [hall])⟩
    · exact ⟨hne q, hhead, fun hf => absurd (hw.symm.trans hf) (by decide), .inr htail⟩

/-- Settles O25: a doorbell is its chain of reasons, and only the accepted one writes a ring. -/
theorem doorbellWrites : Obligations.DoorbellWrites := ⟨doorbellWrites_claim, doorbellsTouchOneRing⟩

end Sys2Proof.Proofs


/-! ## What posting an event and accessing memory leave of the CP, the MGC and the object dictionary -/

namespace Sys2Proof.Proofs
open Sys2Proof.Machine

/-- The device but for memory, its controllers, the event port with its copies for CAN, the latches and the counters of keys `K`. -/
structure Leaves (K : Nat → Prop) (d e : Dev) : Prop where
  sets : e.od.sets = d.od.sets
  doms : e.od.doms = d.od.doms
  cnts : ∀ k, ¬ K k → sget (fun _ => 0) e.od.cnts k = sget (fun _ => 0) d.od.cnts k
  cp : ∃ p l s, e.cp = { d.cp with port := p, evtLost := l, lostSince := s }
  mgc : ∃ q, e.mgc = { d.mgc with canEvq := q }

variable {K : Nat → Prop} {d e f : Dev}

theorem Leaves.of_same (hod : e.od = d.od) (hcp : e.cp = d.cp) (hmgc : e.mgc = d.mgc) : Leaves K d e :=
  ⟨by rw [hod], by rw [hod], fun _ _ => by rw [hod], ⟨_, _, _, hcp⟩, ⟨_, hmgc⟩⟩

theorem Leaves.refl (d : Dev) : Leaves K d d := .of_same rfl rfl rfl

theorem Leaves.trans (h : Leaves K d e) (k : Leaves K e f) : Leaves K d f := by
  obtain ⟨p, l, s, hcp⟩ := h.cp
  obtain ⟨p', l', s', kcp⟩ := k.cp
  obtain ⟨q, hmgc⟩ := h.mgc
  obtain ⟨q', kmgc⟩ := k.mgc
  exact ⟨k.sets.trans h.sets, k.doms.trans h.doms, fun i hi => (k.cnts i hi).trans (h.cnts i hi),
    ⟨p', l', s', by rw [kcp, hcp]⟩, ⟨q', by rw [kmgc, hmgc]⟩⟩

theorem Leaves.mono {K' : Nat → Prop} (h : Leaves K d e) (hK : ∀ k, K k → K' k) : Leaves K' d e :=
  ⟨h.sets, h.doms, fun k hk => h.cnts k fun hk' => hk (hK k hk'), h.cp, h.mgc⟩

theorem Leaves.setting (h : Leaves K d e) (i sub : Nat) : setting e i sub = setting d i sub := by
  rw [Machine.setting, Machine.setting, h.sets]

theorem Leaves.cnt (h : Leaves K d e) {i sub : Nat} (hK : ¬ K (odKey i sub)) : cnt e i sub = cnt d i sub := h.cnts _ hK

theorem Leaves.wcOf (h : Leaves K d e) (w : Nat) : wcOf e w = wcOf d w := by
  obtain ⟨p, l, s, hcp⟩ := h.cp
  rw [Machine.wcOf, Machine.wcOf, hcp]

theorem Leaves.ringOf (h : Leaves K d e) (r : Nat) : ringOf e r = ringOf d r := by
  obtain ⟨p, l, s, hcp⟩ := h.cp
  rw [Machine.ringOf, Machine.ringOf, hcp]

theorem ite_leaves {p : Prop} [Decidable p] {x y : Dev} (hx : Leaves K d x) (hy : Leaves K d y) : Leaves K d (if p then x else y) := by
  split
  · exact hx
  · exact hy

theorem leaves_setCnt (d : Dev) (i sub v : Nat) (hK : K (odKey i sub)) : Leaves K d (setCnt d i sub v) :=
  ⟨rfl, rfl, fun _ hk => sget_sset_ne _ _ _ fun he => hk (he ▸ hK), ⟨_, _, _, rfl⟩, ⟨_, rfl⟩⟩

theorem leaves_bump (d : Dev) (i sub w n : Nat) (hK : K (odKey i sub)) : Leaves K d (bump d i sub w n) := leaves_setCnt d i sub _ hK

theorem portTake_fields (c : Cp) (r : EvtRec) : ∃ p l s, portTake c r = { c with port := p, evtLost := l, lostSince := s } := by
  unfold portTake
  split
  · exact ⟨_, c.evtLost, c.lostSince, rfl⟩
  · exact ⟨c.port, _, _, rfl⟩

theorem leaves_postRec (d : Dev) (r : EvtRec) : Leaves K d (postRec d r) := by
  unfold postRec copyForCan
  split
  · exact .refl d
  · dsimp only
    split
    · exact ⟨rfl, rfl, fun _ _ => rfl, portTake_fields d.cp r, ⟨_, rfl⟩⟩
    · exact ⟨rfl, rfl, fun _ _ => rfl, portTake_fields d.cp r, ⟨_, rfl⟩⟩

theorem leaves_postEvent (d : Dev) (c cls s p : Nat) : Leaves K d (postEvent d c cls s p) := leaves_postRec d _

theorem leaves_postEventWc (d : Dev) (c cls s w p : Nat) : Leaves K d (postEventWc d c cls s w p) := leaves_postRec d _

theorem leaves_latch (d : Dev) (i : Nat) : Leaves K d (latch d i) := .of_same rfl rfl rfl

theorem leaves_postOnce (d : Dev) (l c k s p : Nat) : Leaves K d (postOnce d l c k s p) := by
  unfold postOnce
  split
  · exact .refl d
  · exact (leaves_latch d l).trans (leaves_postEvent _ ..)

theorem leaves_updMem (d : Dev) (f : Mem → Mem) : Leaves K d (updMem d f) := .of_same rfl rfl rfl

theorem leaves_dmc (d : Dev) (x : Dmc) : Leaves K d { d with dmc := x } := .of_same rfl rfl rfl

theorem leaves_foldl {α : Type} {f : Dev → α → Dev} (l : List α) (h : ∀ d : Dev, ∀ x ∈ l, Leaves K d (f d x)) (d : Dev) :
    Leaves K d (l.foldl f d) := by
  induction l generalizing d with
  | nil => exact .refl d
  | cons x xs ih => exact (h d x (by simp)).trans (ih (fun d y hy => h d y (by simp [hy])) _)

/-- Counters an access of memory may move: those of the SB slices, of the DRAM channels and of the region checks. -/
def AccessKey (k : Nat) : Prop :=
  (0x2260 * 256 ≤ k ∧ k < 0x2264 * 256) ∨ (0x2410 * 256 ≤ k ∧ k < 0x2418 * 256) ∨ (0x2420 * 256 ≤ k ∧ k < 0x2421 * 256)

theorem accessKey_slice {s sub : Nat} (hs : s < 4) (hsub : sub < 256) : AccessKey (odKey (0x2260 + s) sub) := by
  unfold AccessKey odKey; omega

theorem accessKey_channel {c sub : Nat} (hc : c < 8) (hsub : sub < 256) : AccessKey (odKey (0x2410 + c) sub) := by
  unfold AccessKey odKey; omega

theorem accessKey_regions {sub : Nat} (hsub : sub < 256) : AccessKey (odKey 0x2420 sub) := by
  unfold AccessKey odKey; omega

theorem dramChannel_lt (a : Nat) : dramChannel a < 8 :=
  Nat.xor_lt_two_pow (n := 3) (Nat.mod_lt _ (by decide)) (Nat.mod_lt _ (by decide))

theorem areaOf_sb {d : Dev} {a s : Nat} (h : areaOf d a = .sb s) : sbBase ≤ a ∧ a < sbBase + 0x800000 ∧ s = (a - sbBase) / 0x200000 := by
  unfold areaOf at h
  split at h
  · split at h <;> cases h
  · split at h
    · rename_i hr
      simp only [Bool.and_eq_true, decide_eq_true_eq] at hr
      simp only [Area.sb.injEq] at h
      exact ⟨hr.1, hr.2, h.symm⟩
    · dsimp only at h
      repeat' split at h
      all_goals cases h

theorem leaves_violation (d : Dev) (g : Nat) (write : Bool) (a : Nat) : Leaves AccessKey d (violation d g write a) := by
  unfold violation
  exact .trans (leaves_dmc d _) (.trans (leaves_bump _ 0x2420 1 4 1 (accessKey_regions (by decide))) (leaves_postOnce ..))

theorem leaves_sbCorrect (d : Dev) {a : Nat} (h : sliceOf a < 4) : Leaves AccessKey d (sbCorrect d a) := by
  have hb (e : Dev) (sub w n : Nat) (hs : sub < 256) : Leaves AccessKey e (bump e (0x2260 + sliceOf a) sub w n) :=
    leaves_bump _ _ _ _ _ (accessKey_slice h hs)
  unfold sbCorrect
  dsimp only
  split
  · exact .refl d
  · split
    · split
      · exact .trans (leaves_updMem d _) (.trans (hb _ 1 _ _ (by decide))
          (.trans (leaves_updMem _ _) (.trans (leaves_latch _ _) (leaves_postEvent ..))))
      · exact .trans (leaves_updMem d _) (.trans (hb _ 1 _ _ (by decide)) (leaves_updMem _ _))
    · exact .trans (leaves_updMem d _) (.trans (hb _ 2 _ _ (by decide)) (.trans (leaves_updMem _ _) (leaves_postEvent ..)))

theorem leaves_linkRead (d : Dev) (a : Nat) : Leaves AccessKey d (linkRead d a).1 := by
  have hb (e : Dev) (sub w n : Nat) (hs : sub < 256) : Leaves AccessKey e (bump e (0x2410 + dramChannel a) sub w n) :=
    leaves_bump _ _ _ _ _ (accessKey_channel (dramChannel_lt a) hs)
  unfold linkRead
  dsimp only
  split
  · exact .refl d
  · split
    · split
      · exact .trans (leaves_dmc d _) (.trans (hb _ 1 _ _ (by decide)) (.trans (leaves_dmc _ _)
          (.trans (leaves_latch _ _) (.trans (leaves_postEvent ..) (leaves_dmc _ _)))))
      · exact .trans (leaves_dmc d _) (.trans (hb _ 1 _ _ (by decide)) (leaves_dmc _ _))
    · exact .trans (leaves_dmc d _) (.trans (hb _ 2 _ _ (by decide)) (leaves_postEvent ..))

theorem sliceOf_lt {a : Nat} (h : sbBase ≤ a ∧ a < sbBase + 0x800000) : sliceOf a < 4 := by
  obtain ⟨h1, h2⟩ := h
  unfold sliceOf; omega

theorem leaves_sbCorrect_granule (d : Dev) {a : Nat} (h : sbBase ≤ a ∧ a < sbBase + 0x800000) :
    Leaves AccessKey d (sbCorrect (sbCorrect d (a / 64 * 64)) (a / 64 * 64 + 32)) := by
  unfold sbBase at h
  exact (leaves_sbCorrect d (sliceOf_lt (by unfold sbBase; omega))).trans (leaves_sbCorrect _ (sliceOf_lt (by unfold sbBase; omega)))

theorem leaves_readDram (d : Dev) (a : Nat) : Leaves AccessKey d (bump (linkRead d a).1 (0x2410 + dramChannel a) 3 8 64) :=
  (leaves_linkRead d a).trans (leaves_bump _ _ _ _ _ (accessKey_channel (dramChannel_lt a) (by decide)))

theorem leaves_readGranule (d : Dev) (g : Option Nat) (s a : Nat) : Leaves AccessKey d (readGranule d g s a).1 := by
  have hsb {k : Nat} (harea : areaOf d (a / 64 * 64) = .sb k) :
      Leaves AccessKey d (sbCorrect (sbCorrect d (a / 64 * 64)) (a / 64 * 64 + 32)) := by
    obtain ⟨h1, h2, -⟩ := areaOf_sb harea
    have h := leaves_sbCorrect_granule d ⟨h1, h2⟩
    rwa [Nat.mul_div_cancel _ (by decide)] at h
  unfold readGranule
  cases g with
  | none =>
    dsimp only
    split
    · split
      · exact .refl d
      · exact leaves_readDram ..
    · rename_i harea
      split
      · exact .refl d
      · exact hsb harea
    · exact leaves_postEvent ..
  | some g =>
    dsimp only
    split
    · split
      · exact leaves_violation ..
      · exact leaves_readDram ..
    · rename_i harea
      split
      · exact leaves_violation ..
      · exact hsb harea
    · exact leaves_postEvent ..

theorem leaves_readGranules (g : Option Nat) (s : Nat) (l : List Nat) (d : Dev) : Leaves AccessKey d (readGranules d g s l).1 := by
  induction l generalizing d with
  | nil => exact .refl d
  | cons a as ih => exact (leaves_readGranule d g s a).trans (ih _)

theorem leaves_memRead (d : Dev) (g : Option Nat) (s a n : Nat) : Leaves AccessKey d (memRead d g s a n).1 := leaves_readGranules ..

theorem leaves_readMarked (g : Option Nat) (s : Nat) (l : List Nat) (d : Dev) : Leaves AccessKey d (readMarked d g s l).1 := by
  induction l generalizing d with
  | nil => exact .refl d
  | cons a as ih => exact (leaves_readGranule d g s a).trans (ih _)

theorem leaves_memReadMarked (d : Dev) (g : Option Nat) (s a n : Nat) : Leaves AccessKey d (memReadMarked d g s a n).1 :=
  leaves_readMarked ..

theorem leaves_writeGranule (d : Dev) (g : Option Nat) (s a : Nat) (bs : List Byte) (pl ph : Bool) :
    Leaves AccessKey d (writeGranule d g s a bs pl ph) := by
  have hviol : Leaves AccessKey d (match g with | some g => violation d g true (a / 64 * 64) | none => d) := by
    cases g
    · exact .refl d
    · exact leaves_violation ..
  have hdram : Leaves AccessKey d (bump d (0x2410 + dramChannel a) 4 8 64) :=
    leaves_bump _ _ _ _ _ (accessKey_channel (dramChannel_lt a) (by decide))
  unfold writeGranule
  dsimp only
  split
  · refine ite_leaves hviol (.trans hdram (.trans ?_ (leaves_updMem _ _)))
    split
    · exact .of_same rfl rfl rfl
    · exact .refl _
  · rename_i k harea
    refine ite_leaves hviol (.trans ?_ (leaves_updMem _ _))
    split
    · obtain ⟨h1, h2, hk⟩ := areaOf_sb harea
      have hk4 : k < 4 := by unfold sbBase at h1 h2 hk; omega
      exact .trans (leaves_bump _ _ _ _ _ (accessKey_slice hk4 (by decide))) (leaves_sbCorrect_granule _ ⟨h1, h2⟩)
    · exact leaves_updMem _ _
  · exact leaves_postEvent ..

theorem leaves_writeGranules (g : Option Nat) (s k a : Nat) (bs : List Byte) (p : Bool) (d : Dev) :
    Leaves AccessKey d (writeGranules d g s k a bs p) := by
  induction k generalizing d a bs with
  | zero => exact .refl d
  | succ k ih =>
    cases bs with
    | nil => exact .refl d
    | cons b bs => exact (leaves_writeGranule d g s a _ p p).trans (ih ..)

theorem leaves_memWrite (d : Dev) (g : Option Nat) (s a : Nat) (bs : List Byte) (p : Bool) : Leaves AccessKey d (memWrite d g s a bs p) :=
  leaves_writeGranules ..

end Sys2Proof.Proofs


/-! ## Writes of memory, and the records that reach their rings (O24) -/

namespace Sys2Proof.Proofs
open Sys2Proof.Machine

/-! ### Bytes of memory -/

theorem peek_of_ram {m m' : Mem} (h : m'.ram = m.ram) (a : Nat) : peek m' a = peek m a := by rw [peek, peek, h]

theorem peeks_of_ram {m m' : Mem} (h : m'.ram = m.ram) (a n : Nat) : peeks m' a n = peeks m a n := by
  induction n generalizing a with
  | zero => rfl
  | succ n ih => rw [peeks, peeks, ih, peek_of_ram h]

theorem pokes_ram {m m' : Mem} (h : m'.ram = m.ram) (a : Nat) (bs : List Byte) : (pokes m' a bs).ram = (pokes m a bs).ram := by
  induction bs generalizing m m' a with
  | nil => exact h
  | cons b bs ih => exact ih (by simp [poke, h]) (a + 1)

theorem writeGranules_nil (d : Dev) (g : Option Nat) (s k a : Nat) (p : Bool) : writeGranules d g s k a [] p = d := by
  cases k <;> rfl

/-- A write that stays within one granule is a write of that granule. -/
theorem memWrite_within (d : Dev) (g : Option Nat) (s a : Nat) {bs : List Byte} (p : Bool) (hne : bs ≠ [])
    (h : a % 64 + bs.length ≤ 64) : memWrite d g s a bs p = writeGranule d g s a bs p p := by
  obtain ⟨b, bs, rfl⟩ := List.exists_cons_of_ne_nil hne
  have hdrop : (b :: bs).drop (64 - a % 64) = [] := List.drop_eq_nil_of_le (by omega)
  rw [memWrite, writeGranules, hdrop, List.take_of_length_le (by omega)]
  · exact writeGranules_nil ..
  · exact hne

/-- What a granted write leaves in an SB granule. -/
theorem writeGranule_sb_ram {d : Dev} {g s a k : Nat} (bs : List Byte) (pl ph : Bool) (harea : areaOf d a = .sb k)
    (hmay : agentMay d g true (a / 64 * 64) = true) :
    (writeGranule d (some g) s a bs pl ph).mem.ram = (pokes d.mem a bs).ram := by
  unfold writeGranule
  simp only [harea, hmay, Bool.not_true, Bool.false_eq_true, if_false, updMem_mem, setPoison_ram]
  refine pokes_ram ?_ a bs
  split
  · simp
  · rfl

/-! ### Completion records and event records -/

theorem length_leBytes (n v : Nat) : (leBytes n v).length = n := by
  induction n generalizing v with
  | zero => rfl
  | succ n ih => simp [leBytes, ih]

theorem raiseIrq_pending (d : Dev) {k : Nat} (hk : k < 32) : bit (raiseIrq d k).apc.pending k = true := by
  rw [raiseIrq, bit_or, bit_ofNat_two_pow k hk]
  simp

theorem completionRecordIsWritten : Sys2Proof.Claim.CompletionRecordIsWritten := by
  intro d w tag opcode epoch kind ring status detail flags pos k a harea hal hmay e
  have hw : wcOf (memWrite d (some agCp) srcCp a
      (completionBytes (wcOf d w).complTail tag opcode epoch kind ring status detail flags pos d.breath.number d.breath.ns) false) w = wcOf d w :=
    (leaves_memWrite ..).wcOf w
  have hlen : (completionBytes (wcOf d w).complTail tag opcode epoch kind ring status detail flags pos d.breath.number d.breath.ns).length = 32 :=
    length_leBytes ..
  have hram : e.mem.ram = (pokes d.mem a (completionBytes (wcOf d w).complTail tag opcode epoch kind ring status detail flags pos
      d.breath.number d.breath.ns)).ram := by
    show (memWrite d _ _ _ _ _).mem.ram = _
    rw [memWrite_within _ _ _ _ _ (List.ne_nil_of_length_pos (by omega)) (by omega)]
    exact writeGranule_sb_ram _ _ _ harea hmay
  refine ⟨?_, ?_, fun x hx => ?_, ?_⟩
  · show (wcOf (updWc _ w _) w).complTail = _
    rw [wcOf_updWc, hw]
  · rw [peeks_of_ram hram]
    conv_lhs => rw [← hlen]
    exact peeks_pokes
  · rw [peek_of_ram hram]
    exact peek_pokes_outside (by omega)
  · exact raiseIrq_pending _ (by have : wClass (wcOf d w) < 4 := Nat.mod_lt _ (by decide)
                                 omega)

theorem eventsAreKeptOrCounted : Sys2Proof.Claim.EventsAreKeptOrCounted := by
  intro d r ht
  refine ⟨fun h => ?_, fun h => ?_, postRec_mem d r, postRec_cores d r, postRec_od d r, ?_, raiseIrq_pending _ (by decide)⟩
  · rw [postRec_cp d r ht, portTake, if_pos h]
  · rw [postRec_cp d r ht, portTake, if_neg (by omega)]
    exact ⟨rfl, rfl, rfl, rfl⟩
  · obtain ⟨p, l, q, hcp⟩ := (leaves_memWrite d (some agCp) srcCp (fld d.cp.evtCtrl 24 40 + d.cp.evtTail.toNat % 2 ^ fld d.cp.evtCtrl 16 5 * 16)
      (eventBytes r d.cp.evtTail) false).cp
    show (memWrite _ _ _ _ _ _).cp.evtTail + 1 = _
    rw [hcp]

/-- Settles O24. -/
theorem recordsReachTheirRings : Obligations.RecordsReachTheirRings := ⟨completionRecordIsWritten, eventsAreKeptOrCounted⟩

end Sys2Proof.Proofs


/-! ## The memory controller (O58) -/

namespace Sys2Proof.Proofs
open Sys2Proof.Machine

/-! ### Encrypted granules -/

theorem peek_pokes_inside (m : Mem) (a : Nat) (bs : List Byte) {i : Nat} (hi : i < bs.length) : peek (pokes m a bs) (a + i) = bs[i] := by
  induction bs generalizing m a i with
  | nil => exact absurd hi (by simp)
  | cons b bs ih =>
    cases i with
    | zero => rw [pokes, peek_pokes_outside (by omega), Nat.add_zero, peek_poke_same]; rfl
    | succ i =>
      rw [pokes, show a + (i + 1) = a + 1 + i by omega]
      exact ih _ _ (by simpa using hi)

@[simp] theorem pokes_encTag (m : Mem) (a : Nat) (bs : List Byte) : (pokes m a bs).encTag = m.encTag := by
  induction bs generalizing m a with
  | nil => rfl
  | cons b bs ih => rw [pokes, ih]; rfl

@[simp] theorem length_decBytes (m : Mem) (e a n : Nat) : (decBytes m e a n).length = n := by
  induction n generalizing a with
  | zero => rfl
  | succ n ih => simp [decBytes, ih]

theorem getElem_decBytes (m : Mem) (e a n : Nat) {i : Nat} (hi : i < (decBytes m e a n).length) :
    (decBytes m e a n)[i] = decByte m e (a + i) := by
  induction n generalizing a i with
  | zero => exact absurd hi (by simp)
  | succ n ih =>
    cases i with
    | zero => rfl
    | succ i =>
      simp only [decBytes, List.getElem_cons_succ]
      rw [ih, show a + 1 + i = a + (i + 1) by omega]

/-- Where the granule's setting is the access's, a byte reads as it stands. -/
theorem decByte_of_tag {m : Mem} {e a : Nat} (h : sget (fun _ => 0) m.encTag (a / 64) = e) : decByte m e a = peek m a := if_pos h

theorem decByte_congr {m m' : Mem} {e a : Nat} (ht : sget (fun _ => 0) m'.encTag (a / 64) = sget (fun _ => 0) m.encTag (a / 64))
    (hp : peek m' a = peek m a) : decByte m' e a = decByte m e a := by rw [decByte, decByte, ht, hp]

/-- The memory with one granule brought under a setting, before bytes are merged into it (R465). -/
def underSetting (m : Mem) (e g : Nat) : Mem :=
  if sget (fun _ => 0) m.encTag g = e then m
  else { pokes m (g * 64) (decBytes m e (g * 64) 64) with encTag := sset (fun _ => 0) m.encTag g e }

theorem encWrite_eq (m : Mem) (e a : Nat) (bs : List Byte) : encWrite m e a bs = pokes (underSetting m e (a / 64)) a bs := rfl

@[simp] theorem underSetting_tag (m : Mem) (e g : Nat) : sget (fun _ => 0) (underSetting m e g).encTag g = e := by
  unfold underSetting
  split
  · assumption
  · exact sget_sset ..

theorem underSetting_tag_ne (m : Mem) (e : Nat) {g h : Nat} (hne : h ≠ g) :
    sget (fun _ => 0) (underSetting m e g).encTag h = sget (fun _ => 0) m.encTag h := by
  unfold underSetting
  split
  · rfl
  · exact sget_sset_ne _ _ _ hne

theorem underSetting_ram {m : Mem} {e g : Nat} (h : sget (fun _ => 0) m.encTag g ≠ e) :
    (underSetting m e g).ram = (pokes m (g * 64) (decBytes m e (g * 64) 64)).ram := by rw [underSetting, if_neg h]

theorem peek_underSetting_ne (m : Mem) (e : Nat) {g x : Nat} (hne : x / 64 ≠ g) : peek (underSetting m e g) x = peek m x := by
  by_cases h : sget (fun _ => 0) m.encTag g = e
  · rw [underSetting, if_pos h]
  · rw [peek_of_ram (underSetting_ram h), peek_pokes_outside (by rw [length_decBytes]; omega)]

/-- The granule reads under its new setting as it did before. -/
theorem peek_underSetting (m : Mem) (e x : Nat) : peek (underSetting m e (x / 64)) x = decByte m e x := by
  by_cases h : sget (fun _ => 0) m.encTag (x / 64) = e
  · rw [underSetting, if_pos h, decByte_of_tag h]
  · have hin : x % 64 < (decBytes m e (x / 64 * 64) 64).length := by rw [length_decBytes]; omega
    have hpos : x / 64 * 64 + x % 64 = x := by omega
    have h1 := peek_pokes_inside m (x / 64 * 64) _ hin
    rw [getElem_decBytes, hpos] at h1
    rw [peek_of_ram (underSetting_ram h), h1]

/-- A write of a granule leaves it under the setting of the write. -/
theorem encWrite_tag (m : Mem) (e a : Nat) (bs : List Byte) : sget (fun _ => 0) (encWrite m e a bs).encTag (a / 64) = e := by
  rw [encWrite_eq, pokes_encTag, underSetting_tag]

/-- Other granules keep their setting. -/
theorem encWrite_tag_ne {m : Mem} {e a x : Nat} (bs : List Byte) (h : x / 64 ≠ a / 64) :
    sget (fun _ => 0) (encWrite m e a bs).encTag (x / 64) = sget (fun _ => 0) m.encTag (x / 64) := by
  rw [encWrite_eq, pokes_encTag, underSetting_tag_ne m e h]

/-- Bytes of other granules stay as they are. -/
theorem peek_encWrite_ne {m : Mem} {e a x : Nat} {bs : List Byte} (hfit : a % 64 + bs.length ≤ 64) (h : x / 64 ≠ a / 64) :
    peek (encWrite m e a bs) x = peek m x := by
  rw [encWrite_eq, peek_pokes_outside (by omega), peek_underSetting_ne m e h]

/-- What stood in the rest of the granule reads as before under the setting of the write. -/
theorem decByte_encWrite_outside {m : Mem} {e a x : Nat} {bs : List Byte} (hfit : a % 64 + bs.length ≤ 64)
    (hx : x < a ∨ a + bs.length ≤ x) : decByte (encWrite m e a bs) e x = decByte m e x := by
  by_cases hg : x / 64 = a / 64
  · rw [decByte_of_tag (by rw [hg]; exact encWrite_tag m e a bs), encWrite_eq, peek_pokes_outside hx, ← hg, peek_underSetting]
  · exact decByte_congr (encWrite_tag_ne bs hg) (peek_encWrite_ne hfit hg)

/-- Bytes written under a setting read back under it. -/
theorem decBytes_encWrite {m : Mem} {e a : Nat} {bs : List Byte} (hfit : a % 64 + bs.length ≤ 64) :
    decBytes (encWrite m e a bs) e a bs.length = bs := by
  refine List.ext_getElem (length_decBytes ..) fun i h1 h2 => ?_
  rw [getElem_decBytes, decByte_of_tag (by rw [show (a + i) / 64 = a / 64 by omega]; exact encWrite_tag m e a bs)]
  rw [encWrite_eq]
  exact peek_pokes_inside _ _ _ h2

/-! ### Regions -/

theorem find?_range_eq_some {p : Nat → Bool} {n r : Nat} :
    (List.range n).find? p = some r ↔ r < n ∧ p r = true ∧ ∀ q < r, p q = false := by
  rw [List.find?_range_eq_some]
  simp only [Bool.not_eq_true', List.mem_range]
  tauto

theorem lowestRegionDecides : Sys2Proof.Claim.LowestRegionDecides := by
  intro d g write a
  have hfind : ∀ r, decidingRegion d a = some r ↔ r < 16 ∧ regionHolds (region d r) a = true ∧ ∀ q < r, regionHolds (region d q) a = false :=
    fun r => find?_range_eq_some
  have hgate (he : d.dmc.everEnabled = true ∨ g ≠ 6) : (g == 6 && !d.dmc.everEnabled) = false := by
    rcases he with he | he <;> simp [he]
  refine ⟨hfind, fun he hnone => ?_, fun r he hr hk => ?_⟩
  · have hn : decidingRegion d a = none := by
      rw [Option.eq_none_iff_forall_ne_some]
      intro r hr
      obtain ⟨hr, ht, -⟩ := (hfind r).mp hr
      exact absurd ht (by simp [hnone r hr])
    rw [agentMay, hgate he, hn]
    rfl
  · rw [agentMay, hgate he, hr]
    simp [hk]

theorem refusedWritesKeepMemory : Sys2Proof.Claim.RefusedWritesKeepMemory := by
  intro d g source a bs lo hi hmay harea e
  have he : e = violation d g true (a / 64 * 64) := by
    show writeGranule d (some g) source a bs lo hi = _
    rcases harea with harea | ⟨k, harea⟩ <;> simp [writeGranule, harea, hmay]
  rw [he]
  refine ⟨violation_mem .., ?_, ?_⟩
  · unfold violation
    rw [cnt_postOnce, cnt_bump]
    rfl
  · unfold violation
    rw [postOnce_dmc]
    rfl

/-! ### Accesses of DRAM -/

theorem areaOf_dram {d : Dev} {a : Nat} (h : a < dramSize d) (hd : dramSize d ≤ 0x800000000) : areaOf d a = .dram := by
  rw [areaOf, if_pos (by omega), if_pos h]

theorem dramSize_of_leaves {d e : Dev} (h : Leaves AccessKey d e) : dramSize e = dramSize d :=
  h.cnt (by unfold AccessKey odKey; omega)

theorem linkRead_mem (d : Dev) (a : Nat) : (linkRead d a).1.mem = d.mem := by
  unfold linkRead
  dsimp only
  split
  · rfl
  · split
    · split
      · rw [postEvent_mem]; rfl
      · rfl
    · rw [postEvent_mem]; rfl

/-- A read of a DRAM granule changes nothing stored. -/
theorem readGranule_dram_mem {d : Dev} (g : Option Nat) (s : Nat) {a : Nat} (h : areaOf d (a / 64 * 64) = .dram) :
    (readGranule d g s a).1.mem = d.mem := by
  have hread : (bump (linkRead d (a / 64 * 64)).1 (0x2410 + dramChannel (a / 64 * 64)) 3 8 64).mem = d.mem := linkRead_mem ..
  unfold readGranule
  cases g with
  | none =>
    simp only [h]
    split
    · rfl
    · exact hread
  | some g =>
    simp only [h]
    split
    · exact violation_mem ..
    · exact hread

theorem readGranules_dram_mem (g : Option Nat) (s : Nat) (l : List Nat) {d : Dev} (hd : dramSize d ≤ 0x800000000)
    (hl : ∀ a ∈ l, a < dramSize d) : (readGranules d g s l).1.mem = d.mem := by
  induction l generalizing d with
  | nil => rfl
  | cons a as ih =>
    have hsize := dramSize_of_leaves (leaves_readGranule d g s a)
    have hin : a / 64 * 64 < dramSize d := by have := hl a (by simp); omega
    show (readGranules (readGranule d g s a).1 g s as).1.mem = d.mem
    rw [ih (by rw [hsize]; exact hd) (fun b hb => by rw [hsize]; exact hl b (by simp [hb])),
      readGranule_dram_mem g s (areaOf_dram hin hd)]

theorem mem_granulesOf_lt {a n x : Nat} (h : x ∈ granulesOf a n) : x < a + n := by
  unfold granulesOf at h
  split at h
  · exact absurd h (by simp)
  · simp only [List.mem_map, List.mem_range] at h
    obtain ⟨i, hi, rfl⟩ := h
    omega

theorem memRead_dram_mem {d : Dev} (g : Option Nat) (s : Nat) {a n : Nat} (hd : dramSize d ≤ 0x800000000) (h : a + n ≤ dramSize d) :
    (memRead d g s a n).1.mem = d.mem :=
  readGranules_dram_mem g s _ hd fun _ hx => lt_of_lt_of_le (mem_granulesOf_lt hx) h

/-- What a granted write leaves in a DRAM granule. -/
theorem writeGranule_dram_mem {d : Dev} {g s a : Nat} (bs : List Byte) (pl ph : Bool) (harea : areaOf d a = .dram)
    (hmay : agentMay d g true (a / 64 * 64) = true) :
    (writeGranule d (some g) s a bs pl ph).mem = encWrite d.mem (encSetting d a) a bs := by
  unfold writeGranule
  simp only [harea, hmay, Bool.not_true, Bool.false_eq_true, if_false, updMem_mem]
  split <;> rfl

/-! ### Retraining -/

theorem leaves_linkCorrected (d : Dev) {c : Nat} (k : Nat) (hc : c < 8) : Leaves AccessKey d (linkCorrected d c k) := by
  have hb : Leaves AccessKey d (bump d (0x2410 + c) 1 4 k) := leaves_bump _ _ _ _ _ (accessKey_channel hc (by decide))
  unfold linkCorrected
  dsimp only
  split
  · exact hb
  · split
    · exact .trans hb (.trans (leaves_dmc _ _) (.trans (leaves_latch _ _) (.trans (leaves_postEvent ..) (leaves_dmc _ _))))
    · exact .trans hb (leaves_dmc _ _)

theorem linkCorrected_sched (d : Dev) (c k : Nat) : (linkCorrected d c k).dmc.sched = d.dmc.sched := by
  unfold linkCorrected
  dsimp only
  split
  · rfl
  · split
    · show (postEvent _ _ _ _ _).dmc.sched = _
      rw [postEvent_dmc]; rfl
    · rfl

theorem lowestChan_lt {m : BitVec 8} {c : Nat} (h : lowestChan m = some c) : c < 8 := (find?_range_eq_some.mp h).1

theorem retrainDone_none {d : Dev} (ok : Bool) (ns k : Nat) (h : lowestChan d.dmc.retraining = none) : retrainDone d ok ns k = d := by
  rw [retrainDone, h]

theorem retrainDone_some {d : Dev} {c : Nat} (ok : Bool) (ns k : Nat) (h : lowestChan d.dmc.retraining = some c) :
    let e := retrainDone d ok ns k
    e.dmc.sched = d.dmc.sched &&& ~~~(BitVec.ofNat 8 (2 ^ c)) ∧ cnt e 0x2401 4 = max (cnt d 0x2401 4) ns
    ∧ (ok = true → cnt e 0x2401 3 = (cnt d 0x2401 3 + 1) % 2 ^ 32)
    ∧ (ok = false → bit e.dmc.due c = true ∧ cnt e 0x2401 3 = cnt d 0x2401 3) := by
  have hl := leaves_linkCorrected d k (lowestChan_lt h)
  have hs := linkCorrected_sched d c k
  have hcnt (sub : Nat) (hsub : sub < 256) : cnt (linkCorrected d c k) 0x2401 sub = cnt d 0x2401 sub :=
    hl.cnt (by unfold AccessKey odKey; omega)
  rw [retrainDone, h]
  dsimp only
  generalize linkCorrected d c k = f at hs hcnt
  cases ok with
  | true =>
    refine ⟨?_, ?_, fun _ => ?_, fun h => Bool.noConfusion h⟩
    · rw [← hs]; rfl
    · show cnt (bump (setCnt f 0x2401 4 (max (cnt f 0x2401 4) ns)) 0x2401 3 4 1) 0x2401 4 = _
      rw [cnt_bump_ne _ _ _ _ _ (by decide), cnt_setCnt, hcnt 4 (by decide)]
    · show cnt (bump (setCnt f 0x2401 4 (max (cnt f 0x2401 4) ns)) 0x2401 3 4 1) 0x2401 3 = _
      rw [cnt_bump, cnt_setCnt_ne _ _ _ _ (by decide), hcnt 3 (by decide)]; rfl
  | false =>
    refine ⟨?_, ?_, fun h => Bool.noConfusion h, fun _ => ⟨?_, ?_⟩⟩
    · show (postEvent _ _ _ _ _).dmc.sched &&& _ = _
      rw [postEvent_dmc, ← hs]; rfl
    · show cnt (postEvent (setCnt f 0x2401 4 (max (cnt f 0x2401 4) ns)) _ _ _ _) 0x2401 4 = _
      rw [cnt_postEvent, cnt_setCnt, hcnt 4 (by decide)]
    · show bit ((postEvent _ _ _ _ _).dmc.due ||| BitVec.ofNat 8 (2 ^ c)) c = true
      rw [bit_or, bit_ofNat_two_pow c (lowestChan_lt h)]
      simp
    · show cnt (postEvent (setCnt f 0x2401 4 (max (cnt f 0x2401 4) ns)) _ _ _ _) 0x2401 3 = _
      rw [cnt_postEvent, cnt_setCnt_ne _ _ _ _ (by decide), hcnt 3 (by decide)]

/-! ### The controller's commands -/

/-- A write of a region entry in whole words by the application cluster: it is taken unless the entry is locked, reshaped while enabled, or encrypts beyond the DRAM. -/
theorem regionWrite_apc (d : Dev) (r k : Nat) (v : W64) :
    let e := region d r
    let e' := BitVec.ofNat 256 (setFld e.toNat (64 * k) 64 v.toNat) &&& BitVec.ofNat 256 regionMask
    regionWrite d r k v false true =
      if bit e 3 = true ∨ (bit e 0 = true ∧ regionShape e' ≠ regionShape e) ∨ encryptFits d e' = false then d
      else { d with dmc := { d.dmc with regions := sset (fun _ => 0#256) d.dmc.regions r e', everEnabled := d.dmc.everEnabled || bit e' 0 } } := by
  dsimp only
  unfold regionWrite
  simp only [Bool.not_true, Bool.false_eq_true, if_false, Bool.false_or, Bool.or_eq_true, Bool.and_eq_true, bne_iff_ne,
    Bool.not_eq_true', or_assoc]

theorem memoryControllerRuns_claim : Sys2Proof.Claim.MemoryControllerRuns := by
  intro s h
  have hx (c : Instr) (f : Dev → Dev) (hc : exec c s = nextDev s f) : exec c s = .next (onDev s f) := hc.trans (nextDev_awake h)
  refine ⟨?read, ?write, ?unmapped, ?region, ?refresh, ?idle, ?done⟩
  case read =>
    intro g a n bs p err hfit hsize
    refine ⟨_, hx _ (fun d => dramAccess d g a.toNat n.toNat false bs p err) rfl, ?_⟩
    show (memRead _ _ _ _ _).1.mem = _
    split
    · exact memRead_dram_mem _ _ hsize hfit
    · exact memRead_dram_mem (d := { s.dev with dmc := _ }) _ _ hsize hfit
  case write =>
    intro g a n bs p err hfit hsize hin hne hmay e
    have harea : areaOf s.dev a.toNat = .dram := by
      refine areaOf_dram ?_ hsize
      have := List.length_pos_of_ne_nil hne
      omega
    refine ⟨_, hx _ (fun d => dramAccess d (some g) a.toNat n.toNat true bs p err) rfl, ?_⟩
    have hmem : (onDev s fun d => dramAccess d (some g) a.toNat n.toNat true bs p err).dev.mem = encWrite s.dev.mem e a.toNat bs := by
      show (memWrite _ _ _ _ _ _).mem = _
      rw [memWrite_within _ _ _ _ _ hne hin]
      exact writeGranule_dram_mem _ _ _ harea hmay
    rw [hmem]
    exact ⟨decBytes_encWrite hin, fun x hx => decByte_encWrite_outside hin hx, fun x hx => peek_encWrite_ne hin hx⟩
  case unmapped =>
    intro g a write whole
    have hexec := hx (.unmappedAccess g a write whole) (fun d => unmappedAccess d g a.toNat write whole) rfl
    refine ⟨fun hr => ?_, fun hr => ?_⟩
    · rw [hexec, onDev, unmappedAccess, if_pos hr]
    · rw [hexec, onDev, unmappedAccess, if_neg (by simp [hr])]
  case region =>
    intro r k v e e'
    have hexec (fromMgc whole : Bool) := hx (.regionEntryWrite r k v fromMgc whole) (fun d => regionWrite d r k v fromMgc whole) rfl
    refine ⟨fun hlock hshape hfits => ?_, fun hbad => ?_, ?_, fun fromMgc => ?_⟩
    · refine ⟨_, hexec false true, ?_⟩
      have hd := regionWrite_apc s.dev r k v
      dsimp only at hd
      rw [if_neg (by
        rintro (hl | ⟨he, hs⟩ | hf)
        · exact absurd hl (by simp [show bit (region s.dev r) 3 = false from hlock])
        · exact hs (hshape he)
        · exact absurd hfits (by simp [show encryptFits s.dev e' = false from hf]))] at hd
      rw [onDev, hd]
      exact ⟨sget_sset .., fun q hq => sget_sset_ne _ _ _ hq, rfl⟩
    · have hd := regionWrite_apc s.dev r k v
      dsimp only at hd
      rw [if_pos hbad] at hd
      rw [hexec, onDev, hd]
    · rw [hexec, onDev]
      simp [regionWrite]
    · refine ⟨_, hexec fromMgc false, ?_⟩
      rw [onDev]
      simp [regionWrite, addressError]
  case refresh => exact fun c => ⟨hx (.refresh c) (fun d => refresh d c) rfl, hx (.retrainDue c) (fun d => retrainDue d c) rfl⟩
  case idle =>
    intro ok ns k hnone
    rw [hx (.retrainChannelDone ok ns k) (fun d => retrainDone d ok ns.toNat k.toNat) rfl, onDev, retrainDone_none _ _ _ hnone]
  case done =>
    intro c ok ns k hc
    exact ⟨_, hx (.retrainChannelDone ok ns k) (fun d => retrainDone d ok ns.toNat k.toNat) rfl, retrainDone_some ok _ _ hc⟩

/-- Settles O58. -/
theorem memoryControllerRuns : Obligations.MemoryControllerRuns :=
  ⟨lowestRegionDecides, refusedWritesKeepMemory, memoryControllerRuns_claim⟩

end Sys2Proof.Proofs


/-! ## The breath (O60) -/

namespace Sys2Proof.Proofs
open Sys2Proof.Machine

/-! ### What the blocks do at a boundary leaves the generator alone -/

/-- The generator, the clock and BREATH_NUMBER are as they were. -/
structure KeepsTime (d e : Dev) : Prop where
  breath : e.breath = d.breath
  clk : e.clk = d.clk
  number : cnt e 0x2101 1 = cnt d 0x2101 1

namespace KeepsTime

variable {d e f : Dev}

theorem refl (d : Dev) : KeepsTime d d := ⟨rfl, rfl, rfl⟩

theorem trans (h : KeepsTime d e) (k : KeepsTime e f) : KeepsTime d f :=
  ⟨k.breath.trans h.breath, k.clk.trans h.clk, k.number.trans h.number⟩

theorem of_od (hb : e.breath = d.breath) (hc : e.clk = d.clk) (ho : e.od = d.od) : KeepsTime d e := ⟨hb, hc, by rw [cnt, cnt, ho]⟩

theorem setCnt (d : Dev) {i sub : Nat} (v : Nat) (h : odKey 0x2101 1 ≠ odKey i sub) : KeepsTime d (setCnt d i sub v) :=
  ⟨rfl, rfl, cnt_setCnt_ne _ _ _ _ h⟩

theorem bump (d : Dev) {i sub : Nat} (w n : Nat) (h : odKey 0x2101 1 ≠ odKey i sub) : KeepsTime d (bump d i sub w n) := setCnt d _ h

theorem postEvent (d : Dev) (c k s p : Nat) : KeepsTime d (postEvent d c k s p) := ⟨postEvent_breath .., postEvent_clk .., cnt_postEvent ..⟩

theorem memRead (d : Dev) (g : Option Nat) (s a n : Nat) : KeepsTime d (memRead d g s a n).1 :=
  ⟨memRead_breath .., memRead_clk .., (leaves_memRead d g s a n).cnt (by unfold AccessKey odKey; omega)⟩

theorem foldl {α : Type} {g : Dev → α → Dev} (l : List α) (h : ∀ d : Dev, ∀ x ∈ l, KeepsTime d (g d x)) (d : Dev) :
    KeepsTime d (l.foldl g d) := by
  induction l generalizing d with
  | nil => exact refl d
  | cons x xs ih => exact (h d x (by simp)).trans (ih (fun d y hy => h d y (by simp [hy])) _)

theorem ite {p : Prop} [Decidable p] (he : KeepsTime d e) (hf : KeepsTime d f) : KeepsTime d (if p then e else f) := by
  split
  · exact he
  · exact hf

theorem updCam (d : Dev) (p : Nat) (g : Cam → Cam) : KeepsTime d (updCam d p g) := ⟨rfl, rfl, rfl⟩

theorem updGrp (d : Dev) (g : Nat) (x : AudioGroup → AudioGroup) : KeepsTime d (updGrp d g x) := ⟨rfl, rfl, rfl⟩

theorem updTdm (d : Dev) (t : Nat) (x : Tdm → Tdm) : KeepsTime d (updTdm d t x) := ⟨rfl, rfl, rfl⟩

theorem goRunning (d : Dev) {n : Nat} (h : n < 34) : KeepsTime d (goRunning d n) :=
  (setCnt d _ (by unfold odKey; omega)).trans (bump _ _ _ (by unfold odKey; omega))

theorem camBoundary (d : Dev) (p : Nat) : KeepsTime d (camBoundary d p) := by
  unfold Machine.camBoundary
  dsimp only
  refine .trans (.trans (ite (refl d) (postEvent ..)) (ite (refl _) (postEvent ..))) (updCam ..)

theorem trigBoundary (period : Nat) (d : Dev) {p : Nat} (h : p < 4) : KeepsTime d (trigBoundary period d p) := by
  unfold Machine.trigBoundary
  dsimp only
  split
  · exact (updCam d p _).trans (ite (updCam ..) (bump _ _ _ (by unfold odKey camB; omega)))
  · exact updCam d p _

theorem tdmSlip (d : Dev) {t : Nat} (h : t < 2) : KeepsTime d (tdmSlip d t) := by
  unfold Machine.tdmSlip
  dsimp only
  split
  · refine .trans (setCnt d _ (by unfold odKey; omega)) (ite (.trans (foldl _ (fun e g hg => ?_) _) (postEvent ..)) (refl _))
    have hg8 : g < 8 := List.mem_range.mp (List.mem_of_mem_filter hg)
    exact (updGrp e g _).trans (bump _ _ _ (by unfold odKey; omega))
  · exact refl d

theorem groupBoundary (b : Nat) (d : Dev) {g : Nat} (h : g < 8) : KeepsTime d (groupBoundary b d g) := by
  unfold Machine.groupBoundary
  dsimp only
  refine ite ?_ (ite (updGrp ..) (ite (updGrp ..) (refl d)))
  exact .trans (goRunning d (by unfold grpFn; omega)) (.trans (updGrp ..) (setCnt _ _ (by unfold odKey; omega)))

theorem tdmPlay (b : Nat) (d : Dev) {t : Nat} (h : t < 2) : KeepsTime d (tdmPlay b d t) := by
  unfold Machine.tdmPlay
  dsimp only
  refine ite (ite ?_ ?_) (refl d)
  · exact .trans (memRead ..) (.trans (memRead ..) (updTdm ..))
  · exact .trans (memRead ..) (.trans (bump _ _ _ (by unfold odKey; omega)) (updTdm ..))

theorem audioBoundary (d : Dev) (b : Nat) : KeepsTime d (audioBoundary d b) := by
  have h2 {t : Nat} (ht : t ∈ [0, 1]) : t < 2 := by simp at ht; omega
  unfold Machine.audioBoundary
  refine .trans (.trans (.trans (foldl [0, 1] ?slip d) (foldl (List.range 8) ?groups _)) (foldl [0, 1] ?clear _)) (foldl [0, 1] ?play _)
  case slip => exact fun e t ht => tdmSlip e (h2 ht)
  case groups => exact fun e g hg => groupBoundary b e (List.mem_range.mp hg)
  case clear => exact fun e t _ => updTdm ..
  case play => exact fun e t ht => tdmPlay b e (h2 ht)

theorem retrainStart (d : Dev) : KeepsTime d (retrainStart d) := by
  unfold Machine.retrainStart
  exact ite (of_od rfl rfl rfl) (refl d)

theorem ptpBoundary (d : Dev) (b : Nat) : KeepsTime d (ptpBoundary d b) :=
  ⟨updPorts_breath .., updPorts_clk .., cnt_updPorts ..⟩

theorem blocksTurn (d : Dev) : KeepsTime d (blocksTurn d) := by
  have h4 {p : Nat} (hp : p ∈ [0, 1, 2, 3]) : p < 4 := by simp at hp; omega
  unfold Machine.blocksTurn
  refine .trans (.trans (.trans (foldl [0, 1, 2, 3] ?cam d) (foldl [0, 1, 2, 3] ?trig _)) (audioBoundary _ _)) (.trans (ptpBoundary ..) (retrainStart _))
  case cam => exact fun e p _ => camBoundary e p
  case trig => exact fun e p hp => trigBoundary _ e (h4 hp)

end KeepsTime

/-! ### The boundary -/

theorem judgeMissing_breath (d : Dev) : ∃ m, (judgeMissing d).breath = { d.breath with missed := m } := by
  unfold judgeMissing
  dsimp only
  by_cases h : eventMissed d = true
  · refine ⟨d.breath.missed + 1, ?_⟩
    rw [if_pos h]
    split <;> rfl
  · refine ⟨d.breath.missed, ?_⟩
    rw [if_neg h]
    split <;> rfl

theorem judgeMissing_clk (d : Dev) : (judgeMissing d).clk = d.clk := by
  unfold judgeMissing
  dsimp only
  split <;> split <;> rfl

/-- A lock state is no part of the breath's progress. -/
theorem keepsTime_setLock (d : Dev) (v : Nat) : KeepsTime d (setLock d v) := KeepsTime.setCnt d v (by decide)

/-- Settings that act leave number, progress, length and correction of the breath, and the clock. -/
theorem takeSettings_progress (d : Dev) : ∃ e, KeepsTime e (takeSettings d) ∧ e.breath.number = d.breath.number
    ∧ e.breath.ns = d.breath.ns ∧ e.breath.prevLen = d.breath.prevLen ∧ e.breath.adj = d.breath.adj
    ∧ e.clk = d.clk ∧ cnt e 0x2101 1 = cnt d 0x2101 1 := by
  unfold takeSettings
  dsimp only
  split
  · exact ⟨updBreath d _, .ite (keepsTime_setLock ..) (.ite (keepsTime_setLock ..) (.ite (keepsTime_setLock ..) (.refl _))),
      rfl, rfl, rfl, rfl, rfl, rfl⟩
  · exact ⟨d, .refl d, rfl, rfl, rfl, rfl, rfl, rfl⟩

/-- The generator's part of a boundary, from a breath whose judgement may have counted a missing event. -/
theorem turnBreath_progress (d : Dev) :
    (turnBreath d).breath.number = d.breath.number + 1 ∧ (turnBreath d).breath.ns = d.breath.ns - breathLen d.breath
    ∧ (turnBreath d).breath.prevLen = breathLen d.breath ∧ (turnBreath d).breath.adj = 0
    ∧ (turnBreath d).clk.ns = d.clk.ns + (breathLen d.breath - d.breath.ns)
    ∧ cnt (turnBreath d) 0x2101 1 = (d.breath.number + 1) % 2 ^ 64 := by
  unfold turnBreath
  exact ⟨rfl, rfl, rfl, rfl, rfl, cnt_setCnt ..⟩

/-- After the generator's part a boundary leaves the generator, the clock and BREATH_NUMBER alone. -/
theorem breathBoundary_keepsTime (d : Dev) : KeepsTime (takeSettings (turnBreath (judgeMissing d))) (breathBoundary d) := by
  unfold breathBoundary
  dsimp only
  refine .trans (e := updMgc { takeSettings (turnBreath (judgeMissing d)) with
      once := [], ipl := { (takeSettings (turnBreath (judgeMissing d))).ipl with dropMask := 0#16 } } fun m => { m with evSent := 0 })
    (.of_od rfl rfl rfl) (.trans (.ite (.refl _) (.blocksTurn _)) (.ite (.postEvent ..) (.refl _)))

theorem exec_breathBoundary {s : State} (h : MgcAwake s) : exec .breathBoundary s = .next (onDev s breathBoundary) := nextMgc_awake h

theorem breathBoundary_advances (d : Dev) :
    (breathBoundary d).breath.number = d.breath.number + 1 ∧ cnt (breathBoundary d) 0x2101 1 = (d.breath.number + 1) % 2 ^ 64
    ∧ (breathBoundary d).breath.prevLen = breathLen d.breath ∧ (breathBoundary d).clk.ns = d.clk.ns + (breathLen d.breath - d.breath.ns)
    ∧ (breathBoundary d).breath.adj = 0 ∧ (breathBoundary d).breath.ns = d.breath.ns - breathLen d.breath := by
  have hblocks := breathBoundary_keepsTime d
  obtain ⟨m, hm⟩ := judgeMissing_breath d
  obtain ⟨tn, tns, tprev, tadj, tclk, tcnt⟩ := turnBreath_progress (judgeMissing d)
  obtain ⟨e, hlock, en, ens, eprev, eadj, eclk, ecnt⟩ := takeSettings_progress (turnBreath (judgeMissing d))
  have hlen : breathLen { d.breath with missed := m } = breathLen d.breath := rfl
  rw [hm, hlen] at tns tprev tclk
  rw [hm] at tn tcnt
  rw [judgeMissing_clk] at tclk
  rw [hblocks.breath, hblocks.clk, hblocks.number, hlock.breath, hlock.clk, hlock.number, en, ens, eprev, eadj, eclk, ecnt]
  exact ⟨tn, tcnt, tprev, tclk, tadj, tns⟩

/-! ### Reference events -/

theorem clampSlew_natAbs_le (slew : Nat) (e : Int) : (clampSlew slew e).natAbs ≤ slew := by unfold clampSlew; omega

theorem clampSlew_of_le {slew : Nat} {e : Int} (h : e.natAbs ≤ slew) : clampSlew slew e = e := by unfold clampSlew; omega

/-- A due event within 2 ms locks, and moves the boundary by its error clamped to the slew. -/
theorem dueEvent_near (d : Dev) (n : Nat) {e : Int} (h : e.natAbs ≤ 2000000) :
    lockState (dueEvent d n e) = 1 ∧ (dueEvent d n e).breath.missed = 0
    ∧ (dueEvent d n e).breath.adj = d.breath.adj + clampSlew (setting d 0x2100 6) e := by
  unfold dueEvent
  simp only [h, if_true]
  exact ⟨cnt_setCnt .., rfl, rfl⟩

/-- The parts of the generator that a due event keeps, and where its error is reported. -/
theorem dueEvent_keeps (d : Dev) (n : Nat) (e : Int) :
    (dueEvent d n e).breath.took = d.breath.took ∧ (dueEvent d n e).breath.tookNext = d.breath.tookNext
    ∧ cnt (dueEvent d n e) 0x2101 3 = (e % 2 ^ 32).toNat := by
  unfold dueEvent
  dsimp only
  split_ifs <;> simp (disch := decide) [moveBoundary, setLock, cnt_setCnt_ne, cnt_bump_ne, lowBits]

/-- A reference event that finds a due breath marks it and reports its error. -/
theorem syncEvent_taken {d : Dev} {icn : Option Nat} {k : Nat} {e : Int}
    (hmine : (match icn with | none => d.breath.source == 1 | some n => d.breath.source == 2 && d.breath.ic == n && fnLive d (icFn n)) = true)
    (he : eventFor d.breath = some (k, e)) :
    (k = 0 → (syncEvent d icn).breath.took = true) ∧ (k = 1 → (syncEvent d icn).breath.tookNext = true)
    ∧ cnt (syncEvent d icn) 0x2101 3 = (e % 2 ^ 32).toNat := by
  have hs : syncEvent d icn = dueEvent (updBreath d fun b => if k = 0 then { b with took := true } else { b with tookNext := true })
      (d.breath.number + k) e := by
    unfold syncEvent
    cases icn <;> simp only [hmine, he, if_true]
  obtain ⟨h0, h1, h2⟩ := dueEvent_keeps (updBreath d fun b => if k = 0 then { b with took := true } else { b with tookNext := true })
    (d.breath.number + k) e
  rw [hs, h0, h1]
  refine ⟨fun hk => ?_, fun hk => ?_, h2⟩
  · rw [updBreath, if_pos hk]
  · rw [updBreath, if_neg (by omega)]

theorem breathAdvances_claim : Sys2Proof.Claim.BreathAdvances := by
  intro s h
  have hsync (icn : Option (Fin 16)) : exec (.syncReferenceEvent icn) s = .next (onDev s fun d => syncEvent d (icn.map (·.val))) :=
    nextMgc_awake h
  have hidle {icn : Option (Fin 16)} (hd : syncEvent s.dev (icn.map (·.val)) = s.dev) : exec (.syncReferenceEvent icn) s = .next s := by
    rw [hsync, onDev, hd]
  refine ⟨⟨_, exec_breathBoundary h, breathBoundary_advances s.dev⟩, fun e n he => ?near, fun hsrc => hidle ?other,
    fun k e hsrc he => ⟨_, hsync none, syncEvent_taken (by simp [hsrc]) he⟩, fun hsrc hnone => hidle ?nodue, fun n hn => hidle ?otherIc,
    fun n hsrc hic hlive k e he => ⟨_, hsync (some n), syncEvent_taken (by simp [hsrc, hic, hlive]) he⟩⟩
  case near =>
    intro d
    obtain ⟨hlock, hmissed, hadj⟩ := dueEvent_near s.dev n he
    have hslew := clampSlew_natAbs_le (setting s.dev 0x2100 6) e
    refine ⟨hlock, hmissed, ?_, fun hle => ?_⟩
    · show ((dueEvent s.dev n e).breath.adj - _).natAbs ≤ _
      rw [hadj]; omega
    · show (dueEvent s.dev n e).breath.adj = _
      rw [hadj, clampSlew_of_le hle]
  case other => simp [syncEvent, hsrc]
  case nodue => simp [syncEvent, hsrc, hnone]
  case otherIc =>
    rcases hn with hn | hn
    · have hmine : (s.dev.breath.source == 2 && s.dev.breath.ic == n.val && fnLive s.dev (icFn n)) = false := by
        simpa [not_and_or, or_assoc] using hn
      simp [syncEvent, hmine]
    · simp [syncEvent, hn]

/-! ### No drift -/

/-- The nearest integer to a quotient, halves upwards. -/
theorem roundDiv_bounds (a : Nat) {b : Nat} (hb : 0 < b) : 2 * (roundDiv a b * b) ≤ 2 * a + b ∧ 2 * a < 2 * (roundDiv a b * b) + b := by
  have h1 := Nat.div_mul_le_self (2 * a + b) (2 * b)
  have h2 := Nat.lt_div_mul_add (a := 2 * a + b) (b := 2 * b) (by omega)
  have h3 : roundDiv a b * (2 * b) = 2 * (roundDiv a b * b) := by ring
  rw [← h3]
  unfold roundDiv
  omega

theorem boundaryAt_bounds (b : Breath) (k : Nat) (h : 0 < b.num) :
    2 * (boundaryAt b k * b.num) ≤ 2 * (k * b.den * 10 ^ 9) + b.num ∧ 2 * (k * b.den * 10 ^ 9) < 2 * (boundaryAt b k * b.num) + b.num := by
  rw [boundaryAt, Nat.max_eq_right h]
  exact roundDiv_bounds _ h

theorem boundariesDoNotDrift : Sys2Proof.Claim.BoundariesDoNotDrift := by
  intro b k hn
  obtain ⟨hk1, hk2⟩ := boundaryAt_bounds b k hn
  refine ⟨hk1, hk2, fun j => ?_⟩
  obtain ⟨hj1, hj2⟩ := boundaryAt_bounds b j hn
  obtain ⟨hs1, hs2⟩ := boundaryAt_bounds b (k + j) hn
  have hsum : (k + j) * b.den * 10 ^ 9 = k * b.den * 10 ^ 9 + j * b.den * 10 ^ 9 := by ring
  rw [hsum] at hs1 hs2
  constructor
  · refine Nat.le_of_lt_succ (Nat.lt_of_mul_lt_mul_right (a := b.num) ?_)
    rw [Nat.succ_eq_add_one, Nat.add_mul, Nat.add_mul, Nat.add_mul]
    omega
  · refine Nat.le_of_lt_succ (Nat.lt_of_mul_lt_mul_right (a := b.num) ?_)
    rw [Nat.succ_eq_add_one, Nat.add_mul, Nat.add_mul, Nat.add_mul]
    omega

/-- Settles O60. -/
theorem breathAdvances : Obligations.BreathAdvances := ⟨breathAdvances_claim, boundariesDoNotDrift⟩

end Sys2Proof.Proofs


/-! ## Voltage, clocks, the bellows and heat (O59) -/

namespace Sys2Proof.Proofs
open Sys2Proof.Machine

/-- What a scan leaves of each step, it leaves as a whole. -/
theorem foldl_keeps {α β γ : Type} (g : α → γ) {f : α → β → α} (l : List β) (h : ∀ a, ∀ b ∈ l, g (f a b) = g a) (a : α) :
    g (l.foldl f a) = g a := by
  induction l generalizing a with
  | nil => rfl
  | cons b bs ih => exact (ih (fun a c hc => h a c (by simp [hc])) _).trans (h a b (by simp))

/-! ### Voltage and frequency -/

theorem freqStep_freq (i f v t : Nat) : (freqStep i f v t).1 = t := by
  unfold freqStep
  dsimp only
  split_ifs <;> simp only
  omega

/-- On the way up the voltage reaches the fused value and does not fall. -/
theorem freqStep_volt {i f v t : Nat} (h : f < t) : (freqStep i f v t).2 = max v (voltClamp (Config.fusedVolt i t)) := by
  unfold freqStep
  rw [if_pos h]

theorem frequencyStep_core (d : Dev) {i : Nat} (h : i ≠ 16) : frequencyStep d i = updIsland d i fun x =>
    { x with freq := (freqStep i (island d i).freq (island d i).volt (islandTarget d i)).1
             volt := (freqStep i (island d i).freq (island d i).volt (islandTarget d i)).2 } := by
  unfold frequencyStep
  rw [if_neg h]

theorem island_frequencyStep_freq (d : Dev) {i : Nat} (h : i ≠ 16) : (island (frequencyStep d i) i).freq = islandTarget d i := by
  rw [frequencyStep_core d h, island_updIsland]
  exact freqStep_freq ..

theorem island_frequencyStep_volt (d : Dev) {i : Nat} (h : i ≠ 16) (hup : (island d i).freq < islandTarget d i) :
    (island (frequencyStep d i) i).volt = max (island d i).volt (voltClamp (Config.fusedVolt i (islandTarget d i))) := by
  rw [frequencyStep_core d h, island_updIsland]
  exact freqStep_volt hup

theorem avsUpdate_of_disabled {d : Dev} {n : Nat} (slack : Int) (h : (coreOf d n).disabled = true) : avsUpdate d n slack = d := by
  simp [avsUpdate, h]

theorem avsUpdate_of_enabled {d : Dev} {n : Nat} (slack : Int) (h : (coreOf d n).disabled = false) : avsUpdate d n slack =
    if slack < (setting d 0x2002 3 : Int) - 10 then
      (if 850 ≤ (island d n).volt then avsLimit d n else updIsland d n fun x => { x with volt := voltClamp ((island d n).volt + 5) })
    else if (setting d 0x2002 3 : Int) + 10 < slack then updIsland d n fun x => { x with volt := voltClamp ((island d n).volt - 5) }
    else d := by
  simp [avsUpdate, avsShort, h]

/-- Changes of one island that agree on its present state are one change. -/
theorem updIsland_congr {d : Dev} {n : Nat} {f g : Island → Island} (h : f (island d n) = g (island d n)) : updIsland d n f = updIsland d n g := by
  rw [updIsland, updIsland, updPower, updPower]
  simp only [supd]
  rw [show f (sget (fun _ => {}) d.power.islands n) = g (sget (fun _ => {}) d.power.islands n) from h]

/-- An island at its highest voltage lowers its frequency by 50 MHz and counts it. -/
theorem avsLimit_fast {d : Dev} {n : Nat} (h : 650 ≤ (island d n).freq) :
    (island (avsLimit d n) n).freq = (island d n).freq - 50 ∧ (island (avsLimit d n) n).avs = (island d n).freq - 50
    ∧ (island (avsLimit d n) n).volt = (island d n).volt
    ∧ cnt (avsLimit d n) (0x2010 + n) 6 = (cnt d (0x2010 + n) 6 + 1) % 2 ^ 32 := by
  unfold avsLimit
  rw [if_pos h]
  dsimp only
  rw [island_postOnce, cnt_postOnce, island_updIsland, island_bump, cnt_updIsland, cnt_bump]
  exact ⟨rfl, rfl, rfl, rfl⟩

theorem avsLimit_slow {d : Dev} {n : Nat} (h : (island d n).freq < 650) : avsLimit d n = d := if_neg (by omega)

theorem avsRecovery_short {d : Dev} {n : Nat} (hn : n ≠ 16) (h : (island d n).avs < 1800) :
    (island (avsRecovery d n) n).avs = min 1800 ((island d n).avs + 50)
    ∧ (island (avsRecovery d n) n).freq =
        min (min (setting d 0x2002 1) (island d n).bellows) (min (island d n).thermal (min 1800 ((island d n).avs + 50))) := by
  have hr : avsRecovery d n = frequencyStep (updIsland d n fun x => { x with avs := min 1800 (x.avs + 50) }) n := if_pos h
  rw [hr]
  constructor
  · rw [frequencyStep_core _ hn, island_updIsland, island_updIsland]
  · rw [island_frequencyStep_freq _ hn, islandTarget, island_updIsland]
    rfl

theorem voltageFollowsSlack : Sys2Proof.Claim.VoltageFollowsSlack := by
  intro s n slack h x target
  have havs : exec (.avsUpdate n slack) s = .next (onDev s fun d => avsUpdate d n slack.toInt) := nextDev_awake h
  have hrec : exec (.avsRecovery n) s = .next (onDev s fun d => avsRecovery d n) := nextDev_awake h
  refine ⟨fun v => ?clamp, fun hd => ?disabled, fun hd => ?enabled, fun hlt => ⟨_, hrec, avsRecovery_short (by omega) hlt⟩,
    fun hge => ?recovered⟩
  case clamp => unfold voltClamp; omega
  case disabled => rw [havs, onDev, avsUpdate_of_disabled _ hd]
  case recovered => rw [hrec, onDev, show avsRecovery s.dev n = s.dev from if_neg (Nat.not_lt.mpr hge)]
  case enabled =>
    have hupd := avsUpdate_of_enabled slack.toInt hd
    refine ⟨fun hs hv => ?_, fun hs => ?_, fun h1 h2 => ?_, fun hs hv hf => ?_, fun hs hv hf => ?_⟩
    · rw [havs, onDev, hupd, if_pos hs, if_neg (Nat.not_le.mpr hv)]
      exact congrArg (fun d => Host.Outcome.next { s with dev := d }) (updIsland_congr rfl)
    · rw [havs, onDev, hupd, if_neg (by omega), if_pos hs]
      exact congrArg (fun d => Host.Outcome.next { s with dev := d }) (updIsland_congr rfl)
    · rw [havs, onDev, hupd, if_neg (by omega), if_neg (by omega)]
    · refine ⟨_, havs, ?_⟩
      rw [onDev, hupd, if_pos hs, if_pos hv]
      exact avsLimit_fast hf
    · rw [havs, onDev, hupd, if_pos hs, if_pos hv, avsLimit_slow hf]

/-! ### Clocks, droop and monitors -/

theorem clockStop_of_idle {d : Dev} {n : Nat} (hi : islandIdle (coreOf d n) = true) (hd : (coreOf d n).disabled = false) :
    clockStop d n = updCore d n fun c => { c with stopped := true } := by
  simp [clockStop, hi, hd]

theorem clockStop_of_busy {d : Dev} {n : Nat} (h : islandIdle (coreOf d n) = false ∨ (coreOf d n).disabled = true) : clockStop d n = d := by
  rcases h with h | h <;> simp [clockStop, h]

theorem island_droopStretch (d : Dev) (n : Nat) (slack : Int) : (island (droopStretch d n slack) n).stretch =
    if slack < (setting d 0x2002 4 : Int) then min 4 ((island d n).stretch + 1) else 0 := by
  unfold droopStretch
  split
  · rw [island_bump, island_updIsland]
  · rw [island_updIsland]

/-! ### The bellows -/

/-- The mode a window is judged in, from the mode before and the run of good or failed windows (R481). -/
def windowModel (d : Dev) : Bool :=
  if d.power.failed then cnt d 0x2000 5 == 1 || (cnt d 0x2000 5 == 0 && d.power.failRun + 1 == 3)
  else cnt d 0x2000 5 == 1 && decide (d.power.goodRun + 1 < 3)

/-- What the telemetry rule leaves: the loop's own state, the cores, and the mode. -/
structure TelemetryOf (d e : Dev) : Prop where
  cap : e.power.cap = d.power.cap
  t : e.power.t = d.power.t
  p : e.power.p = d.power.p
  cores : e.cores = d.cores
  sets : e.od.sets = d.od.sets
  mode : (cnt e 0x2000 5 == 1) = windowModel d

/-- The runs of good and failed windows, with this window counted. -/
def runsCounted (p : Power) : Power :=
  if p.failed then { p with failRun := p.failRun + 1, goodRun := 0 } else { p with goodRun := p.goodRun + 1, failRun := 0 }

theorem runsCounted_loop (p : Power) : (runsCounted p).cap = p.cap ∧ (runsCounted p).t = p.t ∧ (runsCounted p).p = p.p := by
  unfold runsCounted
  split <;> exact ⟨rfl, rfl, rfl⟩

theorem telemetry_failed {d : Dev} (h : d.power.failed = true) : telemetry d =
    if d.power.failRun + 1 = 3 ∧ cnt d 0x2000 5 = 0 then
      postEvent (setCnt (updPower d runsCounted) 0x2000 5 1) 0x0F02 2 srcMgc (d.power.code % 16)
    else updPower d runsCounted := by
  have hrun : (runsCounted d.power).failRun = d.power.failRun + 1 := by rw [runsCounted, if_pos h]
  unfold telemetry
  rw [← hrun]
  exact if_pos h

theorem telemetry_good {d : Dev} (h : d.power.failed = false) : telemetry d =
    if 3 ≤ d.power.goodRun + 1 then setCnt (updPower d runsCounted) 0x2000 5 0 else updPower d runsCounted := by
  have hrun : (runsCounted d.power).goodRun = d.power.goodRun + 1 := by rw [runsCounted, if_neg (by simp [h])]
  unfold telemetry
  rw [← hrun]
  exact if_neg (by simp [h])

theorem telemetryOf_telemetry (d : Dev) : TelemetryOf d (telemetry d) := by
  obtain ⟨hcap, ht, hp⟩ := runsCounted_loop d.power
  cases hf : d.power.failed with
  | true =>
    rw [telemetry_failed hf]
    split
    · rename_i hc
      refine ⟨by simpa using hcap, by simpa using ht, by simpa using hp, by simp, by rw [postEvent_od]; rfl, ?_⟩
      rw [cnt_postEvent, cnt_setCnt]
      simp [windowModel, hf, hc]
    · rename_i hc
      refine ⟨hcap, ht, hp, rfl, rfl, ?_⟩
      rw [cnt_updPower, windowModel, if_pos hf]
      have hno : (cnt d 0x2000 5 == 0 && d.power.failRun + 1 == 3) = false := by
        rw [Bool.and_eq_false_iff, beq_eq_false_iff_ne, beq_eq_false_iff_ne]
        tauto
      rw [hno, Bool.or_false]
  | false =>
    rw [telemetry_good hf]
    split
    · rename_i hc
      refine ⟨hcap, ht, hp, rfl, rfl, ?_⟩
      rw [cnt_setCnt]
      simp [windowModel, hf, Nat.not_lt.mpr hc]
    · rename_i hc
      refine ⟨hcap, ht, hp, rfl, rfl, ?_⟩
      rw [cnt_updPower]
      simp [windowModel, hf, Nat.lt_of_not_le hc]

/-- What the loop's state shows of a change that concerns the islands, the floors or the limits. -/
def loopState (d : Dev) : Nat × Nat × Nat × Nat × Bool := (d.power.p, d.power.t, d.power.cap, d.power.sum, d.power.failed)

theorem loopState_writeLimits (d : Dev) (n : Nat) : loopState (writeLimits d n) = loopState d := by
  unfold writeLimits loopState
  rfl

theorem loopState_floors (d : Dev) (p cap hyst : Nat) : loopState (floors d p cap hyst) = loopState d := by
  unfold floors loopState
  generalize (if d.power.t = 36 ∧ cap < p then d.power.hotRun + 1 else 0) = hot
  dsimp only
  split
  · rw [postOnce_power]; rfl
  · split <;> rfl

theorem setting_floors (d : Dev) (p cap hyst i sub : Nat) : setting (floors d p cap hyst) i sub = setting d i sub := by
  unfold floors
  generalize (if d.power.t = 36 ∧ cap < p then d.power.hotRun + 1 else 0) = hot
  dsimp only
  split
  · rw [setting_postOnce]; rfl
  · split <;> rfl

/-- The end of a window: CAP_MW as written, and an empty sum. -/
def windowClosed (d : Dev) : Dev := updPower d fun x => { x with cap := setting d 0x2000 1, sum := 0, failed := false }

theorem loopState_closed (d : Dev) :
    loopState ((List.range 16).foldl writeLimits (windowClosed d)) = (d.power.p, d.power.t, setting d 0x2000 1, 0, false) := by
  rw [foldl_keeps loopState _ fun d n _ => loopState_writeLimits d n]
  rfl

/-- A window whose reads failed in monitor mode leaves P and the throttle index. -/
theorem bellowsWindow_skipped {d : Dev} (hf : d.power.failed = true) (hm : windowModel d = false) :
    loopState (bellowsWindow d) = (d.power.p, d.power.t, setting d 0x2000 1, 0, false) := by
  have ht := telemetryOf_telemetry d
  have hw : bellowsWindow d = (List.range 16).foldl writeLimits (windowClosed (telemetry d)) := by
    unfold bellowsWindow
    simp only [hf, ht.mode, hm, Bool.not_false, Bool.and_self, if_true]
    rfl
  rw [hw, loopState_closed, ht.p, ht.t, setting, ht.sets]
  rfl

/-- P of a judged window, and ten times the cap it is held to. -/
def windowPower (d : Dev) : Nat := if windowModel d then Config.energyModel (activity d) else d.power.sum / 10 ^ 6

def windowCap (d : Dev) : Nat := if windowModel d then 9 * d.power.cap else 10 * d.power.cap

/-- Any other window takes its power and moves the throttle index. -/
theorem bellowsWindow_judged {d : Dev} (h : d.power.failed = false ∨ windowModel d = true) : ∃ hyst lowRun,
    loopState (bellowsWindow d) =
      (windowPower d, nextT d.power.t (10 * windowPower d) (windowCap d) hyst lowRun, setting d 0x2000 1, 0, false) := by
  have ht := telemetryOf_telemetry d
  have hact : activity (telemetry d) = activity d := by unfold activity coreOf; rw [ht.cores]
  have hno : (d.power.failed && !windowModel d) = false := by
    rcases h with h | h <;> simp [h]
  have hset (i sub : Nat) : setting (telemetry d) i sub = setting d i sub := by rw [setting, setting, ht.sets]
  unfold bellowsWindow
  simp only [ht.mode, hno, hact, ht.cap, hset, Bool.false_eq_true, if_false]
  generalize he : floors _ _ _ _ = e
  refine ⟨setting d 0x2000 2, if 10 * windowPower d + 10 * setting d 0x2000 2 < windowCap d then (telemetry d).power.lowRun + 1 else 0,
    (loopState_closed e).trans ?_⟩
  have hs : setting e 0x2000 1 = setting d 0x2000 1 := by rw [← he, setting_floors]; exact hset 0x2000 1
  have hl := congrArg loopState he
  rw [loopState_floors] at hl
  simp only [loopState, Prod.mk.injEq] at hl
  obtain ⟨hp, htt, -⟩ := hl
  rw [← hp, ← htt, hs]
  show (_, nextT (telemetry d).power.t _ _ _ _, _) = _
  rw [ht.t]
  rfl

/-- How far the throttle index moves (R478). -/
theorem nextT_steps (t p10 c10 hyst lowRun : Nat) :
    (11 * c10 < 10 * p10 → nextT t p10 c10 hyst lowRun = min 36 (t + 4))
    ∧ (c10 < p10 → 10 * p10 ≤ 11 * c10 → nextT t p10 c10 hyst lowRun = min 36 (t + 1))
    ∧ (p10 ≤ c10 → nextT t p10 c10 hyst lowRun = t ∨ nextT t p10 c10 hyst lowRun = t - 1) := by
  unfold nextT
  refine ⟨fun h => if_pos h, fun h1 h2 => ?_, fun h => ?_⟩
  · rw [if_neg (by omega), if_pos h1]
  · rw [if_neg (by omega), if_neg (by omega)]
    split
    · exact .inr rfl
    · exact .inl rfl

/-! ### Heat -/

/-- The hottest sensor reads one of the readings, and none reads more. -/
theorem hottest_spec {ts : List Int} {k j : Nat} {t : Int} (h : hottest ts k = some (j, t)) : t ∈ ts ∧ ∀ x ∈ ts, x ≤ t := by
  induction ts generalizing k j t with
  | nil => exact absurd h (by simp [hottest])
  | cons y ys ih =>
    unfold hottest at h
    cases hr : hottest ys (k + 1) with
    | none =>
      have hys : ys = [] := by
        cases ys with
        | nil => rfl
        | cons z zs =>
          unfold hottest at hr
          split at hr <;> simp at hr
      simp only [hr, Option.some.injEq, Prod.mk.injEq] at h
      simp [hys, h.2]
    | some r =>
      obtain ⟨i, u⟩ := r
      obtain ⟨hu, hmax⟩ := ih hr
      simp only [hr, Option.some.injEq] at h
      split at h
      · rename_i hlt
        simp only [Prod.mk.injEq] at h
        obtain ⟨-, rfl⟩ := h
        refine ⟨List.mem_cons_of_mem _ hu, fun x hx => ?_⟩
        rcases List.mem_cons.mp hx with rfl | hx
        · omega
        · exact hmax x hx
      · rename_i hge
        simp only [Prod.mk.injEq] at h
        obtain ⟨-, rfl⟩ := h
        refine ⟨List.mem_cons_self, fun x hx => ?_⟩
        rcases List.mem_cons.mp hx with rfl | hx
        · exact le_refl _
        · have := hmax x hx; omega

theorem hottest_isSome {ts : List Int} (h : ts ≠ []) (k : Nat) : ∃ r, hottest ts k = some r := by
  cases ts with
  | nil => exact absurd rfl h
  | cons t ts =>
    unfold hottest
    split
    · exact ⟨_, rfl⟩
    · exact ⟨_, rfl⟩

/-- A sample's readings as reported. -/
def sampleNoted (d : Dev) (ts : List Int) (k : Nat) (t : Int) : Dev :=
  setCnt (setCnt (((List.range 16).filter (· < ts.length)).foldl (fun d n => setCnt d (0x2010 + n) 4 (lowBits 16 (ts.getD n 0))) d)
    0x2030 4 (lowBits 16 t)) 0x2030 5 k

/-- What a sample judges once its readings are noted. -/
def sampleJudged (d : Dev) (ts : List Int) (t : Int) : Dev :=
  ((List.range 16).filter (· < ts.length)).foldl (fun d n => heatCore d n (ts.getD n 0))
    (if d.power.critical && decide (t < 1030) then updPower d fun p => { p with critical := false } else d)

theorem thermalSample_some {d : Dev} {ts : List Int} {k : Nat} {t : Int} (h : hottest ts 0 = some (k, t)) : thermalSample d ts =
    if (sampleNoted d ts k t).ctl.tripped then sampleNoted d ts k t
    else if 1150 ≤ t then thermalTrip (sampleNoted d ts k t) k
    else if 1050 ≤ t then thermalCritical (sampleJudged (sampleNoted d ts k t) ts t) k t
    else sampleJudged (sampleNoted d ts k t) ts t := by
  unfold thermalSample
  rw [h]
  rfl

theorem sampleNoted_keeps (d : Dev) (ts : List Int) (k : Nat) (t : Int) :
    (sampleNoted d ts k t).ctl = d.ctl ∧ (sampleNoted d ts k t).power = d.power ∧ (sampleNoted d ts k t).mem = d.mem := by
  have hf := foldl_keeps (fun d : Dev => (d.ctl, d.power, d.mem)) (f := fun d n => setCnt d (0x2010 + n) 4 (lowBits 16 (ts.getD n 0)))
    ((List.range 16).filter (· < ts.length)) (fun _ _ _ => rfl) d
  simp only [Prod.mk.injEq] at hf
  exact hf

@[simp] theorem updIsland_critical (d : Dev) (n : Nat) (f : Island → Island) : (updIsland d n f).power.critical = d.power.critical := rfl

theorem heatCore_keeps (d : Dev) (n : Nat) (t : Int) :
    (heatCore d n t).ctl = d.ctl ∧ (heatCore d n t).power.critical = d.power.critical := by
  unfold heatCore
  dsimp only
  split_ifs <;> simp

theorem sampleJudged_keeps (d : Dev) (ts : List Int) (t : Int) :
    (sampleJudged d ts t).ctl = d.ctl ∧ (sampleJudged d ts t).power.critical = (d.power.critical && !decide (t < 1030)) := by
  have hf (e : Dev) := foldl_keeps (fun d : Dev => (d.ctl, d.power.critical)) (f := fun d n => heatCore d n (ts.getD n 0))
    ((List.range 16).filter (· < ts.length)) (fun a n _ => Prod.ext (heatCore_keeps ..).1 (heatCore_keeps ..).2) e
  simp only [Prod.mk.injEq] at hf
  unfold sampleJudged
  rw [(hf _).1, (hf _).2]
  cases hc : d.power.critical && decide (t < 1030)
  · simp only [Bool.false_eq_true, if_false, true_and]
    revert hc
    cases d.power.critical <;> simp
  · simp only [if_true]
    rw [Bool.and_eq_true] at hc
    simp [updPower, hc]

/-- What each entry of a list sets up and no step undoes holds after the scan. -/
theorem foldl_reaches {α β : Type} {P : β → α → Prop} {f : α → β → α} (hset : ∀ a b, P b (f a b))
    (hkeep : ∀ a b c, P c a → P c (f a b)) (l : List β) (a : α) : ∀ b ∈ l, P b (l.foldl f a) := by
  induction l using List.reverseRecOn generalizing a with
  | nil => exact fun b hb => absurd hb (by simp)
  | append_singleton l x ih =>
    intro b hb
    rw [List.foldl_append]
    rcases List.mem_append.mp hb with hb | hb
    · exact hkeep _ _ _ (ih a b hb)
    · rw [List.mem_singleton.mp hb]
      exact hset _ _

/-- One core under thermal critical. -/
def coreCooled (d : Dev) (n : Nat) : Dev :=
  updCore (updIsland d n fun x => { x with thermal := 600, freq := min x.freq 600 }) n fun c => { c with dutyLimit := min c.dutyLimit 4 }

theorem coreCooled_sets (d : Dev) (n : Nat) : (island (coreCooled d n) n).freq ≤ 600 ∧ (coreOf (coreCooled d n) n).dutyLimit ≤ 4 := by
  unfold coreCooled
  rw [island_updCore, island_updIsland, coreOf_updCore]
  exact ⟨Nat.min_le_right .., Nat.min_le_right ..⟩

theorem coreCooled_keeps (d : Dev) (n m : Nat) (h : (island d m).freq ≤ 600 ∧ (coreOf d m).dutyLimit ≤ 4) :
    (island (coreCooled d n) m).freq ≤ 600 ∧ (coreOf (coreCooled d n) m).dutyLimit ≤ 4 := by
  by_cases hm : m = n
  · rw [hm]; exact coreCooled_sets d n
  · unfold coreCooled
    rw [island_updCore, island_updIsland_ne _ _ hm, coreOf_updCore_ne _ _ hm]
    exact h

theorem thermalCritical_spec (d : Dev) (k : Nat) (t : Int) :
    (thermalCritical d k t).ctl = d.ctl ∧ (thermalCritical d k t).power.critical = true
    ∧ ∀ n < 16, (island (thermalCritical d k t) n).freq ≤ 600 ∧ (coreOf (thermalCritical d k t) n).dutyLimit ≤ 4 := by
  have hall := foldl_reaches (P := fun n d => (island d n).freq ≤ 600 ∧ (coreOf d n).dutyLimit ≤ 4) coreCooled_sets coreCooled_keeps (List.range 16)
  have hkeep (e : Dev) := foldl_keeps (fun d : Dev => (d.ctl, d.power.critical)) (f := coreCooled) (List.range 16) (fun _ _ _ => rfl) e
  simp only [Prod.mk.injEq] at hkeep
  have heq : thermalCritical d k t = (List.range 16).foldl coreCooled
      (updPower (if d.power.critical then d else postEvent d 0x0F04 2 srcMgc (k + lowBits 16 t * 65536)) fun p => { p with critical := true }) := rfl
  rw [heq]
  refine ⟨(hkeep _).1.trans ?_, (hkeep _).2, fun n hn => hall _ n (List.mem_range.mpr hn)⟩
  show (if _ then _ else _ : Dev).ctl = _
  split
  · rfl
  · exact postEvent_ctl ..

/-- A function that a trip has stopped. -/
theorem stopAll_actual (d : Dev) {f : Nat} (hf : f < 34) : actual (stopAll d) f = 0 := by
  refine foldl_reaches (P := fun f d => actual d f = 0) (fun a b => ?_) (fun a b c h => ?_) (List.range 34) d f (List.mem_range.mpr hf)
  · unfold actual
    rw [cnt_setSetting, cnt_setCnt]
  · unfold actual at *
    rw [cnt_setSetting]
    by_cases hbc : c = b
    · rw [hbc, cnt_setCnt]
    · rw [cnt_setCnt_ne _ _ _ _ (by unfold odKey; omega), h]

theorem stopAll_keeps (d : Dev) : (stopAll d).mem = d.mem ∧ cnt (stopAll d) 0x1010 1 = cnt d 0x1010 1 := by
  have hf := foldl_keeps (fun d : Dev => (d.mem, cnt d 0x1010 1)) (f := fun d f => setSetting (setCnt d (0x1100 + f) 3 0) (0x1100 + f) 2 0)
    (List.range 34) (fun e f _ => Prod.ext rfl (by
      show cnt (setSetting _ _ _ _) _ _ = _
      rw [cnt_setSetting, cnt_setCnt_ne _ _ _ _ (by unfold odKey; omega)])) d
  simp only [Prod.mk.injEq] at hf
  exact hf

theorem canQueue_mem (d : Dev) (kind base : Nat) (bs : List Byte) : (canQueue d kind base bs).mem = d.mem := by
  unfold canQueue
  split <;> rfl

theorem thermalTrip_spec (d : Dev) (k : Nat) : (thermalTrip d k).ctl.tripped = true ∧ deviceState (thermalTrip d k) = 3
    ∧ (∀ f < 34, actual (thermalTrip d k) f = 0) ∧ (thermalTrip d k).mem = d.mem := by
  have htrip (e : Dev) : (tripped e).ctl.tripped = true ∧ (∀ i sub, cnt (tripped e) i sub = cnt e i sub) ∧ (tripped e).mem = e.mem :=
    ⟨rfl, fun _ _ => rfl, rfl⟩
  unfold thermalTrip
  dsimp only
  refine ⟨rfl, ?_, fun f hf => ?_, ?_⟩
  · rw [deviceState, (htrip _).2.1, (stopAll_keeps _).2, cnt_setCnt]
  · rw [actual, (htrip _).2.1]
    exact stopAll_actual _ hf
  · rw [(htrip _).2.2, (stopAll_keeps _).1]
    exact canQueue_mem ..

theorem powerLoopsRun_claim : Sys2Proof.Claim.PowerLoopsRun := by
  intro s
  refine ⟨fun h i hi => ?freq, fun h => ?apc, fun h n => ?clock, fun h k mv count code => ?monitor, fun h => ?bellows, fun h ts => ?heat⟩
  case freq =>
    have hne : (i : Nat) ≠ 16 := by omega
    refine ⟨onDev s fun d => frequencyStep d i, nextDev_awake h, island_frequencyStep_freq s.dev hne, fun hup => ?_, ?_⟩
    · have hv := island_frequencyStep_volt s.dev hne (by rwa [← island_frequencyStep_freq s.dev hne])
      show voltClamp (Config.fusedVolt i (island (frequencyStep s.dev i) i).freq) ≤ (island (frequencyStep s.dev i) i).volt
        ∧ _ ≤ (island (frequencyStep s.dev i) i).volt
      rw [hv, island_frequencyStep_freq _ hne]
      exact ⟨Nat.le_max_right .., Nat.le_max_left ..⟩
    · show (frequencyStep s.dev i).mem = _
      rw [frequencyStep_core _ hne]
      rfl
  case apc => exact ⟨onDev s fun d => frequencyStep d 16, nextDev_awake h, freqStep_freq ..⟩
  case clock =>
    have hstop : exec (.clockStop n) s = .next (onDev s fun d => clockStop d n) := nextDev_awake h
    refine ⟨fun hi hd => ?_, fun hb => ?_, nextDev_awake h, fun slack => ⟨onDev s fun d => droopStretch d n slack.toInt, nextDev_awake h, ?_⟩⟩
    · rw [hstop, onDev, clockStop_of_idle hi hd]
    · rw [hstop, onDev, clockStop_of_busy hb]
    · exact island_droopStretch ..
  case monitor =>
    intro lsb
    have hread (ok : Bool) : exec (.monitorRead k ok mv count code) s = .next (onDev s fun d => monitorRead d k ok mv.toNat count.toNat code) :=
      nextMgc_awake h
    refine ⟨fun h0 ok => ?_, fun hn => ?_, fun hn => ⟨_, hread false, ?_⟩⟩
    · rw [hread, onDev, monitorRead, if_pos h0]
    · rw [hread, onDev, monitorRead, if_neg hn]
      rfl
    · rw [onDev, monitorRead, if_neg hn]
      exact ⟨rfl, rfl, rfl, cnt_bump ..⟩
  case bellows =>
    intro q model c10
    refine ⟨onDev s bellowsWindow, nextMgc_awake h, ?_⟩
    by_cases hskip : q.failed = true ∧ model = false
    · have hl := bellowsWindow_skipped (d := s.dev) hskip.1 hskip.2
      simp only [loopState, Prod.mk.injEq] at hl
      obtain ⟨hp, ht, hcap, hsum, hfail⟩ := hl
      exact ⟨hsum, hfail, hcap, fun _ _ => ⟨hp, ht⟩, fun hn => absurd hskip (by rcases hn with hn | hn <;> simp [hn])⟩
    · have hn : q.failed = false ∨ model = true := by
        rw [not_and_or] at hskip
        simpa using hskip
      obtain ⟨hyst, lowRun, hl⟩ := bellowsWindow_judged (d := s.dev) hn
      simp only [loopState, Prod.mk.injEq] at hl
      obtain ⟨hp, ht, hcap, hsum, hfail⟩ := hl
      obtain ⟨h4, h1, h0⟩ := nextT_steps q.t (10 * windowPower s.dev) (windowCap s.dev) hyst lowRun
      have hc : c10 = windowCap s.dev := rfl
      refine ⟨hsum, hfail, hcap, fun hf hm => absurd ⟨hf, hm⟩ hskip, fun _ => ⟨hp, ?_⟩⟩
      show (_ < 100 * (bellowsWindow s.dev).power.p → (bellowsWindow s.dev).power.t = _) ∧ (_ < 10 * (bellowsWindow s.dev).power.p →
        100 * (bellowsWindow s.dev).power.p ≤ _ → (bellowsWindow s.dev).power.t = _) ∧ (10 * (bellowsWindow s.dev).power.p ≤ _ →
        (bellowsWindow s.dev).power.t = _ ∨ (bellowsWindow s.dev).power.t = _)
      rw [hp, ht, hc]
      exact ⟨fun hx => h4 (by omega), fun hx hy => h1 hx (by omega), h0⟩
  case heat =>
    have hsample : exec (.thermalSample ts) s = .next (onDev s fun d => thermalSample d (ts.map (·.toInt))) := nextMgc_awake h
    have hsome (hne : ts ≠ []) : ∃ k t, hottest (ts.map (·.toInt)) 0 = some (k, t) ∧ (∃ x ∈ ts, x.toInt = t) ∧ ∀ x ∈ ts, x.toInt ≤ t := by
      obtain ⟨⟨k, t⟩, hr⟩ := hottest_isSome (ts := ts.map (·.toInt)) (by simpa using hne) 0
      obtain ⟨hmem, hmax⟩ := hottest_spec hr
      exact ⟨k, t, hr, List.mem_map.mp hmem, fun x hx => hmax _ (List.mem_map_of_mem hx)⟩
    have hnoted := sampleNoted_keeps s.dev (ts.map (·.toInt))
    refine ⟨fun h0 => ?_, fun htrip => ⟨_, hsample, ?_⟩, fun htrip hx => ⟨_, hsample, ?_⟩, fun htrip hall hx => ⟨_, hsample, ?_⟩,
      fun htrip hall hne => ⟨_, hsample, ?_⟩⟩
    · rw [hsample, onDev, h0]
      rfl
    · rw [onDev]
      by_cases hne : ts = []
      · rw [hne]; exact ⟨rfl, rfl⟩
      · obtain ⟨k, t, hr, -, -⟩ := hsome hne
        rw [thermalSample_some hr, if_pos (by rw [(hnoted k t).1]; exact htrip)]
        exact ⟨(hnoted k t).1, (hnoted k t).2.1⟩
    · obtain ⟨x, hmem, hx⟩ := hx
      obtain ⟨k, t, hr, -, hmax⟩ := hsome (List.ne_nil_of_mem hmem)
      have := hmax x hmem
      obtain ⟨h1, h2, h3, h4⟩ := thermalTrip_spec (sampleNoted s.dev (ts.map (·.toInt)) k t) k
      rw [onDev, thermalSample_some hr, (hnoted k t).1, if_neg (by simp [htrip]), if_pos (by omega)]
      exact ⟨h1, h2, h3, h4.trans (hnoted k t).2.2⟩
    · obtain ⟨x, hmem, hx⟩ := hx
      obtain ⟨k, t, hr, ⟨y, hy, hyt⟩, hmax⟩ := hsome (List.ne_nil_of_mem hmem)
      have h1 := hmax x hmem
      have h2 := hall y hy
      obtain ⟨hctl, hcrit, hcores⟩ := thermalCritical_spec (sampleJudged (sampleNoted s.dev (ts.map (·.toInt)) k t) (ts.map (·.toInt)) t) k t
      rw [onDev, thermalSample_some hr, (hnoted k t).1, if_neg (by simp [htrip]), if_neg (by omega), if_pos (by omega)]
      exact ⟨hctl.trans ((sampleJudged_keeps ..).1.trans (hnoted k t).1), hcrit, hcores⟩
    · obtain ⟨k, t, hr, ⟨y, hy, hyt⟩, hmax⟩ := hsome hne
      have h2 := hall y hy
      obtain ⟨hctl, hcrit⟩ := sampleJudged_keeps (sampleNoted s.dev (ts.map (·.toInt)) k t) (ts.map (·.toInt)) t
      rw [onDev, thermalSample_some hr, (hnoted k t).1, if_neg (by simp [htrip]), if_neg (by omega), if_neg (by omega)]
      refine ⟨hctl.trans (hnoted k t).1, hcrit.trans ?_⟩
      rw [(hnoted k t).2.1]
      congr 1
      rw [Bool.eq_iff_iff, List.any_eq_true]
      simp only [Bool.not_eq_true', decide_eq_false_iff_not, decide_eq_true_eq]
      constructor
      · exact fun hge => ⟨y, hy, by omega⟩
      · rintro ⟨x, hx, hge⟩
        have := hmax x hx
        omega

/-- Settles O59. -/
theorem powerLoopsRun : Obligations.PowerLoopsRun := ⟨voltageFollowsSlack, powerLoopsRun_claim⟩

end Sys2Proof.Proofs


/-! ## The CAN FD bus, UART, GPIO and the PLIC (O55) -/

namespace Sys2Proof.Proofs
open Sys2Proof.Machine

/-! ### The CAN FD bus -/

theorem canReceive_of_on {d : Dev} (h : busOff d = false) (f : CanFrame) : canReceive d f =
    if f.ide = false ∧ nodeId d ≠ 0 ∧ f.id.toNat = 0x640 + nodeId d then requestIn d f.data
    else if fnUp d (portFn 3) = false then d
    else if (List.range 16).any (filterHits d f.id.toNat) then
      (if hasBuffer d 3 1 then setRx d 3 1 (rxOf d 3 1 ++
          [{ bytes := leBytes 8 (canWord f) ++ f.data, hi := (stampFields d 3 0).1, lo := (stampFields d 3 0).2 }])
        else d)
    else bump d 0x5B00 9 4 1 := by
  unfold canReceive
  simp only [h, Bool.false_eq_true, if_false]

theorem canReceive_of_off {d : Dev} (h : busOff d = true) (f : CanFrame) : canReceive d f = d := by
  unfold canReceive
  simp only [h, if_true]

theorem canArbitrate_idle {d : Dev} {won : Bool} (h : busOff d = true ∨ won = false) : canArbitrate d won = d := by
  unfold canArbitrate
  rcases h with h | h <;> simp [h]

/-- A frame of the MGC has gone out. -/
def mgcSent (d : Dev) (m : MgcFrame) (owed : Option Bool) : Dev :=
  updPorts (sendOut (if m.kind = 2 then bump (updMgc d fun x => { x with canTx := dropMgcFrame m x.canTx }) 0x1200 3 4 1
      else updMgc d fun x => { x with canTx := dropMgcFrame m x.canTx }) 3 { queue := 32, bytes := m.data })
    fun x => { x with canOwed := owed }

/-- A frame of the application cluster has gone out. -/
def apcSent (d : Dev) (a : Nat × List Byte) (owed : Option Bool) : Dev :=
  updPorts (sendOut d 3 { bytes := padDlc a.2 }) fun x => { x with canSent := true, canOwed := owed }

theorem mgcSent_spec (d : Dev) (m : MgcFrame) (owed : Option Bool) :
    (mgcSent d m owed).mgc.canTx = dropMgcFrame m d.mgc.canTx ∧ (mgcSent d m owed).ports.canOwed = owed
    ∧ (mgcSent d m owed).ports.canSent = d.ports.canSent := by
  unfold mgcSent
  split <;> exact ⟨rfl, rfl, rfl⟩

theorem apcSent_spec (d : Dev) (a : Nat × List Byte) (owed : Option Bool) :
    (apcSent d a owed).ports.canSent = true ∧ (apcSent d a owed).ports.canOwed = owed ∧ (apcSent d a owed).mgc.canTx = d.mgc.canTx :=
  ⟨rfl, rfl, rfl⟩

/-- Whether the application cluster's frame goes first when both are ready (R439). -/
def apcFirst (d : Dev) (m : MgcFrame) (a : Nat × List Byte) : Bool :=
  d.ports.canOwed.getD (decide (arbKey (a.1.testBit 29) (if a.1.testBit 29 then a.1 % 2 ^ 29 else a.1 % 2048) < arbKey false m.id))

section
variable {d : Dev} (hon : busOff d = false)
include hon

theorem canArbitrate_mgc {m : MgcFrame} (hm : mgcNext d = some m) (ha : canApc d = none) : canArbitrate d true = mgcSent d m none := by
  unfold canArbitrate
  simp only [hon, hm, ha, Bool.not_true, Bool.or_false, Bool.false_eq_true, if_false]
  rfl

theorem canArbitrate_apc {a : Nat × List Byte} (hm : mgcNext d = none) (ha : canApc d = some a) : canArbitrate d true = apcSent d a none := by
  unfold canArbitrate
  simp only [hon, hm, ha, Bool.not_true, Bool.or_false, Bool.false_eq_true, if_false]
  rfl

theorem canArbitrate_none (hm : mgcNext d = none) (ha : canApc d = none) : canArbitrate d true = d := by
  unfold canArbitrate
  simp only [hon, hm, ha, Bool.not_true, Bool.or_false, Bool.false_eq_true, if_false]

theorem canArbitrate_both {m : MgcFrame} {a : Nat × List Byte} (hm : mgcNext d = some m) (ha : canApc d = some a) :
    canArbitrate d true = if apcFirst d m a then apcSent d a (some false) else mgcSent d m (some true) := by
  unfold canArbitrate apcFirst
  simp only [hon, hm, ha, Bool.not_true, Bool.or_false, Bool.false_eq_true, if_false]
  generalize (decide (arbKey (a.1.testBit 29) (if a.1.testBit 29 then a.1 % 2 ^ 29 else a.1 % 2048) < arbKey false m.id)) = lower
  cases d.ports.canOwed with
  | some o => cases o <;> rfl
  | none => cases lower <;> rfl

end

theorem raiseLevel_status (d : Dev) {k : Nat} (hk : k < 32) : bit (raiseLevel d k).ports.status k = true := by
  show bit (d.ports.status ||| _) k = true
  rw [bit_or, bit_ofNat_two_pow k hk]
  simp

theorem canBusRuns : Sys2Proof.Claim.CanBusRuns := by
  intro s h
  have hx (c : Instr) (f : Dev → Dev) (hc : exec c s = nextMgc s f) : exec c s = .next (onDev s f) := hc.trans (nextMgc_awake h)
  have hsame (c : Instr) (f : Dev → Dev) (hc : exec c s = nextMgc s f) (hf : f s.dev = s.dev) : exec c s = .next s := by
    rw [hx c f hc, onDev, hf]
  refine ⟨fun hoff => ⟨fun f => ?_, fun won => ?_, fun tec => ?_, fun passive => ?_, fun ha => ?_, fun ha => ?_⟩,
    fun hon => ⟨fun f => ?receive, fun m hm ha => ?mgc, fun a hm ha => ?apc, fun hm ha => ?none, fun m a hm ha => ?both, ?lost,
      fun tec => ?off, ?recovery, fun passive => ?state⟩⟩
  · exact hsame _ (fun d => canReceive d f) rfl (canReceive_of_off hoff f)
  · exact hsame _ (fun d => canArbitrate d won) rfl (canArbitrate_idle (.inl hoff))
  · exact hsame _ (fun d => canBusOff d tec.toNat) rfl (if_pos hoff)
  · exact hsame _ (fun d => canErrorState d passive) rfl (if_pos hoff)
  · refine ⟨_, hx .canBusRecovery canRecover rfl, ?_⟩
    rw [onDev, canRecover, if_pos (by simp [hoff, ha])]
    exact ⟨cnt_setCnt .., raiseLevel_status _ (by decide)⟩
  · exact hsame _ canRecover rfl (if_neg (by simp [ha]))
  case receive =>
    intro mine
    have hr := hx (.canFrameReceive f) (fun d => canReceive d f) rfl
    have hc := canReceive_of_on hon f
    refine ⟨fun hm => ?_, fun hm hdown => ?_, fun hm hup => ⟨fun hf hb => ?_, fun hf hb => ?_, fun hf => ?_⟩⟩
    · rw [hr, onDev, hc, if_pos hm]
    · rw [hr, onDev, hc, if_neg hm, if_pos hdown]
    · refine ⟨_, { bytes := leBytes 8 (canWord f) ++ f.data, hi := (stampFields s.dev 3 0).1, lo := (stampFields s.dev 3 0).2 }, hr, ?_⟩
      rw [onDev, hc, if_neg hm, if_neg (by simp [hup]), if_pos hf, if_pos hb]
      exact ⟨sget_sset .., rfl⟩
    · rw [hr, onDev, hc, if_neg hm, if_neg (by simp [hup]), if_pos hf, if_neg (by simp [hb])]
    · rw [hr, onDev, hc, if_neg hm, if_neg (by simp [hup]), if_neg (by simp [hf])]
  case mgc =>
    refine ⟨_, hx (.canArbitration true) (fun d => canArbitrate d true) rfl, ?_⟩
    rw [onDev, canArbitrate_mgc hon hm ha]
    exact ⟨(mgcSent_spec ..).1, (mgcSent_spec ..).2.1⟩
  case apc =>
    refine ⟨_, hx (.canArbitration true) (fun d => canArbitrate d true) rfl, ?_⟩
    rw [onDev, canArbitrate_apc hon hm ha]
    exact apcSent_spec ..
  case none => exact hsame _ (fun d => canArbitrate d true) rfl (canArbitrate_none hon hm ha)
  case both =>
    intro first
    refine ⟨_, hx (.canArbitration true) (fun d => canArbitrate d true) rfl, ?_⟩
    rw [onDev, canArbitrate_both hon hm ha, show apcFirst s.dev m a = first from rfl]
    cases first with
    | true =>
      obtain ⟨h1, h2, h3⟩ := apcSent_spec s.dev a (some false)
      exact ⟨h1.trans (Bool.or_true _).symm, h2, h3⟩
    | false =>
      obtain ⟨h1, h2, h3⟩ := mgcSent_spec s.dev m (some true)
      exact ⟨h3.trans (Bool.or_false _).symm, h2, h1⟩
  case lost => exact hsame _ (fun d => canArbitrate d false) rfl (canArbitrate_idle (.inr rfl))
  case off =>
    refine ⟨_, hx (.canBusOff tec) (fun d => canBusOff d tec.toNat) rfl, ?_⟩
    rw [onDev, canBusOff, if_neg (by simp [hon])]
    refine ⟨?_, ?_, ?_⟩
    · rw [busOff, cnt_postEvent]
      show (cnt (bump (setCnt s.dev 0x5B00 7 2) 0x5B00 8 4 1) 0x5B00 7 == 2) = true
      rw [cnt_bump_ne _ _ _ _ _ (by decide), cnt_setCnt]
      rfl
    · rw [postEvent, postRec_canTx, updMgc_mgc]
    · rw [cnt_postEvent]
      show cnt (bump (setCnt s.dev 0x5B00 7 2) 0x5B00 8 4 1) 0x5B00 8 = _
      rw [cnt_bump, cnt_setCnt_ne _ _ _ _ (by decide)]
      rfl
  case recovery => exact hsame _ canRecover rfl (if_neg (by simp [hon]))
  case state =>
    refine ⟨_, hx (.canErrorStateChange passive) (fun d => canErrorState d passive) rfl, ?_⟩
    rw [onDev, canErrorState, if_neg (by simp [hon])]
    exact ⟨cnt_setCnt .., raiseLevel_status _ (by decide)⟩

/-! ### UART, GPIO and the PLIC -/

/-- Flipping one bit of a word. -/
theorem bit_xor_two_pow {n : Nat} (x : BitVec n) (i : Nat) {j : Nat} (hj : j < n) :
    bit (x ^^^ BitVec.ofNat n (2 ^ i)) j = (bit x j ^^ decide (i = j)) := by
  rw [← bit_ofNat_two_pow i hj]
  simp only [bit_eq_getLsbD, BitVec.getLsbD_xor]

theorem bit_andNot_two_pow {n : Nat} (x : BitVec n) (i : Nat) {j : Nat} (hj : j < n) :
    bit (x &&& ~~~(BitVec.ofNat n (2 ^ i))) j = (bit x j && !decide (i = j)) := by
  rw [← bit_ofNat_two_pow i hj]
  simp [bit_eq_getLsbD, hj]

theorem uartRead_length (d : Dev) (arrived : List Byte) : (uartRead d arrived).ports.uartRx.length ≤ 63 := by
  show (((d.ports.uartRx ++ _).take 64).drop 1).length ≤ 63
  rw [List.length_drop, List.length_take]
  omega

/-- The oldest byte leaves, and what has arrived goes to the end. -/
theorem uartRead_cons {d : Dev} {b : Byte} {rest : List Byte} (arrived : List Byte) (hlen : d.ports.uartRx.length ≤ 64)
    (h : d.ports.uartRx = b :: rest) : ∃ more, (uartRead d arrived).ports.uartRx = rest ++ more := by
  rw [h] at hlen
  refine ⟨(if fnLive d 0x21 then arrived else []).take (63 - rest.length), ?_⟩
  show ((d.ports.uartRx ++ (if fnLive d 0x21 then arrived else [])).take 64).drop 1 = _
  rw [h, List.take_append, List.take_of_length_le hlen]
  simp

theorem gpioEdge_same {d : Dev} {i : Nat} {level : Bool} (h : bit d.ports.gpioIn i = level) : gpioEdge d i level = d := if_pos h

/-- An edge flips its pin's level, and its status is set when the edge is selected. -/
theorem gpioEdge_ports {d : Dev} {i : Nat} {level : Bool} (h : bit d.ports.gpioIn i ≠ level) {j : Nat} (hj : j < 64) :
    bit (gpioEdge d i level).ports.gpioIn j = (bit d.ports.gpioIn j ^^ decide (i = j))
    ∧ bit (gpioEdge d i level).ports.gpioStatus j =
        (bit d.ports.gpioStatus j || (decide (i = j) && bit d.ports.gpioEdge (2 * i + if level then 0 else 1))) := by
  unfold gpioEdge
  simp only [h, if_false]
  refine ⟨bit_xor_two_pow _ _ hj, ?_⟩
  generalize bit d.ports.gpioEdge _ = sel
  cases sel with
  | true =>
    simp only [if_true, Bool.and_true]
    rw [← bit_ofNat_two_pow i hj]
    exact bit_or ..
  | false => simp [updPorts]

theorem mem_insNat (a : Nat) (l : List Nat) : a ∈ insNat a l := by
  induction l with
  | nil => exact List.mem_singleton_self a
  | cons j t ih =>
    unfold insNat
    split
    · rename_i h; exact h ▸ List.mem_cons_self
    · split
      · exact List.mem_cons_self
      · exact List.mem_cons_of_mem _ ih

/-- One step of the claim's choice: a source of greater priority takes the place of the one chosen so far. -/
def claimStep (d : Dev) (b : Option Nat) (i : Nat) : Option Nat :=
  match b with
  | some j => if plicPrio d j < plicPrio d i then some i else some j
  | none => some i

theorem claimChoice_eq (d : Dev) (c : Nat) : claimChoice d c = ((List.range 25).filter (claimable d c)).foldl (claimStep d) none := rfl

theorem claimStep_isSome (d : Dev) (b : Option Nat) (i : Nat) : (claimStep d b i).isSome = true := by
  cases b with
  | none => rfl
  | some j => dsimp only [claimStep]; split <;> rfl

/-- The source chosen from an ascending list has the highest priority, and the lowest number among those. -/
theorem foldl_claimStep {d : Dev} {l : List Nat} (hs : l.Pairwise (· < ·)) {i : Nat} (h : l.foldl (claimStep d) none = some i) :
    i ∈ l ∧ ∀ j ∈ l, plicPrio d j < plicPrio d i ∨ (plicPrio d j = plicPrio d i ∧ i ≤ j) := by
  induction l using List.reverseRecOn generalizing i with
  | nil => exact absurd h (by simp)
  | append_singleton l x ih =>
    rw [List.foldl_append] at h
    obtain ⟨hl, -, hlt⟩ := List.pairwise_append.mp hs
    have hbelow : ∀ j ∈ l, j < x := fun j hj => hlt j hj x (List.mem_singleton_self x)
    cases hprev : l.foldl (claimStep d) none with
    | none =>
      have hnil : l = [] := by
        cases l using List.reverseRecOn with
        | nil => rfl
        | append_singleton l y =>
          rw [List.foldl_append] at hprev
          have := claimStep_isSome d (l.foldl (claimStep d) none) y
          exact absurd hprev (by simp only [List.foldl_cons, List.foldl_nil]; intro hn; rw [hn] at this; exact absurd this (by decide))
      rw [hprev] at h
      have hx : x = i := Option.some.inj h
      subst hx
      simp [hnil]
    | some k =>
      obtain ⟨hk, hmax⟩ := ih hl hprev
      have hkx := hbelow k hk
      rw [hprev] at h
      simp only [List.foldl_cons, List.foldl_nil, claimStep] at h
      split at h
      · rename_i hlt'
        have hx : x = i := Option.some.inj h
        subst hx
        refine ⟨by simp, fun j hj => ?_⟩
        rcases List.mem_append.mp hj with hj | hj
        · rcases hmax j hj with h1 | ⟨h1, -⟩ <;> left <;> omega
        · rw [List.mem_singleton.mp hj]; exact .inr ⟨rfl, le_refl _⟩
      · rename_i hge
        have hx : k = i := Option.some.inj h
        subst hx
        refine ⟨List.mem_append_left _ hk, fun j hj => ?_⟩
        rcases List.mem_append.mp hj with hj | hj
        · exact hmax j hj
        · rw [List.mem_singleton.mp hj]; omega

/-- The choice of a claim: claimable, and before every other claimable source. -/
theorem claimChoice_some {d : Dev} {c i : Nat} (h : claimChoice d c = some i) : i < 25 ∧ claimable d c i = true
    ∧ ∀ j < 25, claimable d c j = true → plicPrio d j < plicPrio d i ∨ (plicPrio d j = plicPrio d i ∧ i ≤ j) := by
  rw [claimChoice_eq] at h
  obtain ⟨hi, hmax⟩ := foldl_claimStep (List.Pairwise.filter _ List.pairwise_lt_range) h
  obtain ⟨hi, hc⟩ := List.mem_filter.mp hi
  exact ⟨List.mem_range.mp hi, hc, fun j hj hcj => hmax j (List.mem_filter.mpr ⟨List.mem_range.mpr hj, hcj⟩)⟩

/-- A value that is not the default stands in its table. -/
theorem mem_of_sget_ne {α : Type} {dflt : Nat → α} {t : Sparse α} {k : Nat} (h : sget dflt t k ≠ dflt k) : (k, sget dflt t k) ∈ t := by
  induction t with
  | nil => exact absurd rfl h
  | cons e t ih =>
    obtain ⟨j, v⟩ := e
    by_cases hk : k = j
    · simp [sget, hk]
    · by_cases hlt : k < j
      · exact absurd (by rw [sget, if_neg hk, if_pos hlt]) h
      · have hrest : sget dflt ((j, v) :: t) k = sget dflt t k := by rw [sget, if_neg hk, if_neg hlt]
        rw [hrest] at h ⊢
        exact List.mem_cons_of_mem _ (ih h)

/-- A source claimed is in service, and pends no longer. -/
theorem plicClaim_some {d : Dev} {c i : Nat} (h : claimChoice d c = some i) (hi : i < 32) :
    bit (plicClaim d c).apc.pending i = false ∧ inService (plicClaim d c) i = true := by
  rw [plicClaim, h]
  dsimp only
  refine ⟨?_, ?_⟩
  · show bit (d.apc.pending &&& ~~~(BitVec.ofNat 32 (2 ^ i))) i = false
    rw [bit_andNot_two_pow _ _ hi]
    simp
  · have hbit : bit (sget (fun _ => 0#32) (supd (fun _ => 0#32) d.apc.claimed c (· ||| BitVec.ofNat 32 (2 ^ i))) c) i = true := by
      rw [sget_supd, bit_or, bit_ofNat_two_pow _ hi]
      simp
    have hne : sget (fun _ => 0#32) (supd (fun _ => 0#32) d.apc.claimed c (· ||| BitVec.ofNat 32 (2 ^ i))) c ≠ 0#32 := fun h0 => by
      rw [h0, bit_eq_getLsbD] at hbit
      simp at hbit
    exact List.any_eq_true.mpr ⟨_, mem_of_sget_ne (dflt := fun _ => 0#32) hne, hbit⟩

theorem plicClaim_none {d : Dev} {c : Nat} (h : claimChoice d c = none) : plicClaim d c = d := by rw [plicClaim, h]

theorem not_claimable_of_inService {d : Dev} {i : Nat} (h : inService d i = true) (k : Nat) : claimable d k i = false := by
  simp [claimable, h]

theorem pinsAndInterruptsRun : Sys2Proof.Claim.PinsAndInterruptsRun := by
  intro s h
  have hx (c : Instr) (f : Dev → Dev) (hc : exec c s = nextDev s f) : exec c s = .next (onDev s f) := hc.trans (nextDev_awake h)
  refine ⟨fun arrived => ⟨_, hx (.uartDataRead arrived) (fun d => uartRead d arrived) rfl, uartRead_length .., fun hlen b rest hr =>
    uartRead_cons arrived hlen hr⟩, fun i level hl => ?same, fun i level hl => ⟨_, hx (.gpioEdge i level) (fun d => gpioEdge d i level) rfl, ?edge⟩,
    fun a => ⟨_, hx (.apcCacheUncorrectable a) (fun d => cacheUncorrectable d a.toNat) rfl, raiseIrq_pending _ (by decide), mem_insNat .., rfl⟩,
    fun c i hc => ?claim, fun c hc => ?none⟩
  case same => rw [hx (.gpioEdge i level) (fun d => gpioEdge d i level) rfl, onDev, gpioEdge_same hl]
  case edge =>
    have hi : (i : Nat) < 64 := by omega
    refine ⟨?_, fun j hj hne => ⟨?_, ?_⟩, ?_⟩
    · show bit (gpioEdge s.dev i level).ports.gpioIn i = level
      rw [(gpioEdge_ports hl hi).1]
      revert hl
      cases bit s.dev.ports.gpioIn i <;> cases level <;> simp
    · show bit (gpioEdge s.dev i level).ports.gpioIn j = _
      rw [(gpioEdge_ports hl hj).1]
      simp [hne.symm]
    · show bit (gpioEdge s.dev i level).ports.gpioStatus j = _
      rw [(gpioEdge_ports hl hj).2]
      simp [hne.symm]
    · show bit (gpioEdge s.dev i level).ports.gpioStatus i = _
      rw [(gpioEdge_ports hl hi).2, decide_eq_true rfl, Bool.true_and]
  case claim =>
    obtain ⟨hi, hc', hmax⟩ := claimChoice_some hc
    obtain ⟨hp, hs⟩ := plicClaim_some hc (by omega)
    exact ⟨hi, hc', hmax, _, hx (.plicClaim c) (fun d => plicClaim d c) rfl, hp, hs, fun k _ => not_claimable_of_inService hs k⟩
  case none => rw [hx (.plicClaim c) (fun d => plicClaim d c) rfl, onDev, plicClaim_none hc]

/-- Settles O55. -/
theorem canPinsAndInterruptsRun : Obligations.CanPinsAndInterruptsRun := ⟨canBusRuns, pinsAndInterruptsRun⟩

end Sys2Proof.Proofs


/-! ## The port queues, USB, Ethernet and the PTP clock (O54) -/

namespace Sys2Proof.Proofs
open Sys2Proof.Machine

/-! ### What serving the port queues leaves -/

/-- A step of the port queues: counters but those of memory stay, and of the ports only the queues, their frames and the CAN buffer's mark move. -/
structure QueueStep (d e : Dev) : Prop where
  leaves : Leaves AccessKey d e
  ports : ∃ qs rx tx cs, e.ports = { d.ports with qs := qs, rx := rx, tx := tx, canSent := cs }

namespace QueueStep

variable {d e f : Dev}

theorem refl (d : Dev) : QueueStep d d := ⟨.refl d, _, _, _, _, rfl⟩

theorem trans (h : QueueStep d e) (k : QueueStep e f) : QueueStep d f := by
  obtain ⟨qs, rx, tx, cs, he⟩ := h.ports
  obtain ⟨qs', rx', tx', cs', hf⟩ := k.ports
  exact ⟨h.leaves.trans k.leaves, qs', rx', tx', cs', by rw [hf, he]⟩

theorem of_ports (h : Leaves AccessKey d e) (hp : e.ports = d.ports) : QueueStep d e := ⟨h, _, _, _, _, hp⟩

theorem ite {p : Prop} [Decidable p] (he : QueueStep d e) (hf : QueueStep d f) : QueueStep d (if p then e else f) := by
  split
  · exact he
  · exact hf

theorem updQ (d : Dev) (p q : Nat) (g : PortQ → PortQ) : QueueStep d (updQ d p q g) := ⟨.of_same rfl rfl rfl, _, _, _, _, rfl⟩

theorem setRx (d : Dev) (p q : Nat) (l : List RxFrame) : QueueStep d (setRx d p q l) := ⟨.of_same rfl rfl rfl, _, _, _, _, rfl⟩

theorem setTx (d : Dev) (p q : Nat) (t : Option TxFrame) : QueueStep d (setTx d p q t) := ⟨.of_same rfl rfl rfl, _, _, _, _, rfl⟩

theorem raiseIrq (d : Dev) (k : Nat) : QueueStep d (raiseIrq d k) := of_ports (.of_same rfl rfl rfl) rfl

theorem canUnsent (d : Dev) : QueueStep d (updPorts d fun x => { x with canSent := false }) := ⟨.of_same rfl rfl rfl, _, _, _, _, rfl⟩

theorem memRead (d : Dev) (g : Option Nat) (s a n : Nat) : QueueStep d (memRead d g s a n).1 := of_ports (leaves_memRead ..) (memRead_ports ..)

theorem memWrite (d : Dev) (g : Option Nat) (s a : Nat) (bs : List Byte) (p : Bool) : QueueStep d (memWrite d g s a bs p) :=
  of_ports (leaves_memWrite ..) (memWrite_ports ..)

theorem postEvent (d : Dev) (c k s p : Nat) : QueueStep d (postEvent d c k s p) := of_ports (leaves_postEvent ..) (postEvent_ports ..)

theorem queueLoad (d : Dev) (p q : Nat) : QueueStep d (queueLoad d p q) := by
  unfold Machine.queueLoad
  dsimp only
  split
  · exact ite (.trans (memRead ..) (updQ ..)) (.trans (memRead ..) (.trans (updQ ..) (postEvent ..)))
  · exact refl d

theorem queueDone (d : Dev) (p q status len : Nat) (fs : List (Nat × Nat × Nat)) : QueueStep d (queueDone d p q status len fs) := by
  unfold Machine.queueDone
  dsimp only
  split
  · exact refl d
  · exact .trans (memWrite ..) (.trans (updQ ..) (.trans (ite (raiseIrq ..) (refl _)) (queueLoad ..)))

theorem queueAbort (d : Dev) (p q : Nat) : QueueStep d (queueAbort d p q) := by
  unfold Machine.queueAbort
  exact .trans (setRx d p q []) (.trans (setTx _ p q none) (.trans (updQ ..) (.trans (ite (canUnsent _) (refl _)) (queueDone ..))))

theorem portAbort (d : Dev) (p : Nat) : QueueStep d (portAbort d p) := by
  unfold Machine.portAbort
  induction List.range (queueCount p) generalizing d with
  | nil => exact refl d
  | cons q qs ih => exact (queueAbort d p q).trans (ih _)

end QueueStep

/-! ### The queue served, and the others -/

theorem pq_of_ports {d e : Dev} (h : e.ports = d.ports) (p q : Nat) : pq e p q = pq d p q := by rw [pq, pq, h]

@[simp] theorem pq_updQ (d : Dev) (p q : Nat) (f : PortQ → PortQ) : pq (updQ d p q f) p q = f (pq d p q) := sget_supd ..

theorem pq_updQ_ne (d : Dev) (f : PortQ → PortQ) {p q p' q' : Nat} (h : p' * 32 + q' ≠ p * 32 + q) : pq (updQ d p q f) p' q' = pq d p' q' :=
  sget_supd_ne _ _ h

/-- A load may fill the buffer in use or halt the queue; it moves no other field. -/
theorem pq_queueLoad (d : Dev) (p q : Nat) : ∃ c h, pq (queueLoad d p q) p q = { pq d p q with cur := c, halted := h } := by
  unfold queueLoad
  dsimp only
  split
  · have hr := pq_of_ports (memRead_ports d (some agPort) srcPorts (descAt (pq d p q)) 32) p q
    split
    · exact ⟨_, _, by rw [pq_updQ, hr]⟩
    · exact ⟨_, _, by rw [pq_of_ports (postEvent_ports ..), pq_updQ, hr]⟩
  · exact ⟨_, _, rfl⟩

theorem queueLoad_of_disabled {d : Dev} {p q : Nat} (h : (pq d p q).enable = false) : queueLoad d p q = d := by
  unfold queueLoad
  simp [h]

theorem pq_queueLoad_ne (d : Dev) {p q p' q' : Nat} (h : p' * 32 + q' ≠ p * 32 + q) : pq (queueLoad d p q) p' q' = pq d p' q' := by
  unfold queueLoad
  dsimp only
  split
  · have hr := pq_of_ports (memRead_ports d (some agPort) srcPorts (descAt (pq d p q)) 32) p' q'
    split
    · rw [pq_updQ_ne _ _ h, hr]
    · rw [pq_of_ports (postEvent_ports ..), pq_updQ_ne _ _ h, hr]
  · rfl

theorem queueDone_of_none {d : Dev} {p q : Nat} (h : (pq d p q).cur = none) (status len : Nat) (fs : List (Nat × Nat × Nat)) :
    queueDone d p q status len fs = d := by
  unfold queueDone
  simp only [h]

/-- The descriptor as a completion writes it back (R431). -/
def descDone (v : BitVec 256) (status len : Nat) (fs : List (Nat × Nat × Nat)) : Nat :=
  ((88, 8, status) :: (108, 20, len) :: (7, 1, 0) :: fs).foldl (fun a f => setFld a f.1 f.2.1 f.2.2) v.toNat

/-- The device before the next descriptor is read: the descriptor written back, HEAD advanced, the interrupt raised. -/
def bufferDone (d : Dev) (p q : Nat) (v : BitVec 256) (w : Nat) : Dev :=
  let e := updQ (memWrite d (some agPort) srcPorts (descAt (pq d p q)) (leBytes 32 w) false) p q fun y => { y with head := y.head + 1#32, cur := none }
  if bit v 4 && (pq d p q).irqEn then raiseIrq e (11 + p) else e

theorem queueDone_of_some {d : Dev} {p q : Nat} {v : BitVec 256} (h : (pq d p q).cur = some v) (status len : Nat) (fs : List (Nat × Nat × Nat)) :
    queueDone d p q status len fs = queueLoad (bufferDone d p q v (descDone v status len fs)) p q := by
  unfold queueDone
  simp only [h]
  rfl

theorem pq_bufferDone (d : Dev) (p q : Nat) (v : BitVec 256) (w : Nat) :
    pq (bufferDone d p q v w) p q = { pq d p q with head := (pq d p q).head + 1#32, cur := none } := by
  unfold bufferDone
  dsimp only
  have hw := pq_of_ports (memWrite_ports d (some agPort) srcPorts (descAt (pq d p q)) (leBytes 32 w) false) p q
  split
  · rw [pq_of_ports (raiseIrq_ports ..), pq_updQ, hw]
  · rw [pq_updQ, hw]

theorem pq_bufferDone_ne (d : Dev) {p q p' q' : Nat} (v : BitVec 256) (w : Nat) (h : p' * 32 + q' ≠ p * 32 + q) :
    pq (bufferDone d p q v w) p' q' = pq d p' q' := by
  unfold bufferDone
  dsimp only
  have hw := pq_of_ports (memWrite_ports d (some agPort) srcPorts (descAt (pq d p q)) (leBytes 32 w) false) p' q'
  split
  · rw [pq_of_ports (raiseIrq_ports ..), pq_updQ_ne _ _ h, hw]
  · rw [pq_updQ_ne _ _ h, hw]

theorem pq_queueDone_ne (d : Dev) {p q p' q' : Nat} (status len : Nat) (fs : List (Nat × Nat × Nat)) (h : p' * 32 + q' ≠ p * 32 + q) :
    pq (queueDone d p q status len fs) p' q' = pq d p' q' := by
  cases hc : (pq d p q).cur with
  | none => rw [queueDone_of_none hc]
  | some v => rw [queueDone_of_some hc, pq_queueLoad_ne _ h, pq_bufferDone_ne _ _ _ h]

/-- A completion advances HEAD and leaves TAIL and ENABLE; a disabled queue reads no further descriptor. -/
theorem pq_queueDone {d : Dev} {p q : Nat} {v : BitVec 256} (hc : (pq d p q).cur = some v) (status len : Nat) (fs : List (Nat × Nat × Nat)) :
    (pq (queueDone d p q status len fs) p q).head = (pq d p q).head + 1
    ∧ (pq (queueDone d p q status len fs) p q).tail = (pq d p q).tail
    ∧ (pq (queueDone d p q status len fs) p q).enable = (pq d p q).enable
    ∧ ((pq d p q).enable = false → (pq (queueDone d p q status len fs) p q).cur = none) := by
  rw [queueDone_of_some hc]
  have hb := pq_bufferDone d p q v (descDone v status len fs)
  obtain ⟨c, h, hl⟩ := pq_queueLoad (bufferDone d p q v (descDone v status len fs)) p q
  refine ⟨by rw [hl, hb]; rfl, by rw [hl, hb], by rw [hl, hb], fun he => ?_⟩
  rw [queueLoad_of_disabled (by rw [hb]; exact he), hb]

/-- The queue an abort completes, with its frame dropped. -/
def queueDropped (d : Dev) (p q : Nat) : Dev :=
  let e := updQ (setTx (setRx d p q []) p q none) p q fun x => { x with mid := false }
  if p = 3 then updPorts e fun x => { x with canSent := false } else e

theorem queueAbort_eq (d : Dev) (p q : Nat) : queueAbort d p q = queueDone (queueDropped d p q) p q 4 0 [] := rfl

theorem pq_queueDropped (d : Dev) (p q : Nat) : pq (queueDropped d p q) p q = { pq d p q with mid := false } := by
  have h : pq (updQ (setTx (setRx d p q []) p q none) p q fun x => { x with mid := false }) p q = { pq d p q with mid := false } := pq_updQ ..
  unfold queueDropped
  dsimp only
  split
  · exact h
  · exact h

theorem pq_queueDropped_ne (d : Dev) {p q p' q' : Nat} (hne : p' * 32 + q' ≠ p * 32 + q) : pq (queueDropped d p q) p' q' = pq d p' q' := by
  have h : pq (updQ (setTx (setRx d p q []) p q none) p q fun x => { x with mid := false }) p' q' = pq d p' q' := pq_updQ_ne _ _ hne
  unfold queueDropped
  dsimp only
  split
  · exact h
  · exact h

theorem pq_queueAbort_ne (d : Dev) {p q p' q' : Nat} (h : p' * 32 + q' ≠ p * 32 + q) : pq (queueAbort d p q) p' q' = pq d p' q' := by
  rw [queueAbort_eq, pq_queueDone_ne _ _ _ _ h, pq_queueDropped_ne _ h]

/-- A queue with no buffer in use has none after an abort; a disabled queue never has. -/
theorem pq_queueAbort_cur (d : Dev) (p q : Nat) :
    ((pq d p q).cur = none → (pq (queueAbort d p q) p q).cur = none)
    ∧ ((pq d p q).enable = false → (pq (queueAbort d p q) p q).cur = none) := by
  have hdrop := pq_queueDropped d p q
  rw [queueAbort_eq]
  constructor
  · intro h
    have hc : (pq (queueDropped d p q) p q).cur = none := by rw [hdrop]; exact h
    rw [queueDone_of_none hc, hc]
  · intro h
    cases hc : (pq (queueDropped d p q) p q).cur with
    | none => rw [queueDone_of_none hc, hc]
    | some v => exact (pq_queueDone hc ..).2.2.2 (by rw [hdrop]; exact h)

theorem pq_portAbort_cur (d : Dev) {p q : Nat} (h : (pq d p q).cur = none) : (pq (portAbort d p) p q).cur = none := by
  unfold portAbort
  induction List.range (queueCount p) generalizing d with
  | nil => exact h
  | cons r rs ih =>
    refine ih _ ?_
    by_cases hr : q = r
    · rw [hr] at h ⊢
      exact (pq_queueAbort_cur d p r).1 h
    · rw [pq_queueAbort_ne _ (by omega)]
      exact h

/-! ### USB -/

theorem accessKey_ports {i sub : Nat} (hi : 0x3000 ≤ i) : ¬ AccessKey (odKey i sub) := by
  unfold AccessKey odKey; omega

theorem accessKey_function {i sub : Nat} (hi : i < 0x2200) (hsub : sub < 256) : ¬ AccessKey (odKey i sub) := by
  unfold AccessKey odKey; omega

/-- The terminations settle; VBUS and the status bits are as they were. -/
theorem usbSettle_ports (d : Dev) : (usbSettle d).ports.vbus = d.ports.vbus
    ∧ (usbSettle d).ports.term = (actual d (portFn 0) == 2 && d.ports.vbus) := by
  unfold usbSettle
  generalize (actual d (portFn 0) == 2 && d.ports.vbus) = on
  dsimp only
  split
  · rename_i h
    obtain ⟨qs, rx, tx, cs, hp⟩ := (QueueStep.portAbort (updPorts d fun x => { x with term := false }) 0).ports
    have hoff : on = false := by
      rw [Bool.and_eq_true] at h
      simpa using h.2
    rw [setCnt_ports, hp, hoff]
    exact ⟨rfl, rfl⟩
  · exact ⟨rfl, rfl⟩

theorem cnt_raiseLevel (d : Dev) (k i sub : Nat) : cnt (raiseLevel d k) i sub = cnt d i sub := rfl

theorem raiseLevel_ep (d : Dev) (k : Nat) : (raiseLevel d k).ports.ep = d.ports.ep := rfl

theorem pq_raiseLevel (d : Dev) (k p q : Nat) : pq (raiseLevel d k) p q = pq d p q := rfl

theorem usbReset_of_off {d : Dev} (h : d.ports.term = false) : usbReset d = d := by simp [usbReset, h]

theorem usbSof_of_off {d : Dev} (h : d.ports.term = false) : usbSof d = d := by simp [usbSof, h]

/-- The device with a bus reset counted, before the buffers in use are aborted. -/
def resetCounted (d : Dev) : Dev := bump (updPorts d fun x => { x with ep := x.ep.filter fun e => e.1 % 16 == 0 }) 0x5800 5 4 1

theorem usbReset_of_on {d : Dev} (h : d.ports.term = true) : usbReset d = raiseLevel (portAbort (resetCounted d) 0) 15 := by
  simp only [usbReset, h, if_true]
  rfl

/-- A bus reset is counted, keeps only endpoint 0's registers, and starts no buffer. -/
theorem usbReset_spec {d : Dev} (h : d.ports.term = true) :
    cnt (usbReset d) 0x5800 5 = (cnt d 0x5800 5 + 1) % 2 ^ 32 ∧ (∀ e ∈ (usbReset d).ports.ep, e.1 % 16 = 0)
    ∧ ∀ q < 32, (pq (usbReset d) 0 q).cur.isSome = true → (pq d 0 q).cur.isSome = true := by
  have hstep := QueueStep.portAbort (resetCounted d) 0
  obtain ⟨qs, rx, tx, cs, hp⟩ := hstep.ports
  rw [usbReset_of_on h]
  refine ⟨?_, fun e he => ?_, fun q hq hsome => ?_⟩
  · rw [cnt_raiseLevel, hstep.leaves.cnt (accessKey_ports (by decide)), resetCounted, cnt_bump]
    rfl
  · rw [raiseLevel_ep, hp] at he
    have hmem : e ∈ d.ports.ep.filter fun e => e.1 % 16 == 0 := he
    simpa using (List.mem_filter.mp hmem).2
  · by_contra hn
    rw [Bool.not_eq_true, Option.isSome_eq_false_iff, Option.isNone_iff_eq_none] at hn
    have hnone := pq_portAbort_cur (resetCounted d) (p := 0) (q := q) hn
    rw [pq_raiseLevel, hnone] at hsome
    exact absurd hsome (by decide)

theorem usbSpeed_of_refused {d : Dev} {v : Nat} (h : v ≠ 0 ∧ (d.ports.term = false ∨ (v = 3 ∧ setting d 0x5800 1 = 1))) : usbSpeed d v = d :=
  if_pos h

/-- A link speed taken is reported. -/
theorem usbSpeed_of_taken {d : Dev} {v : Nat} (h : ¬(v ≠ 0 ∧ (d.ports.term = false ∨ (v = 3 ∧ setting d 0x5800 1 = 1)))) :
    cnt (usbSpeed d v) 0x5800 4 = v ∧ bit (usbSpeed d v).ports.status 15 = true := by
  have hset : cnt (raiseLevel (setCnt d 0x5800 4 v) 15) 0x5800 4 = v := cnt_setCnt ..
  have hbit := raiseLevel_status (setCnt d 0x5800 4 v) (k := 15) (by decide)
  have hstep := QueueStep.portAbort (raiseLevel (setCnt d 0x5800 4 v) 15) 0
  obtain ⟨qs, rx, tx, cs, hp⟩ := hstep.ports
  unfold usbSpeed
  rw [if_neg h]
  dsimp only
  split
  · rw [hstep.leaves.cnt (accessKey_ports (by decide)), hp]
    exact ⟨hset, hbit⟩
  · exact ⟨hset, hbit⟩

theorem usbRuns : Sys2Proof.Claim.UsbRuns := by
  intro s h
  have hx (c : Instr) (f : Dev → Dev) (hc : exec c s = nextDev s f) : exec c s = .next (onDev s f) := hc.trans (nextDev_awake h)
  have hsame (c : Instr) (f : Dev → Dev) (hc : exec c s = nextDev s f) (hf : f s.dev = s.dev) : exec c s = .next s := by
    rw [hx c f hc, onDev, hf]
  refine ⟨fun valid => ⟨_, hx (.usbVbusChange valid) (fun d => usbVbus d valid) rfl, ?_, ?_, raiseLevel_status _ (by decide)⟩,
    fun hon => ⟨_, hx .usbBusReset usbReset rfl, usbReset_spec hon⟩,
    fun hoff => ⟨hsame _ usbReset rfl (usbReset_of_off hoff), hsame _ usbSof rfl (usbSof_of_off hoff)⟩,
    fun hon => ⟨_, hx .usbSof usbSof rfl, ?_⟩, fun v hv => ⟨_, hx (.usbLinkSpeedChange v) (fun d => usbSpeed d v) rfl, usbSpeed_of_taken ?_⟩,
    fun v hv hw => hsame _ (fun d => usbSpeed d v) rfl (usbSpeed_of_refused ⟨fun h0 => hv (Fin.ext h0), ?_⟩)⟩
  · exact (usbSettle_ports _).1
  · exact (usbSettle_ports _).2
  · rw [onDev, usbSof, if_pos hon]
    exact ⟨rfl, rfl⟩
  · rcases hv with rfl | ⟨ht, hmax⟩
    · exact fun hn => hn.1 rfl
    · rintro ⟨-, ht' | ⟨h3, h1⟩⟩
      · exact absurd (ht.symm.trans ht') (by decide)
      · exact hmax (Fin.ext h3) h1
  · rcases hw with hw | ⟨h3, h1⟩
    · exact .inl hw
    · exact .inr ⟨congrArg Fin.val h3, h1⟩

/-! ### Ethernet and the PTP clock -/

/-- A frame that the MAC does not take: its port is down, its link is lost, or its length is out of range. -/
theorem ethReceive_of_refused {d : Dev} {e : Nat} {f : List Byte}
    (h : fnUp d (portFn (1 + e)) = false ∨ cnt d (0x5900 + 0x100 * e) 7 = 0 ∨ f.length + 4 < 64 ∨ ethSet d e 2 < f.length + 4) (bad : Bool) :
    ethReceive d e f bad = d := if_pos h

/-- The device with a frame's bad FCS counted. -/
def fcsCounted (d : Dev) (e : Nat) (bad : Bool) : Dev := if bad then bump d (0x5900 + 0x100 * e) 8 4 1 else d

theorem fcsCounted_keeps (d : Dev) (e : Nat) (bad : Bool) :
    (fcsCounted d e bad).ports = d.ports ∧ (fcsCounted d e bad).breath = d.breath ∧ (fcsCounted d e bad).mem = d.mem
    ∧ (∀ i sub, setting (fcsCounted d e bad) i sub = setting d i sub)
    ∧ cnt (fcsCounted d e bad) (0x5900 + 0x100 * e) 9 = cnt d (0x5900 + 0x100 * e) 9
    ∧ cnt (fcsCounted d e bad) (0x5900 + 0x100 * e) 8 =
        (if bad then (cnt d (0x5900 + 0x100 * e) 8 + 1) % 2 ^ 32 else cnt d (0x5900 + 0x100 * e) 8) := by
  unfold fcsCounted
  cases bad with
  | true => exact ⟨rfl, rfl, rfl, fun _ _ => rfl, cnt_bump_ne _ _ _ _ _ (by unfold odKey; omega), cnt_bump ..⟩
  | false => exact ⟨rfl, rfl, rfl, fun _ _ => rfl, rfl, rfl⟩

/-- A received frame as it waits in its queue. -/
def rxFrame (d : Dev) (e : Nat) (f : List Byte) (bad : Bool) : RxFrame :=
  { bytes := f, bad := bad, ipOk := ipGood f, l4Ok := l4Good f, hi := (stampFields d (1 + e) (-(ethSet d e 5 : Int))).1,
    lo := (stampFields d (1 + e) (-(ethSet d e 5 : Int))).2 }

section
variable {d : Dev} {e : Nat} {f : List Byte}
  (hin : ¬(fnUp d (portFn (1 + e)) = false ∨ cnt d (0x5900 + 0x100 * e) 7 = 0 ∨ f.length + 4 < 64 ∨ ethSet d e 2 < f.length + 4))
include hin

theorem ethReceive_of_pause (hp : isPause f = true) : ethReceive d e f false = d := by
  unfold ethReceive
  rw [if_neg hin]
  simp [hp]

theorem ethReceive_of_taken {bad : Bool} (hp : bad = true ∨ isPause f = false) : ethReceive d e f bad =
    if hasBuffer d (1 + e) (rxQueue d e f) then
      setRx (fcsCounted d e bad) (1 + e) (rxQueue d e f) (rxOf d (1 + e) (rxQueue d e f) ++ [rxFrame d e f bad])
    else bump (fcsCounted d e bad) (0x5900 + 0x100 * e) 9 4 1 := by
  obtain ⟨hports, hbreath, hmem, hset, -, -⟩ := fcsCounted_keeps d e bad
  have hq : rxQueue (fcsCounted d e bad) e f = rxQueue d e f := by unfold rxQueue ethSet; rw [hset]
  have hb (p q : Nat) : hasBuffer (fcsCounted d e bad) p q = hasBuffer d p q := by unfold hasBuffer pq rxOf; rw [hports]
  have hr (p q : Nat) : rxOf (fcsCounted d e bad) p q = rxOf d p q := by unfold rxOf; rw [hports]
  have hs (p : Nat) (k : Int) : stampFields (fcsCounted d e bad) p k = stampFields d p k := by unfold stampFields; rw [hports, hbreath]
  have hcomp : ethSet (fcsCounted d e bad) e 5 = ethSet d e 5 := hset ..
  have hno : (isPause f && !bad) = false := by rcases hp with hp | hp <;> simp [hp]
  unfold ethReceive
  rw [if_neg hin]
  change (if isPause f && !bad then fcsCounted d e bad else _) = _
  rw [hno, if_neg Bool.false_ne_true]
  simp only [show (if bad then bump d (0x5900 + 0x100 * e) 8 4 1 else d) = fcsCounted d e bad from rfl, hq, hb, hr, hs, hcomp]
  rfl

end

theorem ethLink_of_refused {d : Dev} {e link : Nat} (h : link ≠ 0 ∧ (ethSet d e 1 == 1) ≠ (link == 4)) : ethLink d e link = d := if_pos h

/-- A link change that MODE allows is reported. -/
theorem ethLink_of_taken {d : Dev} {e link : Nat} (he : e < 2) (h : ¬(link ≠ 0 ∧ (ethSet d e 1 == 1) ≠ (link == 4))) :
    cnt (ethLink d e link) (0x5900 + 0x100 * e) 7 = link ∧ bit (ethLink d e link).ports.status (16 + e) = true := by
  have hset : cnt (raiseLevel (setCnt d (0x5900 + 0x100 * e) 7 link) (16 + e)) (0x5900 + 0x100 * e) 7 = link := by
    rw [cnt_raiseLevel, cnt_setCnt]
  have hbit := raiseLevel_status (setCnt d (0x5900 + 0x100 * e) 7 link) (k := 16 + e) (by omega)
  have hstep := QueueStep.portAbort (raiseLevel (setCnt d (0x5900 + 0x100 * e) 7 link) (16 + e)) (1 + e)
  obtain ⟨qs, rx, tx, cs, hp⟩ := hstep.ports
  unfold ethLink
  rw [if_neg h]
  dsimp only
  split
  · rw [hstep.leaves.cnt (accessKey_ports (by omega)), hp]
    exact ⟨hset, hbit⟩
  · exact ⟨hset, hbit⟩

/-- MODE and LINK agree. -/
theorem linkAllowed_iff (mode link : Nat) : ((mode == 1) ≠ (link == 4)) ↔ ¬(mode = 1 ↔ link = 4) := by
  rw [Ne, Bool.eq_iff_iff, beq_iff_eq, beq_iff_eq]

theorem sext_eq_toInt {w : Nat} (hw : 0 < w) (x : Nat) : sext w x = (BitVec.ofNat w x).toInt := by
  obtain ⟨k, rfl⟩ := Nat.exists_eq_succ_of_ne_zero hw.ne'
  rw [BitVec.toInt_eq_toNat_cond, BitVec.toNat_ofNat, sext]
  simp only [Nat.succ_eq_add_one, Nat.add_sub_cancel, Nat.pow_succ, Nat.mul_comm (2 ^ k) 2, Nat.mul_lt_mul_left (show 0 < 2 by decide)]
  push_cast
  rw [pow_succ, mul_comm ((2 : Int) ^ k) 2]

theorem ptpMod_pos : 0 < ptpMod := by unfold ptpMod; positivity

theorem ptpShift_lt (t : Nat) (k : Int) : ptpShift t k < ptpMod := by
  have h := Int.emod_lt_of_pos ((t : Int) + k * 2 ^ 32) (Int.natCast_pos.mpr ptpMod_pos)
  have h0 := Int.emod_nonneg ((t : Int) + k * 2 ^ 32) (Int.natCast_ne_zero.mpr ptpMod_pos.ne')
  unfold ptpShift
  omega

/-- The clock moves by the step, modulo its range. -/
theorem ptpShift_sub (t : Nat) (k : Int) : ((ptpShift t k : Int) - t - k * 2 ^ 32) % (ptpMod : Int) = 0 := by
  have h0 := Int.emod_nonneg ((t : Int) + k * 2 ^ 32) (Int.natCast_ne_zero.mpr ptpMod_pos.ne')
  rw [ptpShift, Int.toNat_of_nonneg h0, Int.sub_sub]
  exact Int.emod_eq_zero_of_dvd ((Int.mod_modEq _ _).symm.dvd)

theorem ethernetAndPtpRun : Sys2Proof.Claim.EthernetAndPtpRun := by
  intro s h
  have hx (c : Instr) (f : Dev → Dev) (hc : exec c s = nextDev s f) : exec c s = .next (onDev s f) := hc.trans (nextDev_awake h)
  have hsame (c : Instr) (f : Dev → Dev) (hc : exec c s = nextDev s f) (hf : f s.dev = s.dev) : exec c s = .next s := by
    rw [hx c f hc, onDev, hf]
  refine ⟨fun e f hup hlink hmin hmax => ?taken, fun e f bad hr => hsame _ (fun d => ethReceive d e f bad) rfl (ethReceive_of_refused hr bad),
    fun e link hl => ⟨_, hx (.ethLinkChange e link) (fun d => ethLink d e link) rfl, ethLink_of_taken e.isLt ?linkOk⟩,
    fun e link hne hl => hsame _ (fun d => ethLink d e link) rfl (ethLink_of_refused ⟨fun h0 => hne (Fin.ext h0), ?linkBad⟩),
    fun e => hx (.mdioDone e) (fun d => raiseLevel d (16 + e)) rfl, hx .ptpTick ptpTick rfl,
    fun v => ⟨_, hx (.ptpStep v) (fun d => ptpStep d v) rfl, ptpShift_lt .., ?step⟩,
    ⟨_, hx (.ptpCapture 1#64) (fun d => ptpCapture d 1#64) rfl, rfl, rfl⟩,
    fun v hv => hsame _ (fun d => ptpCapture d v) rfl (if_neg hv), hx .ptpPps (fun d => updPorts d fun x => { x with ppsUntil := d.clk.ns + 1000000 }) rfl⟩
  case taken =>
    have hin : ¬(fnUp s.dev (portFn (1 + e)) = false ∨ cnt s.dev (0x5900 + 0x100 * e) 7 = 0 ∨ f.length + 4 < 64 ∨ ethSet s.dev e 2 < f.length + 4) := by
      rintro (h1 | h1 | h1 | h1)
      · exact absurd (hup.symm.trans h1) (by decide)
      · exact hlink h1
      · omega
      · omega
    refine ⟨fun hp => hsame _ (fun d => ethReceive d e f false) rfl (ethReceive_of_pause hin hp), fun bad hp => ?_⟩
    intro q errs
    have hrecv := ethReceive_of_taken hin hp
    obtain ⟨hports, -, hmem, -, hdrop, herrs⟩ := fcsCounted_keeps s.dev e bad
    refine ⟨fun hb => ⟨_, rxFrame s.dev e f bad, hx (.ethFrameReceive e f bad) (fun d => ethReceive d e f bad) rfl, ?_⟩,
      fun hb => ⟨_, hx (.ethFrameReceive e f bad) (fun d => ethReceive d e f bad) rfl, ?_⟩⟩
    · rw [onDev, hrecv, if_pos hb]
      exact ⟨sget_sset .., rfl, rfl, rfl, rfl, rfl, herrs, hmem⟩
    · rw [onDev, hrecv, if_neg (by rw [show hasBuffer s.dev (1 + e) (rxQueue s.dev e f) = false from hb]; decide)]
      refine ⟨hports, ?_, ?_⟩
      · rw [cnt_bump_ne _ _ _ _ _ (by unfold odKey; omega)]
        exact herrs
      · rw [cnt_bump, hdrop]
        rfl
  case linkOk =>
    rintro ⟨hne, hdiff⟩
    rw [linkAllowed_iff] at hdiff
    rcases hl with rfl | hl
    · exact hne rfl
    · exact hdiff (hl.trans (Fin.ext_iff ..))
  case linkBad =>
    rw [linkAllowed_iff]
    exact fun hm => hl (hm.trans (Fin.ext_iff (b := 4)).symm)
  case step =>
    have hk : sext 32 (fld v 0 32) + sext 32 (fld v 32 32) * 10 ^ 9
        = (BitVec.ofNat 32 v.toNat).toInt + (BitVec.ofNat 32 (v.toNat / 2 ^ 32)).toInt * 10 ^ 9 := by
      have hmod (x : Nat) : BitVec.ofNat 32 (x % 2 ^ 32) = BitVec.ofNat 32 x := BitVec.eq_of_toNat_eq (by simp)
      rw [sext_eq_toInt (by decide), sext_eq_toInt (by decide), fld, fld, hmod, hmod, Nat.shiftRight_zero, Nat.shiftRight_eq_div_pow]
    rw [← hk]
    exact ptpShift_sub ..

/-- Settles O54. -/
theorem usbAndEthernetRun : Obligations.UsbAndEthernetRun := ⟨usbRuns, ethernetAndPtpRun⟩

end Sys2Proof.Proofs


/-! ## Audio samples and blocks, and the port queues' commands (O53) -/

namespace Sys2Proof.Proofs
open Sys2Proof.Machine

/-! ### Samples joining their blocks -/

@[simp] theorem agrp_updGrp (d : Dev) (g : Nat) (f : AudioGroup → AudioGroup) : agrp (updGrp d g f) g = f (agrp d g) := sget_supd ..

theorem agrp_updGrp_ne (d : Dev) (f : AudioGroup → AudioGroup) {g h : Nat} (hne : h ≠ g) : agrp (updGrp d g f) h = agrp d h :=
  sget_supd_ne _ _ hne

/-- What a sample leaves alone: memory, the dictionary, the generator and the TDM ports. -/
structure SampleStep (d e : Dev) : Prop where
  mem : e.mem = d.mem
  od : e.od = d.od
  breath : e.breath = d.breath
  tdm : e.afe.tdm = d.afe.tdm
  closed : ∀ g, (agrp e g).closed.length = (agrp d g).closed.length
  cur : ∀ g, (agrp e g).cur.isSome = (agrp d g).cur.isSome

namespace SampleStep

theorem refl (d : Dev) : SampleStep d d := ⟨rfl, rfl, rfl, rfl, fun _ => rfl, fun _ => rfl⟩

theorem trans {d e f : Dev} (h : SampleStep d e) (k : SampleStep e f) : SampleStep d f :=
  ⟨k.mem.trans h.mem, k.od.trans h.od, k.breath.trans h.breath, k.tdm.trans h.tdm, fun g => (k.closed g).trans (h.closed g),
    fun g => (k.cur g).trans (h.cur g)⟩

theorem updGrp (d : Dev) (g : Nat) {f : AudioGroup → AudioGroup} (hc : ∀ x, (f x).closed.length = x.closed.length)
    (hs : ∀ x, (f x).cur.isSome = x.cur.isSome) : SampleStep d (updGrp d g f) := by
  refine ⟨rfl, rfl, rfl, rfl, fun k => ?_, fun k => ?_⟩
  · by_cases hk : k = g
    · rw [hk, agrp_updGrp, hc]
    · rw [agrp_updGrp_ne _ _ hk]
  · by_cases hk : k = g
    · rw [hk, agrp_updGrp, hs]
    · rw [agrp_updGrp_ne _ _ hk]

theorem groupTake (d : Dev) (g src : Nat) (t : Int) (row : List (BitVec 24)) : SampleStep d (groupTake d g src t row) := by
  unfold Machine.groupTake
  dsimp only
  split
  · exact refl d
  · split
    · exact updGrp d g (fun x => rfl) (fun x => by simp)
    · exact updGrp d g (fun x => by simp) (fun x => rfl)

theorem micSample (d : Dev) (hp : Bool) (m : Nat) (x : BitVec 24) : SampleStep d (micSample d hp m x).1 := by
  unfold Machine.micSample
  split
  · exact ⟨rfl, rfl, rfl, rfl, fun _ => rfl, fun _ => rfl⟩
  · exact refl d

theorem micSamples (hp : Bool) (v : List (BitVec 24)) (ms : List Nat) (d : Dev) : SampleStep d (micSamples d hp v ms).1 := by
  induction ms generalizing d with
  | nil => exact refl d
  | cons m ms ih => exact (micSample d hp m _).trans (ih _)

theorem groupPdm (rate : Nat) (v : List (BitVec 24)) (d : Dev) (g : Nat) : SampleStep d (groupPdm rate v d g) := by
  unfold Machine.groupPdm
  dsimp only
  split
  · exact (micSamples ..).trans (groupTake ..)
  · exact refl d

theorem groupTdm (t : Nat) (v : List W32) (d : Dev) (g : Nat) : SampleStep d (groupTdm t v d g) := by
  unfold Machine.groupTdm
  split
  · exact groupTake ..
  · exact refl d

theorem foldl {f : Dev → Nat → Dev} (h : ∀ d g, SampleStep d (f d g)) (l : List Nat) (d : Dev) : SampleStep d (l.foldl f d) := by
  induction l generalizing d with
  | nil => exact refl d
  | cons g gs ih => exact (h d g).trans (ih _)

end SampleStep

/-- A filter of samples leaves the groups; with the filter off a row is the samples as they came. -/
theorem agrp_micSamples (hp : Bool) (v : List (BitVec 24)) (ms : List Nat) (d : Dev) (g : Nat) : agrp (micSamples d hp v ms).1 g = agrp d g := by
  induction ms generalizing d with
  | nil => rfl
  | cons m ms ih =>
    refine (ih _).trans ?_
    unfold micSample
    split <;> rfl

theorem length_micSamples (hp : Bool) (v : List (BitVec 24)) (ms : List Nat) (d : Dev) : (micSamples d hp v ms).2.length = ms.length := by
  induction ms generalizing d with
  | nil => rfl
  | cons m ms ih => simp only [micSamples, List.length_cons, ih]

theorem micSamples_unfiltered (v : List (BitVec 24)) (ms : List Nat) (d : Dev) : (micSamples d false v ms).2 = ms.map fun m => v.getD m 0#24 := by
  induction ms generalizing d with
  | nil => rfl
  | cons m ms ih => simp only [micSamples, List.map_cons, ih]; rfl

theorem agrp_groupTake_ne (d : Dev) (src : Nat) (t : Int) (row : List (BitVec 24)) {g h : Nat} (hne : h ≠ g) :
    agrp (groupTake d g src t row) h = agrp d h := by
  unfold groupTake
  dsimp only
  split
  · rfl
  · split
    · exact agrp_updGrp_ne _ _ hne
    · exact agrp_updGrp_ne _ _ hne

theorem agrp_groupPdm_ne (rate : Nat) (v : List (BitVec 24)) (d : Dev) {g h : Nat} (hne : h ≠ g) : agrp (groupPdm rate v d g) h = agrp d h := by
  unfold groupPdm
  dsimp only
  split
  · rw [agrp_groupTake_ne _ _ _ _ hne, agrp_micSamples]
  · rfl

/-- The part of a device that only the entry `b` of a list moves is moved by that entry's own step. -/
theorem foldl_at {α γ δ : Type} (part : α → γ) (rest : α → δ) {f : α → Nat → α} {b : Nat} (hother : ∀ a c, c ≠ b → part (f a c) = part a)
    (hrest : ∀ a c, rest (f a c) = rest a) {l : List Nat} (hl : l.Nodup) (hb : b ∈ l) (a : α) :
    ∃ a', part a' = part a ∧ rest a' = rest a ∧ part (l.foldl f a) = part (f a' b) := by
  induction l generalizing a with
  | nil => exact absurd hb (by simp)
  | cons c cs ih =>
    obtain ⟨hc, hcs⟩ := List.nodup_cons.mp hl
    by_cases hcb : c = b
    · rw [hcb] at hc ⊢
      exact ⟨a, rfl, rfl, foldl_keeps part cs (fun a' d hd => hother a' d fun h => hc (h ▸ hd)) _⟩
    · have hb' : b ∈ cs := (List.mem_cons.mp hb).resolve_left fun h => hcb h.symm
      obtain ⟨a', h1, h2, h3⟩ := ih hcs hb' (f a c)
      exact ⟨a', h1.trans (hother a c hcb), h2.trans (hrest a c), h3⟩

/-- A live group of the outputs' rate takes its row at the end of its block. -/
theorem groupPdm_live {d : Dev} {g rate : Nat} (v : List (BitVec 24)) {b : AudioBlock} (hlive : grpLive d g = true) (hrate : grpSet d g 4 = rate)
    (hmics : grpMics d g ≠ []) (hcur : (agrp d g).cur = some b) (hdelay : groupDelay rate ≤ d.breath.ns) :
    ∃ c row, (agrp (groupPdm rate v d g) g).cur = some c ∧ c.pdm = b.pdm ++ [row] ∧ row.length = (grpMics d g).length
      ∧ (grpSet d g 6 ≠ 1 → row = (grpMics d g).map fun m => v.getD m 0#24) ∧ c.tdm0 = b.tdm0 ∧ c.tdm1 = b.tdm1 := by
  have hlen := length_micSamples (grpSet d g 6 == 1) v (grpMics d g) d
  have hne : (micSamples d (grpSet d g 6 == 1) v (grpMics d g)).2.isEmpty = false := by
    rw [List.isEmpty_eq_false_iff, ← List.length_pos_iff, hlen]
    exact List.length_pos_of_ne_nil hmics
  have hg := agrp_micSamples (grpSet d g 6 == 1) v (grpMics d g) d g
  refine ⟨b.put 0 ((d.breath.ns : Int) - groupDelay rate).toNat (micSamples d (grpSet d g 6 == 1) v (grpMics d g)).2, _, ?_, rfl, hlen, fun h6 => ?_, rfl, rfl⟩
  · unfold groupPdm
    simp only [hlive, hrate, beq_self_eq_true, Bool.and_self, if_true]
    unfold groupTake
    rw [hne, if_neg Bool.false_ne_true, if_pos (by omega), agrp_updGrp, hg, hcur]
    rfl
  · rw [beq_eq_false_iff_ne.mpr h6]
    exact micSamples_unfiltered ..

section
variable {d e : Dev} (h : e.od = d.od)
include h

theorem grpLive_of_od (g : Nat) : grpLive e g = grpLive d g := by unfold grpLive actual cnt; rw [h]

theorem grpSet_of_od (g sub : Nat) : grpSet e g sub = grpSet d g sub := by unfold grpSet setting; rw [h]

theorem grpMics_of_od (g : Nat) : grpMics e g = grpMics d g := by unfold grpMics; rw [grpSet_of_od h]

end

theorem tdmOf_updTdm (d : Dev) (t : Nat) (f : Tdm → Tdm) : tdmOf (updTdm d t f) t = f (tdmOf d t) := sget_supd ..

theorem tdmOf_of_tdm {d e : Dev} (h : e.afe.tdm = d.afe.tdm) (t : Nat) : tdmOf e t = tdmOf d t := by rw [tdmOf, tdmOf, h]

/-! ### Closed blocks -/

/-- A signal that counts writes its word in memory; it moves no counter but memory's. -/
theorem cnt_addSignal (d : Dev) (w k : Nat) (v : W32) {i sub : Nat} (h : ¬ AccessKey (odKey i sub)) :
    cnt (addSignal d w k v) i sub = cnt d i sub := by
  unfold addSignal setSignal
  exact ((leaves_memWrite ..).cnt h).trans (cnt_updWc ..)

theorem addSignal_afe (d : Dev) (w k : Nat) (v : W32) : (addSignal d w k v).afe = d.afe := by
  unfold addSignal setSignal
  exact (memWrite_afe ..).trans (updWc_afe ..)

theorem cnt_entrySignal (d : Dev) (v : Nat) {i sub : Nat} (h : ¬ AccessKey (odKey i sub)) : cnt (entrySignal d v) i sub = cnt d i sub := by
  unfold entrySignal postSignal
  split
  · split
    · rfl
    · exact cnt_addSignal _ _ _ _ h
  · rfl

theorem entrySignal_afe (d : Dev) (v : Nat) : (entrySignal d v).afe = d.afe := by
  unfold entrySignal postSignal
  split
  · split
    · rfl
    · exact addSignal_afe ..
  · rfl

theorem audioWrite_nil {d : Dev} {g : Nat} (first lost : Nat) (h : (agrp d g).closed = []) : audioWrite d g first lost = d := by
  unfold audioWrite
  simp only [h]

theorem cnt_memWrite_audio (d : Dev) (a : Nat) (bs : List Byte) (g sub : Nat) :
    cnt (memWrite d (some agAfe) srcAfe a bs false) (0x5010 + g) sub = cnt d (0x5010 + g) sub :=
  (leaves_memWrite ..).cnt (accessKey_ports (by omega))

/-- The three counts of a written block: the block, its samples lost and its samples clipped. -/
theorem cnt_blockCounted (d : Dev) (g gone clipped : Nat) :
    cnt (bump (bump (bump d (0x5010 + g) 0x10 8 1) (0x5010 + g) 0x11 8 gone) (0x5010 + g) 0x12 8 clipped) (0x5010 + g) 0x10
      = (cnt d (0x5010 + g) 0x10 + 1) % 2 ^ 64 := by
  rw [cnt_bump_ne _ _ _ _ _ (by unfold odKey; omega), cnt_bump_ne _ _ _ _ _ (by unfold odKey; omega), cnt_bump]
  rfl

/-- The oldest closed block of a group leaves the group and is counted. -/
theorem audioWrite_cons {d : Dev} {g : Nat} (first lost : Nat) {b : AudioBlock} {rest : List AudioBlock} (h : (agrp d g).closed = b :: rest) :
    (agrp (audioWrite d g first lost) g).closed = rest
    ∧ cnt (audioWrite d g first lost) (0x5010 + g) 0x10 = (cnt d (0x5010 + g) 0x10 + 1) % 2 ^ 64 := by
  have hgrp : agrp (updGrp d g fun x => { x with closed := rest, lastDone := x.lastDone || b.last }) g
      = { agrp d g with closed := rest, lastDone := (agrp d g).lastDone || b.last } := agrp_updGrp ..
  unfold audioWrite
  simp only [h]
  constructor
  · rw [agrp, entrySignal_afe]
    split
    · rw [bump_afe, bump_afe, bump_afe, memWrite_afe, memWrite_afe, memWrite_afe]
      exact congrArg AudioGroup.closed hgrp
    · rw [postOnce_afe, bump_afe, bump_afe, bump_afe, memWrite_afe, memWrite_afe, memWrite_afe]
      exact congrArg AudioGroup.closed hgrp
  · rw [cnt_entrySignal _ _ (accessKey_ports (by omega))]
    split
    · rw [cnt_blockCounted, cnt_memWrite_audio, cnt_memWrite_audio, cnt_memWrite_audio]
      rfl
    · rw [cnt_postOnce, cnt_blockCounted, cnt_memWrite_audio, cnt_memWrite_audio, cnt_memWrite_audio]
      rfl

theorem audioRuns : Sys2Proof.Claim.AudioRuns := by
  intro s h
  have hx (c : Instr) (f : Dev → Dev) (hc : exec c s = nextDev s f) : exec c s = .next (onDev s f) := hc.trans (nextDev_awake h)
  refine ⟨fun slow v => ?pdm, fun slow v g b hg hlive hrate hmics hcur hdelay => ?row, fun t v hused => ?tdm, fun t v hu hp => ?unused,
    fun g first lost b rest hc => ⟨_, hx (.audioBlockWrite g first lost) (fun d => audioWrite d g first.toNat lost.toNat) rfl, audioWrite_cons _ _ hc⟩,
    fun g first lost hc => ?none⟩
  case pdm =>
    have hs : SampleStep s.dev (pdmSample s.dev (b2n slow) v) := by
      unfold pdmSample
      exact SampleStep.foldl (SampleStep.groupPdm _ v) (List.range 8) s.dev
    refine ⟨_, hx (.pdmSample slow v) (fun d => pdmSample d (b2n slow) v) rfl, ?_⟩
    rw [onDev]
    dsimp only
    exact ⟨hs.mem, hs.od, fun g _ => ⟨hs.closed g, hs.cur g⟩⟩
  case row =>
    have hb : (if slow then 1 else 0) = b2n slow := by cases slow <;> rfl
    rw [hb] at hrate hdelay
    obtain ⟨d', hpart, hrest, hfold⟩ := foldl_at (fun d => agrp d g) (fun d => (d.od, d.breath)) (f := groupPdm (b2n slow) v)
      (fun a c hc => agrp_groupPdm_ne _ v a hc.symm)
      (fun a c => Prod.ext (SampleStep.groupPdm _ v a c).od (SampleStep.groupPdm _ v a c).breath) List.nodup_range (List.mem_range.mpr hg) s.dev
    simp only [Prod.mk.injEq] at hrest
    obtain ⟨hod, hbr⟩ := hrest
    obtain ⟨c, row, hc, hpdm, hlen, hrow, ht0, ht1⟩ := groupPdm_live (d := d') (g := g) v (b := b) ((grpLive_of_od hod g).trans hlive)
      ((grpSet_of_od hod g 4).trans hrate) (by rwa [grpMics_of_od hod]) (by rw [hpart]; exact hcur) (by rw [hbr]; exact hdelay)
    rw [grpMics_of_od hod] at hlen hrow
    rw [grpSet_of_od hod] at hrow
    refine ⟨_, c, row, hx (.pdmSample slow v) (fun d => pdmSample d (b2n slow) v) rfl, ?_, hpdm, hlen, hrow, ht0, ht1⟩
    rw [onDev, pdmSample, hfold]
    exact hc
  case tdm =>
    have hcond : (tdmUsed s.dev t || tdmSet s.dev t 7 == 1) = true := by
      rcases hused with hu | hu <;> simp [hu]
    refine ⟨_, hx (.tdmFrameSync t v) (fun d => tdmFrame d t v) rfl, ?_⟩
    rw [onDev, tdmFrame, if_pos hcond]
    dsimp only
    have hs (e : Dev) : SampleStep e ((List.range 8).foldl (groupTdm t v) e) := SampleStep.foldl (SampleStep.groupTdm t v) (List.range 8) e
    have ht (e : Dev) : tdmOf ((List.range 8).foldl (groupTdm t v) e) t = tdmOf e t := tdmOf_of_tdm (hs e).tdm t
    rw [ht, tdmOf_updTdm, (hs _).mem]
    exact ⟨rfl, rfl, rfl, rfl⟩
  case unused =>
    rw [hx (.tdmFrameSync t v) (fun d => tdmFrame d t v) rfl, onDev, tdmFrame, if_neg (by simp [hu, hp])]
  case none => rw [hx (.audioBlockWrite g first lost) (fun d => audioWrite d g first.toNat lost.toNat) rfl, onDev, audioWrite_nil _ _ hc]

/-! ### The queues' commands -/

theorem updQ_congr {d : Dev} {p q : Nat} {f g : PortQ → PortQ} (h : f (pq d p q) = g (pq d p q)) : updQ d p q f = updQ d p q g := by
  have h' : f (sget (fun _ => {}) d.ports.qs (p * 32 + q)) = g (sget (fun _ => {}) d.ports.qs (p * 32 + q)) := h
  simp only [updQ, updPorts, supd, h']

theorem qctrlWrite_on {d : Dev} {p q : Nat} (hq : q < queueCount p) {v : W64} (hv : bit v 0 = true) : qctrlWrite d p q v =
    queueLoad (updQ d p q fun x => { x with enable := true, log2 := BitVec.ofNat 5 (fld v 4 5), irqEn := bit v 16 }) p q := by
  unfold qctrlWrite
  rw [if_pos hq]
  simp only [hv, if_true, Bool.and_true]

/-- The queue that QCTRL has disabled, its buffer in use aborted. -/
def queueDisabled (d : Dev) (p q : Nat) : Dev := queueAbort (updQ d p q fun x => { x with enable := false }) p q

theorem qctrlWrite_off {d : Dev} {p q : Nat} (hq : q < queueCount p) {v : W64} (hv : bit v 0 = false) :
    pq (qctrlWrite d p q v) p q = { pq (queueDisabled d p q) p q with
      enable := false, log2 := BitVec.ofNat 5 (fld v 4 5), irqEn := bit v 16, halted := false } := by
  have hset : pq (updQ (queueDisabled d p q) p q fun x =>
      { x with enable := false, log2 := BitVec.ofNat 5 (fld v 4 5), irqEn := bit v 16, halted := x.halted && false }) p q
      = { pq (queueDisabled d p q) p q with enable := false, log2 := BitVec.ofNat 5 (fld v 4 5), irqEn := bit v 16, halted := false } := by
    rw [pq_updQ, Bool.and_false]
  have hw : qctrlWrite d p q v = queueLoad (updQ (queueDisabled d p q) p q fun x =>
      { x with enable := false, log2 := BitVec.ofNat 5 (fld v 4 5), irqEn := bit v 16, halted := x.halted && false }) p q := by
    unfold qctrlWrite
    rw [if_pos hq]
    simp only [hv, Bool.false_eq_true, if_false]
    rfl
  rw [hw, queueLoad_of_disabled (by rw [hset]), hset]

theorem pq_queueDisabled_cur (d : Dev) (p q : Nat) : (pq (queueDisabled d p q) p q).cur = none :=
  (pq_queueAbort_cur (updQ d p q fun x => { x with enable := false }) p q).2 (by rw [pq_updQ])

theorem portQueuesRun : Sys2Proof.Claim.PortQueuesRun := by
  intro s p q h
  have hx (c : Instr) (f : Dev → Dev) (hc : exec c s = nextDev s f) : exec c s = .next (onDev s f) := hc.trans (nextDev_awake h)
  have htail (v : W64) := hx (.queueTailWrite p q v) (fun d => tailWrite d p q v) rfl
  have hctrl (v : W64) := hx (.qctrlWrite p q v) (fun d => qctrlWrite d p q v) rfl
  have hdesc (bs : List Byte) (eop bad : Bool) := hx (.descriptorComplete p q bs eop bad) _ rfl
  refine ⟨fun hq v => ?_, fun hq v => ⟨?_, ?_⟩, fun hq v hv => ?_, fun hq v hv => ⟨_, hctrl v, ?_⟩, fun hno bs eop bad => ?_,
    fun hq hlive bs eop bad => ?desc, fun d v status len fs hc => ⟨(pq_queueDone hc ..).1, (pq_queueDone hc ..).2.1⟩⟩
  · rw [htail, onDev, tailWrite, if_pos hq]
  · rw [htail, onDev, tailWrite, if_neg (by omega)]
  · rw [hctrl, onDev, qctrlWrite, if_neg (by omega)]
  · rw [hctrl, onDev, qctrlWrite_on hq hv]
  · rw [onDev, qctrlWrite_off hq hv]
    exact ⟨rfl, rfl, pq_queueDisabled_cur ..⟩
  · rw [hdesc, onDev, if_pos hno]
  case desc =>
    have hno : ¬(queueCount p ≤ q ∨ fnLive s.dev (portFn p) = false) := by
      rintro (h1 | h1)
      · omega
      · exact absurd (hlive.symm.trans h1) (by decide)
    refine ⟨fun hp hq0 => ?_, fun hp ht => ?_, fun hp ht => ?_, fun hp ht => ?_⟩
    · rw [hdesc, onDev, if_neg hno, if_pos ⟨hp, hq0⟩]
    · rw [hdesc, onDev, if_neg hno, if_neg (fun hc => hp hc.1), if_pos ht]
    · rw [hdesc, onDev, if_neg hno, if_neg (fun hc => by rw [hp] at hc; exact absurd hc.1 (by decide)), if_neg (by simp [ht]), if_pos hp]
    · have hcan : ¬(p = 3 ∧ q = 0) := by
        rintro ⟨rfl, rfl⟩
        exact absurd ht (by decide)
      rw [hdesc, onDev, if_neg hno, if_neg hcan, if_neg (by simp [ht]), if_neg hp]

/-- Settles O53. -/
theorem audioAndQueuesRun : Obligations.AudioAndQueuesRun := ⟨audioRuns, portQueuesRun⟩

end Sys2Proof.Proofs


/-! ## The camera link (O47) -/

namespace Sys2Proof.Proofs
open Sys2Proof.Machine

theorem hsBurst_of_off {d : Dev} {p : Nat} (h : termOn d p = false) (sync : Bool) : hsBurst d p sync = bump d (camB p + 3) 7 4 1 := by
  simp [hsBurst, h]

theorem idleBurst_of_off {d : Dev} {p : Nat} (h : termOn d p = false) : idleBurst d p = bump d (camB p + 3) 7 4 1 := by
  simp [idleBurst, h]

theorem idleBurst_of_on {d : Dev} {p : Nat} (h : termOn d p = true) : idleBurst d p = d := by simp [idleBurst, h]

/-- A burst is lost without sync on every lane, or before a required initial deskew. -/
def burstLost (d : Dev) (p : Nat) (sync : Bool) : Bool := !sync || (decide (1500 < setting d (camB p) 2) && !(cam d p).deskewed)

theorem hsBurst_of_on {d : Dev} {p : Nat} (h : termOn d p = true) (sync : Bool) : hsBurst d p sync =
    if burstLost d p sync then linkError (updCam d p fun c => { c with burst := true, skip := true, header := none }) p
    else updCam d p fun c => { c with burst := true, skip := false, header := none } := by
  unfold hsBurst
  simp only [h, Bool.not_true, Bool.false_eq_true, if_false]
  change (if burstLost d p sync then linkError (updCam d p fun c => { c with burst := true, skip := burstLost d p sync, header := none }) p
    else updCam d p fun c => { c with burst := true, skip := burstLost d p sync, header := none }) = _
  cases burstLost d p sync <;> rfl

theorem deskew_of_on {d : Dev} {p : Nat} (h : termOn d p = true) (initial : Bool) :
    deskew d p initial = updCam d p fun c => { c with deskewed := c.deskewed || initial } := if_pos h

theorem deskew_of_off {d : Dev} {p : Nat} (h : termOn d p = false) (initial : Bool) : deskew d p initial = d := if_neg (by simp [h])

/-! ### Packet headers -/

/-- The header counted, a corrected bit with it. -/
def headerCounted (d : Dev) (p ecc : Nat) : Dev := bump (if ecc = 1 then bump d (camB p + 3) 2 4 1 else d) (camB p + 3) 1 8 1

theorem headerCounted_cam (d : Dev) (p ecc q : Nat) : cam (headerCounted d p ecc) q = cam d q := by
  unfold headerCounted
  split <;> rfl

theorem headerCounted_cnt (d : Dev) (p ecc : Nat) :
    cnt (headerCounted d p ecc) (camB p + 3) 1 = (cnt d (camB p + 3) 1 + 1) % 2 ^ 64
    ∧ cnt (headerCounted d p ecc) (camB p + 3) 2 = (if ecc = 1 then (cnt d (camB p + 3) 2 + 1) % 2 ^ 32 else cnt d (camB p + 3) 2)
    ∧ cnt (headerCounted d p ecc) (camB p + 3) 6 = cnt d (camB p + 3) 6 := by
  unfold headerCounted
  refine ⟨?_, ?_, ?_⟩
  · rw [cnt_bump]
    split
    · rw [cnt_bump_ne _ _ _ _ _ (by unfold odKey; omega)]; rfl
    · rfl
  · rw [cnt_bump_ne _ _ _ _ _ (by unfold odKey; omega)]
    split
    · rw [cnt_bump]; rfl
    · rfl
  · rw [cnt_bump_ne _ _ _ _ _ (by unfold odKey; omega)]
    split
    · rw [cnt_bump_ne _ _ _ _ _ (by unfold odKey; omega)]
    · rfl

theorem packetHeader_idle {d : Dev} {p : Nat} (h : (termOn d p && (cam d p).burst && !(cam d p).skip) = false) (vc dt word ecc : Nat) :
    packetHeader d p vc dt word ecc = d := by
  simp only [packetHeader, h, Bool.not_false, if_true]

section
variable {d : Dev} {p : Nat} (h : (termOn d p && (cam d p).burst && !(cam d p).skip) = true) (vc dt word : Nat)
include h

/-- An uncorrectable header skips the rest of its burst. -/
theorem packetHeader_uncorrectable : packetHeader d p vc dt word 2 =
    ((List.range 16).filter fun n =>
      icPort (updCam (bump d (camB p + 3) 3 4 1) p fun c => { c with skip := true, header := none, brHdr := c.brHdr + 1 }) n == p).foldl (insertBad p)
      (updCam (bump d (camB p + 3) 3 4 1) p fun c => { c with skip := true, header := none, brHdr := c.brHdr + 1 }) := by
  simp only [packetHeader, h, Bool.not_true, Bool.false_eq_true, if_false, if_true]

theorem packetHeader_known {ecc : Nat} (he : ecc ≠ 2) (hk : dt = 0x00 ∨ dt = 0x01 ∨ dt = 0x12 ∨ imageTypes.contains dt = true) :
    packetHeader d p vc dt word ecc = updCam (headerCounted d p ecc) p fun c => { c with header := some (vc, dt, word) } := by
  simp only [packetHeader, h, Bool.not_true, Bool.false_eq_true, if_false, he]
  exact if_pos hk

theorem packetHeader_other {ecc : Nat} (he : ecc ≠ 2) (hk : ¬(dt = 0x00 ∨ dt = 0x01 ∨ dt = 0x12 ∨ imageTypes.contains dt = true)) :
    packetHeader d p vc dt word ecc =
      if dt = 0x02 ∨ dt = 0x03 ∨ (0x08 ≤ dt ∧ dt ≤ 0x0F) then updCam (headerCounted d p ecc) p fun c => { c with header := none }
      else unrouted (updCam (headerCounted d p ecc) p fun c => { c with header := none }) p := by
  simp only [packetHeader, h, Bool.not_true, Bool.false_eq_true, if_false, he]
  exact if_neg hk

end

/-- An inserted line leaves the camera's link state and its header counts. -/
theorem takeLine_link (d : Dev) (p n : Nat) (f : IcFrame) (bad : Bool) (bytes : Nat) (px : List Nat) {i sub : Nat} (hi : i < 0x4000) (hsub : sub < 256) :
    (takeLine d p n f bad bytes px).cams = d.cams ∧ cnt (takeLine d p n f bad bytes px) i sub = cnt d i sub := by
  have hkey (s : Nat) (hs : s < 256) : odKey i sub ≠ odKey (icX n + 1) s := by unfold odKey icX; omega
  unfold takeLine
  dsimp only
  split
  · exact ⟨rfl, rfl⟩
  · split
    · exact ⟨rfl, cnt_bump_ne _ _ _ _ _ (hkey 0x12 (by decide))⟩
    · split
      · exact ⟨rfl, rfl⟩
      · split
        · exact ⟨rfl, cnt_bump_ne _ _ _ _ _ (hkey 0x11 (by decide))⟩
        · exact ⟨rfl, rfl⟩

theorem insertBad_link (p : Nat) (d : Dev) (n : Nat) {i sub : Nat} (hi : i < 0x4000) (hsub : sub < 256) :
    (insertBad p d n).cams = d.cams ∧ cnt (insertBad p d n) i sub = cnt d i sub := by
  unfold insertBad
  split
  · exact takeLine_link (drawFree d).2 p n _ true _ _ hi hsub
  · exact ⟨rfl, rfl⟩

theorem foldl_insertBad_link (p : Nat) (l : List Nat) (d : Dev) {i sub : Nat} (hi : i < 0x4000) (hsub : sub < 256) :
    (l.foldl (insertBad p) d).cams = d.cams ∧ cnt (l.foldl (insertBad p) d) i sub = cnt d i sub := by
  have h := foldl_keeps (fun d : Dev => (d.cams, cnt d i sub)) (f := insertBad p) l
    (fun a n _ => Prod.ext (insertBad_link p a n hi hsub).1 (insertBad_link p a n hi hsub).2) d
  simpa only [Prod.mk.injEq] using h

theorem imageTypes_gt {dt : Nat} (h : dt ∈ imageTypes) : 0x12 < dt := by
  unfold imageTypes at h
  simp only [List.mem_cons, List.not_mem_nil, or_false] at h
  omega

/-- Settles O47. -/
theorem cameraLinkRuns : Obligations.CameraLinkRuns := by
  intro s p h c
  have hx (i : Instr) (f : Dev → Dev) (hc : exec i s = nextDev s f) : exec i s = .next (onDev s f) := hc.trans (nextDev_awake h)
  have hburst (sync : Bool) := hx (.hsBurst p sync) (fun d => hsBurst d p sync) rfl
  have hidle := hx (.idleBursts p) (fun d => idleBurst d p) rfl
  have hdeskew (initial : Bool) := hx (.deskewSequence p initial) (fun d => deskew d p initial) rfl
  have hheader (vc : Fin 16) (dt : BitVec 6) (word : BitVec 16) (ecc : Fin 3) :=
    hx (.packetHeader p vc dt word ecc) (fun d => packetHeader d p vc dt.toNat word.toNat ecc) rfl
  refine ⟨fun hoff sync => ?_, fun hoff => ?_, fun hon => ?_, fun hon hd => ⟨_, hburst true, ?_⟩, fun hon sync hl => ⟨_, hburst sync, ?_⟩,
    fun hon initial => ⟨_, hdeskew initial, ?_⟩, fun hoff initial => ?_, fun hno vc dt word ecc => ?_, fun hon hbst hskip vc dt word => ?headers⟩
  · rw [hburst, onDev, hsBurst_of_off hoff]
  · rw [hidle, onDev, idleBurst_of_off hoff]
  · rw [hidle, onDev, idleBurst_of_on hon]
  · have hnot : burstLost s.dev p true = false := by
      unfold burstLost
      rcases hd with hd | hd
      · simp [Nat.not_lt.mpr hd]
      · simp [show (cam s.dev p).deskewed = true from hd]
    rw [onDev, hsBurst_of_on hon, hnot]
    exact ⟨cam_updCam .., rfl⟩
  · have hlost : burstLost s.dev p sync = true := by
      unfold burstLost
      rcases hl with hl | ⟨h1, h2⟩
      · simp [hl]
      · simp [h1, show (cam s.dev p).deskewed = false from h2]
    rw [onDev, hsBurst_of_on hon, hlost, if_pos rfl, linkError, cam_updCam, cam_bump, cam_updCam, cnt_updCam, cnt_bump, cnt_updCam]
    exact ⟨rfl, rfl⟩
  · rw [onDev, deskew_of_on hon]
    exact ⟨cam_updCam .., rfl⟩
  · rw [hdeskew, onDev, deskew_of_off hoff]
  · rw [hheader, onDev, packetHeader_idle hno]
  case headers =>
    have hlive : (termOn s.dev p && (cam s.dev p).burst && !(cam s.dev p).skip) = true := by
      rw [hon, show (cam s.dev p).burst = true from hbst, show (cam s.dev p).skip = false from hskip]
      rfl
    have hecc {ecc : Fin 3} (he : ecc ≠ 2) : (ecc : Nat) ≠ 2 := fun h2 => he (Fin.ext h2)
    have hnat {x : BitVec 6} : dt = x ↔ dt.toNat = x.toNat := BitVec.toNat_inj.symm
    refine ⟨fun ecc he hk => ⟨_, hheader vc dt word ecc, ?known⟩, fun ecc he hk => ⟨_, hheader vc dt word ecc, ?ignored⟩,
      fun ecc he hk => ⟨_, hheader vc dt word ecc, ?unrouted⟩, ⟨_, hheader vc dt word 2, ?uncorrectable⟩⟩
    case known =>
      have hk' : dt.toNat = 0x00 ∨ dt.toNat = 0x01 ∨ dt.toNat = 0x12 ∨ imageTypes.contains dt.toNat = true := by
        rw [hnat, hnat, hnat] at hk
        simpa using hk
      obtain ⟨h1, h2, -⟩ := headerCounted_cnt s.dev p ecc
      rw [onDev, packetHeader_known hlive _ _ _ (hecc he) hk', cam_updCam, cnt_updCam, cnt_updCam, h1, h2]
      refine ⟨rfl, rfl, ?_⟩
      simp only [show ((ecc : Nat) = 1) = (ecc = 1) from propext ⟨fun h => Fin.ext h, fun h => congrArg Fin.val h⟩]
    case ignored =>
      have hk' : dt.toNat = 0x02 ∨ dt.toNat = 0x03 ∨ (0x08 ≤ dt.toNat ∧ dt.toNat ≤ 0x0F) := by
        rw [hnat, hnat] at hk
        simpa using hk
      have hno : ¬(dt.toNat = 0x00 ∨ dt.toNat = 0x01 ∨ dt.toNat = 0x12 ∨ imageTypes.contains dt.toNat = true) := by
        rintro (h0 | h0 | h0 | h0)
        · omega
        · omega
        · omega
        · have := imageTypes_gt (List.contains_iff_mem.mp h0)
          omega
      rw [onDev, packetHeader_other hlive _ _ _ (hecc he) hno, if_pos hk', cam_updCam, cnt_updCam, (headerCounted_cnt s.dev p ecc).2.2]
      exact ⟨rfl, rfl⟩
    case unrouted =>
      have hno : ¬(dt.toNat = 0x00 ∨ dt.toNat = 0x01 ∨ dt.toNat = 0x12 ∨ imageTypes.contains dt.toNat = true)
          ∧ ¬(dt.toNat = 0x02 ∨ dt.toNat = 0x03 ∨ (0x08 ≤ dt.toNat ∧ dt.toNat ≤ 0x0F)) := by
        rw [Ne, hnat, show (0x12#6).toNat = 0x12 from rfl] at hk
        have hc : imageTypes.contains dt.toNat = true ↔ dt.toNat ∈ imageTypes := List.contains_iff_mem
        rw [hc]
        have hgt := fun h => imageTypes_gt (dt := dt.toNat) h
        constructor
        · rintro (h0 | h0 | h0 | h0)
          · omega
          · omega
          · omega
          · have := hgt h0
            rcases hk with hk | ⟨-, -, hk⟩
            · omega
            · exact hk h0
        · omega
      rw [onDev, packetHeader_other hlive _ _ _ (hecc he) hno.1, if_neg hno.2, Machine.unrouted, cam_bump, cam_updCam, cnt_bump, cnt_updCam,
        (headerCounted_cnt s.dev p ecc).2.2]
      exact ⟨rfl, rfl⟩
    case uncorrectable =>
      have hcam {d e : Dev} (hc : e.cams = d.cams) : cam e p = cam d p := by rw [cam, cam, hc]
      rw [onDev, show packetHeader s.dev p vc dt.toNat word.toNat (2 : Fin 3) = _ from packetHeader_uncorrectable hlive _ _ _]
      obtain ⟨hc, hcnt⟩ := foldl_insertBad_link p ((List.range 16).filter fun n =>
        icPort (updCam (bump s.dev (camB p + 3) 3 4 1) p fun c => { c with skip := true, header := none, brHdr := c.brHdr + 1 }) n == p)
        (updCam (bump s.dev (camB p + 3) 3 4 1) p fun c => { c with skip := true, header := none, brHdr := c.brHdr + 1 })
        (i := camB p + 3) (sub := 3) (by unfold camB; omega) (by decide)
      rw [hcam hc, cam_updCam, hcnt, cnt_updCam, cnt_bump]
      exact ⟨rfl, rfl, rfl⟩

end Sys2Proof.Proofs


/-! ## Core memory and lengths: what their operations leave of the other units -/

namespace Sys2Proof.Proofs
open Sys2Proof.Machine

/-- The units outside memory, the cores, the CP, the dictionary and the event path are as they were. -/
structure SameUnits (d e : Dev) : Prop where
  clk : e.clk = d.clk
  breath : e.breath = d.breath
  ctrs : e.ctrs = d.ctrs
  se : e.se = d.se
  mpe : e.mpe = d.mpe
  cams : e.cams = d.cams
  ics : e.ics = d.ics
  ipl : e.ipl = d.ipl
  afe : e.afe = d.afe
  ports : e.ports = d.ports
  power : e.power = d.power
  ctl : e.ctl = d.ctl
  boot : e.boot = d.boot
  tu : e.tu = d.tu
  store0 : e.store0 = d.store0
  store1 : e.store1 = d.store1
  regs : e.regs = d.regs
  freeNo : e.freeNo = d.freeNo

namespace SameUnits

variable {d e f : Dev}

theorem refl (d : Dev) : SameUnits d d := by constructor <;> rfl

theorem trans (h : SameUnits d e) (k : SameUnits e f) : SameUnits d f :=
  ⟨k.clk.trans h.clk, k.breath.trans h.breath, k.ctrs.trans h.ctrs, k.se.trans h.se, k.mpe.trans h.mpe, k.cams.trans h.cams,
    k.ics.trans h.ics, k.ipl.trans h.ipl, k.afe.trans h.afe, k.ports.trans h.ports, k.power.trans h.power, k.ctl.trans h.ctl,
    k.boot.trans h.boot, k.tu.trans h.tu, k.store0.trans h.store0, k.store1.trans h.store1, k.regs.trans h.regs, k.freeNo.trans h.freeNo⟩

theorem ite {p : Prop} [Decidable p] (he : SameUnits d e) (hf : SameUnits d f) : SameUnits d (if p then e else f) := by
  split
  · exact he
  · exact hf

theorem foldl {α : Type} {g : Dev → α → Dev} (l : List α) (h : ∀ d : Dev, ∀ x ∈ l, SameUnits d (g d x)) (d : Dev) : SameUnits d (l.foldl g d) := by
  induction l generalizing d with
  | nil => exact refl d
  | cons x xs ih => exact (h d x (by simp)).trans (ih (fun d y hy => h d y (by simp [hy])) _)

theorem updMem (d : Dev) (g : Mem → Mem) : SameUnits d (updMem d g) := by constructor <;> rfl
theorem updCore (d : Dev) (n : Nat) (g : Core → Core) : SameUnits d (updCore d n g) := by constructor <;> rfl
theorem updWc (d : Dev) (w : Nat) (g : Wc → Wc) : SameUnits d (updWc d w g) := by constructor <;> rfl
theorem updRing (d : Dev) (r : Nat) (g : Ring → Ring) : SameUnits d (updRing d r g) := by constructor <;> rfl
theorem updCp (d : Dev) (g : Cp → Cp) : SameUnits d (updCp d g) := by constructor <;> rfl
theorem setCnt (d : Dev) (i s v : Nat) : SameUnits d (setCnt d i s v) := by constructor <;> rfl
theorem bump (d : Dev) (i s w n : Nat) : SameUnits d (bump d i s w n) := by constructor <;> rfl
theorem raiseIrq (d : Dev) (k : Nat) : SameUnits d (raiseIrq d k) := by constructor <;> rfl
theorem postRec (d : Dev) (r : EvtRec) : SameUnits d (postRec d r) := by constructor <;> simp
theorem postEvent (d : Dev) (a b c x : Nat) : SameUnits d (postEvent d a b c x) := postRec ..
theorem postEventWc (d : Dev) (a b c w x : Nat) : SameUnits d (postEventWc d a b c w x) := postRec ..
theorem postOnce (d : Dev) (k a b c x : Nat) : SameUnits d (postOnce d k a b c x) := by constructor <;> simp
theorem memRead (d : Dev) (g : Option Nat) (s a n : Nat) : SameUnits d (memRead d g s a n).1 := by constructor <;> simp
theorem memReadMarked (d : Dev) (g : Option Nat) (s a n : Nat) : SameUnits d (memReadMarked d g s a n).1 := by constructor <;> simp
theorem memWrite (d : Dev) (g : Option Nat) (s a : Nat) (bs : List Byte) (p : Bool) : SameUnits d (memWrite d g s a bs p) := by constructor <;> simp

end SameUnits

/-! ### Core memory -/

/-- Counters an operation of memory or of core memory may move. -/
def StoreKey (k : Nat) : Prop := AccessKey k ∨ (0x2250 * 256 ≤ k ∧ k < 0x2264 * 256)

theorem storeKey_core {n sub : Nat} (hn : n < 20) (hs : sub < 256) : StoreKey (odKey (0x2250 + n) sub) := by
  unfold StoreKey odKey; omega

theorem storeKey_units {i sub : Nat} (hi : 0x3000 ≤ i) : ¬ StoreKey (odKey i sub) := by
  unfold StoreKey AccessKey odKey; omega

/-- A step of memory, core memory or the CP's tables: the other units, the settings and the other counters stay. -/
structure StoreStep (d e : Dev) : Prop where
  units : SameUnits d e
  sets : e.od.sets = d.od.sets
  doms : e.od.doms = d.od.doms
  cnts : ∀ k, ¬ StoreKey k → sget (fun _ => 0) e.od.cnts k = sget (fun _ => 0) d.od.cnts k

namespace StoreStep

variable {d e f : Dev}

theorem of_od (h : SameUnits d e) (ho : e.od = d.od) : StoreStep d e := ⟨h, by rw [ho], by rw [ho], fun _ _ => by rw [ho]⟩

theorem refl (d : Dev) : StoreStep d d := of_od (.refl d) rfl

theorem trans (h : StoreStep d e) (k : StoreStep e f) : StoreStep d f :=
  ⟨h.units.trans k.units, k.sets.trans h.sets, k.doms.trans h.doms, fun i hi => (k.cnts i hi).trans (h.cnts i hi)⟩

theorem ite {p : Prop} [Decidable p] (he : StoreStep d e) (hf : StoreStep d f) : StoreStep d (if p then e else f) := by
  split
  · exact he
  · exact hf

theorem foldl {α : Type} {g : Dev → α → Dev} (l : List α) (h : ∀ d : Dev, ∀ x ∈ l, StoreStep d (g d x)) (d : Dev) : StoreStep d (l.foldl g d) := by
  induction l generalizing d with
  | nil => exact refl d
  | cons x xs ih => exact (h d x (by simp)).trans (ih (fun d y hy => h d y (by simp [hy])) _)

theorem cnt (h : StoreStep d e) {i sub : Nat} (hk : ¬ StoreKey (odKey i sub)) : cnt e i sub = cnt d i sub := h.cnts _ hk

theorem setting (h : StoreStep d e) (i sub : Nat) : setting e i sub = setting d i sub := by rw [Machine.setting, Machine.setting, h.sets]

theorem of_leaves (h : SameUnits d e) (k : Leaves AccessKey d e) : StoreStep d e := ⟨h, k.sets, k.doms, fun i hi => k.cnts i fun ha => hi (.inl ha)⟩

theorem updMem (d : Dev) (g : Mem → Mem) : StoreStep d (updMem d g) := of_od (.updMem ..) rfl
theorem updCore (d : Dev) (n : Nat) (g : Core → Core) : StoreStep d (updCore d n g) := of_od (.updCore ..) rfl
theorem updWc (d : Dev) (w : Nat) (g : Wc → Wc) : StoreStep d (updWc d w g) := of_od (.updWc ..) rfl
theorem postEvent (d : Dev) (a b c x : Nat) : StoreStep d (postEvent d a b c x) := of_od (.postEvent ..) (postEvent_od ..)
theorem postEventWc (d : Dev) (a b c w x : Nat) : StoreStep d (postEventWc d a b c w x) := of_od (.postEventWc ..) (postRec_od ..)
theorem latch (d : Dev) (k : Nat) : StoreStep d (latch d k) := of_od (by constructor <;> rfl) rfl
theorem memRead (d : Dev) (g : Option Nat) (s a n : Nat) : StoreStep d (memRead d g s a n).1 := of_leaves (.memRead ..) (leaves_memRead ..)
theorem memWrite (d : Dev) (g : Option Nat) (s a : Nat) (bs : List Byte) (p : Bool) : StoreStep d (memWrite d g s a bs p) :=
  of_leaves (.memWrite ..) (leaves_memWrite ..)

theorem bumpCore (d : Dev) {n sub : Nat} (w k : Nat) (hn : n < 20) (hs : sub < 256) : StoreStep d (bump d (0x2250 + n) sub w k) :=
  ⟨.bump .., rfl, rfl, fun _ hi => sget_sset_ne _ _ _ fun he => hi (he ▸ storeKey_core hn hs)⟩

theorem scrubCancel (d : Dev) (n mem w : Nat) : StoreStep d (scrubCancel d n mem w) := ite (updCore ..) (refl d)

theorem wordWritten (d : Dev) (n mem w : Nat) : StoreStep d (wordWritten d n mem w) := (updMem d _).trans (scrubCancel ..)

theorem coreCorrected (d : Dev) {n mem : Nat} (w : Nat) (hn : n < 20) (hm : mem < 4) : StoreStep d (coreCorrected d n mem w) := by
  unfold Machine.coreCorrected
  dsimp only
  split
  · exact .trans (bumpCore _ _ _ hn (by omega)) (.trans (updCore ..) (.trans (latch ..) (.trans (postEvent ..) (updCore ..))))
  · exact .trans (bumpCore _ _ _ hn (by omega)) (updCore ..)

theorem scrubEnter (d : Dev) {n : Nat} (mem w : Nat) (hn : n < 20) : StoreStep d (scrubEnter d n mem w) :=
  ite (refl d) (ite (updCore ..) (bumpCore _ _ _ hn (by decide)))

theorem coreUncorrectable (d : Dev) {n : Nat} (mem w : Nat) (hn : n < 20) : StoreStep d (coreUncorrectable d n mem w) := by
  unfold Machine.coreUncorrectable
  dsimp only
  exact .trans (bumpCore _ _ _ hn (by decide)) (.trans (updMem ..) (.trans (ite (updCore ..) (updMem ..)) (postEvent ..)))

theorem coreMemRead (d : Dev) {n mem : Nat} (w u : Nat) (hn : n < 20) (hm : mem < 4) : StoreStep d (coreMemRead d n mem w u) := by
  unfold Machine.coreMemRead
  dsimp only
  split
  · exact updMem d _
  · exact .trans (updMem d _) (.trans (coreCorrected _ _ hn hm) (scrubEnter _ _ _ hn))
  · exact .trans (updMem d _) (coreUncorrectable _ _ _ hn)

theorem dsPut (d : Dev) {n : Nat} (off : Nat) (bs : List Byte) (p : Bool) (hn : n < 20) : StoreStep d (dsPut d n off bs p) := by
  unfold Machine.dsPut
  dsimp only
  exact .trans (ite (refl d) (coreMemRead d _ _ hn (by decide))) (.trans (updMem ..) (.trans (wordWritten ..) (updMem ..)))

theorem setLen (d : Dev) (w r : Nat) (v : W32) : StoreStep d (setLen d w r v) := by
  unfold Machine.setLen
  dsimp only
  refine .trans (memWrite d _ _ _ _ _) (foldl _ (fun e n hn => ?_) _)
  split
  · exact dsPut e _ _ _ (by have := List.mem_range.mp hn; omega)
  · exact refl e

theorem setSignal (d : Dev) (w i : Nat) (v : W32) : StoreStep d (setSignal d w i v) := (updWc d w _).trans (memWrite ..)

theorem addSignal (d : Dev) (w i : Nat) (v : W32) : StoreStep d (addSignal d w i v) := setSignal ..

end StoreStep

end Sys2Proof.Proofs


/-! ## Frames open and close, lines and embedded data (O48) -/

namespace Sys2Proof.Proofs
open Sys2Proof.Machine

/-! ### Closing a frame -/

theorem closeFrame_of_none {d : Dev} {n : Nat} (h : openFrame d n = none) (noFe : Bool) : closeFrame d n noFe = d := by
  rw [closeFrame, h]

theorem endDropped_of_kept {d : Dev} {n : Nat} (h : (ic d n).dropping = false) : endDropped d n = d := if_neg (by simp [h])

/-- The lengths of a closed frame: of the image context's counters only LEN_SKIPPED may move. -/
theorem closeLengths_keeps (d : Dev) (n lines : Nat) : (closeLengths d n lines).ics = d.ics
    ∧ ∀ sub < 256, sub ≠ 0x13 → cnt (closeLengths d n lines) (icX n + 1) sub = cnt d (icX n + 1) sub := by
  have hstore {e : Dev} (h : StoreStep d e) : e.ics = d.ics ∧ ∀ sub < 256, sub ≠ 0x13 → cnt e (icX n + 1) sub = cnt d (icX n + 1) sub :=
    ⟨h.units.ics, fun sub _ _ => h.cnt (storeKey_units (by unfold icX; omega))⟩
  unfold closeLengths
  dsimp only
  split
  · exact ⟨rfl, fun _ _ _ => rfl⟩
  · split
    · exact hstore (.trans (.ite (.setLen ..) (.refl d)) (.ite (.addSignal ..) (.refl _)))
    · exact ⟨rfl, fun sub hs hne => cnt_bump_ne _ _ _ _ _ (by unfold odKey; omega)⟩

/-- The frame as its close leaves it. -/
def closedFrame (d : Dev) (n : Nat) (f : IcFrame) (noFe : Bool) : IcFrame :=
  { f with opened := false, noFe := noFe, short := decide (f.lines < icHeight d n), duration := (d.clk.ns - f.startNs) % 2 ^ 32 }

/-- A counter of an image context moved when a condition holds. -/
def bumpIf (b : Bool) (d : Dev) (i sub : Nat) : Dev := if b then bump d i sub 4 1 else d

theorem bumpIf_ics (b : Bool) (d : Dev) (i sub : Nat) : (bumpIf b d i sub).ics = d.ics := by cases b <;> rfl

theorem cnt_bumpIf (b : Bool) (d : Dev) (i sub : Nat) :
    cnt (bumpIf b d i sub) i sub = if b then (cnt d i sub + 1) % 2 ^ 32 else cnt d i sub := by
  cases b
  · rfl
  · exact cnt_bump ..

theorem cnt_bumpIf_ne (b : Bool) (d : Dev) {i sub sub' : Nat} (h : odKey i sub' ≠ odKey i sub) : cnt (bumpIf b d i sub) i sub' = cnt d i sub' := by
  cases b
  · rfl
  · exact cnt_bump_ne _ _ _ _ _ h

/-- The close counted: the frame, and as short, long or incomplete. -/
def closeCounted (d : Dev) (n : Nat) (g : IcFrame) : Dev :=
  bumpIf g.incomplete (bumpIf g.long (bumpIf g.short (bump d (icX n + 1) 0x0D 4 1) (icX n + 1) 0x0E) (icX n + 1) 0x0F) (icX n + 1) 0x10

theorem closeCounted_ics (d : Dev) (n : Nat) (g : IcFrame) : (closeCounted d n g).ics = d.ics := by
  unfold closeCounted
  rw [bumpIf_ics, bumpIf_ics, bumpIf_ics]
  rfl

theorem cnt_closeCounted (d : Dev) (n : Nat) (g : IcFrame) :
    cnt (closeCounted d n g) (icX n + 1) 0x0D = (cnt d (icX n + 1) 0x0D + 1) % 2 ^ 32
    ∧ cnt (closeCounted d n g) (icX n + 1) 0x0E = (if g.short then (cnt d (icX n + 1) 0x0E + 1) % 2 ^ 32 else cnt d (icX n + 1) 0x0E)
    ∧ cnt (closeCounted d n g) (icX n + 1) 0x0F = (if g.long then (cnt d (icX n + 1) 0x0F + 1) % 2 ^ 32 else cnt d (icX n + 1) 0x0F)
    ∧ cnt (closeCounted d n g) (icX n + 1) 0x10 = (if g.incomplete then (cnt d (icX n + 1) 0x10 + 1) % 2 ^ 32 else cnt d (icX n + 1) 0x10) := by
  have hne {s s' : Nat} (h : s ≠ s') : odKey (icX n + 1) s ≠ odKey (icX n + 1) s' := by unfold odKey; omega
  unfold closeCounted
  refine ⟨?_, ?_, ?_, ?_⟩
  · rw [cnt_bumpIf_ne _ _ (hne (by decide)), cnt_bumpIf_ne _ _ (hne (by decide)), cnt_bumpIf_ne _ _ (hne (by decide)), cnt_bump]
    rfl
  · rw [cnt_bumpIf_ne _ _ (hne (by decide)), cnt_bumpIf_ne _ _ (hne (by decide)), cnt_bumpIf, cnt_bump_ne _ _ _ _ _ (hne (by decide))]
  · rw [cnt_bumpIf_ne _ _ (hne (by decide)), cnt_bumpIf, cnt_bumpIf_ne _ _ (hne (by decide)), cnt_bump_ne _ _ _ _ _ (hne (by decide))]
  · rw [cnt_bumpIf, cnt_bumpIf_ne _ _ (hne (by decide)), cnt_bumpIf_ne _ _ (hne (by decide)), cnt_bump_ne _ _ _ _ _ (hne (by decide))]

/-- The frame list and the close time of a close. -/
def frameClosed (d : Dev) (n : Nat) (f : IcFrame) (noFe : Bool) : Dev :=
  updIc (updFrame d n f.no fun _ => closedFrame d n f noFe) n fun c => { c with closeNs := d.clk.ns }

theorem closeFrame_of_some {d : Dev} {n : Nat} {f : IcFrame} (h : openFrame d n = some f) (noFe : Bool) :
    (closeFrame d n noFe).ics = (frameClosed d n f noFe).ics
    ∧ ∀ sub < 256, sub ≠ 0x13 →
        cnt (closeFrame d n noFe) (icX n + 1) sub = cnt (closeCounted (frameClosed d n f noFe) n (closedFrame d n f noFe)) (icX n + 1) sub := by
  have hc : closeFrame d n noFe =
      (let g := closedFrame d n f noFe
       let e := closeLengths (setDom (closeCounted (frameClosed d n f noFe) n g) (icX n + 1) 0x15 (stampBytes (icPort d n) n g)) n g.lines
       if g.short || g.long || g.incomplete || g.noFe then
        postOnce e (onceAnomaly (icPort d n)) 0x0A01 0 (srcCrx (icPort d n))
          (pack [(0, 32, g.no), (32, 16, g.lines), (48, 6, stampOf (icPort d n) n g / 2 ^ 84), (56, 4, n)])
       else e) := by
    rw [closeFrame, h]
    rfl
  rw [hc]
  dsimp only
  obtain ⟨hics, hcnt⟩ := closeLengths_keeps
    (setDom (closeCounted (frameClosed d n f noFe) n (closedFrame d n f noFe)) (icX n + 1) 0x15 (stampBytes (icPort d n) n (closedFrame d n f noFe)))
    n (closedFrame d n f noFe).lines
  rw [setDom_ics, closeCounted_ics] at hics
  constructor
  · split
    · rw [postOnce_ics, hics]
    · exact hics
  · intro sub hs hne
    split
    · rw [cnt_postOnce, hcnt sub hs hne, cnt_setDom]
    · rw [hcnt sub hs hne, cnt_setDom]

theorem ic_of_ics {d e : Dev} (h : e.ics = d.ics) (n : Nat) : ic e n = ic d n := by rw [ic, ic, h]

theorem openFrame_of_ic {d e : Dev} {n : Nat} (h : ic e n = ic d n) : openFrame e n = openFrame d n := by rw [openFrame, openFrame, h]

theorem ic_frameClosed (d : Dev) (n : Nat) (f : IcFrame) (noFe : Bool) : ic (frameClosed d n f noFe) n =
    { ic d n with frames := (ic d n).frames.map fun x => if x.no = f.no then closedFrame d n f noFe else x, closeNs := d.clk.ns } := by
  unfold frameClosed updFrame
  rw [ic_updIc, ic_updIc]

/-- Where the open frame is the only open one, none is open after its close. -/
theorem openFrame_frameClosed {d : Dev} {n : Nat} {f : IcFrame} (hone : ∀ g ∈ (ic d n).frames, g.opened = true → g = f) (noFe : Bool) :
    openFrame (frameClosed d n f noFe) n = none := by
  rw [openFrame, ic_frameClosed, List.find?_eq_none]
  intro x hx
  obtain ⟨y, hy, rfl⟩ := List.mem_map.mp hx
  split
  · simp [closedFrame]
  · rename_i hno
    intro ho
    exact hno (by rw [hone y hy ho])

/-- A close is stamped with its time and counted, and leaves no frame open. -/
theorem closeFrame_spec {d : Dev} {n : Nat} {f : IcFrame} (h : openFrame d n = some f)
    (hone : ∀ g ∈ (ic d n).frames, g.opened = true → g = f) (noFe : Bool) :
    openFrame (closeFrame d n noFe) n = none ∧ (ic (closeFrame d n noFe) n).closeNs = d.clk.ns
    ∧ (ic (closeFrame d n noFe) n).frames.length = (ic d n).frames.length
    ∧ cnt (closeFrame d n noFe) (icX n + 1) 0x0D = (cnt d (icX n + 1) 0x0D + 1) % 2 ^ 32
    ∧ cnt (closeFrame d n noFe) (icX n + 1) 0x0E =
        (if f.lines < icHeight d n then (cnt d (icX n + 1) 0x0E + 1) % 2 ^ 32 else cnt d (icX n + 1) 0x0E)
    ∧ cnt (closeFrame d n noFe) (icX n + 1) 0x0F = (if f.long then (cnt d (icX n + 1) 0x0F + 1) % 2 ^ 32 else cnt d (icX n + 1) 0x0F)
    ∧ cnt (closeFrame d n noFe) (icX n + 1) 0x10 = (if f.incomplete then (cnt d (icX n + 1) 0x10 + 1) % 2 ^ 32 else cnt d (icX n + 1) 0x10) := by
  obtain ⟨hics, hcnt⟩ := closeFrame_of_some h noFe
  have hic := ic_of_ics hics n
  obtain ⟨h0, h1, h2, h3⟩ := cnt_closeCounted (frameClosed d n f noFe) n (closedFrame d n f noFe)
  have hkeep (sub : Nat) : cnt (frameClosed d n f noFe) (icX n + 1) sub = cnt d (icX n + 1) sub := rfl
  rw [hkeep] at h0 h1 h2 h3
  refine ⟨(openFrame_of_ic hic).trans (openFrame_frameClosed hone noFe), ?_, ?_, ?_, ?_, ?_, ?_⟩
  · rw [hic, ic_frameClosed]
  · rw [hic, ic_frameClosed, List.length_map]
  · rw [hcnt _ (by decide) (by decide), h0]
  · rw [hcnt _ (by decide) (by decide), h1]
    simp only [closedFrame, decide_eq_true_eq]
  · rw [hcnt _ (by decide) (by decide), h2]
    rfl
  · rw [hcnt _ (by decide) (by decide), h3]
    rfl

/-! ### Opening a frame -/

/-- What an image context shows of its numbering: FRAME_COUNT, the last CSI number, whether a frame is dropped, and its frames' numbers and which are open. -/
def icView (d : Dev) (n : Nat) : Nat × Nat × Bool × List (Nat × Bool) :=
  ((ic d n).count, (ic d n).prevCsi, (ic d n).dropping, (ic d n).frames.map fun f => (f.no, f.opened))

/-- A step that keeps the numbering of context n and the counters of sub-indices 4 and 5. -/
structure NumberStep (n : Nat) (d e : Dev) : Prop where
  view : icView e n = icView d n
  cnts : ∀ i, ∀ sub, sub = 4 ∨ sub = 5 → cnt e i sub = cnt d i sub

namespace NumberStep

variable {n : Nat} {d e f : Dev}

theorem refl (d : Dev) : NumberStep n d d := ⟨rfl, fun _ _ _ => rfl⟩

theorem trans (h : NumberStep n d e) (k : NumberStep n e f) : NumberStep n d f :=
  ⟨k.view.trans h.view, fun i sub hs => (k.cnts i sub hs).trans (h.cnts i sub hs)⟩

theorem ite {p : Prop} [Decidable p] (he : NumberStep n d e) (hf : NumberStep n d f) : NumberStep n d (if p then e else f) := by
  split
  · exact he
  · exact hf

theorem foldl {α : Type} {g : Dev → α → Dev} (h : ∀ d x, NumberStep n d (g d x)) (l : List α) (d : Dev) : NumberStep n d (l.foldl g d) := by
  induction l generalizing d with
  | nil => exact refl d
  | cons x xs ih => exact (h d x).trans (ih _)

theorem updIc (d : Dev) {g : Ic → Ic} (h : (g (ic d n)).count = (ic d n).count ∧ (g (ic d n)).prevCsi = (ic d n).prevCsi
    ∧ (g (ic d n)).dropping = (ic d n).dropping
    ∧ ((g (ic d n)).frames.map fun f => (f.no, f.opened)) = (ic d n).frames.map fun f => (f.no, f.opened)) : NumberStep n d (updIc d n g) := by
  obtain ⟨h1, h2, h3, h4⟩ := h
  refine ⟨?_, fun _ _ _ => rfl⟩
  rw [icView, icView, ic_updIc, h1, h2, h3, h4]

theorem updFrame (d : Dev) (no : Nat) {g : IcFrame → IcFrame} (h : ∀ f, (g f).no = f.no ∧ (g f).opened = f.opened) :
    NumberStep n d (updFrame d n no g) := by
  refine updIc d ⟨rfl, rfl, rfl, ?_⟩
  rw [List.map_map]
  refine List.map_congr_left fun f _ => ?_
  dsimp only [Function.comp]
  split
  · rw [(h f).1, (h f).2]
  · rfl

theorem setCnt (d : Dev) (i v : Nat) {sub : Nat} (hs : sub < 256 ∧ sub ≠ 4 ∧ sub ≠ 5) : NumberStep n d (setCnt d i sub v) := by
  refine ⟨rfl, fun j s hj => cnt_setCnt_ne _ _ _ _ ?_⟩
  unfold odKey; omega

theorem bump (d : Dev) (i w k : Nat) {sub : Nat} (hs : sub < 256 ∧ sub ≠ 4 ∧ sub ≠ 5) : NumberStep n d (bump d i sub w k) := setCnt d i _ hs

theorem postOnce (d : Dev) (k a b c x : Nat) : NumberStep n d (postOnce d k a b c x) :=
  ⟨by rw [icView, icView, ic_postOnce], fun _ _ _ => cnt_postOnce ..⟩

theorem updCam (d : Dev) (p : Nat) (g : Cam → Cam) : NumberStep n d (updCam d p g) := ⟨rfl, fun _ _ _ => rfl⟩

theorem setChan (d : Dev) (c : Nat) (v : Chan) : NumberStep n d (setChan d c v) := ⟨rfl, fun _ _ _ => rfl⟩

theorem noteBlocks (d : Dev) (m : Nat) : NumberStep n d (noteBlocks d m) := (setCnt d _ _ (by decide)).trans (setCnt _ _ _ (by decide))

theorem freeLatched (d : Dev) : NumberStep n d (freeLatched d n) := (updIc d ⟨rfl, rfl, rfl, rfl⟩).trans (noteBlocks ..)

theorem latchSet (d : Dev) (no : Nat) : NumberStep n d (latchSet d n no) := by
  have hcrop (e : Dev) (x : Nat × Bool) : NumberStep n e (refuseCrop e n no x.1) := (bump e _ _ _ (by decide)).trans (postOnce ..)
  have hgrid (e : Dev) : NumberStep n e (refuseGrid e n no) := (bump e _ _ _ (by decide)).trans (postOnce ..)
  unfold Machine.latchSet
  generalize makeLatched d n no = l
  dsimp only
  exact .trans (updIc d ⟨rfl, rfl, rfl, rfl⟩) (.trans (bump _ _ _ _ (by decide))
    (.trans (foldl hcrop _ _) (.trans (ite (hgrid _) (refl _)) (noteBlocks ..))))

theorem openBackEnd (d : Dev) (wc : Nat) (epoch : BitVec 8) : NumberStep n d (openBackEnd d n wc epoch) := by
  unfold Machine.openBackEnd
  dsimp only
  exact ite (refl d) ((updIc d ⟨rfl, rfl, rfl, rfl⟩).trans (noteBlocks ..))

theorem choosePath (d : Dev) (no : Nat) : NumberStep n d (choosePath d n no) := by
  unfold Machine.choosePath
  split
  · exact .trans (updIc d (g := fun c => { c with path := true }) ⟨rfl, rfl, rfl, rfl⟩)
      (.trans (updFrame _ no (g := fun f => { f with neural := true }) fun _ => ⟨rfl, rfl⟩) (.trans (bump _ _ _ _ (by decide)) (openBackEnd ..)))
  · exact .trans (updIc d ⟨rfl, rfl, rfl, rfl⟩) (bump _ _ _ _ (by decide))

theorem startChannels (d : Dev) : NumberStep n d (startChannels d n) := foldl (fun e _ => ite (setChan ..) (refl e)) _ d

theorem goRunning (d : Dev) (k : Nat) : NumberStep n d (goRunning d k) := (setCnt d _ _ (by decide)).trans (bump _ _ _ _ (by decide))

end NumberStep

/-- The number of the open frame, as the view shows it. -/
theorem openNo_of_view (d : Dev) (n : Nat) : (openFrame d n).map (·.no) = ((icView d n).2.2.2.find? (·.2)).map (·.1) := by
  rw [openFrame, icView, List.find?_map]
  cases h : (ic d n).frames.find? fun f => f.opened with
  | none =>
    rw [show ((fun x : Nat × Bool => x.2) ∘ fun f : IcFrame => (f.no, f.opened)) = fun f => f.opened from rfl, h]
    rfl
  | some f =>
    rw [show ((fun x : Nat × Bool => x.2) ∘ fun f : IcFrame => (f.no, f.opened)) = fun f => f.opened from rfl, h]
    rfl

/-- The frame counted and its context running. -/
def runningCounted (d : Dev) (n : Nat) : Dev :=
  if actual (bump d (icX n + 0x3E) 4 4 1) (icFn n) = 1 then goRunning (bump d (icX n + 0x3E) 4 4 1) (icFn n) else bump d (icX n + 0x3E) 4 4 1

/-- The frame that opens. -/
def newFrame (e : Dev) (n no csi : Nat) (gap : Bool) (mark : LedgerMark) : IcFrame :=
  { no := no, breath := e.breath.number, offset := e.breath.ns, startNs := e.clk.ns, csi := csi, gap := gap, mark := mark
    incomplete := !((ic e n).hold || (ic e n).odHold) && !canGrant e n 18
    latch := if ((ic e n).hold || (ic e n).odHold) || !canGrant e n 18 then ((ic e n).latched.getLast?).map (·.frame) else some no
    embStamp := setting e (icX n + 1) 9 == 1 }

theorem runningCounted_step (d : Dev) (n : Nat) : NumberStep n (bump d (icX n + 0x3E) 4 4 1) (runningCounted d n) := by
  unfold runningCounted
  exact .ite (.goRunning ..) (.refl _)

/-- The frame joins the context's frames, and its set is latched where it may be. -/
def frameLatched (d : Dev) (n no csi : Nat) (gap : Bool) (mark : LedgerMark) : Dev :=
  let e := runningCounted d n
  let a := updIc e n fun c => { c with frames := c.frames ++ [newFrame e n no csi gap mark] }
  if ((ic e n).hold || (ic e n).odHold) || !canGrant e n 18 then a else latchSet a n no

/-- The statistics taps the frame runs. -/
def frameTapped (d : Dev) (n no csi : Nat) (gap : Bool) (mark : LedgerMark) : Dev :=
  let a := frameLatched d n no csi gap mark
  let taps := tapsOf a n (newFrame (runningCounted d n) n no csi gap mark)
  updFrame a n no fun f => { f with statA := taps.1, statB := taps.2 }

theorem openIcFrame_eq (d : Dev) (n no csi : Nat) (gap : Bool) (mark : LedgerMark) :
    openIcFrame d n no csi gap mark = freeLatched (startChannels (choosePath (frameTapped d n no csi gap mark) n no) n) n := rfl

theorem frameTapped_step (d : Dev) (n no csi : Nat) (gap : Bool) (mark : LedgerMark) :
    NumberStep n (updIc (runningCounted d n) n fun c => { c with frames := c.frames ++ [newFrame (runningCounted d n) n no csi gap mark] })
      (frameTapped d n no csi gap mark) := by
  have hl : NumberStep n (updIc (runningCounted d n) n fun c => { c with frames := c.frames ++ [newFrame (runningCounted d n) n no csi gap mark] })
      (frameLatched d n no csi gap mark) := by
    unfold frameLatched
    exact .ite (.refl _) (.latchSet ..)
  unfold frameTapped
  exact hl.trans (.updFrame _ no fun _ => ⟨rfl, rfl⟩)

/-- A frame is counted, its context runs, the frame joins the context's frames, and the rest leaves the numbering. -/
theorem openIcFrame_steps (d : Dev) (n no csi : Nat) (gap : Bool) (mark : LedgerMark) :
    NumberStep n (updIc (runningCounted d n) n fun c => { c with frames := c.frames ++ [newFrame (runningCounted d n) n no csi gap mark] })
      (openIcFrame d n no csi gap mark) := by
  rw [openIcFrame_eq]
  exact (frameTapped_step ..).trans ((NumberStep.choosePath ..).trans ((NumberStep.startChannels _).trans (.freeLatched _)))

theorem openIcFrame_spec {d : Dev} {n : Nat} (h : openFrame d n = none) (no csi : Nat) (gap : Bool) (mark : LedgerMark) :
    (ic (openIcFrame d n no csi gap mark) n).count = (ic d n).count ∧ (ic (openIcFrame d n no csi gap mark) n).prevCsi = (ic d n).prevCsi
    ∧ (openFrame (openIcFrame d n no csi gap mark) n).map (·.no) = some no
    ∧ cnt (openIcFrame d n no csi gap mark) (icX n + 0x3E) 4 = (cnt d (icX n + 0x3E) 4 + 1) % 2 ^ 32 := by
  have hs := openIcFrame_steps d n no csi gap mark
  have hr := runningCounted_step d n
  have hview := hs.view
  have hrv := hr.view
  rw [show icView (bump d (icX n + 0x3E) 4 4 1) n = icView d n from rfl] at hrv
  simp only [icView, ic_updIc, Prod.mk.injEq, List.map_append] at hview hrv
  obtain ⟨hc, hp, _, hf⟩ := hview
  obtain ⟨hrc, hrp, _, hrf⟩ := hrv
  refine ⟨hc.trans hrc, hp.trans hrp, ?_, ?_⟩
  · have hnone : ((ic d n).frames.map fun f => (f.no, f.opened)).find? (·.2) = none := by
      have hv := openNo_of_view d n
      rw [h] at hv
      simpa [icView] using hv.symm
    rw [openNo_of_view, icView]
    dsimp only
    rw [hf, hrf, List.find?_append, hnone]
    rfl
  · rw [hs.cnts _ _ (.inl rfl), cnt_updIc, hr.cnts _ _ (.inl rfl), cnt_bump]
    rfl

/-! ### The frame start -/

/-- The context numbered and its port's forced entries settled, before the governor decides. -/
def numbered (csi : Nat) (d : Dev) (n : Nat) : Dev :=
  (List.range 4).foldl (fun e q => if ledgerIc e q = n then updCam e q (fixForce (ic d n).count) else e)
    (updIc d n fun c => { c with count := (ic d n).count + 1, prevCsi := csi })

theorem numbered_fields (csi : Nat) (d : Dev) (n : Nat) :
    (numbered csi d n).ics = (updIc d n fun c => { c with count := (ic d n).count + 1, prevCsi := csi }).ics
    ∧ (numbered csi d n).od = d.od := by
  have h := foldl_keeps (fun e : Dev => (e.ics, e.od))
    (f := fun e q => if ledgerIc e q = n then updCam e q (fixForce (ic d n).count) else e) (List.range 4)
    (fun a q _ => by split <;> rfl) (updIc d n fun c => { c with count := (ic d n).count + 1, prevCsi := csi })
  simp only [Prod.mk.injEq] at h
  exact h

theorem governorDrops_numbered (csi : Nat) (d : Dev) (n : Nat) : governorDrops (numbered csi d n) n = governorDrops d n := by
  obtain ⟨hics, hod⟩ := numbered_fields csi d n
  have hic (m : Nat) : (ic (numbered csi d n) m).frames = (ic d m).frames ∧ (ic (numbered csi d n) m).latched = (ic d m).latched
      ∧ (ic (numbered csi d n) m).beWin = (ic d m).beWin := by
    rw [ic_of_ics hics]
    by_cases hm : m = n
    · subst hm
      rw [ic_updIc]
      exact ⟨rfl, rfl, rfl⟩
    · rw [ic_updIc_ne _ _ hm]
      exact ⟨rfl, rfl, rfl⟩
  have hset (i sub : Nat) : setting (numbered csi d n) i sub = setting d i sub := by rw [setting, setting, hod]
  have hused : usedBlocks (numbered csi d n) = usedBlocks d := by
    have hm (m : Nat) : heldBlocks (numbered csi d n) m + beBlocks (numbered csi d n) m = heldBlocks d m + beBlocks d m := by
      obtain ⟨h1, h2, h3⟩ := hic m
      rw [heldBlocks, heldBlocks, beBlocks, beBlocks, lineBlocks, lineBlocks, icWidth, icWidth, hset, h1, h2, h3]
    rw [usedBlocks, usedBlocks, funext hm]
  rw [governorDrops, governorDrops, hused, (hic n).1, hset, hset, hset]

theorem dropFrame_spec (d : Dev) (n : Nat) : (dropFrame d n).ics = (updIc d n fun c => { c with dropping := true }).ics
    ∧ cnt (dropFrame d n) (icX n + 0x3E) 5 = (cnt d (icX n + 0x3E) 5 + 1) % 2 ^ 32 := by
  unfold dropFrame
  dsimp only
  refine ⟨?_, ?_⟩
  · rw [postOnce_ics]
    rfl
  · rw [cnt_postOnce]
    exact cnt_bump ..

section
variable {d : Dev} {n : Nat} (csi : Nat) (marks : Nat → LedgerMark) (h0 : openFrame d n = none) (hd : (ic d n).dropping = false)
include h0 hd

theorem numberFrame_settled : numberFrame csi marks d n =
    if !fnUp d (icFn n) || actual d (camFn (icPort d n)) != 2 then d
    else if governorDrops (numbered csi d n) n then dropFrame (numbered csi d n) n
    else openIcFrame (numbered csi d n) n (ic d n).count csi (gapOf csi (ic d n).prevCsi)
      (if ledgerIc (numbered csi d n) (icPort (updIc d n fun c => { c with count := (ic d n).count + 1, prevCsi := csi }) n) = n then
        (cam (numbered csi d n) (icPort (updIc d n fun c => { c with count := (ic d n).count + 1, prevCsi := csi }) n)).force
      else marks (icPort (updIc d n fun c => { c with count := (ic d n).count + 1, prevCsi := csi }) n)) := by
  rw [numberFrame, closeFrame_of_none h0, endDropped_of_kept hd]
  rfl

theorem numberFrame_down (h : fnUp d (icFn n) = false ∨ actual d (camFn (icPort d n)) ≠ 2) : numberFrame csi marks d n = d := by
  rw [numberFrame_settled csi marks h0 hd]
  rcases h with h | h <;> simp [h]

/-- The frame a running context numbers is dropped or opened as the governor decides. -/
theorem numberFrame_up (h : fnUp d (icFn n) = true) (hp : actual d (camFn (icPort d n)) = 2) :
    (ic (numberFrame csi marks d n) n).count = (ic d n).count + 1 ∧ (ic (numberFrame csi marks d n) n).prevCsi = csi
    ∧ (governorDrops d n = true → openFrame (numberFrame csi marks d n) n = none ∧ (ic (numberFrame csi marks d n) n).dropping = true
        ∧ cnt (numberFrame csi marks d n) (icX n + 0x3E) 5 = (cnt d (icX n + 0x3E) 5 + 1) % 2 ^ 32)
    ∧ (governorDrops d n = false → (openFrame (numberFrame csi marks d n) n).map (·.no) = some (ic d n).count
        ∧ cnt (numberFrame csi marks d n) (icX n + 0x3E) 4 = (cnt d (icX n + 0x3E) 4 + 1) % 2 ^ 32) := by
  rw [numberFrame_settled csi marks h0 hd, if_neg (by simp [h, hp]), governorDrops_numbered]
  have hic : ic (numbered csi d n) n = { ic d n with count := (ic d n).count + 1, prevCsi := csi } := by
    rw [ic_of_ics (numbered_fields csi d n).1, ic_updIc]
  have hcnt (i sub : Nat) : cnt (numbered csi d n) i sub = cnt d i sub := by rw [cnt, cnt, (numbered_fields csi d n).2]
  have hopen : openFrame (numbered csi d n) n = none := by
    rw [openFrame, hic]
    exact h0
  cases hg : governorDrops d n with
  | true =>
    obtain ⟨hics, hc⟩ := dropFrame_spec (numbered csi d n) n
    have hic' : ic (dropFrame (numbered csi d n) n) n = { ic d n with count := (ic d n).count + 1, prevCsi := csi, dropping := true } := by
      rw [ic_of_ics hics, ic_updIc, hic]
    rw [if_pos rfl, hic', hc, hcnt]
    refine ⟨rfl, rfl, fun _ => ⟨?_, rfl, rfl⟩, fun h => nomatch h⟩
    rw [openFrame, hic']
    exact h0
  | false =>
    rw [if_neg (by decide)]
    obtain ⟨h1, h2, h3, h4⟩ := openIcFrame_spec hopen (ic d n).count csi (gapOf csi (ic d n).prevCsi)
      (if ledgerIc (numbered csi d n) (icPort (updIc d n fun c => { c with count := (ic d n).count + 1, prevCsi := csi }) n) = n then
        (cam (numbered csi d n) (icPort (updIc d n fun c => { c with count := (ic d n).count + 1, prevCsi := csi }) n)).force
      else marks (icPort (updIc d n fun c => { c with count := (ic d n).count + 1, prevCsi := csi }) n))
    rw [hic] at h1 h2
    rw [hcnt] at h4
    exact ⟨h1, h2, fun h => (nomatch h), fun _ => ⟨h3, h4⟩⟩

end

theorem framesOpenAndCloseClaim : Claim.FramesOpenAndClose := by
  intro s h
  have hx (c : Instr) (f : Dev → Dev) (hc : exec c s = nextDev s f) : exec c s = .next (onDev s f) := hc.trans (nextDev_awake h)
  refine ⟨fun p hp => ?_, fun p hp => ?_, fun p vc word csi hp => ?_, fun p vc word csi hp => ?_, fun n => ?_,
    fun n noFe hn => closeFrame_of_none hn noFe, fun n f noFe hf hone => closeFrame_spec hf hone noFe,
    fun n csi marks _ h0 hd => ⟨numberFrame_down csi marks h0 hd, numberFrame_up csi marks h0 hd⟩⟩
  · rw [hx (.frameStartPacket p) (fun d => frameStart d p) rfl, onDev_eq_self]
    rw [frameStart, hp]
  · rw [hx (.frameEndPacket p) (fun d => frameEnd d p) rfl, onDev_eq_self]
    rw [frameEnd, hp]
  · refine ⟨fun hr => ?_, fun hr => ?_⟩ <;> rw [hx (.frameStartPacket p) (fun d => frameStart d p) rfl, onDev, frameStart, hp]
    · simp only [hr, List.isEmpty_nil, if_true]
    · simp only [List.isEmpty_iff, hr, if_false]
  · refine ⟨fun hr => ?_, fun hr => ?_⟩ <;> rw [hx (.frameEndPacket p) (fun d => frameEnd d p) rfl, onDev, frameEnd, hp]
    · simp only [hr, List.isEmpty_nil, if_true]
    · simp only [List.isEmpty_iff, hr, if_false]
  · exact hx (.frameTimeout n) (fun d => frameTimeout d n) rfl

/-! ### Image lines -/

/-- A fault of a line counted, unless the line is good: sub-index of its counter, and the port's tally for the breath. -/
def faultUnless (ok : Bool) (d : Dev) (p sub : Nat) (g : Cam → Cam) : Dev := if ok then d else updCam (bump d (camB p + 3) sub 4 1) p g

theorem faultUnless_keeps (ok : Bool) (d : Dev) (p sub : Nat) (g : Cam → Cam) :
    (faultUnless ok d p sub g).ics = d.ics ∧ (faultUnless ok d p sub g).ipl = d.ipl
    ∧ ∀ i s, setting (faultUnless ok d p sub g) i s = setting d i s := by
  cases ok <;> exact ⟨rfl, rfl, fun _ _ => rfl⟩

theorem cnt_faultUnless (ok : Bool) (d : Dev) (p sub : Nat) (g : Cam → Cam) :
    cnt (faultUnless ok d p sub g) (camB p + 3) sub = if ok then cnt d (camB p + 3) sub else (cnt d (camB p + 3) sub + 1) % 2 ^ 32 := by
  cases ok
  · exact cnt_bump ..
  · rfl

theorem cnt_faultUnless_ne (ok : Bool) (d : Dev) {p sub i s : Nat} (g : Cam → Cam) (h : odKey i s ≠ odKey (camB p + 3) sub) :
    cnt (faultUnless ok d p sub g) i s = cnt d i s := by
  cases ok
  · exact cnt_bump_ne _ _ _ _ _ h
  · rfl

/-- A line's CRC and its length judged. -/
def lineChecked (d : Dev) (p : Nat) (crcOk lenOk : Bool) : Dev :=
  faultUnless lenOk (faultUnless crcOk d p 4 fun c => { c with brCrc := c.brCrc + 1 }) p 5 fun c => { c with brLen := c.brLen + 1 }

theorem lineChecked_eq (d : Dev) (p word need : Nat) (crcOk : Bool) :
    (if word = need then (if crcOk = true then d else updCam (bump d (camB p + 3) 4 4 1) p fun c => { c with brCrc := c.brCrc + 1 })
     else updCam (bump (if crcOk = true then d else updCam (bump d (camB p + 3) 4 4 1) p fun c => { c with brCrc := c.brCrc + 1 }) (camB p + 3) 5 4 1)
      p fun c => { c with brLen := c.brLen + 1 }) = lineChecked d p crcOk (decide (word = need)) := by
  unfold lineChecked faultUnless
  simp only [decide_eq_true_eq]

theorem lineChecked_keeps (d : Dev) (p : Nat) (crcOk lenOk : Bool) :
    (lineChecked d p crcOk lenOk).ics = d.ics ∧ (lineChecked d p crcOk lenOk).ipl = d.ipl
    ∧ ∀ i s, setting (lineChecked d p crcOk lenOk) i s = setting d i s := by
  obtain ⟨h1, h2, h3⟩ := faultUnless_keeps crcOk d p 4 fun c => { c with brCrc := c.brCrc + 1 }
  obtain ⟨k1, k2, k3⟩ := faultUnless_keeps lenOk (faultUnless crcOk d p 4 fun c => { c with brCrc := c.brCrc + 1 }) p 5 fun c => { c with brLen := c.brLen + 1 }
  exact ⟨k1.trans h1, k2.trans h2, fun i s => (k3 i s).trans (h3 i s)⟩

theorem cnt_lineChecked (d : Dev) (p : Nat) (crcOk lenOk : Bool) :
    cnt (lineChecked d p crcOk lenOk) (camB p + 3) 4 = (if crcOk then cnt d (camB p + 3) 4 else (cnt d (camB p + 3) 4 + 1) % 2 ^ 32)
    ∧ cnt (lineChecked d p crcOk lenOk) (camB p + 3) 5 = (if lenOk then cnt d (camB p + 3) 5 else (cnt d (camB p + 3) 5 + 1) % 2 ^ 32) := by
  have h : odKey (camB p + 3) 4 ≠ odKey (camB p + 3) 5 := by unfold odKey; omega
  unfold lineChecked
  rw [cnt_faultUnless_ne _ _ _ h, cnt_faultUnless, cnt_faultUnless, cnt_faultUnless_ne _ _ _ h.symm]
  exact ⟨rfl, rfl⟩

theorem cnt_lineChecked_ne (d : Dev) {p i s : Nat} (crcOk lenOk : Bool) (h4 : odKey i s ≠ odKey (camB p + 3) 4) (h5 : odKey i s ≠ odKey (camB p + 3) 5) :
    cnt (lineChecked d p crcOk lenOk) i s = cnt d i s := by
  unfold lineChecked
  rw [cnt_faultUnless_ne _ _ _ h5, cnt_faultUnless_ne _ _ _ h4]

/-- The bytes of a line as they enter: those received, as many as the line needs, missing ones zero. -/
def linePayload (payload : List Byte) (word need : Nat) : List Byte :=
  (payload.take word ++ List.replicate (need - (payload.take word).length) 0#8).take need

section
variable {d : Dev} {p vc dt word : Nat} (hp : pendingHeader d p (imageTypes.contains ·) = some (vc, dt, word))
include hp

theorem imageLine_unrouted (ht : imageTarget (dropHeader d p) p vc dt = none) (payload : List Byte) (crcOk : Bool) :
    imageLine d p payload crcOk = unrouted (dropHeader d p) p := by
  rw [imageLine, hp]
  dsimp only
  rw [ht]

theorem imageLine_noFrame {n : Nat} (ht : imageTarget (dropHeader d p) p vc dt = some n) (ho : openFrame d n = none) (payload : List Byte) (crcOk : Bool) :
    imageLine d p payload crcOk = unrouted (lineChecked (dropHeader d p) p crcOk (decide (word = lineBytes dt (icWidth d n)))) p := by
  have hc : openFrame (lineChecked (dropHeader d p) p crcOk (decide (word = lineBytes dt (icWidth (dropHeader d p) n)))) n = none :=
    (openFrame_of_ic (ic_of_ics (lineChecked_keeps ..).1 n)).trans ho
  rw [imageLine, hp]
  dsimp only
  rw [ht]
  dsimp only
  rw [lineChecked_eq, hc]
  rfl

theorem imageLine_taken {n : Nat} {f : IcFrame} (ht : imageTarget (dropHeader d p) p vc dt = some n) (ho : openFrame d n = some f)
    (payload : List Byte) (crcOk : Bool) :
    imageLine d p payload crcOk = takeLine (lineChecked (dropHeader d p) p crcOk (decide (word = lineBytes dt (icWidth d n)))) p n f
      (!crcOk || word != lineBytes dt (icWidth d n)) (lineBytes dt (icWidth d n)) (lineSamples dt (linePayload payload word (lineBytes dt (icWidth d n)))) := by
  have hc : openFrame (lineChecked (dropHeader d p) p crcOk (decide (word = lineBytes dt (icWidth (dropHeader d p) n)))) n = some f :=
    (openFrame_of_ic (ic_of_ics (lineChecked_keeps ..).1 n)).trans ho
  rw [imageLine, hp]
  dsimp only
  rw [ht]
  dsimp only
  rw [lineChecked_eq, hc]
  rfl

end

/-- A frame found by its number after a change of the frames of that number that keeps the number. -/
theorem frameOf_updFrame (d : Dev) (n no : Nat) {g : IcFrame → IcFrame} (hg : ∀ f, (g f).no = f.no) :
    frameOf (updFrame d n no g) n no = (frameOf d n no).map g := by
  have hno (f : IcFrame) : ((if f.no = no then g f else f).no == no) = (f.no == no) := by
    split
    · rw [hg]
    · rfl
  rw [frameOf, frameOf, updFrame, ic_updIc, List.find?_map]
  rw [show ((fun f : IcFrame => f.no == no) ∘ fun f => if f.no = no then g f else f) = fun f => f.no == no from funext hno]
  cases hf : (ic d n).frames.find? (fun f => f.no == no) with
  | none => rfl
  | some f =>
    have : f.no = no := by simpa using List.find?_some hf
    rw [Option.map_some, Option.map_some, if_pos this]

theorem fifoUsed_of_ipl {d e : Dev} (h : e.ipl = d.ipl) (p : Nat) : fifoUsed e p = fifoUsed d p := by rw [fifoUsed, fifoUsed, h]

section
variable (d : Dev) (p n : Nat) {f : IcFrame} (bad : Bool) (bytes : Nat) (px : List Nat)

theorem takeLine_incomplete (hi : f.incomplete = true) : takeLine d p n f bad bytes px = d := if_pos hi

theorem takeLine_extra (hi : f.incomplete = false) (hl : icHeight d n ≤ f.lines) : takeLine d p n f bad bytes px =
    updFrame (bump d (icX n + 1) 0x12 4 1) n f.no fun f => { f with extra := f.extra + 1, long := true } := by
  rw [takeLine, if_neg (by simp [hi]), if_pos hl]

theorem takeLine_full (hi : f.incomplete = false) (hl : f.lines < icHeight d n) (hr : 16384 < fifoUsed d p + bytes) :
    takeLine d p n f bad bytes px = updFrame d n f.no fun f => { f with incomplete := true } := by
  rw [takeLine, if_neg (by simp [hi]), if_neg (by omega), if_pos hr]

/-- The line in the port's FIFO, and counted when bad. -/
def lineEntered (d : Dev) (p n : Nat) (f : IcFrame) (bad : Bool) (bytes : Nat) (px : List Nat) : Dev :=
  bumpIf bad { d with ipl := { d.ipl with rx := d.ipl.rx ++ [{ port := p, ctx := n, frame := f.no, line := f.lines, bad := bad, bytes := bytes, px := px }] } }
    (icX n + 1) 0x11

theorem takeLine_entered (hi : f.incomplete = false) (hl : f.lines < icHeight d n) (hr : fifoUsed d p + bytes ≤ 16384) :
    takeLine d p n f bad bytes px = updFrame (lineEntered d p n f bad bytes px) n f.no
      fun g => { g with lines := g.lines + 1, bad := g.bad + b2n bad } := by
  rw [takeLine, if_neg (by simp [hi]), if_neg (by omega), if_neg (by omega)]
  rfl

end
theorem lineEntered_keeps (d : Dev) (p n : Nat) (f : IcFrame) (bad : Bool) (bytes : Nat) (px : List Nat) :
    (lineEntered d p n f bad bytes px).ics = d.ics
    ∧ (lineEntered d p n f bad bytes px).ipl.rx = d.ipl.rx ++ [{ port := p, ctx := n, frame := f.no, line := f.lines, bad := bad, bytes := bytes, px := px }]
    ∧ cnt (lineEntered d p n f bad bytes px) (icX n + 1) 0x11 = (if bad then (cnt d (icX n + 1) 0x11 + 1) % 2 ^ 32 else cnt d (icX n + 1) 0x11)
    ∧ ∀ i < 0x4000, ∀ sub < 256, cnt (lineEntered d p n f bad bytes px) i sub = cnt d i sub := by
  unfold lineEntered
  refine ⟨bumpIf_ics .., ?_, cnt_bumpIf .., fun i hi sub hs => ?_⟩
  · cases bad <;> rfl
  · cases bad
    · rfl
    · exact cnt_bump_ne _ _ _ _ _ (by unfold odKey icX; omega)

theorem imageLinesEnterClaim : Claim.ImageLinesEnter := by
  intro s p payload crcOk h
  have hx (c : Instr) (f : Dev → Dev) (hc : exec c s = nextDev s f) : exec c s = .next (onDev s f) := hc.trans (nextDev_awake h)
  have hline := hx (.imageLinePacket p payload crcOk) (fun d => imageLine d p payload crcOk) rfl
  refine ⟨fun hp => ?_, fun vc dt word hp => ⟨fun ht => ?_, fun n ht ho => ⟨_, hline, ?_⟩, fun n f ht ho => ?_⟩⟩
  · rw [hline, onDev_eq_self]
    rw [imageLine, hp]
  · rw [hline, onDev, imageLine_unrouted hp ht]
  · obtain ⟨-, hipl, -⟩ := lineChecked_keeps (dropHeader s.dev p) p crcOk (decide (word = lineBytes dt (icWidth s.dev n)))
    rw [onDev, imageLine_noFrame hp ht ho]
    refine ⟨congrArg (·.rx) hipl, ?_⟩
    rw [unrouted, cnt_bump, cnt_lineChecked_ne _ _ _ (by unfold odKey; omega) (by unfold odKey; omega)]
    rfl
  · obtain ⟨hics, hipl, hset⟩ := lineChecked_keeps (dropHeader s.dev p) p crcOk (decide (word = lineBytes dt (icWidth s.dev n)))
    obtain ⟨hc4, hc5⟩ := cnt_lineChecked (dropHeader s.dev p) p crcOk (decide (word = lineBytes dt (icWidth s.dev n)))
    have hics' : (lineChecked (dropHeader s.dev p) p crcOk (decide (word = lineBytes dt (icWidth s.dev n)))).ics = s.dev.ics := hics
    have hheight : icHeight (lineChecked (dropHeader s.dev p) p crcOk (decide (word = lineBytes dt (icWidth s.dev n)))) n = icHeight s.dev n := hset ..
    have hfifo := fifoUsed_of_ipl hipl p
    have hctx {i : Nat} (hi : i < 256) : cnt (lineChecked (dropHeader s.dev p) p crcOk (decide (word = lineBytes dt (icWidth s.dev n)))) (icX n + 1) i
        = cnt s.dev (icX n + 1) i :=
      cnt_lineChecked_ne _ _ _ (by unfold odKey icX camB; omega) (by unfold odKey icX camB; omega)
    dsimp only
    refine ⟨fun hi => ⟨_, hline, ?_⟩, fun hi hl hr => ⟨_, hline, ?_⟩, fun hi hl => ⟨_, hline, ?_⟩, fun hi hl hr => ⟨_, hline, ?_⟩⟩
    all_goals rw [onDev, imageLine_taken hp ht ho]; dsimp only
    · rw [takeLine_incomplete _ _ _ _ _ _ hi]
      exact congrArg (·.rx) hipl
    · obtain ⟨hei, her, heb, hek⟩ := lineEntered_keeps (lineChecked (dropHeader s.dev p) p crcOk (decide (word = lineBytes dt (icWidth s.dev n)))) p n f
        (!crcOk || word != lineBytes dt (icWidth s.dev n)) (lineBytes dt (icWidth s.dev n)) (lineSamples dt (linePayload payload word (lineBytes dt (icWidth s.dev n))))
      rw [takeLine_entered _ _ _ _ _ _ hi (hheight ▸ hl) (by rw [hfifo]; exact hr)]
      refine ⟨her.trans (by rw [hipl]; rfl), fun g hg => ?_, heb.trans (by rw [hctx (by decide)]), ?_, ?_⟩
      · rw [frameOf_updFrame] at hg
        case hg => exact fun _ => rfl
        obtain ⟨x, hx, rfl⟩ := Option.map_eq_some_iff.mp hg
        by_cases hxf : x = f
        · exact .inl (by rw [hxf])
        · refine .inr fun hs => hxf (Option.some.inj (hx.symm.trans ?_))
          rw [← hs, frameOf, frameOf, ic_of_ics (hei.trans hics')]
      · exact (hek _ (by unfold camB; omega) _ (by decide)).trans hc4
      · refine (hek _ (by unfold camB; omega) _ (by decide)).trans (hc5.trans ?_)
        simp only [decide_eq_true_eq]
        rfl
    · rw [takeLine_extra _ _ _ _ _ _ hi (hheight ▸ hl)]
      refine ⟨congrArg (·.rx) hipl, ?_⟩
      rw [updFrame, cnt_updIc, cnt_bump, hctx (by decide), show 256 ^ 4 = 2 ^ 32 from by norm_num]
    · rw [takeLine_full _ _ _ _ _ _ hi (hheight ▸ hl) (by rw [hfifo]; exact hr)]
      refine ⟨congrArg (·.rx) hipl, fun g hg => ?_⟩
      rw [frameOf_updFrame] at hg
      case hg => exact fun _ => rfl
      obtain ⟨x, hx, rfl⟩ := Option.map_eq_some_iff.mp hg
      rfl

theorem embeddedDataIsStoredClaim : Claim.EmbeddedDataIsStored := by
  intro s h
  have hx (c : Instr) (f : Dev → Dev) (hc : exec c s = nextDev s f) : exec c s = .next (onDev s f) := hc.trans (nextDev_awake h)
  refine ⟨fun p payload hp => ?_, fun p payload vc dt word hp => ⟨fun hd => ?_, fun n hd ho => ?_, fun n f hd ho => ?_⟩, fun n hf => ?_, fun n f hf => ?_⟩
  · rw [hx (.embeddedDataPacket p payload) (fun d => embeddedData d p payload) rfl, onDev_eq_self]
    rw [embeddedData, hp]
  · rw [hx (.embeddedDataPacket p payload) (fun d => embeddedData d p payload) rfl, onDev, embeddedData, hp]
    dsimp only
    rw [hd]
  · rw [hx (.embeddedDataPacket p payload) (fun d => embeddedData d p payload) rfl, onDev, embeddedData, hp]
    dsimp only
    rw [hd]
    dsimp only
    rw [ho]
  · rw [hx (.embeddedDataPacket p payload) (fun d => embeddedData d p payload) rfl, onDev, embeddedData, hp]
    dsimp only
    rw [hd]
    dsimp only
    rw [ho]
    rfl
  · rw [hx (.embeddedStampWrite n) (fun d => embeddedStamp d n) rfl, onDev_eq_self]
    rw [embeddedStamp, hf]
  · rw [hx (.embeddedStampWrite n) (fun d => embeddedStamp d n) rfl, onDev, embeddedStamp, hf]

/-- Settles O48: frames are numbered, dropped or opened and closed; lines enter the FIFO; embedded data is stored. -/
theorem framesOpenAndClose : Obligations.FramesOpenAndClose := ⟨framesOpenAndCloseClaim, imageLinesEnterClaim, embeddedDataIsStoredClaim⟩

end Sys2Proof.Proofs


/-! ## Sensor commands, triggers and the exposure ledger (O49) -/

namespace Sys2Proof.Proofs
open Sys2Proof.Machine

/-! ### The controller of a camera port -/

theorem i3cWord_eq (kind : Nat) (hk : kind < 4) (addr : BitVec 7) (wlen rlen ccc : BitVec 8) (direct : Bool) :
    i3cWord kind addr.toNat wlen.toNat rlen.toNat ccc.toNat direct =
      BitVec.ofNat 64 (ccc.toNat * 2 ^ 56 + kind * 2 ^ 30 + addr.toNat * 2 ^ 23 + wlen.toNat * 2 ^ 15 + rlen.toNat * 2 ^ 7 + (if direct then 1 else 0)) := by
  have ha := addr.isLt
  have hw := wlen.isLt
  have hr := rlen.isLt
  have hc := ccc.isLt
  unfold i3cWord
  congr 1
  simp only [pack, List.foldl]
  cases direct <;> simp [b2n] <;> omega

theorem i3cCommand_of_busy {d : Dev} {p : Nat} (h : (cam d p).i3c.busy = true) (v : W64) : i3cCommand d p v = bump d (camB p + 3) 9 4 1 := if_pos h

theorem i3cCommand_of_free {d : Dev} {p : Nat} (h : (cam d p).i3c.busy = false) (v : W64) :
    i3cCommand d p v = updCam d p fun c => { c with i3c := { c.i3c with busy := true, running := (cam d p).issuing.isEmpty, cmd := v } } := by
  rw [i3cCommand]
  simp [h, ledgerBusy, updI3c]

/-- What the running command leaves in the controller, its fields in range or not. -/
def i3cEnded (bad : Bool) (code bytes : Nat) (rx : List Byte) (x : I3c) : I3c :=
  { x with
    rx := if bad then x.rx else i3cPut x.rx 0 (rx.take (i3cReads x.cmd))
    sent := if code = 0 then i3cSent x else x.sent
    result := BitVec.ofNat 64 (bytes % 65536 * 65536 + code % 16)
    irq := x.irq ||| 1#3, busy := false, running := false }

theorem i3cDone_idle {d : Dev} {p : Nat} (h : (cam d p).i3c.running = false) (code bytes : Nat) (rx : List Byte) : i3cDone d p code bytes rx = d :=
  if_neg (by simp [h])

/-- A command whose fields are in range ends with its own code and bytes. -/
theorem i3cDone_good {d : Dev} {p : Nat} (h : (cam d p).i3c.running = true) (hf : i3cBadFields (cam d p).i3c.cmd = false) (code bytes : Nat) (rx : List Byte) :
    i3cDone d p code bytes rx = (if code = 0 then updI3c d p (i3cEnded false code bytes rx) else bump (updI3c d p (i3cEnded false code bytes rx)) (camB p + 3) 9 4 1) := by
  rw [i3cDone, if_pos h, hf]
  rfl

/-- A command whose fields are out of range ends with code 5 and no bytes. -/
theorem i3cDone_bad {d : Dev} {p : Nat} (h : (cam d p).i3c.running = true) (hf : i3cBadFields (cam d p).i3c.cmd = true) (code bytes : Nat) (rx : List Byte) :
    i3cDone d p code bytes rx = bump (updI3c d p (i3cEnded true 5 0 rx)) (camB p + 3) 9 4 1 := by
  rw [i3cDone, if_pos h, hf]
  rfl

theorem i3cBadFields_iff (v : W64) : i3cBadFields v = true ↔ (128 < fld v 15 8 ∨ 128 < fld v 7 8) := by simp [i3cBadFields]

theorem cam_updI3c (d : Dev) (p : Nat) (g : I3c → I3c) : (cam (updI3c d p g) p).i3c = g (cam d p).i3c := by rw [updI3c, cam_updCam]

theorem bit_or_one (v : BitVec 3) : bit (v ||| 1#3) 0 = true ∧ bit (v ||| 2#3) 1 = true ∧ bit (v ||| 4#3) 2 = true := by
  refine ⟨?_, ?_, ?_⟩ <;> rw [bit_or] <;> exact Bool.or_eq_true_iff.mpr (.inr (by decide))

/-- The end of the running command: RX_BUF, RESULT, DONE, an idle controller, and failures counted. -/
theorem i3cDone_spec {d : Dev} {p : Nat} (h : (cam d p).i3c.running = true) (code : Fin 5) (bytes : BitVec 9) (rx : List Byte) :
    let x := (cam d p).i3c
    let e := i3cDone d p code bytes.toNat rx
    (cam e p).i3c.busy = false ∧ (cam e p).i3c.running = false ∧ bit (cam e p).i3c.irq 0 = true
    ∧ (cam e p).i3c.result = (if 128 < fld x.cmd 15 8 ∨ 128 < fld x.cmd 7 8 then 5#64 else BitVec.ofNat 64 (bytes.toNat * 65536 + code))
    ∧ (cam e p).i3c.rx = (if 128 < fld x.cmd 15 8 ∨ 128 < fld x.cmd 7 8 then x.rx else i3cPut x.rx 0 (rx.take (i3cReads x.cmd)))
    ∧ cnt e (camB p + 3) 9 = (if code = 0 ∧ fld x.cmd 15 8 ≤ 128 ∧ fld x.cmd 7 8 ≤ 128 then cnt d (camB p + 3) 9
        else (cnt d (camB p + 3) 9 + 1) % 2 ^ 32) := by
  dsimp only
  have hpow : 256 ^ 4 = 2 ^ 32 := by norm_num
  cases hf : i3cBadFields (cam d p).i3c.cmd with
  | true =>
    have hf' := (i3cBadFields_iff _).mp hf
    rw [i3cDone_bad h hf, cam_bump, cam_updI3c, if_pos hf', if_pos hf', if_neg (by omega), cnt_bump, hpow]
    exact ⟨rfl, rfl, (bit_or_one _).1, rfl, rfl, rfl⟩
  | false =>
    have hf' : ¬(128 < fld (cam d p).i3c.cmd 15 8 ∨ 128 < fld (cam d p).i3c.cmd 7 8) := by rw [← i3cBadFields_iff, hf]; decide
    have hres : bytes.toNat % 65536 * 65536 + code.val % 16 = bytes.toNat * 65536 + code.val := by omega
    rw [i3cDone_good h hf, if_neg hf', if_neg hf']
    by_cases hc : code = 0
    · subst hc
      rw [if_pos (by decide), cam_updI3c, if_pos ⟨rfl, by omega, by omega⟩]
      refine ⟨rfl, rfl, (bit_or_one _).1, ?_, rfl, rfl⟩
      rw [i3cEnded, hres]
    · have hv : ¬code.val = 0 := fun h => hc (Fin.ext h)
      rw [if_neg hv, cam_bump, cam_updI3c, if_neg (fun h => hc h.1), cnt_bump, hpow]
      refine ⟨rfl, rfl, (bit_or_one _).1, ?_, rfl, rfl⟩
      rw [i3cEnded, hres]

theorem sensorCommandsRun : Claim.SensorCommandsRun := by
  intro s p h
  have hx (c : Instr) (f : Dev → Dev) (hc : exec c s = nextDev s f) : exec c s = .next (onDev s f) := hc.trans (nextDev_awake h)
  refine ⟨fun hb addr wlen rlen ccc direct => ?_, fun hb addr wlen rlen ccc direct => ?_, fun hr code bytes rx => ?_, fun hr code bytes rx => ⟨_, hx (.i3cCommandDone p code bytes rx) (fun d => i3cDone d p code bytes.toNat rx) rfl, i3cDone_spec hr code bytes rx⟩,
    fun hm addr payload => ?_, fun hm addr payload => ?_, fun hp => ?_, fun hp => ?_, hx (.triggerPulseEnd p) (fun d => trigEnd d p) rfl⟩
  · have hi (v : W64) : onDev s (fun d => i3cCommand d p v) = { s with dev := bump s.dev (camB p + 3) 9 4 1 } := by rw [onDev, i3cCommand_of_busy hb]
    refine ⟨(hx (.i3cWrite p addr wlen) (fun d => i3cCommand d p _) rfl).trans ?_, (hx (.i3cRead p addr rlen) (fun d => i3cCommand d p _) rfl).trans ?_,
      (hx (.i3cWriteThenRead p addr wlen rlen) (fun d => i3cCommand d p _) rfl).trans ?_,
      (hx (.i3cCcc p ccc addr wlen rlen direct) (fun d => i3cCommand d p _) rfl).trans ?_⟩ <;> rw [hi]
  · have hi (v : W64) : onDev s (fun d => i3cCommand d p v) =
        { s with dev := updCam s.dev p fun c => { c with i3c := { c.i3c with busy := true, running := (cam s.dev p).issuing.isEmpty, cmd := v } } } := by
      rw [onDev, i3cCommand_of_free hb]
    have hw (kind : Nat) (hk : kind < 4) (wlen rlen ccc : BitVec 8) (direct : Bool) :=
      (congrArg (fun v => (Host.Outcome.next (onDev s fun d => i3cCommand d p v) : Host.Outcome State Fault Refusal)) (i3cWord_eq kind hk addr wlen rlen ccc direct)).trans
        (congrArg Host.Outcome.next (hi _))
    exact ⟨(hx (.i3cWrite p addr wlen) (fun d => i3cCommand d p _) rfl).trans (hw 0 (by decide) wlen 0#8 0#8 false),
      (hx (.i3cRead p addr rlen) (fun d => i3cCommand d p _) rfl).trans (hw 1 (by decide) 0#8 rlen 0#8 false),
      (hx (.i3cWriteThenRead p addr wlen rlen) (fun d => i3cCommand d p _) rfl).trans (hw 2 (by decide) wlen rlen 0#8 false),
      (hx (.i3cCcc p ccc addr wlen rlen direct) (fun d => i3cCommand d p _) rfl).trans (hw 3 (by decide) wlen rlen ccc direct)⟩
  · rw [hx (.i3cCommandDone p code bytes rx) (fun d => i3cDone d p code bytes.toNat rx) rfl, onDev_eq_self (i3cDone_idle hr ..)]
  · refine ⟨_, hx (.ibi p addr payload) (fun d => ibi d p addr.toNat payload) rfl, ?_⟩
    rw [onDev, ibi, if_pos hm]
    dsimp only
    rw [cam_updI3c]
    refine ⟨(bit_or_one _).2.1, ?_, rfl⟩
    have ha := addr.isLt
    dsimp only
    rw [Nat.mod_eq_of_lt (show addr.toNat < 256 by omega)]
    cases payload <;> simp [b2n]
  · rw [hx (.ibi p addr payload) (fun d => ibi d p addr.toNat payload) rfl, onDev_eq_self]
    exact if_neg hm
  · refine ⟨_, hx (.triggerPulseStart p) (fun d => trigStart d p) rfl, ?_⟩
    rw [onDev, trigStart, if_pos hp]
    dsimp only
    rw [cam_bump, cam_updCam, cnt_bump, cnt_updCam]
    exact ⟨rfl, rfl, by norm_num⟩
  · rw [hx (.triggerPulseStart p) (fun d => trigStart d p) rfl, onDev_eq_self]
    exact if_neg (by simp [hp])

/-! ### Ledger entries -/

theorem ledgerAt_updLedger (d : Dev) (p e : Nat) (g : LedgerEntry → LedgerEntry) : ledgerAt (cam (updLedger d p e g) p) e = g (ledgerAt (cam d p) e) := by
  rw [updLedger, cam_updCam, ledgerAt, ledgerAt]
  exact sget_supd _ _ _

theorem ledgerAt_updLedger_ne (d : Dev) (p : Nat) {e k : Nat} (g : LedgerEntry → LedgerEntry) (h : k ≠ e) :
    ledgerAt (cam (updLedger d p e g) p) k = ledgerAt (cam d p) k := by
  rw [updLedger, cam_updCam, ledgerAt, ledgerAt]
  exact sget_supd_ne _ _ h

/-- An Armed entry missed: its state and the port's count. -/
theorem missEntry_spec (d : Dev) (p e : Nat) : ledgerAt (cam (missEntry d p e) p) e = { ledgerAt (cam d p) e with state := 5#4 }
    ∧ cnt (missEntry d p e) (0x4840 + p) 5 = (cnt d (0x4840 + p) 5 + 1) % 2 ^ 32 := by
  unfold missEntry
  dsimp only
  rw [cam_postEvent, cam_bump, ledgerAt_updLedger, cnt_postEvent, cnt_bump]
  exact ⟨rfl, rfl⟩

/-- Of the entries due with e the lowest is no later than e, and one of them where e is Armed. -/
theorem issueChoice_le {c : Cam} {e : Nat} (h : (ledgerAt c e).state = 1#4) : issueChoice c e ≤ e := by
  unfold issueChoice
  dsimp only
  cases hf : (List.range 16).find? fun k => (ledgerAt c k).state == 1#4 && (ledgerAt c k).frame == (ledgerAt c e).frame
      && (ledgerAt c k).vbLine == (ledgerAt c e).vbLine with
  | none => exact Nat.le_refl e
  | some k =>
    rw [Option.getD_some]
    by_contra hlt
    have := (List.find?_range_eq_some.mp hf).2.2 e (by omega)
    simp [h] at this

theorem ledgerArm_waits {d : Dev} {p e : Nat} (h : (ledgerAt (cam d p) e).state = 1#4 ∨ (ledgerAt (cam d p) e).state = 2#4) (tag : Byte) :
    ledgerArm d p e tag = d := if_pos h

theorem ledgerArm_of {d : Dev} {p e : Nat} (h1 : (ledgerAt (cam d p) e).state ≠ 1#4) (h2 : (ledgerAt (cam d p) e).state ≠ 2#4) (tag : Byte) :
    ledgerArm d p e tag = if armedLate (updLedger d p e fun x => { x with state := 1#4, tag := tag }) p (ledgerAt (cam d p) e)
      then missEntry (updLedger d p e fun x => { x with state := 1#4, tag := tag }) p e
      else updLedger d p e fun x => { x with state := 1#4, tag := tag } := by
  rw [ledgerArm]
  exact if_neg (by simp [h1, h2])

theorem mayLedger_armed {d : Dev} {p : Nat} {x : LedgerEntry} (h : mayLedger d p x = true) : x.state = 1#4 := by
  rw [mayLedger] at h
  simp only [Bool.and_eq_true, beq_iff_eq] at h
  exact h.1.1

/-- The chosen entry issuing with the port's next SEQ. -/
def entryIssued (d : Dev) (p k : Nat) : Dev :=
  bump (updCam (updLedger d p k fun x => { x with state := 2#4, seq := BitVec.ofNat 16 (cam d p).issues }) p
    fun c => { c with issues := c.issues + 1, issuing := c.issuing ++ [k] }) (0x4840 + p) 3 4 1

theorem ledgerIssue_of_may {d : Dev} {p e : Nat} (h : mayLedger d p (ledgerAt (cam d p) e) = true) : ledgerIssue d p e =
    if (cam d p).i3c.running then updI3c (bump (entryIssued d p (issueChoice (cam d p) e)) (camB p + 3) 0x0A 4 1) p fun x => { x with irq := x.irq ||| 4#3 }
    else entryIssued d p (issueChoice (cam d p) e) := by
  rw [ledgerIssue]
  exact if_pos h

theorem entryIssued_spec (d : Dev) (p k : Nat) :
    ledgerAt (cam (entryIssued d p k) p) k = { ledgerAt (cam d p) k with state := 2#4, seq := BitVec.ofNat 16 (cam d p).issues }
    ∧ (cam (entryIssued d p k) p).issuing = (cam d p).issuing ++ [k]
    ∧ cnt (entryIssued d p k) (0x4840 + p) 3 = (cnt d (0x4840 + p) 3 + 1) % 2 ^ 32 := by
  unfold entryIssued
  rw [cam_bump, cam_updCam, cnt_bump]
  refine ⟨ledgerAt_updLedger .., ?_, rfl⟩
  rw [updLedger, cam_updCam]

theorem ledgerIssue_spec {d : Dev} {p e : Nat} (hp : p < 4) (h : mayLedger d p (ledgerAt (cam d p) e) = true) :
    let k := issueChoice (cam d p) e
    (ledgerAt (cam (ledgerIssue d p e) p) k).state = 2#4 ∧ (ledgerAt (cam (ledgerIssue d p e) p) k).seq = BitVec.ofNat 16 (cam d p).issues
    ∧ (cam (ledgerIssue d p e) p).issuing = (cam d p).issuing ++ [k] ∧ k ≤ e
    ∧ cnt (ledgerIssue d p e) (0x4840 + p) 3 = (cnt d (0x4840 + p) 3 + 1) % 2 ^ 32
    ∧ ((cam d p).i3c.running = true → bit (cam (ledgerIssue d p e) p).i3c.irq 2 = true) := by
  dsimp only
  obtain ⟨h1, h2, h3⟩ := entryIssued_spec d p (issueChoice (cam d p) e)
  have hle := issueChoice_le (mayLedger_armed h)
  rw [ledgerIssue_of_may h]
  cases hr : (cam d p).i3c.running with
  | false =>
    rw [if_neg (by decide), h1, h2, h3]
    exact ⟨rfl, rfl, rfl, hle, rfl, fun h => nomatch h⟩
  | true =>
    rw [if_pos rfl, updI3c, cam_updCam, cam_bump, cnt_updCam, cnt_bump_ne _ _ _ _ _ (by unfold odKey camB; omega), h3]
    refine ⟨congrArg (·.state) h1, congrArg (·.seq) h1, h2, hle, rfl, fun _ => (bit_or_one _).2.2⟩

/-! ### The end of a ledger transfer -/

theorem i3cResume_keeps (d : Dev) (p : Nat) : (cam (i3cResume d p) p).issuing = (cam d p).issuing ∧ (cam (i3cResume d p) p).ledger = (cam d p).ledger
    ∧ (cam (i3cResume d p) p).i3c.sent = (cam d p).i3c.sent := by
  rw [i3cResume, cam_updCam]
  split <;> exact ⟨rfl, rfl, rfl⟩

/-- The entry after a good transfer: Done, or Late when its frame has started, with the frame it applies to. -/
theorem ledgerGood_spec (d : Dev) (p e issue : Nat) :
    ledgerAt (cam (ledgerGood d p e issue) p) e = { ledgerAt (cam d p) e with
      state := if frameStarted d (ledgerIc d p) (ledgerAt (cam d p) e).frame.toNat then 4#4 else 3#4, result := 0#4
      applied := BitVec.ofNat 32 ((ledgerAt (cam d p) e).frame.toNat + (ledgerAt (cam d p) e).latency.toNat
        + b2n (frameStarted d (ledgerIc d p) (ledgerAt (cam d p) e).frame.toNat)) }
    ∧ (cam (ledgerGood d p e issue) p).issuing = (cam d p).issuing ∧ (cam (ledgerGood d p e issue) p).i3c = (cam d p).i3c := by
  unfold ledgerGood
  dsimp only
  split
  · rw [cam_postEvent, cam_bump, cam_updCam]
    refine ⟨ledgerAt_updLedger .., ?_, ?_⟩ <;> rw [updLedger, cam_updCam]
  · rw [cam_updCam]
    refine ⟨ledgerAt_updLedger .., ?_, ?_⟩ <;> rw [updLedger, cam_updCam]

theorem ledgerFail_spec (d : Dev) (p e issue code : Nat) :
    ledgerAt (cam (ledgerFail d p e issue code) p) e = { ledgerAt (cam d p) e with state := 6#4, result := BitVec.ofNat 4 code }
    ∧ (cam (ledgerFail d p e issue code) p).issuing = (cam d p).issuing := by
  unfold ledgerFail
  dsimp only
  rw [cam_postEvent, cam_bump, cam_updCam]
  refine ⟨ledgerAt_updLedger .., ?_⟩
  rw [updLedger, cam_updCam]

/-- The oldest issuing entry's transfer leaves the controller, with what it sent. -/
def transferEnded (d : Dev) (p k code : Nat) (rest : List Nat) : Dev :=
  updCam d p fun c => { c with
    issuing := rest
    i3c := { c.i3c with sent := if code = 0 then ledgerSent (ledgerTarget d p) (ledgerAt c k) else c.i3c.sent } }

theorem ledgerStop_of_issuing {d : Dev} {p k : Nat} {rest : List Nat} (h : (cam d p).issuing = k :: rest) (hr : (cam d p).i3c.running = false) (code : Nat) :
    ledgerStop d p code = i3cResume (if code = 0 then ledgerGood (transferEnded d p k code rest) p k ((cam d p).issues - (cam d p).issuing.length)
      else ledgerFail (transferEnded d p k code rest) p k ((cam d p).issues - (cam d p).issuing.length) code) p := by
  rw [ledgerStop, h]
  dsimp only
  rw [if_neg (by simp [hr])]
  rfl

/-- The end of the oldest issuing entry's transfer: it leaves the queue, and ends Done, Late or Failed. -/
theorem ledgerStop_spec {d : Dev} {p k : Nat} {rest : List Nat} (h : (cam d p).issuing = k :: rest) (hr : (cam d p).i3c.running = false) (code : Nat) :
    let y := ledgerAt (cam d p) k
    let e := ledgerStop d p code
    (cam e p).issuing = rest
    ∧ (code = 0 → frameStarted d (ledgerIc d p) y.frame.toNat = false → (ledgerAt (cam e p) k).state = 3#4
        ∧ (ledgerAt (cam e p) k).applied = BitVec.ofNat 32 (y.frame.toNat + y.latency.toNat))
    ∧ (code = 0 → frameStarted d (ledgerIc d p) y.frame.toNat = true → (ledgerAt (cam e p) k).state = 4#4
        ∧ (ledgerAt (cam e p) k).applied = BitVec.ofNat 32 (y.frame.toNat + y.latency.toNat + 1))
    ∧ (code = 0 → (cam e p).i3c.sent = ledgerSent (ledgerTarget d p) y)
    ∧ (code ≠ 0 → (ledgerAt (cam e p) k).state = 6#4 ∧ (ledgerAt (cam e p) k).result = BitVec.ofNat 4 code) := by
  dsimp only
  rw [ledgerStop_of_issuing h hr]
  have hled (e : Dev) : ledgerAt (cam (i3cResume e p) p) k = ledgerAt (cam e p) k := by rw [ledgerAt, ledgerAt, (i3cResume_keeps e p).2.1]
  rw [(i3cResume_keeps _ p).1, hled, (i3cResume_keeps _ p).2.2]
  generalize hi : (cam d p).issues - (cam d p).issuing.length = issue
  have hcam : cam (transferEnded d p k code rest) p = { cam d p with
      issuing := rest
      i3c := { (cam d p).i3c with sent := if code = 0 then ledgerSent (ledgerTarget d p) (ledgerAt (cam d p) k) else (cam d p).i3c.sent } } := cam_updCam ..
  have hy : ledgerAt (cam (transferEnded d p k code rest) p) k = ledgerAt (cam d p) k := by rw [hcam, ledgerAt, ledgerAt]
  by_cases hc : code = 0
  · obtain ⟨h1, h2, h3⟩ := ledgerGood_spec (transferEnded d p k code rest) p k issue
    rw [hy] at h1
    have hfs : frameStarted (transferEnded d p k code rest) (ledgerIc (transferEnded d p k code rest) p) (ledgerAt (cam d p) k).frame.toNat
        = frameStarted d (ledgerIc d p) (ledgerAt (cam d p) k).frame.toNat := rfl
    rw [hfs] at h1
    rw [if_pos hc, h1, h2, h3, hcam]
    refine ⟨rfl, fun _ hf => ?_, fun _ hf => ?_, fun _ => if_pos hc, fun h => absurd hc h⟩
    · rw [hf]
      exact ⟨rfl, rfl⟩
    · rw [hf]
      exact ⟨rfl, rfl⟩
  · obtain ⟨h1, h2⟩ := ledgerFail_spec (transferEnded d p k code rest) p k issue code
    rw [if_neg hc, h1, h2, hcam]
    exact ⟨rfl, fun h => absurd h hc, fun h => absurd h hc, fun h => absurd h hc, fun _ => ⟨rfl, rfl⟩⟩

theorem ledgerEntriesRun : Claim.LedgerEntriesRun := by
  intro s p e h
  have hx (c : Instr) (f : Dev → Dev) (hc : exec c s = nextDev s f) : exec c s = .next (onDev s f) := hc.trans (nextDev_awake h)
  have harm (tag) := hx (.ledgerArm p e tag) (fun d => ledgerArm d p e tag) rfl
  refine ⟨fun tag h1 h2 hl => ⟨_, harm tag, ?_⟩, fun tag h1 h2 hl => ⟨_, harm tag, ?_⟩, fun tag hs => ?_, fun tag hs => ?_,
    fun tag hs => ⟨_, hx (.ledgerDisarm p e tag) (fun d => ledgerDisarm d p e tag) rfl, ?_⟩, fun hm => ?_,
    fun hm => ⟨_, hx (.ledgerIssue p e) (fun d => ledgerIssue d p e) rfl, ledgerIssue_spec p.isLt hm⟩, fun code hi => ?_,
    fun k rest code hk hr => ⟨_, hx (.ledgerTransferStop p code) (fun d => ledgerStop d p code) rfl, ?_⟩⟩
  · rw [onDev, ledgerArm_of h1 h2, hl, if_neg (by decide)]
    exact ⟨ledgerAt_updLedger .., rfl, rfl⟩
  · obtain ⟨k1, k2⟩ := missEntry_spec (updLedger s.dev p e fun x => { x with state := 1#4, tag := tag }) p e
    rw [onDev, ledgerArm_of h1 h2, hl, if_pos rfl]
    refine ⟨k1.trans ?_, k2⟩
    rw [ledgerAt_updLedger]
  · rw [harm, onDev_eq_self (ledgerArm_waits hs tag)]
  · rw [hx (.ledgerDisarm p e tag) (fun d => ledgerDisarm d p e tag) rfl, onDev_eq_self]
    exact if_pos hs
  · rw [onDev, ledgerDisarm, if_neg hs]
    exact ⟨ledgerAt_updLedger .., fun k hk => ledgerAt_updLedger_ne _ _ _ hk⟩
  · rw [hx (.ledgerIssue p e) (fun d => ledgerIssue d p e) rfl, onDev_eq_self]
    exact if_neg (by simp [hm])
  · rw [hx (.ledgerTransferStop p code) (fun d => ledgerStop d p code) rfl, onDev_eq_self]
    rw [ledgerStop]
    split
    · rename_i hc
      rcases hi with hi | hi
      · rw [hi] at hc
        nomatch hc
      · exact if_pos hi
    · rfl
  · obtain ⟨h1, h2, h3, h4, h5⟩ := ledgerStop_spec hk hr code.val
    have hv {c : Prop} (f : code.val = 0 → c) (hc : code = 0) : c := f (congrArg Fin.val hc)
    exact ⟨h1, hv h2, hv h3, hv h4, fun hne => h5 fun hv => hne (Fin.ext hv)⟩

/-- Settles O49: sensor commands, triggers and the exposure ledger. -/
theorem sensorAndLedgerRun : Obligations.SensorAndLedgerRun := ⟨sensorCommandsRun, ledgerEntriesRun⟩

end Sys2Proof.Proofs


/-! ## Formatters write lines and headers; frames finish; statistics are recorded (O50) -/

namespace Sys2Proof.Proofs
open Sys2Proof.Machine

section
variable {d : Dev} {n f : Nat} {fr : IcFrame}

theorem formatLine_of_none (h : fmtFrame d n f = none) : formatLine d n f = d := by rw [formatLine, h]

theorem formatHeader_of_none (h : fmtFrame d n f = none) : formatHeader d n f = d := by rw [formatHeader, h]

variable (h : fmtFrame d n f = some fr)
include h

theorem formatLine_ready (hj : (fmtRun fr f).lines < fmtSet d n f 4) (hr : outReady d n f fr (fmtRun fr f).lines = true) :
    let b := beginFrame d n f fr
    let us := (outLines b n f fr (fmtRun fr f).lines).map (lineUnitsOf (bufAddr b n f fr.no))
    formatLine d n f = updFrame (setChan b (fmtSet b n f 6) (appendUnits (us.flatMap (·.1)) (us.flatMap (·.2)) true (chan b (fmtSet b n f 6)))) n fr.no
      (setRun f fun r => { r with lines := (fmtRun fr f).lines + 1 }) := by
  rw [formatLine, h]
  exact if_pos ⟨hj, hr⟩

theorem formatLine_waits (hw : fmtSet d n f 4 ≤ (fmtRun fr f).lines ∨ outReady d n f fr (fmtRun fr f).lines = false) : formatLine d n f = d := by
  rw [formatLine, h]
  refine if_neg fun ⟨hj, hr⟩ => ?_
  rcases hw with hw | hw
  · omega
  · rw [hw] at hr
    nomatch hr

theorem formatHeader_early (hl : linesDone d n f fr = false) : formatHeader d n f = d := by
  rw [formatHeader, h]
  exact if_neg (by simp [hl])

variable (hl : linesDone d n f fr = true)
include hl

/-- On a channel that takes no units the frame ends without a header. -/
theorem formatHeader_untaken (ht : chanTakes (chan (beginFrame d n f fr) (fmtSet d n f 6)) = false ∨ (chan (beginFrame d n f fr) (fmtSet d n f 6)).frames = []) :
    formatHeader d n f = updFrame (beginFrame d n f fr) n fr.no (setRun f fun r => { r with header := true }) := by
  rw [formatHeader, h]
  dsimp only
  rw [if_pos hl, if_pos]
  rcases ht with ht | ht <;> simp [ht]

/-- The channel with the header as its frame's last unit. -/
def headerChan (d : Dev) (n f : Nat) (fr : IcFrame) : Chan :=
  appendUnits [(headerBytes d n f fr).map fun b => (b, false)] [bufAddr d n f fr.no] false (chan (beginFrame d n f fr) (fmtSet d n f 6))

/-- The device with the header at the channel, and the coding padding written. -/
def headerHanded (d : Dev) (n f : Nat) (fr : IcFrame) : Dev :=
  setChan (if f = 1 ∧ fmtSet d n f 4 ≤ (fmtRun fr f).lines then writePadding (beginFrame d n f fr) n fr else beginFrame d n f fr) (fmtSet d n f 6) (headerChan d n f fr)

theorem formatHeader_taken (ht : chanTakes (chan (beginFrame d n f fr) (fmtSet d n f 6)) = true)
    (hf : (chan (beginFrame d n f fr) (fmtSet d n f 6)).frames ≠ []) :
    formatHeader d n f =
      if ((headerChan d n f fr).frames.map fun x => x.units.length).sum = 1 ∧ chosenChan (headerHanded d n f fr) (fmtSet d n f 6 / 64) = some (fmtSet d n f 6)
      then updFrame (headerWritten (unitSend (headerHanded d n f fr) (fmtSet d n f 6 / 64)) n f fr) n fr.no (setRun f fun r => { r with header := true })
      else d := by
  rw [formatHeader, h]
  dsimp only
  rw [if_pos hl, if_neg (by simp [ht, hf])]
  rfl

end

/-- Settles O50: output lines, headers, finished frames and statistics records. -/
theorem outputsAreWritten : Obligations.OutputsAreWritten := by
  intro s n h
  have hx (c : Instr) (f : Dev → Dev) (hc : exec c s = nextDev s f) : exec c s = .next (onDev s f) := hc.trans (nextDev_awake h)
  have hline (f : Fin 3) := hx (.formatterLine n f) (fun d => formatLine d n f) rfl
  have hhead (f : Fin 3) := hx (.formatterHeader n f) (fun d => formatHeader d n f) rfl
  have hdone := hx (.frameFinished n) (fun d => frameFinished d n) rfl
  have hstat (t : Fin 2) := hx (.statsRecord n t) (fun d => statsRecord d n t) rfl
  refine ⟨fun f hf => ⟨?_, ?_⟩, fun f fr hf => ⟨fun hj hr => ?_, fun hw => ?_, fun hl => ?_, fun hl ht => ?_, fun hl ht hne => ⟨fun hs => ?_, fun hs => ?_⟩⟩,
    fun fr hf => ?_, fun hf => ?_, fun f hf => ?_, fun hf => ?_, fun f hf => ?_, fun hf => ?_⟩
  · rw [hline, onDev_eq_self (formatLine_of_none hf)]
  · rw [hhead, onDev_eq_self (formatHeader_of_none hf)]
  · rw [hline, onDev, formatLine_ready hf hj hr]
  · rw [hline, onDev_eq_self (formatLine_waits hf hw)]
  · rw [hhead, onDev_eq_self (formatHeader_early hf hl)]
  · rw [hhead, onDev, formatHeader_untaken hf hl ht]
  · rw [hhead, onDev, formatHeader_taken hf hl ht hne]
    simp only [Fin.ext_iff] at hs ⊢
    exact congrArg (fun e => Host.Outcome.next { s with dev := e }) (if_pos hs)
  · rw [hhead, onDev_eq_self]
    rw [formatHeader_taken hf hl ht hne]
    simp only [Fin.ext_iff] at hs
    exact if_neg hs
  · rw [hdone, onDev, frameFinished, hf]
  · rw [hdone, onDev_eq_self]
    rw [frameFinished, hf]
  · rw [hstat, onDev, statsRecord, if_pos (by decide), hf]
  · rw [hstat, onDev_eq_self]
    rw [statsRecord, if_pos (by decide), hf]
  · rw [hstat, onDev, statsRecord, if_neg (by decide), hf]
  · rw [hstat, onDev_eq_self]
    rw [statsRecord, if_neg (by decide), hf]

end Sys2Proof.Proofs


/-! ## Core memory writes, and window data: what they leave of the other units -/

namespace Sys2Proof.Proofs
open Sys2Proof.Machine

theorem memNo_lt (wm : Bool) : memNo wm < 4 := by cases wm <;> decide

namespace StoreStep

variable {n : Nat} (hn : n < 20) (d : Dev)

theorem markPoison (d : Dev) (n i : Nat) (p : Bool) : StoreStep d (markPoison d n i p) := ite (updCore ..) (refl d)

include hn

omit hn in
theorem coreSetBytes (wm : Bool) (off : Nat) (bs : List Byte) : StoreStep d (coreSetBytes d n wm off bs) := by
  induction bs generalizing d off with
  | nil => exact refl d
  | cons b bs ih => exact trans (e := coreSetByte d n wm off b) ((updMem d _).trans (ite (updCore ..) (refl _))) (ih ..)

theorem coreWriteWord (wm : Bool) (off : Nat) (bs : List Byte) (p : Bool) : StoreStep d (coreWriteWord d n wm off bs p) := by
  unfold Machine.coreWriteWord
  dsimp only
  exact .trans (ite (refl d) (coreMemRead d _ _ hn (memNo_lt wm))) (.trans (coreSetBytes ..) (.trans (wordWritten ..) (updMem ..)))

theorem flushGather (wm : Bool) (g : Gather) : StoreStep d (flushGather d n wm g) := by
  unfold Machine.flushGather
  dsimp only
  split
  · exact (updCore ..).trans (coreWriteWord hn ..)
  · have hw (e : Dev) (bs : List Byte) (p : Bool) (h : StoreStep d e) : StoreStep d (Machine.coreWriteWord e n wm (32 * g.word) bs p) :=
      h.trans (coreWriteWord hn ..)
    split
    · exact .trans (hw _ _ _ (.trans (updCore ..) (.trans (bumpCore _ _ _ hn (by decide)) (coreMemRead _ _ _ hn (memNo_lt wm))))) (markPoison ..)
    · exact hw _ _ _ (.trans (updCore ..) (.trans (bumpCore _ _ _ hn (by decide)) (coreMemRead _ _ _ hn (memNo_lt wm))))

theorem narrowPut (who : Gather) (wm : Bool) (off mask : Nat) (bs : List Byte) (p : Bool) : StoreStep d (narrowPut d n who wm off mask bs p) := by
  unfold Machine.narrowPut
  dsimp only
  have h1 : StoreStep d (if ((gatherOf (coreOf d n) wm (off / 32)).isNone && decide (4 ≤ (gatherBuf (coreOf d n) wm).length)) = true then
      match gatherBuf (coreOf d n) wm with
      | g :: _ => Machine.flushGather d n wm g
      | [] => d
    else d) := by
    split
    · split
      · exact flushGather hn ..
      · exact refl d
    · exact refl d
  exact h1.trans (.trans (updCore ..) (.trans (scrubCancel ..) (ite (flushGather hn ..) (refl _))))

theorem flushOwned (o : Op) : StoreStep d (flushOwned d n o) :=
  .trans (foldl _ (fun e g _ => flushGather hn e true g) _) (foldl _ (fun e g _ => flushGather hn e false g) _)

theorem storePart (who : Gather) (wm : Bool) (off : Nat) (part : List (Byte × Bool)) : StoreStep d (storePart d n who wm off part) :=
  ite (narrowPut hn ..) (coreWriteWord hn ..)

theorem coreStore (who : Gather) (wm : Bool) (k off : Nat) (bs : List (Byte × Bool)) : StoreStep d (coreStore d n who wm k off bs) := by
  induction k generalizing d off bs with
  | zero => exact refl d
  | succ k ih =>
    cases bs with
    | nil => exact refl d
    | cons b bs => exact (storePart hn ..).trans (ih ..)

theorem readWords {mem : Nat} (hm : mem < 4) (lo hi : Nat) : StoreStep d (readWords d n mem lo hi) :=
  foldl _ (fun e _ _ => coreMemRead e _ _ hn hm) d

theorem readBytes (wm : Bool) (off k : Nat) : StoreStep d (readBytes d n wm off k) := ite (refl d) (readWords hn _ (memNo_lt wm) _ _)

theorem readPm (keys : List Nat) : StoreStep d (readPm d n keys) := ite (refl d) (foldl _ (fun e _ _ => coreMemRead e _ _ hn (by decide)) d)

omit hn

theorem pmWritten (keys : List Nat) : StoreStep d (pmWritten d n keys) := (updMem d _).trans (foldl _ (fun e _ _ => scrubCancel e _ _ _) _)

theorem touchData (p : Place) (hp : p.core < 20) (base lo k : Nat) : StoreStep d (touchData d p base lo k) := by
  unfold Machine.touchData
  split
  · exact refl d
  · split
    · exact readBytes hp ..
    · exact readBytes hp ..
    · split
      · exact refl d
      · exact foldl _ (fun e _ _ => readBytes hp e _ _ _) d
    · exact refl d

end StoreStep

/-! ### Window data and credits -/

/-- Counters that window data may move: those of memory and of the cores, and what a disabled core's router sinks. -/
def FlowKey (k : Nat) : Prop := StoreKey k ∨ (0x2300 * 256 ≤ k ∧ k < 0x2310 * 256)

theorem flowKey_units {i sub : Nat} (hi : 0x3000 ≤ i) : ¬ FlowKey (odKey i sub) := by
  unfold FlowKey StoreKey AccessKey odKey; omega

/-- A step of window data and credits: it keeps the units outside memory, the cores, the windows, the channels, the CP and the event path. -/
structure FlowStep (d e : Dev) : Prop where
  clk : e.clk = d.clk
  breath : e.breath = d.breath
  ctrs : e.ctrs = d.ctrs
  cams : e.cams = d.cams
  ipl : e.ipl = d.ipl
  afe : e.afe = d.afe
  ports : e.ports = d.ports
  power : e.power = d.power
  ctl : e.ctl = d.ctl
  boot : e.boot = d.boot
  tu : e.tu = d.tu
  store0 : e.store0 = d.store0
  store1 : e.store1 = d.store1
  regs : e.regs = d.regs
  recs : e.mpe.recs = d.mpe.recs
  ics : ∀ n, ∃ w b, ic e n = { ic d n with beWin := w, beBuf := b }
  sets : e.od.sets = d.od.sets
  doms : e.od.doms = d.od.doms
  cnts : ∀ k, ¬ FlowKey k → sget (fun _ => 0) e.od.cnts k = sget (fun _ => 0) d.od.cnts k

namespace FlowStep

variable {d e f : Dev}

theorem of_store (h : StoreStep d e) : FlowStep d e :=
  ⟨h.units.clk, h.units.breath, h.units.ctrs, h.units.cams, h.units.ipl, h.units.afe, h.units.ports, h.units.power, h.units.ctl, h.units.boot, h.units.tu,
    h.units.store0, h.units.store1, h.units.regs, by rw [h.units.mpe], fun n => ⟨(ic d n).beWin, (ic d n).beBuf, ic_of_ics h.units.ics n⟩,
    h.sets, h.doms, fun k hk => h.cnts k fun hs => hk (.inl hs)⟩

theorem refl (d : Dev) : FlowStep d d := of_store (.refl d)

theorem trans (h : FlowStep d e) (k : FlowStep e f) : FlowStep d f :=
  ⟨k.clk.trans h.clk, k.breath.trans h.breath, k.ctrs.trans h.ctrs, k.cams.trans h.cams, k.ipl.trans h.ipl, k.afe.trans h.afe, k.ports.trans h.ports,
    k.power.trans h.power, k.ctl.trans h.ctl, k.boot.trans h.boot, k.tu.trans h.tu, k.store0.trans h.store0, k.store1.trans h.store1,
    k.regs.trans h.regs, k.recs.trans h.recs,
    fun n => by
      obtain ⟨w, b, hw⟩ := h.ics n
      obtain ⟨v, c, hv⟩ := k.ics n
      exact ⟨v, c, by rw [hv, hw]⟩,
    k.sets.trans h.sets, k.doms.trans h.doms, fun i hi => (k.cnts i hi).trans (h.cnts i hi)⟩

theorem ite {p : Prop} [Decidable p] (he : FlowStep d e) (hf : FlowStep d f) : FlowStep d (if p then e else f) := by
  split
  · exact he
  · exact hf

theorem foldl {α : Type} {g : Dev → α → Dev} (l : List α) (h : ∀ d : Dev, ∀ x ∈ l, FlowStep d (g d x)) (d : Dev) : FlowStep d (l.foldl g d) := by
  induction l generalizing d with
  | nil => exact refl d
  | cons x xs ih => exact (h d x (by simp)).trans (ih (fun d y hy => h d y (by simp [hy])) _)

theorem setting (h : FlowStep d e) (i sub : Nat) : setting e i sub = setting d i sub := by rw [Machine.setting, Machine.setting, h.sets]

theorem cnt (h : FlowStep d e) {i sub : Nat} (hk : ¬ FlowKey (odKey i sub)) : cnt e i sub = cnt d i sub := h.cnts _ hk

theorem frames (h : FlowStep d e) (n : Nat) : (ic e n).frames = (ic d n).frames := by
  obtain ⟨w, b, hw⟩ := h.ics n
  rw [hw]

theorem cam (h : FlowStep d e) (p : Nat) : cam e p = cam d p := by rw [Machine.cam, Machine.cam, h.cams]

/-- Only the channels and the windows of the MPE moved. -/
theorem seMpe (d : Dev) (se : Streams) (mpe : Mpe) (h : mpe.recs = d.mpe.recs) : FlowStep d { d with se := se, mpe := mpe } :=
  ⟨rfl, rfl, rfl, rfl, rfl, rfl, rfl, rfl, rfl, rfl, rfl, rfl, rfl, rfl, h, fun n => ⟨(ic d n).beWin, (ic d n).beBuf, rfl⟩, rfl, rfl, fun _ _ => rfl⟩

theorem updBe (d : Dev) (n : Nat) (w : Ic → Win) (b : Ic → Sparse (Byte × Bool)) : FlowStep d (updIc d n fun x => { x with beWin := w x, beBuf := b x }) := by
  refine ⟨rfl, rfl, rfl, rfl, rfl, rfl, rfl, rfl, rfl, rfl, rfl, rfl, rfl, rfl, rfl, fun m => ?_, rfl, rfl, fun _ _ => rfl⟩
  by_cases hm : m = n
  · subst hm
    rw [ic_updIc]
    exact ⟨_, _, rfl⟩
  · rw [ic_updIc_ne _ _ hm]
    exact ⟨(ic d m).beWin, (ic d m).beBuf, rfl⟩

theorem updCore (d : Dev) (n : Nat) (g : Core → Core) : FlowStep d (updCore d n g) := of_store (.updCore ..)

theorem setChan (d : Dev) (c : Nat) (v : Chan) : FlowStep d (setChan d c v) := seMpe d _ d.mpe rfl

theorem setWinAt (d : Dev) (node i : Nat) (w : Win) : FlowStep d (setWinAt d node i w) := by
  unfold Machine.setWinAt
  exact ite (updCore ..) (ite (seMpe d d.se _ rfl) (updBe d _ (fun _ => w) fun x => x.beBuf))

theorem drawFree (d : Dev) : FlowStep d (drawFree d).2 :=
  ⟨rfl, rfl, rfl, rfl, rfl, rfl, rfl, rfl, rfl, rfl, rfl, rfl, rfl, rfl, rfl, fun n => ⟨(ic d n).beWin, (ic d n).beBuf, rfl⟩, rfl, rfl, fun _ _ => rfl⟩

theorem discardGranule (d : Dev) (node : Nat) (stale : Bool) (addr : Nat) (writer : BitVec 16) : FlowStep d (discardGranule d node stale addr writer) := by
  unfold Machine.discardGranule
  split
  · split
    · exact of_store (.bumpCore _ _ _ (by omega) (by decide))
    · exact refl d
  · refine .trans ?_ (of_store (.postEvent ..))
    split
    · exact of_store (.bumpCore _ _ _ (by omega) (by decide))
    · exact refl d

theorem discardUnit (d : Dev) (node : Nat) (stale : Bool) (addr : Nat) (writer : BitVec 16) (gs : Nat) : FlowStep d (discardUnit d node stale addr writer gs) :=
  foldl _ (fun e _ _ => discardGranule e ..) d

theorem giveCredits (d : Dev) (node i : Nat) (writer : BitVec 16) (n : Nat) : FlowStep d (giveCredits d node i writer n) := by
  unfold Machine.giveCredits
  dsimp only
  split
  · split
    · exact setChan ..
    · exact refl d
  · exact refl d

theorem sinkUnit (d : Dev) {node : Nat} (hn : node < 16) (i : Nat) (writer : BitVec 16) (gs : Nat) : FlowStep d (sinkUnit d node i writer gs) := by
  refine .trans (e := bump d (0x2300 + node) 6 8 gs) ⟨rfl, rfl, rfl, rfl, rfl, rfl, rfl, rfl, rfl, rfl, rfl, rfl, rfl, rfl, rfl,
    fun n => ⟨(ic d n).beWin, (ic d n).beBuf, rfl⟩, rfl, rfl, fun k hk => sget_sset_ne _ _ _ fun he => hk (.inr ?_)⟩ (giveCredits ..)
  subst he
  unfold odKey
  omega

theorem landData (d : Dev) (node i u b : Nat) (bs : List (Byte × Bool)) : FlowStep d (landData d node i u b bs) := by
  unfold Machine.landData
  dsimp only
  split
  · have hn : node < 20 := by omega
    split
    · exact of_store (.coreStore hn ..)
    · exact (drawFree d).trans (of_store (.coreStore hn ..))
  · exact ite (seMpe d d.se _ rfl) (updBe d _ (fun x => x.beWin) _)

theorem landUnit (d : Dev) (node i u : Nat) (hollow : Bool) : FlowStep d (landUnit d node i u hollow) := setWinAt ..

theorem landNow (d : Dev) (node i u b : Nat) (bs : List (Byte × Bool)) (last hollow : Bool) : FlowStep d (landNow d node i u b bs last hollow) :=
  .trans (ite (refl d) (landData ..)) (ite (landUnit ..) (refl _))

theorem landPart (d : Dev) (node i u b : Nat) (bs : List (Byte × Bool)) (last hollow : Bool) : FlowStep d (landPart d node i u b bs last hollow) :=
  ite (updCore ..) (landNow ..)

theorem landHeld (d : Dev) (n : Nat) : FlowStep d (landHeld d n) := by
  unfold Machine.landHeld
  exact ite (refl d) (.trans (updCore ..) (foldl _ (fun e _ _ => ite (landNow ..) (discardGranule ..)) _))

theorem deliverUnit (d : Dev) (node i : Nat) (writer : BitVec 16) (epoch : BitVec 8) (u : Nat) (bs : List (Byte × Bool)) (hollow : Bool) :
    FlowStep d (deliverUnit d node i writer epoch u bs hollow) := by
  unfold Machine.deliverUnit
  dsimp only
  split
  · rename_i h
    exact sinkUnit d (by simp only [Bool.and_eq_true, decide_eq_true_eq] at h; exact h.1) ..
  · exact ite (discardUnit ..) (ite (landPart ..) (discardUnit ..))

theorem openWindow (d : Dev) (node i : Nat) (wm block : Bool) (size base : Nat) (writer : BitVec 16) (wc : Nat) (epoch : BitVec 8) :
    FlowStep d (openWindow d node i wm block size base writer wc epoch) := by
  unfold Machine.openWindow
  dsimp only
  split
  · split
    · exact (setWinAt ..).trans (setChan ..)
    · exact setWinAt ..
  · exact setWinAt ..

theorem pumpList (n : Nat) (l : List OutUnit) (d : Dev) (held : List (Nat × Nat)) : FlowStep d (pumpList d n l held).1 := by
  induction l generalizing d held with
  | nil => exact refl d
  | cons o t ih =>
    unfold Machine.pumpList
    dsimp only
    split
    · exact ih ..
    · split
      · exact (deliverUnit ..).trans (ih ..)
      · exact ih ..

theorem pump (d : Dev) (n : Nat) : FlowStep d (pump d n) := (pumpList n _ d []).trans (updCore ..)

end FlowStep

end Sys2Proof.Proofs


/-! ## Lines through the raw front, stripes, demosaic and back end; shadow sets (O51) -/

namespace Sys2Proof.Proofs
open Sys2Proof.Machine

/-! ### The raw front -/

theorem noteBlocks_ics (d : Dev) (n : Nat) : (noteBlocks d n).ics = d.ics := rfl

theorem frameOf_of_ics {d e : Dev} (h : e.ics = d.ics) (n no : Nat) : frameOf e n no = frameOf d n no := by rw [frameOf, frameOf, ic_of_ics h]

theorem storeLine_frame {d : Dev} {n no : Nat} {f g : IcFrame} (hf : f.no = no) (h : frameOf d n no = some g) (y : Nat) (l : List Nat) :
    ∃ r, frameOf (storeLine d n f y l) n no = some r ∧ r.raw = g.raw ++ [l] := by
  subst hf
  unfold storeLine
  dsimp only
  rw [frameOf_of_ics (noteBlocks_ics ..), frameOf_updFrame, h]
  · exact ⟨_, rfl, rfl⟩
  · exact fun _ => rfl

theorem defectRow_ics (d : Dev) (n : Nat) (g : Nat → Byte) (y : Nat) : (defectRow d n g y).1.ics = d.ics := by
  unfold defectRow
  dsimp only
  split
  · exact (SameUnits.memRead d ..).ics
  · rfl

/-- A line of a frame noted: a bad one is counted, a good one kept for the next bad one of its row parity. -/
def lineNoted (d : Dev) (x : RxLine) (f : IcFrame) (wide : List Nat) : Dev :=
  if x.bad then bump d (icX x.ctx + 0x20) 4 4 1
  else updFrame d x.ctx f.no fun f => if x.line % 2 == 0 then { f with goodEven := some wide } else { f with goodOdd := some wide }

theorem lineNoted_frame {d : Dev} {x : RxLine} {f : IcFrame} (hno : f.no = x.frame) (h : frameOf d x.ctx x.frame = some f) (wide : List Nat) :
    ∃ g, frameOf (lineNoted d x f wide) x.ctx x.frame = some g ∧ g.raw = f.raw := by
  unfold lineNoted
  split
  · exact ⟨f, h, rfl⟩
  · rw [hno, frameOf_updFrame, h]
    · refine ⟨_, rfl, ?_⟩
      split <;> rfl
    · intro g
      split <;> rfl

/-- The samples of a line out of the stages of the raw front, with the numbers of corrected pixels. -/
def rawSamples (d : Dev) (x : RxLine) (f : IcFrame) : List Nat × Nat × Nat :=
  let g := setOf (ic d x.ctx) x.ctx f.latch
  let wide := x.px.map (· * 2 ^ (16 - rawBits (icType d x.ctx)))
  let src := if x.bad then concealed g (icPhase d x.ctx) (icWidth d x.ctx) x.line (if x.line % 2 == 0 then f.goodEven else f.goodOdd) else wide
  let e := defectRow (lineNoted d x f wide) x.ctx g x.line
  rawStages g (icPhase d x.ctx) (icWidth d x.ctx) (icHeight e.1 x.ctx) x.line e.2 src

theorem rawLine_of_raw {d : Dev} {x : RxLine} {f : IcFrame} (h : icYuv d x.ctx = false) : rawLine d x f =
    storeLine (bump (bump (defectRow (lineNoted d x f (x.px.map (· * 2 ^ (16 - rawBits (icType d x.ctx))))) x.ctx (setOf (ic d x.ctx) x.ctx f.latch) x.line).1
      (icX x.ctx + 0x20) 5 8 (rawSamples d x f).2.1) (icX x.ctx + 0x20) 6 8 (rawSamples d x f).2.2) x.ctx f x.line (rawSamples d x f).1 := by
  unfold rawLine
  dsimp only
  rw [if_neg (by simp [h])]
  rfl

/-- A line that the raw front has processed is appended to its frame's raw lines. -/
theorem rawLine_appends {d : Dev} {x : RxLine} {f : IcFrame} (h : frameOf d x.ctx x.frame = some f) :
    ∃ r l, frameOf (rawLine d x f) x.ctx x.frame = some r ∧ r.raw = f.raw ++ [l] := by
  have hno : f.no = x.frame := by simpa using List.find?_some h
  cases hy : icYuv d x.ctx
  case true =>
    obtain ⟨r, hr, hraw⟩ := storeLine_frame hno h x.line x.px
    rw [rawLine, if_pos hy]
    exact ⟨r, _, hr, hraw⟩
  case false =>
    rw [rawLine_of_raw hy]
    obtain ⟨g, hg, hraw⟩ := lineNoted_frame hno h (x.px.map (· * 2 ^ (16 - rawBits (icType d x.ctx))))
    have hd (gs : Nat → Byte) (a b : Nat) : frameOf (bump (bump (defectRow (lineNoted d x f (x.px.map (· * 2 ^ (16 - rawBits (icType d x.ctx))))) x.ctx gs x.line).1
        (icX x.ctx + 0x20) 5 8 a) (icX x.ctx + 0x20) 6 8 b) x.ctx x.frame = some g := (frameOf_of_ics (defectRow_ics ..) _ _).trans hg
    obtain ⟨r, hr, hr'⟩ := storeLine_frame hno (hd (setOf (ic d x.ctx) x.ctx f.latch) (rawSamples d x f).2.1 (rawSamples d x f).2.2) x.line (rawSamples d x f).1
    exact ⟨r, _, hr, hr'.trans (by rw [hraw])⟩

theorem rawFrontRuns : Claim.RawFrontRuns := by
  intro s h
  have hx (c : Instr) (f : Dev → Dev) (hc : exec c s = nextDev s f) : exec c s = .next (onDev s f) := hc.trans (nextDev_awake h)
  have hraw := hx .rawFrontLine (fun d => rawFront d) rfl
  refine ⟨fun x f hl hf => ?_, fun x hl hf => ?_, fun hl => ?_, fun x f hf _ => ?_⟩
  · rw [hraw, onDev, rawFront, hl]
    dsimp only
    rw [show frameOf { s.dev with ipl := { s.dev.ipl with rx := s.dev.ipl.rx.erase x } } x.ctx x.frame = some f from hf]
  · rw [hraw, onDev, rawFront, hl]
    dsimp only
    rw [show frameOf { s.dev with ipl := { s.dev.ipl with rx := s.dev.ipl.rx.erase x } } x.ctx x.frame = none from hf]
  · rw [hraw, onDev_eq_self]
    rw [rawFront, hl]
  · obtain ⟨r, l, hr, hraw⟩ := rawLine_appends hf
    exact ⟨l, by rw [hr, Option.getD_some, ← hraw]⟩

/-! ### Shadow sets -/

/-- Bytes put into a shadow set: those the table lets be written stand there, without reserved bits; every other byte stays. -/
theorem shadowPut_spec (bs : List Byte) (t : Sparse Byte) (off : Nat) :
    (∀ j < bs.length, shadowWritable (off + j) = true → sget shadowReset (shadowPut t off bs) (off + j) = bs.getD j 0#8 &&& shadowMask (off + j))
    ∧ ∀ x, x < off ∨ off + bs.length ≤ x ∨ shadowWritable x = false → sget shadowReset (shadowPut t off bs) x = sget shadowReset t x := by
  induction bs generalizing t off with
  | nil => exact ⟨fun j hj => (nomatch hj), fun _ _ => rfl⟩
  | cons b bs ih =>
    obtain ⟨hin, hout⟩ := ih (if shadowWritable off then sset shadowReset t off (b &&& shadowMask off) else t) (off + 1)
    constructor
    · intro j hj hw
      cases j with
      | zero =>
        simp only [Nat.add_zero] at hw ⊢
        rw [shadowPut, hout off (.inl (by omega)), if_pos hw, sget_sset]
        rfl
      | succ j =>
        have hj' : off + (j + 1) = off + 1 + j := by omega
        rw [hj'] at hw ⊢
        exact hin j (by simpa using hj) hw
    · intro x hx
      rw [List.length_cons] at hx
      rw [shadowPut, hout x (hx.imp (by omega) (Or.imp_left (by omega)))]
      split
      · rename_i hw
        refine sget_sset_ne _ _ _ ?_
        rintro rfl
        rcases hx with hx | hx | hx
        · omega
        · omega
        · rw [hw] at hx
          nomatch hx
      · rfl

theorem applyShadow_bytes (c : Ic) {off : Nat} (h : off < 0x10000) (bs : List Byte) : applyShadow c (off, bs) = { c with shadow := shadowPut c.shadow off bs } := by
  rw [applyShadow, if_neg (by unfold heldCtrl; dsimp only; omega), if_neg (by unfold heldOdEnd; dsimp only; omega)]

theorem updIc_congr {d : Dev} {n : Nat} {f g : Ic → Ic} (h : f (ic d n) = g (ic d n)) : updIc d n f = updIc d n g := by
  rw [updIc, updIc]
  simp only [supd]
  rw [show f (sget (fun _ => {}) d.ics n) = g (sget (fun _ => {}) d.ics n) from h]

theorem shadowWritesApply : Claim.ShadowWritesApply := by
  intro s n h
  have hx (c : Instr) (f : Dev → Dev) (hc : exec c s = nextDev s f) : exec c s = .next (onDev s f) := hc.trans (nextDev_awake h)
  refine ⟨fun off bs hc => ⟨_, hx (.shadowWrite n off bs) (fun d => shadowWrite d n off.toNat bs) rfl, ?_⟩, fun off bs hc => ?_, fun hc => ?_,
    fun hc => ⟨_, hx (.latchCopyDone n) (fun d => copyDone d n) rfl, fun m => ?_⟩⟩
  · have hoff : off.toNat < 0x10000 := by have := off.isLt; omega
    obtain ⟨hin, hout⟩ := shadowPut_spec bs (ic s.dev n).shadow off.toNat
    have hn : ic (shadowWrite s.dev n off.toNat bs) n = { ic s.dev n with shadow := shadowPut (ic s.dev n).shadow off.toNat bs } := by
      rw [shadowWrite, ic_updIc, if_neg (by simp [hc]), applyShadow_bytes _ hoff]
    rw [onDev]
    dsimp only
    rw [hn]
    exact ⟨hin, hout, rfl, fun m hm => ic_updIc_ne _ _ hm⟩
  · rw [hx (.shadowWrite n off bs) (fun d => shadowWrite d n off.toNat bs) rfl, onDev, shadowWrite]
    refine congrArg (fun e => Host.Outcome.next { s with dev := e }) (updIc_congr ?_)
    exact if_pos hc
  · rw [hx (.latchCopyDone n) (fun d => copyDone d n) rfl, onDev, copyDone]
    refine congrArg (fun e => Host.Outcome.next { s with dev := e }) (updIc_congr ?_)
    exact if_pos hc
  · rw [onDev, copyDone]
    by_cases hm : m = n
    · subst hm
      rw [ic_updIc, if_neg (by simp [hc])]
    · rw [ic_updIc_ne _ _ hm]

/-! ### Stripes, demosaic and back end -/

theorem sendSegment_flow (d : Dev) (n i : Nat) (us : List (List Byte)) : FlowStep d (sendSegment d n i us) :=
  .foldl _ (fun e _ _ => .deliverUnit e ..) d

theorem icStripes_of_setting {d e : Dev} (h : ∀ i s, setting e i s = setting d i s) (n : Nat) : icStripes e n = icStripes d n := by
  rw [icStripes, icStripes, icWidth, icWidth, icSw, icSw, h, h]

section
variable {d : Dev} {n : Nat}

theorem pairSend_none (h : nextPair d n = none ∨ iplEntry d n = none) : pairSend d n = d := by
  unfold pairSend
  rcases h with h | h
  · rw [h]
  · rw [h]
    cases nextPair d n <;> rfl

/-- The units of a stripe's pair segment. -/
def segmentUnits (d : Dev) (n s : Nat) (ls : List (List Nat)) : List (List Byte) :=
  chunks 512 (ceilDiv (ls.flatMap (segment d n s)).length 512) (ls.flatMap (segment d n s))

theorem pairSend_some {f : IcFrame} {ls : List (List Nat)} {i : Nat} (hp : nextPair d n = some (f, ls)) (hi : iplEntry d n = some i) :
    pairSend d n = if (segmentUnits d n f.pairS ls).length ≤ ((winAt d 16 i).granted - (winAt d 16 i).fill).toNat then
        noteBlocks (updFrame (sendSegment d n i (segmentUnits d n f.pairS ls)) n f.no fun f' => freeLines { f' with
          pairQ := (if f.pairS + 1 = icStripes d n then (f.pairQ + 1, 0) else (f.pairQ, f.pairS + 1)).1
          pairS := (if f.pairS + 1 = icStripes d n then (f.pairQ + 1, 0) else (f.pairQ, f.pairS + 1)).2
          lm := f'.lm.map fun q => if q.line / 2 = f'.pairQ then { q with stripes := q.stripes &&& ~~~(BitVec.ofNat 16 (2 ^ f.pairS)) } else q }) n
      else d := by
  rw [← icStripes_of_setting (sendSegment_flow d n i (segmentUnits d n f.pairS ls)).setting n]
  unfold pairSend
  rw [hp, hi]
  rfl

theorem demosaicLine_idle (h : icYuv d n = true ∨ (ic d n).frames.find? demosaicReady = none) : demosaicLine d n = d := by
  unfold demosaicLine
  split
  · rfl
  · rename_i hy
    rcases h with h | h
    · exact absurd h hy
    · rw [h]

/-- The line that the demosaic makes next of a frame. -/
def demosaicNext (d : Dev) (n : Nat) (f : IcFrame) : List (Nat × Nat × Nat) :=
  (List.range (icWidth d n)).map fun x => demosaicPixel f.raw (icPhase d n) (icWidth d n) (if rawDone f then f.lines else f.raw.length + 1) x f.demosaiced

/-- A frame with its next line demosaiced, and the lines freed that no consumer needs. -/
def demosaicedBy (d : Dev) (n : Nat) (f g : IcFrame) : IcFrame :=
  freeLines { g with
    demosaiced := f.demosaiced + 1, linear := g.linear ++ [demosaicNext d n f]
    lm := g.lm.map fun q => if q.line < f.demosaiced ∨ ((rawDone f && f.demosaiced + 1 == f.lines) = true ∧ q.line = f.demosaiced) then { q with demosaic := false } else q }

theorem demosaicLine_ready {f : IcFrame} (hy : icYuv d n = false) (hf : (ic d n).frames.find? demosaicReady = some f) :
    demosaicLine d n = noteBlocks (updFrame d n f.no (demosaicedBy d n f)) n := by
  unfold demosaicLine
  rw [if_neg (by simp [hy]), hf]
  rfl

/-- The demosaic appends its line to the frame, and to no other. -/
theorem demosaicLine_appends {f : IcFrame} (hy : icYuv d n = false) (hf : (ic d n).frames.find? demosaicReady = some f) :
    frameOf (demosaicLine d n) n f.no ≠ none
    ∧ ∀ g ∈ (ic (demosaicLine d n) n).frames, g.no = f.no → (∀ g' ∈ (ic d n).frames, g'.no = f.no → g' = f) →
        g.demosaiced = f.demosaiced + 1 ∧ g.linear = f.linear ++ [demosaicNext d n f] := by
  rw [demosaicLine_ready hy hf]
  have hmem := List.mem_of_find?_eq_some hf
  have hno (g : IcFrame) : (demosaicedBy d n f g).no = g.no := rfl
  constructor
  · rw [frameOf_of_ics (noteBlocks_ics ..), frameOf_updFrame _ _ _ hno]
    cases hg : frameOf d n f.no with
    | none => exact absurd (List.find?_eq_none.mp hg f hmem) (by simp)
    | some g => simp
  · rw [ic_of_ics (noteBlocks_ics ..), updFrame, ic_updIc]
    intro g hg hgno hone
    obtain ⟨x, hx, rfl⟩ := List.mem_map.mp hg
    have hxf : x = f := by
      refine hone x hx ?_
      split at hgno
      · assumption
      · exact hgno
    rw [hxf, if_pos rfl]
    exact ⟨rfl, rfl⟩

theorem backEndLine_idle (h : (ic d n).frames.find? (fun f => beOwes f && !f.lost) = none) : backEndLine d n = d := by rw [backEndLine, h]

variable {f : IcFrame} (h : (ic d n).frames.find? (fun f => beOwes f && !f.lost) = some f)
include h

theorem backEndLine_neural (hn : f.neural = true) : backEndLine d n = beNeural d n f := by
  rw [backEndLine, h]
  exact if_pos hn

theorem backEndLine_fallback (hn : f.neural = false) : backEndLine d n = beFallback d n f := by
  rw [backEndLine, h]
  exact if_neg (by simp [hn])

end

theorem pipelineLinesRunClaim : Claim.PipelineLinesRun := by
  intro s n h
  have hx (c : Instr) (f : Dev → Dev) (hc : exec c s = nextDev s f) : exec c s = .next (onDev s f) := hc.trans (nextDev_awake h)
  have hpair := hx (.pairSegmentSend n) (fun d => pairSend d n) rfl
  have hdem := hx (.demosaicLine n) (fun d => demosaicLine d n) rfl
  have hback := hx (.backEndLine n) (fun d => backEndLine d n) rfl
  have htime := hx (.beTimeout n) (fun d => beTimeout d n) rfl
  refine ⟨fun hp => ?_, fun f ls i hp hi => ⟨fun hc => ?_, fun hc => ?_⟩, fun hd => ?_, fun f hy hf => ⟨_, hdem, demosaicLine_appends hy hf⟩, fun hb => ?_,
    fun f hf => ⟨fun hn hl => ?_, fun hn hl => ?_, fun l hn hy hl => ?_, fun hn hy hl => ?_, fun px hn hy hl => ?_, fun hn hy hl => ?_⟩, fun ha => ?_, fun ha => ?_⟩
  · rw [hpair, onDev_eq_self (pairSend_none hp)]
  · rw [hpair, onDev, pairSend_some hp hi]
    exact congrArg (fun e => Host.Outcome.next { s with dev := e }) (if_pos hc)
  · rw [hpair, onDev_eq_self]
    rw [pairSend_some hp hi]
    exact if_neg (by unfold segmentUnits; omega)
  · rw [hdem, onDev_eq_self (demosaicLine_idle hd)]
  · rw [hback, onDev_eq_self (backEndLine_idle hb)]
  · rw [hback, onDev, backEndLine_neural hf hn, beNeural, if_pos hl]
    dsimp only
    refine congrArg (fun e => Host.Outcome.next { s with dev := addRgb e n f.no ((beLine s.dev n).map (backPixel (Machine.setOf (ic s.dev n) n f.latch))) }) (updIc_congr ?_)
    rfl
  · rw [hback, onDev_eq_self]
    rw [backEndLine_neural hf hn, beNeural, if_neg (by simp [hl])]
  · rw [hback, onDev, backEndLine_fallback hf hn, beFallback]
    dsimp only
    rw [if_neg (by simp [hy]), hl]
  · rw [hback, onDev_eq_self]
    rw [backEndLine_fallback hf hn, beFallback]
    dsimp only
    rw [if_neg (by simp [hy]), hl]
  · rw [hback, onDev, backEndLine_fallback hf hn, beFallback]
    dsimp only
    rw [if_pos hy, hl]
  · rw [hback, onDev_eq_self]
    rw [backEndLine_fallback hf hn, beFallback]
    dsimp only
    rw [if_pos hy, hl]
  · rw [htime, onDev, beTimeout, if_pos ha]
  · rw [htime, onDev_eq_self]
    rw [beTimeout, if_neg (by simp [ha])]

/-- Settles O51: the raw front, shadow sets, the neural path and the back end. -/
theorem pipelineLinesRun : Obligations.PipelineLinesRun := ⟨rawFrontRuns, shadowWritesApply, pipelineLinesRunClaim⟩

end Sys2Proof.Proofs


/-! ## MPE records become resident and run lines in order of class (O46) -/

namespace Sys2Proof.Proofs
open Sys2Proof.Machine

/-- The scan of `bestOf` ends with an entry no worse than what it began with and than every entry of the list. -/
theorem foldl_best_le {α : Type} (rank : α → Nat) (z : α) (l : List α) (b : Option α) (h : b = some z ∨ z ∈ l) :
    ∃ y, l.foldl (fun b x => match b with | some y => if rank x < rank y then some x else some y | none => some x) b = some y ∧ rank y ≤ rank z := by
  induction l generalizing b z with
  | nil => exact ⟨z, by simpa using h, Nat.le_refl _⟩
  | cons x xs ih =>
    rw [List.foldl_cons]
    rcases h with rfl | h
    · dsimp only
      split
      · obtain ⟨y, hy, hle⟩ := ih x (some x) (.inl rfl)
        exact ⟨y, hy, by omega⟩
      · exact ih z (some z) (.inl rfl)
    · rcases List.mem_cons.mp h with rfl | h
      · cases b with
        | none => exact ih z (some z) (.inl rfl)
        | some q =>
          dsimp only
          split
          · exact ih z (some z) (.inl rfl)
          · obtain ⟨y, hy, hle⟩ := ih q (some q) (.inl rfl)
            exact ⟨y, hy, by omega⟩
      · exact ih z _ (.inr h)

theorem bestOf_le {α : Type} (rank : α → Nat) {l : List α} {x : α} (hx : x ∈ l) : ∃ y, bestOf rank l = some y ∧ rank y ≤ rank x :=
  foldl_best_le rank x l none (.inr hx)

/-- The records after one has become resident, its weights loaded and its window open. -/
def recResided (d : Dev) (j : Nat) (r : MpeRec) : Dev :=
  let slot := ((List.range 8).find? fun k => !((mpeResidents d).map (·.slot)).contains k).getD 0
  mpeLoad (updRec d j fun r' => { r' with resident := true, slot := slot, units := recUnits d r.op }) slot r.op

theorem mpeLoad_mpe (d : Dev) (slot : Nat) (o : Op) : (mpeLoad d slot o).mpe.recs = d.mpe.recs ∧ (mpeLoad d slot o).mpe.wins = d.mpe.wins := by
  have hput (e : Dev) (unit a n : Nat) :
      ({ (memReadMarked e (some agMpe) srcMpe a n).1 with mpe := { (memReadMarked e (some agMpe) srcMpe a n).1.mpe with
          buf := putMarked (memReadMarked e (some agMpe) srcMpe a n).1.mpe.buf ((mpeSlotUnit slot + unit) * 512) (memReadMarked e (some agMpe) srcMpe a n).2 } } : Dev).mpe.recs = e.mpe.recs
      ∧ ({ (memReadMarked e (some agMpe) srcMpe a n).1 with mpe := { (memReadMarked e (some agMpe) srcMpe a n).1.mpe with
          buf := putMarked (memReadMarked e (some agMpe) srcMpe a n).1.mpe.buf ((mpeSlotUnit slot + unit) * 512) (memReadMarked e (some agMpe) srcMpe a n).2 } } : Dev).mpe.wins = e.mpe.wins :=
    ⟨congrArg (·.recs) (SameUnits.memReadMarked e _ _ _ _).mpe, congrArg (·.wins) (SameUnits.memReadMarked e _ _ _ _).mpe⟩
  unfold mpeLoad
  dsimp only
  split
  · exact hput ..
  · exact ⟨(hput ..).1.trans (hput ..).1, (hput ..).2.trans (hput ..).2⟩

theorem mpeReside_some {d : Dev} {j : Nat} {r : MpeRec} (h : ((withPos d.mpe.recs).find? fun x => mayReside d x.1 x.2) = some (j, r)) :
    mpeReside d = mpeNote (openWindow (recResided d j r) 16 (mpeA r.op).window false false
      (mpeWindow (recResided d j r) r.op.word (mpeA r.op) - 1) 0 (mpeWinWriter (recResided d j r) r.op) r.op.wc r.op.epoch) := by
  unfold mpeReside
  rw [h]
  rfl

theorem winAt_setWinAt (d : Dev) (node i : Nat) (w : Win) : winAt (setWinAt d node i w) node i = w := by
  unfold winAt setWinAt
  split
  · rw [coreOf_updCore]
    exact sget_sset ..
  · split
    · exact sget_sset ..
    · rw [ic_updIc]

theorem winAt_setChan (d : Dev) (c : Nat) (v : Chan) (node i : Nat) : winAt (setChan d c v) node i = winAt d node i := rfl

/-- A window as it opens. -/
def openedWin (wm block : Bool) (size base : Nat) (writer : BitVec 16) (wc : Nat) (epoch : BitVec 8) : Win :=
  { state := 1, wm := wm, block := block, epoch := epoch, wc := wc, writer := writer, granted := BitVec.ofNat 12 (size + 1), size := size, base := base }

theorem winAt_openWindow (d : Dev) (node i : Nat) (wm block : Bool) (size base : Nat) (writer : BitVec 16) (wc : Nat) (epoch : BitVec 8) :
    winAt (openWindow d node i wm block size base writer wc epoch) node i = openedWin wm block size base writer wc epoch := by
  unfold openWindow
  dsimp only
  split
  · split
    · rw [winAt_setChan, winAt_setWinAt]
      rfl
    · exact winAt_setWinAt ..
  · exact winAt_setWinAt ..

theorem mpeNote_mpe (d : Dev) : (mpeNote d).mpe = d.mpe := rfl

theorem winAt_of_mpe {d e : Dev} (h : e.mpe = d.mpe) (i : Nat) : winAt e 16 i = winAt d 16 i := by
  unfold winAt
  simp only [Nat.lt_irrefl, if_false, if_true, h]

theorem modifyAt_getElem? {α : Type} (l : List α) (i : Nat) (f : α → α) : (modifyAt l i f)[i]? = l[i]?.map f := by
  induction l generalizing i with
  | nil => rfl
  | cons x xs ih =>
    cases i with
    | zero => rfl
    | succ i => exact ih i

/-- The first record that fits is resident, with its units; its window is open for its work context and epoch; the report counts it. -/
theorem mpeReside_spec {d : Dev} {j : Nat} {r : MpeRec} (h : ((withPos d.mpe.recs).find? fun x => mayReside d x.1 x.2) = some (j, r)) :
    (((mpeReside d).mpe.recs[j]?).map (·.resident)) = some true ∧ (((mpeReside d).mpe.recs[j]?).map (·.units)) = some (recUnits d r.op)
    ∧ (winAt (mpeReside d) 16 (mpeA r.op).window).state = 1 ∧ (winAt (mpeReside d) 16 (mpeA r.op).window).epoch = r.op.epoch
    ∧ (winAt (mpeReside d) 16 (mpeA r.op).window).wc = r.op.wc
    ∧ (mpeFrom r.op.word = true → (winAt (mpeReside d) 16 (mpeA r.op).window).writer = BitVec.ofNat 16 (0x3000 + mpeIc r.op.word))
    ∧ cnt (mpeReside d) 0x22A0 6 = ((mpeReside d).mpe.recs.filter (·.resident)).length ∧ cnt (mpeReside d) 0x22A0 7 = mpeUsed (mpeReside d) := by
  have hj : d.mpe.recs[j]? = some r := mem_withPos.mp (List.mem_of_find?_eq_some h)
  rw [mpeReside_some h]
  generalize hw : openWindow (recResided d j r) 16 (mpeA r.op).window false false
      (mpeWindow (recResided d j r) r.op.word (mpeA r.op) - 1) 0 (mpeWinWriter (recResided d j r) r.op) r.op.wc r.op.epoch = e
  have hwin : winAt (mpeNote e) 16 (mpeA r.op).window = openedWin false false (mpeWindow (recResided d j r) r.op.word (mpeA r.op) - 1) 0
      (mpeWinWriter (recResided d j r) r.op) r.op.wc r.op.epoch := by
    rw [winAt_of_mpe (mpeNote_mpe e), ← hw]
    exact winAt_openWindow ..
  have hrec : (mpeNote e).mpe.recs[j]? = some { r with
      resident := true, slot := ((List.range 8).find? fun k => !((mpeResidents d).map (·.slot)).contains k).getD 0, units := recUnits d r.op } := by
    rw [mpeNote_mpe, ← hw, (FlowStep.openWindow ..).recs]
    unfold recResided
    dsimp only
    rw [(mpeLoad_mpe ..).1, updRec]
    dsimp only
    rw [modifyAt_getElem?, hj]
    rfl
  rw [hwin, hrec]
  refine ⟨rfl, rfl, rfl, rfl, rfl, fun hf => ?_, ?_, ?_⟩
  · rw [openedWin, mpeWinWriter, if_pos hf]
  · rw [mpeNote, cnt_setCnt_ne _ _ _ _ (by decide), cnt_setCnt]
    rfl
  · rw [mpeNote, cnt_setCnt]
    rfl

/-- The line command's rank of a ready record: class, then work context in rotation, then age. -/
def mpeRank (d : Dev) (x : Nat × MpeRec) : Nat :=
  (wClass (wcOf d x.2.op.wc) * 4096 + (x.2.op.wc + 4096 - (sget (fun _ => 4095) d.mpe.rr (wClass (wcOf d x.2.op.wc)) + 1)) % 4096) * 64 + x.1

theorem mpeLine_eq (d : Dev) (u1 u2 : Option Upset) : mpeLine d u1 u2 =
    match bestOf (mpeRank d) ((withPos d.mpe.recs).filter fun x => mpeReady d x.2) with
    | some (j, r) => mpeSettle (mpeLineAt d j r u1 u2)
    | none => mpeSettle d := rfl

/-- Settles O46: residency and the order of lines. -/
theorem mpeRecordsRun : Obligations.MpeRecordsRun := by
  intro s h
  have hx (c : Instr) (f : Dev → Dev) (hc : exec c s = nextDev s f) : exec c s = .next (onDev s f) := hc.trans (nextDev_awake h)
  have hres := hx .mpeRecordResident mpeReside rfl
  refine ⟨fun j r hj => ⟨_, hres, mpeReside_spec hj⟩, fun hn => ?_, fun u1 u2 => ?_⟩
  · rw [hres, onDev_eq_self]
    rw [mpeReside, hn]
  have hline := hx (.mpeLine u1 u2) (fun d => mpeLine d u1 u2) rfl
  refine ⟨fun hl => ?_, fun j r hl => ?_, fun j r hlen hm hr => ?_⟩
  · rw [hline, onDev, mpeLine_eq, hl]
    rfl
  · rw [hline, onDev, mpeLine_eq, hl]
    rfl
  · obtain ⟨⟨k, q⟩, hb, hle⟩ := bestOf_le (mpeRank s.dev) (List.mem_filter (p := fun x => mpeReady s.dev x.2) |>.mpr ⟨hm, hr⟩)
    obtain ⟨hk, hq⟩ := List.mem_filter.mp (bestOf_mem hb)
    have hj : j < 64 := by
      have := (List.getElem?_eq_some_iff.mp (mem_withPos.mp hm)).1
      omega
    refine ⟨k, q, hk, hq, ?_, ?_⟩
    · unfold mpeRank at hle
      dsimp only at hle
      have h1 := Nat.mod_lt (r.op.wc + 4096 - (sget (fun _ => 4095) s.dev.mpe.rr (wClass (wcOf s.dev r.op.wc)) + 1)) (show 0 < 4096 by decide)
      generalize (r.op.wc + 4096 - (sget (fun _ => 4095) s.dev.mpe.rr (wClass (wcOf s.dev r.op.wc)) + 1)) % 4096 = a at hle h1
      generalize (q.op.wc + 4096 - (sget (fun _ => 4095) s.dev.mpe.rr (wClass (wcOf s.dev q.op.wc)) + 1)) % 4096 = b at hle
      omega
    · rw [hline, onDev, mpeLine_eq, hb]

end Sys2Proof.Proofs


/-! ## Issue, and the synchronisation instructions (O29) -/

namespace Sys2Proof.Proofs
open Sys2Proof.Machine

/-! ### What issue leaves of the work contexts -/

theorem leaves_updCore {K : Nat → Prop} (d : Dev) (n : Nat) (g : Core → Core) : Leaves K d (updCore d n g) := .of_same rfl rfl rfl

theorem leaves_scrubCancel {K : Nat → Prop} (d : Dev) (n mem w : Nat) : Leaves K d (scrubCancel d n mem w) := by
  unfold scrubCancel
  exact ite_leaves (leaves_updCore ..) (.refl d)

theorem leaves_coreCorrected (d : Dev) (n mem w : Nat) : Leaves (fun _ => True) d (coreCorrected d n mem w) := by
  unfold coreCorrected
  dsimp only
  split
  · exact .trans (leaves_bump _ _ _ _ _ trivial) (.trans (leaves_updCore ..) (.trans (leaves_latch ..) (.trans (leaves_postEvent ..) (leaves_updCore ..))))
  · exact .trans (leaves_bump _ _ _ _ _ trivial) (leaves_updCore ..)

theorem leaves_scrubEnter (d : Dev) (n mem w : Nat) : Leaves (fun _ => True) d (scrubEnter d n mem w) := by
  unfold scrubEnter
  exact ite_leaves (.refl d) (ite_leaves (leaves_updCore ..) (leaves_bump _ _ _ _ _ trivial))

theorem leaves_coreUncorrectable (d : Dev) (n mem w : Nat) : Leaves (fun _ => True) d (coreUncorrectable d n mem w) := by
  unfold coreUncorrectable
  dsimp only
  exact .trans (leaves_bump _ _ _ _ _ trivial) (.trans (leaves_updMem ..) (.trans (ite_leaves (leaves_updCore ..) (leaves_updMem ..)) (leaves_postEvent ..)))

theorem leaves_coreMemRead (d : Dev) (n mem w u : Nat) : Leaves (fun _ => True) d (coreMemRead d n mem w u) := by
  unfold coreMemRead
  dsimp only
  split
  · exact leaves_updMem ..
  · exact (leaves_updMem ..).trans ((leaves_coreCorrected ..).trans (leaves_scrubEnter ..))
  · exact (leaves_updMem ..).trans (leaves_coreUncorrectable ..)

theorem leaves_readWords (d : Dev) (n mem lo hi : Nat) : Leaves (fun _ => True) d (readWords d n mem lo hi) :=
  leaves_foldl _ (fun e _ _ => leaves_coreMemRead e ..) d

theorem leaves_readOperands (d : Dev) (n : Nat) (o : Op) : Leaves (fun _ => True) d (readOperands d n o) := by
  unfold readOperands
  split
  · exact .refl d
  · dsimp only
    have hfold {α : Type} (l : List α) (e : Dev) (f : α → Nat) (g : α → Nat) (k : α → Nat) :
        Leaves (fun _ => True) e (l.foldl (fun e x => readWords e n (f x) (g x) (k x)) e) := leaves_foldl l (fun e _ _ => leaves_readWords e ..) e
    refine .trans ?_ (hfold ..)
    split
    · exact .trans (leaves_readWords ..) (.trans (hfold ..) (.trans (hfold ..) (hfold ..)))
    · exact .trans (leaves_readWords ..) (.trans (hfold ..) (hfold ..))

theorem leaves_issueCommon (d : Dev) (n i : Nat) (o : Op) : Leaves (fun _ => True) d (issueCommon d n i o).1 := by
  unfold issueCommon
  dsimp only
  exact .trans (leaves_readOperands d n o) (.trans (ite_leaves (.trans (leaves_bump _ _ _ _ _ trivial) (leaves_postEventWc ..)) (.refl _))
    (.trans (ite_leaves (leaves_bump _ _ _ _ _ trivial) (.refl _)) (.trans (leaves_updCore ..) (leaves_updCore ..))))

/-- Waits marked before an issue: of a work context only the asked turns move. -/
theorem signalOf_beforeIssue (d : Dev) (n w k : Nat) : signalOf (wcOf (beforeIssue d n) w) k = signalOf (wcOf d w) k := by
  have hask (e : Dev) : signalOf (wcOf (askTurns e n) w) k = signalOf (wcOf e w) k := by
    unfold askTurns
    dsimp only
    split
    · rfl
    · rw [wcOf_bump]
      refine foldl_keeps (fun e : Dev => signalOf (wcOf e w) k) _ (fun a x _ => ?_) e
      by_cases hw : w = x.2.wc
      · subst hw
        rw [wcOf_updWc]
        rfl
      · rw [wcOf_updWc_ne _ _ hw]
  have hnote : wcOf (notePhases d n) w = wcOf d w := by
    rw [notePhases]
    exact wcOf_updCore ..
  unfold beforeIssue
  dsimp only
  split
  · rw [wcOf_bump, hask, hnote]
  · rw [hask, hnote]

theorem signalOf_issuedDev (d : Dev) (n i : Nat) (o : Op) (w k : Nat) : signalOf (wcOf (issuedDev d n i o) w) k = signalOf (wcOf d w) k := by
  rw [issuedDev, (leaves_issueCommon ..).wcOf, signalOf_beforeIssue]

/-! ### Issue -/

theorem issuedOp_word (d : Dev) (n i : Nat) (o : Op) : (issuedOp d n i o).word = o.word := rfl

theorem issuedOp_wc (d : Dev) (n i : Nat) (o : Op) : (issuedOp d n i o).wc = o.wc := rfl

section
variable {d : Dev} {n i : Nat} {o : Op} {p : Op → Bool} {run : Dev → Nat → Op → Dev}

theorem issueAs_taken (h : Taken d n i o) (hp : p o = true) : issueAs d n p run =
    if (issuedOp d n i o).poisoned then finishOp (issuedDev d n i o) n i id
    else if (!walksWindow o || rGroup o.word != 0) && namesHollow (coreOf (issuedDev d n i o) n) (issuedOp d n i o) then
      finishOp (sendUnits (issuedDev d n i o) n (hollowUnits (issuedOp d n i o))) n i fun o => { o with incomplete := true, exhausted := true }
    else run (issuedDev d n i o) i (issuedOp d n i o) := by
  rw [issueAs, if_neg (by simp [h.running, h.enabled])]
  dsimp only
  rw [h.chosen]
  exact if_pos hp

/-- An instruction that issues reaches its own effect. -/
theorem issueAs_issues (h : Issues d n i o) (hp : p o = true) : issueAs d n p run = run (issuedDev d n i o) i (issuedOp d n i o) := by
  rw [issueAs_taken h.toTaken hp, if_neg (by simp [h.clean]), if_neg]
  rcases h.whole with ⟨hw, hg⟩ | hh
  · simp [hw, hg]
  · simp [hh]

/-- A poisoned command is complete at once. -/
theorem issueAs_poisoned (h : Taken d n i o) (hp : p o = true) (hpo : (issuedOp d n i o).poisoned = true) :
    issueAs d n p run = finishOp (issuedDev d n i o) n i id := by
  rw [issueAs_taken h hp, if_pos hpo]

end

/-- The instruction that issues carries out its effect. -/
theorem exec_issues {s : State} {n i : Nat} {o : Op} (ha : Awake s) (h : Issues s.dev n i o) {c : Instr} (p : Op → Bool) (run : Dev → Nat → Op → Dev)
    (hc : exec c s = nextDev s fun d => issueAs d n p run) (hp : p o = true) :
    exec c s = .next { s with dev := run (issuedDev s.dev n i o) i (issuedOp s.dev n i o) } := by
  rw [hc, nextDev_awake ha, onDev, issueAs_issues h hp]

/-! ### Signals -/

theorem wcOf_memWrite (d : Dev) (g : Option Nat) (src a : Nat) (bs : List Byte) (p : Bool) (w : Nat) : wcOf (memWrite d g src a bs p) w = wcOf d w :=
  (leaves_memWrite d g src a bs p).wcOf w

/-- A signal set: that counter of that work context, and no other. -/
theorem signalOf_setSignal (d : Dev) (w i : Nat) (v : W32) :
    signalOf (wcOf (setSignal d w i v) w) i = v
    ∧ (∀ k, k ≠ i → signalOf (wcOf (setSignal d w i v) w) k = signalOf (wcOf d w) k)
    ∧ ∀ u k, u ≠ w → signalOf (wcOf (setSignal d w i v) u) k = signalOf (wcOf d u) k := by
  unfold setSignal
  dsimp only
  refine ⟨?_, fun k hk => ?_, fun u k hu => ?_⟩
  · rw [wcOf_memWrite, wcOf_updWc]
    exact sget_sset ..
  · rw [wcOf_memWrite, wcOf_updWc]
    exact sget_sset_ne _ _ _ hk
  · rw [wcOf_memWrite, wcOf_updWc_ne _ _ hu]

theorem wcOf_finishOp (d : Dev) (n i : Nat) (f : Op → Op) (w : Nat) : wcOf (finishOp d n i f) w = wcOf d w := rfl

/-- The effect of a SIGNAL that has issued: VALUE is added to its counter, and no other counter moves. -/
theorem signalRun_spec (d : Dev) (n i : Nat) (o : Op) :
    let e := finishOp (addSignal (issuedDev d n i o) (issuedOp d n i o).wc (rIndex (issuedOp d n i o).word) (rValue (issuedOp d n i o).word)) n i id
    signalOf (wcOf e o.wc) (rIndex o.word) = signalOf (wcOf d o.wc) (rIndex o.word) + rValue o.word
    ∧ (∀ k, k ≠ rIndex o.word → signalOf (wcOf e o.wc) k = signalOf (wcOf d o.wc) k)
    ∧ ∀ v k, v ≠ o.wc → signalOf (wcOf e v) k = signalOf (wcOf d v) k := by
  have hs (w k : Nat) := signalOf_issuedDev d n i o w k
  dsimp only
  rw [issuedOp_word, issuedOp_wc]
  generalize issuedDev d n i o = e at hs
  rw [addSignal]
  obtain ⟨h1, h2, h3⟩ := signalOf_setSignal e o.wc (rIndex o.word) (signalOf (wcOf e o.wc) (rIndex o.word) + rValue o.word)
  simp only [wcOf_finishOp]
  exact ⟨h1.trans (by rw [hs]), fun k hk => (h2 k hk).trans (hs ..), fun v k hv => (h3 v k hv).trans (hs ..)⟩

/-- Settles O29: the synchronisation instructions. -/
theorem syncInstructionsRun : Obligations.SyncInstructionsRun := by
  intro s n i o ha h
  have hex {c : Instr} (p : Op → Bool) (run : Dev → Nat → Op → Dev) (hc : exec c s = nextDev s fun d => issueAs d n p run) (hp : p o = true) :=
    exec_issues ha h p run hc hp
  dsimp only
  refine ⟨fun ho => ?_, fun ho hs => ?_, fun ho hs => ?_, fun ho => ?_, fun ho => ?_, fun ho => ?_, fun ho hl => ?_, fun ho hl e bs poison hm => ?_⟩
  · exact hex (c := .fuse n) _ (fun d i o => runFuse d n i o) rfl (by simp [ho])
  · exact hex (c := .barrierCore n) _ (fun d i _ => finishOp d n i id) rfl (by simp [ho, hs])
  · exact hex (c := .barrierWorkContext n) _ (fun d _ o => runBarrierWc d n o) rfl (by simp [ho, hs])
  · exact hex (c := .wait n) _ (fun d i _ => finishOp d n i id) rfl (by simp [ho])
  · exact hex (c := .nop n) _ (fun d i _ => finishOp d n i id) rfl (by simp [ho])
  · obtain ⟨h1, h2, h3⟩ := signalRun_spec s.dev n i o
    exact ⟨_, hex (c := .signal n) _ (fun d i o => finishOp (addSignal d o.wc (rIndex o.word) (rValue o.word)) n i id) rfl (by simp [ho]), rfl, rfl, h1, h2, h3⟩
  · rw [hex (c := .setlen n) _ (fun d i o => runSetlen d n i o) rfl (by simp [ho])]
    exact congrArg (fun e => Host.Outcome.next { s with dev := e }) (if_pos hl)
  · rw [hex (c := .setlen n) _ (fun d i o => runSetlen d n i o) rfl (by simp [ho])]
    have hl0 : ¬ rLsrc (issuedOp s.dev n i o).word = 0 := by rw [issuedOp_word, hl]; decide
    rw [runSetlen, if_neg hl0, issuedOp_word, hm]

end Sys2Proof.Proofs


/-! ## The end of an instruction; poisoned commands (O34) -/

namespace Sys2Proof.Proofs
open Sys2Proof.Machine

theorem retireAt_of_may {d : Dev} {n i : Nat} {o : Op} (ho : (coreOf d n).ops[i]? = some o) (hd : (coreOf d n).disabled = false)
    (hm : mayRetire (coreOf d n) o = true) : retireAt d n i = retireOp d n i o := by
  rw [retireAt, ho]
  exact if_pos (by simp [hd, hm])

theorem retireAt_of_not {d : Dev} {n i : Nat} (h : ∀ o, (coreOf d n).ops[i]? = some o → (coreOf d n).disabled = true ∨ mayRetire (coreOf d n) o = false) :
    retireAt d n i = d := by
  unfold retireAt
  split
  · rename_i o ho
    refine if_neg ?_
    rcases h o ho with h | h <;> simp [h]
  · rfl

theorem releaseAt_of_free {d : Dev} {n i : Nat} {o : Op} (ho : (coreOf d n).ops[i]? = some o) (hi : o.issued = true) (hx : (coreOf d n).fe.any (xferOf o) = false) :
    releaseAt d n i = updCore d n fun c => { c with ops := modifyAt c.ops i fun o => { o with released := true } } := by
  rw [releaseAt, ho]
  exact if_pos (by rw [hi, hx]; rfl)

theorem releaseAt_of_not {d : Dev} {n i : Nat} (h : ∀ o, (coreOf d n).ops[i]? = some o → o.issued = false ∨ (coreOf d n).fe.any (xferOf o) = true) :
    releaseAt d n i = d := by
  unfold releaseAt
  split
  · rename_i o ho
    refine if_neg ?_
    rcases h o ho with h | h <;> simp [h]
  · rfl

/-- Cancelled before Poisoned before Incomplete before OK. -/
theorem statusOf_flagBits (cancelled sat clamped refold incomplete poisoned : Bool) :
    statusOf cancelled (flagBits sat clamped refold incomplete poisoned)
      = if cancelled then 0x0801 else if poisoned then 0x0803 else if incomplete then 0x0802 else 0 := by
  revert cancelled sat clamped refold incomplete poisoned
  decide

theorem instructionsRetireClaim : Claim.InstructionsRetire := by
  intro s h
  have hx (c : Instr) (f : Dev → Dev) (hc : exec c s = nextDev s f) : exec c s = .next (onDev s f) := hc.trans (nextDev_awake h)
  have hret (n : Fin 17) (i : Fin 256) := hx (.instructionRetire n i) (fun d => if n.val < 16 then retireAt d n i else mpeRetireAt d i) rfl
  have hrel (n : Fin 16) (i : Fin 256) := hx (.sourceRelease n i) (fun d => releaseAt d n i) rfl
  refine ⟨fun n i o ho hd hm => ?_, fun n i hno => ?_, fun n i r hn hr hd ha => ?_, fun n i hn hno => ?_, fun n i o ho hi hf => ?_, fun n i hno => ?_, statusOf_flagBits⟩
  · rw [hret, onDev, onDev, if_pos (by simp), ← retireAt_of_may ho hd hm]
    rfl
  · rw [hret, onDev_eq_self]
    rw [if_pos (by simp)]
    exact retireAt_of_not hno
  · rw [hret, onDev, onDev, if_neg (by omega), mpeRetireAt]
    dsimp only
    rw [hr]
    dsimp only
    rw [if_pos (by rw [hd, show mpeAwaitsOdd (mpeSettle s.dev) r.op = mpeAwaitsOdd s.dev r.op from rfl, ha]; rfl)]
  · rw [hret, onDev, onDev, if_neg (by omega), mpeRetireAt]
    dsimp only
    split
    · rename_i r hr
      rw [if_neg]
      rw [show mpeAwaitsOdd (mpeSettle s.dev) r.op = mpeAwaitsOdd s.dev r.op from rfl]
      rcases hno r hr with h | h <;> simp [h]
    · rfl
  · rw [hrel, onDev, onDev, releaseAt_of_free ho hi hf]
  · rw [hrel, onDev_eq_self (releaseAt_of_not hno)]

/-! ### A poisoned command issues nothing -/

theorem exec_poisoned {s : State} {n i : Nat} {o : Op} (ha : Awake s) (h : Taken s.dev n i o) (hpo : (issuedOp s.dev n i o).poisoned = true)
    {c : Instr} (p : Op → Bool) (run : Dev → Nat → Op → Dev) (hc : exec c s = nextDev s fun d => issueAs d n p run) (hp : p o = true) :
    exec c s = .next { s with dev := finishOp (issuedDev s.dev n i o) n i id } := by
  rw [hc, nextDev_awake ha, onDev, issueAs_poisoned h hp hpo]

theorem streamCommand_issues {d : Dev} {n : Nat} (h : streamPending d n = none) :
    streamCommand d n = issueAs d n (fun o => rOpcode o.word == 0x02) fun d i o => runMstream d i n o := by
  rw [streamCommand, h]

theorem convCommand_issues {d : Dev} {n oc : Nat} (h : cnvPending d n oc = none) :
    convCommand d n oc = issueAs d n (fun o => rOpcode o.word == oc) fun d i o => runConv d i n o (oc == 0x09) := by
  rw [convCommand, h]

theorem poisonedCommandIssuesNothing : Claim.PoisonedCommandIssuesNothing := by
  intro s n i o ha h hpo
  have hex {c : Instr} (p : Op → Bool) (run : Dev → Nat → Op → Dev) (hc : exec c s = nextDev s fun d => issueAs d n p run) (hp : p o = true) :=
    exec_poisoned ha h hpo p run hc hp
  have hvec {c : Instr} {f : Nat} (run : Dev → Nat → Nat → Op → Dev) (hc : exec c s = nextDev s fun d => vecCommand d n f run) (ho : rOpcode o.word = 0x10)
      (hf : rFunc o.word = f) := hex _ (fun d i o => run d i n o) hc (by simp [ho, hf])
  have hred {c : Instr} {f : Nat} (hc : exec c s = nextDev s fun d => reduceCommand d n f) (ho : rOpcode o.word = 0x11) (hf : rFunc o.word = f) :=
    hex _ (fun d i o => runReduce d i n o) hc (by simp [ho, hf])
  have hon {c : Instr} {f g : Dev → Dev} (hc : exec c s = nextDev s f) (hfg : f s.dev = g s.dev) : exec c s = nextDev s g := by
    rw [hc, nextDev_awake ha, nextDev_awake ha, onDev, onDev, hfg]
  simp only [List.forall_mem_cons, List.not_mem_nil, IsEmpty.forall_iff, implies_true, and_true]
  refine ⟨⟨fun ho => ?_, fun ho => ?_, fun ho => ?_, fun ho => ?_, fun ho => ?_, fun ho => ?_, fun ho => ?_, fun ho => ?_, fun ho => ?_, fun ho => ?_⟩,
    fun ho hp => ?_, fun ho hp => ?_, fun ho hp => ?_, fun ho => ?_, fun ho => ?_, fun ho => ?_, fun ho => ?_⟩
  · exact hex (c := .mmul n) _ (fun d i o => runMmul d i n o) rfl (by simp [ho])
  · exact hex (c := .mthin n) _ (fun d i o => runMmul d i n o) rfl (by simp [ho])
  · exact hex (c := .qrow n) _ (fun d i o => runQrow d i n o) rfl (by simp [ho])
  · exact hex (c := .fetch n) _ (fun d i o => setupFe d n i o) rfl (by simp [ho])
  · exact hex (c := .spill n) _ (fun d i o => setupFe d n i o) rfl (by simp [ho])
  · exact hex (c := .fuse n) _ (fun d i o => runFuse d n i o) rfl (by simp [ho])
  · exact hex (c := .signal n) _ (fun d i o => finishOp (addSignal d o.wc (rIndex o.word) (rValue o.word)) n i id) rfl (by simp [ho])
  · exact hex (c := .wait n) _ (fun d i _ => finishOp d n i id) rfl (by simp [ho])
  · exact hex (c := .setlen n) _ (fun d i o => runSetlen d n i o) rfl (by simp [ho])
  · exact hex (c := .nop n) _ (fun d i _ => finishOp d n i id) rfl (by simp [ho])
  · exact hex (c := .mstream n) _ _ (hon (f := fun d => streamCommand d n) rfl (streamCommand_issues hp)) (by simp [ho])
  · exact hex (c := .conv n) _ _ (hon (f := fun d => convCommand d n 0x08) rfl (convCommand_issues hp)) (by simp [ho])
  · exact hex (c := .tconv n) _ _ (hon (f := fun d => convCommand d n 0x09) rfl (convCommand_issues hp)) (by simp [ho])
  · exact ⟨hvec (c := .vecAdd n) runVec rfl ho, hvec (c := .vecSubtract n) runVec rfl ho, hvec (c := .vecMultiply n) runVec rfl ho,
      hvec (c := .vecMaximum n) runVec rfl ho, hvec (c := .vecMinimum n) runVec rfl ho, hvec (c := .vecAddImm n) runVec rfl ho,
      hvec (c := .vecMultiplyByImm n) runVec rfl ho, hvec (c := .vecNegate n) runVec rfl ho, hvec (c := .vecAbsoluteValue n) runVec rfl ho,
      hvec (c := .vecReciprocalSquareRoot n) runVec rfl ho, hvec (c := .vecExponential n) runVec rfl ho, hvec (c := .vecSoftmax n) runVec rfl ho,
      hvec (c := .vecLayerNormalisation n) runVec rfl ho, hvec (c := .vecRmsNormalisation n) runVec rfl ho, hvec (c := .vecTopK n) runTopK rfl ho,
      hvec (c := .vecSelect n) runSelect rfl ho, hvec (c := .vecActivationTable n) runVec rfl ho, hvec (c := .vecCopyConvert n) runVec rfl ho⟩
  · exact ⟨hred (c := .reduceSum n) rfl ho, hred (c := .reduceMaximum n) rfl ho, hred (c := .reduceMinimum n) rfl ho, hred (c := .reduceArgumentOfMaximum n) rfl ho⟩
  · exact ⟨fun hk => hex (c := .xferSend n) _ (fun d i o => runSend d n i o) rfl (by simp [ho, hk]),
      fun hk => hex (c := .xferRecvOpen n) _ (fun d i o => runRecvOpen d n i o) rfl (by simp [ho, hk]),
      fun hk => hex (c := .xferRecvEnd n) _ (fun d i o => runRecvEnd d n i o) rfl (by simp [ho, hk]),
      fun hk => hex (c := .xferEndStream n) _ (fun d i o => runEndStream d n i o) rfl (by simp [ho, hk]),
      fun hk => hex (c := .xferOpenAgent n) _ (fun d i o => runOpenAgent d n i o) rfl (by simp [ho, hk])⟩
  · exact ⟨fun hk => hex (c := .barrierCore n) _ (fun d i _ => finishOp d n i id) rfl (by simp [ho, hk]),
      fun hk => hex (c := .barrierWorkContext n) _ (fun d _ o => runBarrierWc d n o) rfl (by simp [ho, hk])⟩

/-- Settles O34: retirement, source release and the completion's conditions; a poisoned command issues nothing. -/
theorem instructionsRetire : Obligations.InstructionsRetire := ⟨instructionsRetireClaim, poisonedCommandIssuesNothing⟩

end Sys2Proof.Proofs


/-! ## Movement instructions in their own effect; transfers cover the tensor (O33) -/

namespace Sys2Proof.Proofs
open Sys2Proof.Machine

/-! ### Transfers -/

theorem mergeRun_total (size : Nat) (l : List (Nat × Nat × Nat)) :
    (mergeRun size l).1 * ((mergeRun size l).2.map (·.1)).prod = size * (l.map (·.1)).prod := by
  induction l generalizing size with
  | nil => rfl
  | cons x t ih =>
    obtain ⟨e, a, b⟩ := x
    rw [mergeRun]
    split
    · rw [ih, List.map_cons, List.prod_cons, Nat.mul_assoc]
    · rfl

theorem length_runStarts (l : List (Nat × Nat × Nat)) : (runStarts l).length = (l.map (·.1)).prod := by
  induction l with
  | nil => rfl
  | cons x t ih =>
    obtain ⟨e, a, b⟩ := x
    rw [runStarts, List.length_flatMap]
    simp only [List.length_map, List.length_range, List.map_const', List.sum_replicate, smul_eq_mul, ih, List.map_cons, List.prod_cons]
    exact Nat.mul_comm ..

/-- Pieces of at most 64 KiB make up the whole. -/
theorem sum_pieces (size k : Nat) : ((List.range k).map fun j => min 65536 (size - j * 65536)).sum = min (k * 65536) size := by
  induction k with
  | zero => simp
  | succ k ih =>
    rw [List.range_succ, List.map_append, List.sum_append, ih]
    simp only [List.map_cons, List.map_nil, List.sum_cons, List.sum_nil]
    omega

theorem transfersCoverTheTensor : Claim.TransfersCoverTheTensor := by
  intro f ext src dst
  have htotal := mergeRun_total (elemBytes f (ext.getD 0 1)) ([1, 2, 3].map fun k => (ext.getD k 1, dStride src k, dStride dst k))
  unfold transfersOf
  dsimp only
  generalize hm : mergeRun (elemBytes f (ext.getD 0 1)) ([1, 2, 3].map fun k => (ext.getD k 1, dStride src k, dStride dst k)) = m at htotal
  obtain ⟨size, rest⟩ := m
  dsimp only at htotal ⊢
  constructor
  · intro x hx
    obtain ⟨p, hp, hx⟩ := List.mem_flatMap.mp hx
    obtain ⟨j, hj, rfl⟩ := List.mem_map.mp hx
    have hj' := List.mem_range.mp hj
    unfold ceilDiv at hj'
    dsimp only
    omega
  · have hlen : ceilDiv size 65536 * 65536 ≥ size := by unfold ceilDiv; omega
    have hrun (p : Nat × Nat) : (((List.range (ceilDiv size 65536)).map fun j => (p.1 + j * 65536, p.2 + j * 65536, min 65536 (size - j * 65536))).map fun x => x.2.2).sum = size := by
      rw [List.map_map, show ((fun x : Nat × Nat × Nat => x.2.2) ∘ fun j => (p.1 + j * 65536, p.2 + j * 65536, min 65536 (size - j * 65536)))
        = fun j => min 65536 (size - j * 65536) from rfl, sum_pieces]
      omega
    rw [List.map_flatMap, List.flatMap, List.sum_flatten, List.map_map]
    simp only [Function.comp_def, hrun, List.map_const', List.sum_replicate, smul_eq_mul, length_runStarts]
    rw [Nat.mul_comm, htotal]
    simp only [List.map_cons, List.map_nil, List.prod_cons, List.prod_nil, Nat.mul_one, Nat.mul_assoc]

/-! ### XFER -/

theorem chunks_isEmpty {α : Type} (l : List α) : (chunks 512 ((l.length + 511) / 512) l).isEmpty = l.isEmpty := by
  cases l with
  | nil => simp [chunks]
  | cons x xs =>
    rw [List.length_cons, show (xs.length + 1 + 511) / 512 = xs.length / 512 + 1 from by omega]
    rfl

section
variable {d : Dev} {n : Nat} {o : Op}

theorem runSend_misused (h : producerOk (chan d (rChannel o.word)) n = false) (i : Nat) : runSend d n i o = misuse d n i o := if_neg (by simp [h])

/-- A SEND hands the tensor to its channel as a frame, or is complete at once when the tensor is empty. -/
theorem runSend_ok (h : producerOk (chan d (rChannel o.word)) n = true) (i : Nat) :
    let e := markPoison (tensorData d n o (rDescSrc o.word)).1 n i ((tensorData d n o (rDescSrc o.word)).2.any (·.2))
    let bs := (tensorData d n o (rDescSrc o.word)).2
    let f := setChan e (rChannel o.word) (leaveIdle (chan e (rChannel o.word)))
    runSend d n i o = if bs.isEmpty then finishOp f n i id
      else setChan f (rChannel o.word) { chan f (rChannel o.word) with
        frames := (chan f (rChannel o.word)).frames ++ [{ units := chunks 512 ((bs.length + 511) / 512) bs, send := some (opRef n o) }] } := by
  dsimp only
  rw [← chunks_isEmpty]
  exact if_pos h

theorem runRecvOpen_misused (h : receiverOk (chan d (rChannel o.word)) n (rWindow o.word) = false) (i : Nat) : runRecvOpen d n i o = misuse d n i o :=
  if_neg (by simp [h])

theorem runRecvOpen_ok (h : receiverOk (chan d (rChannel o.word)) n (rWindow o.word) = true) (i : Nat) : runRecvOpen d n i o =
    finishOp (openWindow d n (rWindow o.word) ((opDesc o (rDescDst o.word)).space == 2) (rWmode o.word == 1) (rWsize o.word)
      ((opDesc o (rDescDst o.word)).base / 512) (BitVec.ofNat 16 (0x2000 + rChannel o.word)) o.wc o.epoch) n i id := if_pos h

theorem runEndStream_misused (h : producerOk (chan d (rChannel o.word)) n = false) (i : Nat) : runEndStream d n i o = misuse d n i o := if_neg (by simp [h])

theorem runEndStream_ok (h : producerOk (chan d (rChannel o.word)) n = true) (i : Nat) : runEndStream d n i o =
    setChan d (rChannel o.word) { leaveIdle (chan d (rChannel o.word)) with
      frames := (chan d (rChannel o.word)).frames ++ [{ ends := true, send := some (opRef n o) }] } := if_pos h

/-- Whose window an END may close: another agent's, or the channel's own. -/
theorem runRecvEnd_eq (i : Nat) : runRecvEnd d n i o =
    if ((win (coreOf d n) (rWindow o.word)).state ≠ 0 ∧ (win (coreOf d n) (rWindow o.word)).writer.toNat / 4096 ≠ 2)
        ∨ (receiverOk (chan d (rChannel o.word)) n (rWindow o.word) = true
          ∧ ((win (coreOf d n) (rWindow o.word)).state = 0 ∨ (win (coreOf d n) (rWindow o.word)).writer = BitVec.ofNat 16 (0x2000 + rChannel o.word)))
    then finishOp d n i fun o => { o with closes := o.closes ++ [rWindow o.word] } else misuse d n i o := by
  unfold runRecvEnd
  dsimp only
  refine if_congr ?_ rfl rfl
  simp only [Bool.or_eq_true, Bool.and_eq_true, bne_iff_ne, beq_iff_eq]

end

theorem modifyAt_congr {α : Type} {f g : α → α} (l : List α) (i : Nat) (h : ∀ x, l[i]? = some x → f x = g x) : modifyAt l i f = modifyAt l i g := by
  induction l generalizing i with
  | nil => rfl
  | cons x xs ih =>
    cases i with
    | zero => exact congrArg (· :: xs) (h x rfl)
    | succ i => exact congrArg (x :: ·) (ih i h)

theorem updCore_congr {d : Dev} {n : Nat} {f g : Core → Core} (h : f (coreOf d n) = g (coreOf d n)) : updCore d n f = updCore d n g := by
  rw [updCore, updCore]
  simp only [supd]
  rw [show f (sget (fun _ => {}) d.cores n) = g (sget (fun _ => {}) d.cores n) from h]

theorem finishOp_congr {d : Dev} {n i : Nat} {f g : Op → Op}
    (h : ∀ o, (coreOf d n).ops[i]? = some o → f { o with done := true, released := true } = g { o with done := true, released := true }) :
    finishOp d n i f = finishOp d n i g := by
  refine updCore_congr ?_
  rw [modifyAt_congr _ _ h]

/-- The place of an instruction that has issued holds it as issued. -/
theorem issuedDev_op {d : Dev} {n i : Nat} {o q : Op} (h : (coreOf (issuedDev d n i o) n).ops[i]? = some q) : q = issuedOp d n i o := by
  have hset (e : Dev) (p : Op) (h : (coreOf (setOp e n i p) n).ops[i]? = some q) : q = p := by
    rw [setOp, coreOf_updCore, modifyAt_getElem?] at h
    obtain ⟨x, -, rfl⟩ := Option.map_eq_some_iff.mp h
    rfl
  exact hset _ _ h

theorem movementInstructionsRunClaim : Claim.MovementInstructionsRun := by
  intro s n i o ha h
  have hex {c : Instr} (p : Op → Bool) (run : Dev → Nat → Op → Dev) (hc : exec c s = nextDev s fun d => issueAs d n p run) (hp : p o = true) :=
    exec_issues ha h p run hc hp
  dsimp only
  have hq {q : Op} (hq : (coreOf (issuedDev s.dev n i o) n).ops[i]? = some q) := issuedDev_op hq
  generalize hd : issuedDev s.dev n i o = d at hex hq ⊢
  generalize hp : issuedOp s.dev n i o = p at hex hq ⊢
  have hsend (ho : rOpcode o.word = 0x1A) (hk : rXop o.word = 0) := hex (c := .xferSend n) _ (fun d i o => runSend d n i o) rfl (by simp [ho, hk])
  have hopen (ho : rOpcode o.word = 0x1A) (hk : rXop o.word = 1) := hex (c := .xferRecvOpen n) _ (fun d i o => runRecvOpen d n i o) rfl (by simp [ho, hk])
  have hend (ho : rOpcode o.word = 0x1A) (hk : rXop o.word = 2) := hex (c := .xferRecvEnd n) _ (fun d i o => runRecvEnd d n i o) rfl (by simp [ho, hk])
  have hstream (ho : rOpcode o.word = 0x1A) (hk : rXop o.word = 3) := hex (c := .xferEndStream n) _ (fun d i o => runEndStream d n i o) rfl (by simp [ho, hk])
  refine ⟨fun ho => ?_, fun ho => ?_, fun ho hk hc => ?_, fun ho hk hc => ?_, fun ho hk hc => ?_, fun ho hk hc => ?_, fun ho hk hc => ?_, fun ho hk hc => ?_,
    fun ho hk hc => ?_, fun ho hk hc => ?_, fun ho hk => ?_⟩
  · exact hex (c := .fetch n) _ (fun d i o => setupFe d n i o) rfl (by simp [ho])
  · exact hex (c := .spill n) _ (fun d i o => setupFe d n i o) rfl (by simp [ho])
  · rw [hsend ho hk]
    exact congrArg (fun e => Host.Outcome.next { s with dev := e }) (runSend_ok hc i)
  · rw [hsend ho hk]
    exact congrArg (fun e => Host.Outcome.next { s with dev := e }) (runSend_misused hc i)
  · rw [hopen ho hk]
    exact congrArg (fun e => Host.Outcome.next { s with dev := e }) (runRecvOpen_ok hc i)
  · rw [hopen ho hk]
    exact congrArg (fun e => Host.Outcome.next { s with dev := e }) (runRecvOpen_misused hc i)
  · rw [hend ho hk]
    refine congrArg (fun e => Host.Outcome.next { s with dev := e }) ((runRecvEnd_eq i).trans ((if_pos hc).trans (finishOp_congr ?_)))
    intro q hi
    obtain rfl := hq hi
    rfl
  · rw [hend ho hk]
    exact congrArg (fun e => Host.Outcome.next { s with dev := e }) ((runRecvEnd_eq i).trans (if_neg hc))
  · rw [hstream ho hk]
    exact congrArg (fun e => Host.Outcome.next { s with dev := e }) (runEndStream_ok hc i)
  · rw [hstream ho hk]
    exact congrArg (fun e => Host.Outcome.next { s with dev := e }) (runEndStream_misused hc i)
  · exact hex (c := .xferOpenAgent n) _ (fun d i o => runOpenAgent d n i o) rfl (by simp [ho, hk])

/-- Settles O33: FETCH, SPILL and XFER, and the transfers of a tensor. -/
theorem movementInstructionsRun : Obligations.MovementInstructionsRun := ⟨movementInstructionsRunClaim, transfersCoverTheTensor⟩

end Sys2Proof.Proofs


/-! ## Vector, reduction and row instructions, with their values (O32) -/

namespace Sys2Proof.Proofs
open Sys2Proof.Machine

theorem vectorInstructionsRunClaim : Claim.VectorInstructionsRun := by
  intro s n i o ha h
  have hex {c : Instr} (p : Op → Bool) (run : Dev → Nat → Op → Dev) (hc : exec c s = nextDev s fun d => issueAs d n p run) (hp : p o = true) :=
    exec_issues ha h p run hc hp
  have hvec {c : Instr} {f : Nat} (run : Dev → Nat → Nat → Op → Dev) (hc : exec c s = nextDev s fun d => vecCommand d n f run) (ho : rOpcode o.word = 0x10)
      (hf : rFunc o.word = f) := hex _ (fun d i o => run d i n o) hc (by simp [ho, hf])
  have hred {c : Instr} {f : Nat} (hc : exec c s = nextDev s fun d => reduceCommand d n f) (ho : rOpcode o.word = 0x11) (hf : rFunc o.word = f) :=
    hex _ (fun d i o => runReduce d i n o) hc (by simp [ho, hf])
  simp only [List.forall_mem_cons, List.not_mem_nil, IsEmpty.forall_iff, implies_true, and_true]
  refine ⟨fun ho => ?_, fun ho => hvec (c := .vecTopK n) runTopK rfl ho, fun ho => hvec (c := .vecSelect n) runSelect rfl ho, fun ho => ?_,
    fun ho => hex (c := .qrow n) _ (fun d i o => runQrow d i n o) rfl (by simp [ho])⟩
  · exact ⟨hvec (c := .vecAdd n) runVec rfl ho, hvec (c := .vecSubtract n) runVec rfl ho, hvec (c := .vecMultiply n) runVec rfl ho,
      hvec (c := .vecMaximum n) runVec rfl ho, hvec (c := .vecMinimum n) runVec rfl ho, hvec (c := .vecAddImm n) runVec rfl ho,
      hvec (c := .vecMultiplyByImm n) runVec rfl ho, hvec (c := .vecNegate n) runVec rfl ho, hvec (c := .vecAbsoluteValue n) runVec rfl ho,
      hvec (c := .vecReciprocalSquareRoot n) runVec rfl ho, hvec (c := .vecExponential n) runVec rfl ho, hvec (c := .vecSoftmax n) runVec rfl ho,
      hvec (c := .vecLayerNormalisation n) runVec rfl ho, hvec (c := .vecRmsNormalisation n) runVec rfl ho,
      hvec (c := .vecActivationTable n) runVec rfl ho, hvec (c := .vecCopyConvert n) runVec rfl ho⟩
  · exact ⟨hred (c := .reduceSum n) rfl ho, hred (c := .reduceMaximum n) rfl ho, hred (c := .reduceMinimum n) rfl ho, hred (c := .reduceArgumentOfMaximum n) rfl ho⟩

/-! ### Element values -/

theorem vecVal_elementwise {d : Dev} {w : Line} (a b : VSrc) (ix : List Nat) (h : isAxisFn (rFunc w) = false) (h40 : rFunc w ≠ 0x40) :
    vecVal d w a b ix = vecFn (rFunc w) (ofF32 (rImm w)) (vAt d a ix) (if rFunc w < 5 then vAt d b (bcast b.t.ext ix) else .zero false) := by
  rw [vecVal, if_neg (by simp [h]), if_neg h40]

theorem vecVal_axis {d : Dev} {w : Line} (a b : VSrc) (ix : List Nat) (h : isAxisFn (rFunc w) = true) :
    vecVal d w a b ix = axisFn (rFunc w) ((List.range (a.ext.getD (rAxis w) 1)).map fun k => vAt d a (ix.set (rAxis w) k)) (ix.getD (rAxis w) 0) := by
  rw [vecVal]
  exact if_pos h

theorem r32_nan : r32 .nan = .nan := by decide

theorem vectorElementValues : Claim.VectorElementValues := by
  intro d w a b ix
  have hfn {f : Nat} (hf : rFunc w = f) (h : isAxisFn f = false) (h40 : f ≠ 0x40) :
      vecVal d w a b ix = vecFn f (ofF32 (rImm w)) (vAt d a ix) (if f < 5 then vAt d b (bcast b.t.ext ix) else .zero false) := by
    subst hf
    exact vecVal_elementwise a b ix h h40
  have hax {f : Nat} (hf : rFunc w = f) (h : isAxisFn f = true) :
      vecVal d w a b ix = axisFn f ((List.range (a.ext.getD (rAxis w) 1)).map fun k => vAt d a (ix.set (rAxis w) k)) (ix.getD (rAxis w) 0) := by
    subst hf
    exact vecVal_axis a b ix h
  dsimp only
  refine ⟨fun hf => hfn hf rfl (by decide), fun hf => hfn hf rfl (by decide), fun hf => hfn hf rfl (by decide), fun hf hx hy => ?_, fun hf hx hy => ?_,
    fun hf hxy => ?_, fun hf => hfn hf rfl (by decide), fun hf => hfn hf rfl (by decide), fun hf => hfn hf rfl (by decide), fun hf => hfn hf rfl (by decide),
    fun hf => hfn hf rfl (by decide), fun hf => hfn hf rfl (by decide), fun hf => hfn hf rfl (by decide), fun hf => ?_, fun hf => ?_, fun hf => ?_, fun hf => ?_⟩
  · rw [hfn hf rfl (by decide)]
    exact congrArg r32 (if_neg (by simp [hx, hy]))
  · rw [hfn hf rfl (by decide)]
    exact congrArg r32 (if_neg (by simp [hx, hy]))
  · rcases hf with hf | hf <;> rw [hfn hf rfl (by decide)] <;> exact (congrArg r32 (if_pos hxy)).trans r32_nan
  · exact (hax hf rfl).trans (by simp only [axisFn, List.map_map, Function.comp_def])
  · exact (hax hf rfl).trans (by simp only [axisFn, List.map_map, Function.comp_def])
  · exact (hax hf rfl).trans (by simp only [axisFn, List.map_map, Function.comp_def])
  · rw [vecVal, if_neg (by rw [hf]; decide), if_pos hf]

/-! ### The order of values, and of the entries of top-k -/

/-- Where a value stands in the order of the values, NaN above all. -/
def valKey : Val → ℤ ×ₗ ℚ
  | .nan => toLex (2, 0)
  | .inf true => toLex (-1, 0)
  | .inf false => toLex (1, 0)
  | .zero _ => toLex (0, 0)
  | .num m e => toLex (0, m * 2 ^ e)

theorem pow2_sub {e g : ℤ} (h : g ≤ e) : (pow2 (e - g) : ℚ) * 2 ^ g = 2 ^ e := by
  obtain ⟨k, hk⟩ := Int.eq_ofNat_of_zero_le (show 0 ≤ e - g by omega)
  have he : e = (k : ℤ) + g := by omega
  rw [hk, pow2, Int.toNat_natCast, he, zpow_add₀ two_ne_zero, zpow_natCast]
  push_cast
  rfl

theorem dyLe_iff (m e n f : ℤ) : dyLe m e n f = true ↔ (m * 2 ^ e : ℚ) ≤ n * 2 ^ f := by
  have hg : (0 : ℚ) < 2 ^ min e f := by positivity
  rw [dyLe, decide_eq_true_iff, ← pow2_sub (min_le_left e f), ← pow2_sub (min_le_right e f), ← mul_assoc, ← mul_assoc, mul_le_mul_iff_left₀ hg]
  norm_cast

theorem vlt_iff {a b : Val} (ha : a ≠ .nan) (hb : b ≠ .nan) : vlt a b = true ↔ valKey a < valKey b := by
  have hpos (m e : ℤ) : (0 : ℚ) < m * 2 ^ e ↔ 0 < m := by rw [mul_pos_iff_of_pos_right (by positivity)]; norm_cast
  have hneg (m e : ℤ) : (m * 2 ^ e : ℚ) < 0 ↔ m < 0 := by
    rw [← neg_pos, ← neg_mul, mul_pos_iff_of_pos_right (by positivity), neg_pos]; norm_cast
  cases a with
  | nan => exact absurd rfl ha
  | inf s => cases b with
    | nan => exact absurd rfl hb
    | inf t => cases s <;> cases t <;> simp [vlt, vle, valKey, Prod.Lex.toLex_lt_toLex]
    | zero t => cases s <;> simp [vlt, vle, valKey, Prod.Lex.toLex_lt_toLex]
    | num n f => cases s <;> simp [vlt, vle, valKey, Prod.Lex.toLex_lt_toLex]
  | zero s => cases b with
    | nan => exact absurd rfl hb
    | inf t => cases t <;> simp [vlt, vle, valKey, Prod.Lex.toLex_lt_toLex]
    | zero t => simp [vlt, vle, valKey]
    | num n f => simp [vlt, vle, valKey, Prod.Lex.toLex_lt_toLex, hpos]; omega
  | num m e => cases b with
    | nan => exact absurd rfl hb
    | inf t => cases t <;> simp [vlt, vle, valKey, Prod.Lex.toLex_lt_toLex]
    | zero t => simp [vlt, vle, valKey, Prod.Lex.toLex_lt_toLex, hneg]; omega
    | num n f =>
      have hle := le_of_lt (a := (m * 2 ^ e : ℚ)) (b := n * 2 ^ f)
      simpa [vlt, vle, valKey, Prod.Lex.toLex_lt_toLex, dyLe_iff, ← Bool.not_eq_true] using hle

/-- Where an entry of a line stands in the order of top-k: by value, the earlier position above. -/
def rankKey (a : Nat × Val) : (ℤ ×ₗ ℚ) ×ₗ Natᵒᵈ := toLex (valKey a.2, OrderDual.toDual a.1)

theorem valKey_lt_nan {v : Val} (h : v ≠ .nan) : valKey v < valKey .nan := by
  cases v with
  | nan => exact absurd rfl h
  | inf s => cases s <;> simp [valKey, Prod.Lex.toLex_lt_toLex]
  | zero s => simp [valKey, Prod.Lex.toLex_lt_toLex]
  | num m e => simp [valKey, Prod.Lex.toLex_lt_toLex]

theorem ranksAbove_iff (a b : Nat × Val) : ranksAbove a b = true ↔ rankKey b < rankKey a := by
  obtain ⟨i, x⟩ := a
  obtain ⟨j, y⟩ := b
  rw [rankKey, rankKey, Prod.Lex.toLex_lt_toLex]
  by_cases hx : x = .nan
  · by_cases hy : y = .nan
    · simp [ranksAbove, hx, hy]
    · subst hx
      exact iff_of_true (by cases y <;> simp_all [ranksAbove]) (.inl (valKey_lt_nan hy))
  · by_cases hy : y = .nan
    · subst hy
      have hl := valKey_lt_nan hx
      exact iff_of_false (by cases x <;> simp_all [ranksAbove]) (by simp [hl.le, hl.ne'])
    · have hxy : ranksAbove (i, x) (j, y) = (vlt y x || (!vlt x y && decide (i < j))) := by
        cases x <;> cases y <;> simp_all [ranksAbove]
      rw [hxy, Bool.or_eq_true, vlt_iff hy hx, Bool.and_eq_true, Bool.not_eq_true', ← Bool.not_eq_true, vlt_iff hx hy, decide_eq_true_iff]
      simp only [OrderDual.toDual_lt_toDual, not_lt]
      constructor
      · rintro (h | ⟨h, hij⟩)
        · exact .inl h
        · exact h.lt_or_eq.imp_right fun h => ⟨h, hij⟩
      · rintro (h | ⟨h, hij⟩)
        · exact .inl h
        · exact .inr ⟨h.le, hij⟩

theorem ranksAbove_eq_false (a b : Nat × Val) : ranksAbove a b = false ↔ rankKey a ≤ rankKey b := by
  rw [← Bool.not_eq_true, ranksAbove_iff, not_lt]

/-! ### Top-k (R561, R562) -/

theorem insRank_perm (x : Nat × Val) (l : List (Nat × Val)) : (insRank x l).Perm (x :: l) := by
  induction l with
  | nil => exact .refl _
  | cons y t ih =>
    rw [insRank]
    split
    · exact .refl _
    · exact (ih.cons y).trans (.swap x y t)

theorem insRank_pairwise (x : Nat × Val) {l : List (Nat × Val)} (h : l.Pairwise fun a b => rankKey b ≤ rankKey a) :
    (insRank x l).Pairwise fun a b => rankKey b ≤ rankKey a := by
  induction l with
  | nil => exact List.pairwise_singleton _ x
  | cons y t ih =>
    obtain ⟨hy, ht⟩ := List.pairwise_cons.mp h
    rw [insRank]
    split
    case isTrue hxy =>
      have hyx := ((ranksAbove_iff x y).mp hxy).le
      exact List.pairwise_cons.mpr ⟨List.forall_mem_cons.mpr ⟨hyx, fun a ha => (hy a ha).trans hyx⟩, h⟩
    case isFalse hxy =>
      have hxy := (ranksAbove_eq_false x y).mp (Bool.eq_false_of_not_eq_true hxy)
      refine List.pairwise_cons.mpr ⟨fun a ha => ?_, ih ht⟩
      rcases List.mem_cons.mp ((insRank_perm x t).mem_iff.mp ha) with rfl | ha
      · exact hxy
      · exact hy a ha

theorem foldl_insRank (l s : List (Nat × Val)) (hs : s.Pairwise fun a b => rankKey b ≤ rankKey a) :
    (l.foldl (fun s x => insRank x s) s).Perm (l ++ s) ∧ (l.foldl (fun s x => insRank x s) s).Pairwise fun a b => rankKey b ≤ rankKey a := by
  induction l generalizing s with
  | nil => exact ⟨.refl _, hs⟩
  | cons x t ih =>
    obtain ⟨hp, hw⟩ := ih (insRank x s) (insRank_pairwise x hs)
    exact ⟨hp.trans (((insRank_perm x s).append_left t).trans List.perm_middle), hw⟩

theorem rankLine_spec (l : List Val) : (rankLine l).Perm (withPos l) ∧ (rankLine l).Pairwise fun a b => rankKey b ≤ rankKey a := by
  have h := foldl_insRank (withPos l) [] .nil
  rwa [List.append_nil] at h

theorem topKRanks : Claim.TopKRanks := by
  intro l
  obtain ⟨hp, hw⟩ := rankLine_spec l
  exact ⟨hp, hw.imp fun h => (ranksAbove_eq_false _ _).mpr h⟩

/-! ### Reductions (R561) -/

/-- A fold that keeps the better of two values, by an order of the values that are not NaN, ends with one that no value betters. -/
theorem foldl_best {f : Val → Val → Val} {r : Val → Val → Prop} (htrans : ∀ a b c, r a b → r b c → r a c) (hrefl : ∀ a, r a a)
    (hf : ∀ a b, a ≠ .nan → b ≠ .nan → (f a b = a ∨ f a b = b) ∧ r a (f a b) ∧ r b (f a b)) (t : List Val) (x : Val)
    (h : ∀ v ∈ x :: t, v ≠ .nan) : t.foldl f x ∈ x :: t ∧ ∀ u ∈ x :: t, r u (t.foldl f x) := by
  induction t generalizing x with
  | nil => exact ⟨List.mem_singleton.mpr rfl, fun u hu => List.mem_singleton.mp hu ▸ hrefl x⟩
  | cons y t ih =>
    have hx := h x (by simp)
    have hy := h y (by simp)
    obtain ⟨hor, hrx, hry⟩ := hf x y hx hy
    have hn : f x y ≠ .nan := by rcases hor with e | e <;> rw [e] <;> assumption
    obtain ⟨hm, hb⟩ := ih (f x y) fun v hv => by
      rcases List.mem_cons.mp hv with rfl | hv
      · exact hn
      · exact h v (by simp [hv])
    refine ⟨?_, fun u hu => ?_⟩
    · rw [List.foldl_cons]
      rcases List.mem_cons.mp hm with e | hm
      · rw [e]
        rcases hor with e' | e' <;> simp [e']
      · simp [hm]
    · have hbest := hb (f x y) (by simp)
      rcases List.mem_cons.mp hu with rfl | hu
      · exact htrans _ _ _ hrx hbest
      rcases List.mem_cons.mp hu with rfl | hu
      · exact htrans _ _ _ hry hbest
      · exact hb u (by simp [hu])

theorem foldl_vmax (t : List Val) (x : Val) (h : ∀ v ∈ x :: t, v ≠ .nan) :
    t.foldl vmax x ∈ x :: t ∧ ∀ u ∈ x :: t, valKey u ≤ valKey (t.foldl vmax x) := by
  refine foldl_best (r := fun a b => valKey a ≤ valKey b) (fun _ _ _ => le_trans) (fun _ => le_rfl) (fun a b ha hb => ?_) t x h
  rw [vmax, if_neg (by simp [ha, hb])]
  split
  case isTrue hlt => exact ⟨.inr rfl, ((vlt_iff ha hb).mp hlt).le, le_rfl⟩
  case isFalse hlt => exact ⟨.inl rfl, le_rfl, not_lt.mp (mt (vlt_iff ha hb).mpr hlt)⟩

theorem foldl_vmin (t : List Val) (x : Val) (h : ∀ v ∈ x :: t, v ≠ .nan) :
    t.foldl vmin x ∈ x :: t ∧ ∀ u ∈ x :: t, valKey (t.foldl vmin x) ≤ valKey u := by
  refine foldl_best (r := fun a b => valKey b ≤ valKey a) (fun _ _ _ hab hbc => hbc.trans hab) (fun _ => le_rfl) (fun a b ha hb => ?_) t x h
  rw [vmin, if_neg (by simp [ha, hb])]
  split
  case isTrue hlt => exact ⟨.inr rfl, ((vlt_iff hb ha).mp hlt).le, le_rfl⟩
  case isFalse hlt => exact ⟨.inl rfl, le_rfl, not_lt.mp (mt (vlt_iff hb ha).mpr hlt)⟩

/-- The first entry of a ranked line is an entry of the line that none ranks above. -/
theorem head_rankLine (x : Val) (l : List Val) :
    ∃ i v, (rankLine (x :: l)).head? = some (i, v) ∧ (x :: l)[i]? = some v ∧ ∀ j u, (x :: l)[j]? = some u → ranksAbove (j, u) (i, v) = false := by
  obtain ⟨hp, hw⟩ := rankLine_spec (x :: l)
  cases hr : rankLine (x :: l) with
  | nil =>
    rw [hr] at hp
    exact absurd (mem_withPos.mpr (show (x :: l)[0]? = some x from rfl)) (by simp [hp.symm.eq_nil])
  | cons y t =>
    rw [hr] at hp hw
    refine ⟨y.1, y.2, rfl, mem_withPos.mp (hp.mem_iff.mp (by simp)), fun j u hj => (ranksAbove_eq_false _ _).mpr ?_⟩
    rcases List.mem_cons.mp (hp.mem_iff.mpr (mem_withPos.mpr hj)) with e | hm
    · rw [e]
    · exact (List.pairwise_cons.mp hw).1 _ hm

theorem reduceValues : Claim.ReduceValues := by
  intro x l
  refine ⟨rfl, fun h => ⟨?_, ?_⟩, ?_⟩
  · obtain ⟨hm, hb⟩ := foldl_vmax l x h
    exact ⟨_, hm, rfl, fun u hu => Bool.eq_false_of_not_eq_true fun hlt => not_lt.mpr (hb u hu) ((vlt_iff (h _ hm) (h u hu)).mp hlt)⟩
  · obtain ⟨hm, hb⟩ := foldl_vmin l x h
    exact ⟨_, hm, rfl, fun u hu => Bool.eq_false_of_not_eq_true fun hlt => not_lt.mpr (hb u hu) ((vlt_iff (h u hu) (h _ hm)).mp hlt)⟩
  · obtain ⟨i, v, hh, hi, hb⟩ := head_rankLine x l
    refine ⟨i, v, hi, ?_, hb⟩
    show ofInt (((rankLine (x :: l)).head?.map fun y => (y.1 : Int)).getD 0) = ofInt i
    rw [hh]
    rfl

/-- Settles O32: an issued vector, reduction or row instruction runs its function; each element has the value R559 to R563 give it, top-k and the
argument of maximum by the one linear order of values and positions. -/
theorem vectorInstructionsRun : Obligations.VectorInstructionsRun :=
  ⟨vectorInstructionsRunClaim, vectorElementValues, topKRanks, reduceValues⟩

end Sys2Proof.Proofs


/-! ## Matrix and convolution instructions (O27) -/

namespace Sys2Proof.Proofs
open Sys2Proof.Machine

theorem peek_congr {m m' : Mem} (h : m'.ram = m.ram) (a : Nat) : peek m' a = peek m a := by
  rw [peek, peek, h]

theorem modifyAt_eq_modify {α : Type} (l : List α) (i : Nat) (f : α → α) : modifyAt l i f = l.modify i f := by
  induction l generalizing i with
  | nil => cases i <;> rfl
  | cons x t ih =>
    cases i with
    | zero => rfl
    | succ i => rw [modifyAt, ih, List.modify_succ_cons]

theorem modifyAt_getElem?_ne {α : Type} (l : List α) {i k : Nat} (f : α → α) (h : k ≠ i) : (modifyAt l i f)[k]? = l[k]? := by
  simp [modifyAt_eq_modify, Ne.symm h]

/-! ### The tiles of one instruction -/

/-- What MMUL and MTHIN leave without a shared counter: every work tile run in order, the output written, the instruction complete. -/
def wholeTiles (d : Dev) (n : Fin 16) (i : Nat) (p : Op) : Dev :=
  let x := matOf d n p
  let r := runTiles d x (withPos (List.range (tileCount p.word x.geo x.dm x.dn))) {}
  finishOp (endOut (putMade r.1 n i p x.o (rDescO p.word) r.2) n p x.o (opExt p (rDescO p.word))) n i fun o => { o with seqWords := seqGranule x.o }

theorem runMmul_whole (d : Dev) (n : Fin 16) (i : Nat) {p : Op} (h : rGroup p.word = 0) : runMmul d i n p = wholeTiles d n i p := if_neg (by simp [h])

theorem runMmul_shared (d : Dev) (n i : Nat) {p : Op} (h : rGroup p.word ≠ 0) : runMmul d i n p = d := if_pos h

theorem runMstream_eq (d : Dev) (n i : Nat) (p : Op) :
    runMstream d i n p = if rGroup p.word = 0 then streamAdvance d n i ((matOf d n p).lm + 2) else d := by
  rw [runMstream, ite_not]

theorem runConv_eq (d : Dev) (n i : Nat) (p : Op) (t : Bool) :
    runConv d i n p t = if rGroup p.word = 0 then cnvAdvance d n i t ((cnvOf d n p t).oh + 1) else d := by
  rw [runConv, ite_not]

/-! ### MPCONV (R214, R215) -/

/-- The length registers of a record, read one after another. -/
def mpeLengthsRead (d : Dev) (r : MpeRec) : Dev :=
  (lensNamed r.op).foldl (fun d k => (memRead d (some agMpe) srcMpe (wLenBlock (wcOf d r.op.wc) + 4 * k) 4).1) d

theorem mpeLengthsRead_keeps (d : Dev) (r : MpeRec) :
    (mpeLengthsRead d r).mpe = d.mpe ∧ (mpeLengthsRead d r).cores = d.cores ∧ (mpeLengthsRead d r).mem.ram = d.mem.ram := by
  refine ⟨?_, ?_, ?_⟩
  · exact foldl_keeps (·.mpe) _ (fun e _ _ => memRead_mpe e ..) d
  · exact foldl_keeps (·.cores) _ (fun e _ _ => memRead_cores e ..) d
  · exact foldl_keeps (·.mem.ram) _ (fun e _ _ => memRead_ram e ..) d

theorem mpeIssueAt_recs (d : Dev) (j : Nat) :
    (mpeIssueAt d j).mpe.recs.length = d.mpe.recs.length
    ∧ (∀ r, d.mpe.recs[j]? = some r → ∃ q, (mpeIssueAt d j).mpe.recs[j]? = some q ∧ q.op.issued = true ∧ q.op.word = r.op.word)
    ∧ ∀ k, k ≠ j → (mpeIssueAt d j).mpe.recs[k]? = d.mpe.recs[k]? := by
  refine ⟨?_, fun r hr => ?_, fun k hk => ?_⟩
  · exact (congrArg List.length (modifyAt_eq_modify ..)).trans (List.length_modify ..)
  · exact ⟨_, (modifyAt_getElem? ..).trans (congrArg _ hr), rfl, rfl⟩
  · exact modifyAt_getElem?_ne _ _ hk

theorem mpconv_of_find {d : Dev} {j : Nat} {r : MpeRec} (h : ((withPos d.mpe.recs).find? fun x => !x.2.op.issued) = some (j, r)) :
    (mpconv d).mpe = (mpeIssueAt (mpeLengthsRead d r) j).mpe ∧ (mpconv d).cores = d.cores ∧ (mpconv d).mem.ram = d.mem.ram := by
  obtain ⟨-, hc, hr⟩ := mpeLengthsRead_keeps d r
  have he : mpconv d = if (((mpeIssueAt (mpeLengthsRead d r) j).mpe.recs[j]?).map fun r => r.op.clamped).getD false
      then postEventWc (mpeIssueAt (mpeLengthsRead d r) j) 0x0521 1 srcMpe r.op.wc 0 else mpeIssueAt (mpeLengthsRead d r) j := by
    rw [mpconv, h]
    rfl
  rw [he]
  split
  · exact ⟨by simp, by simpa [mpeIssueAt, updRec] using hc, by simpa [mpeIssueAt, updRec] using hr⟩
  · exact ⟨rfl, hc, hr⟩

/-- Settles O27: an issued matrix or convolution instruction runs its tiles or waits for its counter, one under way goes on, and MPCONV latches the lengths
of the oldest record that has not issued. -/
theorem matrixInstructionsRun : Obligations.MatrixInstructionsRun := by
  intro s n ha
  have hx (c : Instr) (f : Dev → Dev) (hc : exec c s = nextDev s f) : exec c s = .next (onDev s f) := hc.trans (nextDev_awake ha)
  have hon {c : Instr} {f g : Dev → Dev} (hc : exec c s = nextDev s f) (hfg : f s.dev = g s.dev) : exec c s = nextDev s g := by
    rw [hc, nextDev_awake ha, nextDev_awake ha, onDev, onDev, hfg]
  refine ⟨fun i o h => ?_, fun i o h => ?_, fun i o h => ?_, fun i o h => ?_, fun h => ?_, fun j r h => ?_⟩
  · have hex {c : Instr} (p : Op → Bool) (run : Dev → Nat → Op → Dev) (hc : exec c s = nextDev s fun d => issueAs d n p run) (hp : p o = true) {e : Dev}
        (he : run (issuedDev s.dev n i o) i (issuedOp s.dev n i o) = e) : exec c s = .next { s with dev := e } :=
      (exec_issues ha h p run hc hp).trans (by rw [he])
    have hg := issuedOp_word s.dev n i o
    refine ⟨fun ho h0 => ?_, fun ho h0 => ?_, fun ho h0 => ?_, fun ho h0 => ?_, fun ho hp => ?_, fun ho hp => ?_, fun ho hp => ?_⟩
    · exact hex (c := .mmul n) _ (fun d i o => runMmul d i n o) rfl (by simp [ho]) (runMmul_whole _ n i (by rw [hg, h0]))
    · exact hex (c := .mthin n) _ (fun d i o => runMmul d i n o) rfl (by simp [ho]) (runMmul_whole _ n i (by rw [hg, h0]))
    · exact hex (c := .mmul n) _ (fun d i o => runMmul d i n o) rfl (by simp [ho]) (runMmul_shared _ _ _ (by rw [hg]; exact h0))
    · exact hex (c := .mthin n) _ (fun d i o => runMmul d i n o) rfl (by simp [ho]) (runMmul_shared _ _ _ (by rw [hg]; exact h0))
    · rw [← hg]
      exact hex (c := .mstream n) _ _ (hon (f := fun d => streamCommand d n) rfl (streamCommand_issues hp)) (by simp [ho]) (runMstream_eq ..)
    · rw [← hg]
      exact hex (c := .conv n) _ _ (hon (f := fun d => convCommand d n 0x08) rfl (convCommand_issues hp)) (by simp [ho]) (runConv_eq ..)
    · rw [← hg]
      exact hex (c := .tconv n) _ _ (hon (f := fun d => convCommand d n 0x09) rfl (convCommand_issues hp)) (by simp [ho]) (runConv_eq ..)
  · exact (hx (.mstream n) _ (hon (f := fun d => streamCommand d n) rfl (by rw [streamCommand, h])))
  · exact (hx (.conv n) _ (hon (f := fun d => convCommand d n 0x08) rfl (by rw [convCommand, h]; rfl)))
  · exact (hx (.tconv n) _ (hon (f := fun d => convCommand d n 0x09) rfl (by rw [convCommand, h]; rfl)))
  · rw [hx .mpconv mpconv rfl, onDev_eq_self]
    rw [mpconv, h]
  · obtain ⟨hm, hc, hr⟩ := mpconv_of_find h
    obtain ⟨hl, hj, hk⟩ := mpeIssueAt_recs (mpeLengthsRead s.dev r) j
    obtain ⟨hmpe, -, -⟩ := mpeLengthsRead_keeps s.dev r
    have hat : (mpeLengthsRead s.dev r).mpe.recs[j]? = some r := by
      rw [hmpe]
      exact mem_withPos.mp (List.mem_of_find?_eq_some h)
    rw [← hm, hmpe] at hl hk
    rw [← hm] at hj
    exact ⟨_, hx .mpconv mpconv rfl, rfl, rfl, hl, hj r hat, hk, hc, peek_congr hr⟩

end Sys2Proof.Proofs


/-! ## The correction stage, the scrubber and the patrol (O42) -/

namespace Sys2Proof.Proofs
open Sys2Proof.Machine

@[simp] theorem coreOf_updMem (d : Dev) (f : Mem → Mem) (n : Nat) : coreOf (updMem d f) n = coreOf d n := rfl

@[simp] theorem cnt_updMem (d : Dev) (f : Mem → Mem) (i sub : Nat) : cnt (updMem d f) i sub = cnt d i sub := rfl

/-- The addresses of a memory of a core that wait for the scrubber. -/
def scrubQueue (d : Dev) (n mem : Nat) : List Nat := sget (fun _ => []) (coreOf d n).scrub mem

theorem strike_latent (d : Dev) (key u : Nat) :
    sget (fun _ => 0) (strike d key u).mem.latent key = max u (sget (fun _ => 0) d.mem.latent key) := sget_supd _ _ _

theorem isPoison_setPoison (m : Mem) (a : Nat) : isPoison (setPoison m a true) a = true := by
  rw [isPoison, setPoison, List.contains_iff_mem]
  exact mem_insNat ..

/-- A read of a word without an error only notes what has struck it. -/
theorem coreMemRead_clean {d : Dev} {n mem w u : Nat} (h : max u (sget (fun _ => 0) d.mem.latent (latentKey n mem w)) = 0) :
    coreMemRead d n mem w u = strike d (latentKey n mem w) u := by
  rw [coreMemRead, strike_latent, h]
  rfl

theorem coreMemRead_corrected {d : Dev} {n mem w u : Nat} (h : max u (sget (fun _ => 0) d.mem.latent (latentKey n mem w)) = 1) :
    coreMemRead d n mem w u = scrubEnter (coreCorrected (strike d (latentKey n mem w) u) n mem w) n mem w := by
  rw [coreMemRead, strike_latent, h]
  rfl

theorem coreMemRead_uncorrectable {d : Dev} {n mem w u : Nat} (h : 2 ≤ max u (sget (fun _ => 0) d.mem.latent (latentKey n mem w))) :
    coreMemRead d n mem w u = coreUncorrectable (strike d (latentKey n mem w) u) n mem w := by
  obtain ⟨k, hk⟩ := Nat.exists_eq_add_of_le' h
  rw [coreMemRead, strike_latent, hk]
  rfl

theorem coreMemRead_patrol (d : Dev) (n mem w u : Nat) : (coreOf (coreMemRead d n mem w u) n).patrol = (coreOf d n).patrol := by
  have hs : (coreOf (strike d (latentKey n mem w) u) n).patrol = (coreOf d n).patrol := rfl
  rw [coreMemRead]
  split
  · exact hs
  · rw [scrubEnter, coreCorrected]
    split <;> split <;> simp [hs, apply_ite Core.patrol, apply_ite (fun e => coreOf e n)]
  · rw [coreUncorrectable]
    split <;> simp [hs]

theorem coreCorrected_counts (d : Dev) (n mem w sub : Nat) :
    cnt (coreCorrected d n mem w) (0x2250 + n) sub = cnt (bump d (0x2250 + n) (mem + 1) 4 1) (0x2250 + n) sub := by
  rw [coreCorrected]
  dsimp only
  split <;> simp

theorem coreCorrected_queue (d : Dev) (n mem w : Nat) : scrubQueue (coreCorrected d n mem w) n mem = scrubQueue d n mem := by
  rw [coreCorrected, scrubQueue, scrubQueue]
  dsimp only
  split <;> simp

theorem scrubEnter_queue (d : Dev) (n mem w : Nat) :
    scrubQueue (scrubEnter d n mem w) n mem = if (scrubQueue d n mem).contains w || decide (4 ≤ (scrubQueue d n mem).length) then scrubQueue d n mem
      else scrubQueue d n mem ++ [w] := by
  rw [scrubEnter]
  split
  case isTrue hc => rw [if_pos (by rw [scrubQueue, hc]; rfl)]
  case isFalse hc =>
    split
    case isTrue hl => rw [if_neg (by simpa [scrubQueue, Nat.not_le.mpr hl] using hc), scrubQueue, coreOf_updCore, sget_supd]; rfl
    case isFalse hl => exact (if_pos (Bool.or_eq_true_iff.mpr (.inr (decide_eq_true (not_lt.mp hl))))).symm

theorem scrubEnter_counts_ne (d : Dev) {n mem w sub : Nat} (h : sub ≠ 7) : cnt (scrubEnter d n mem w) (0x2250 + n) sub = cnt d (0x2250 + n) sub := by
  rw [scrubEnter]
  split
  · rfl
  · split
    · rfl
    · exact cnt_bump_ne _ _ _ _ _ (by unfold odKey; omega)

theorem scrubEnter_dropped {d : Dev} {n mem w : Nat} (hc : (scrubQueue d n mem).contains w = false) (hl : 4 ≤ (scrubQueue d n mem).length) :
    cnt (scrubEnter d n mem w) (0x2250 + n) 7 = (cnt d (0x2250 + n) 7 + 1) % 2 ^ 32 := by
  rw [scrubQueue] at hc hl
  rw [scrubEnter, if_neg (by simpa using hc), if_neg (not_lt.mpr hl), cnt_bump]
  rfl

/-- An uncorrectable error: counted, the word stored poisoned without a latent error. -/
theorem coreUncorrectable_spec (d : Dev) (n mem w : Nat) :
    cnt (coreUncorrectable d n mem w) (0x2250 + n) 5 = (cnt d (0x2250 + n) 5 + 1) % 2 ^ 32
    ∧ (mem ≠ 2 → isPoison (coreUncorrectable d n mem w).mem (wordAddr n mem w) = true)
    ∧ (mem = 2 → (sget (fun _ => {}) (coreOf (coreUncorrectable d n mem w) n).pm (pmKeyOf w)).poison = true)
    ∧ sget (fun _ => 0) (coreUncorrectable d n mem w).mem.latent (latentKey n mem w) = 0 := by
  rw [coreUncorrectable]
  split
  case isTrue hm => simp [hm]
  case isFalse hm => simp [hm, isPoison_setPoison]; simp [setPoison]

theorem coreMemoryReadsCorrect : Claim.CoreMemoryReadsCorrect := by
  intro s n mem v u ha
  have hx (c : Instr) (f : Dev → Dev) (hc : exec c s = nextDev s f) : exec c s = .next (onDev s f) := hc.trans (nextDev_awake ha)
  dsimp only
  rw [hx (.coreMemoryRead n mem v u) (fun d => coreMemRead d n mem (v.toNat % memWords mem) u) rfl, onDev]
  generalize v.toNat % memWords mem = w
  refine ⟨fun h => ?_, fun h => ?_, fun h => ?_⟩
  · obtain ⟨hu, -⟩ := Nat.max_eq_zero_iff.mp h
    rw [coreMemRead_clean h, hu]
  · have hm : (mem : Nat) + 1 ≠ 7 := by omega
    refine ⟨_, rfl, rfl, rfl, ?_, ?_, fun hc hl => ?_, ?_, coreMemRead_ram ..⟩ <;> dsimp only <;> rw [coreMemRead_corrected h]
    · rw [scrubEnter_counts_ne _ hm, coreCorrected_counts, cnt_bump]
      rfl
    · exact (scrubEnter_queue ..).trans (by rw [coreCorrected_queue]; rfl)
    · rw [scrubEnter_dropped (by rw [coreCorrected_queue]; exact hc) (by rw [coreCorrected_queue]; exact hl), coreCorrected_counts,
        cnt_bump_ne _ _ _ _ _ (by unfold odKey; omega)]
      rfl
    · rw [scrubEnter_mem, coreCorrected_mem]
      rfl
  · obtain ⟨h1, h2, h3, h4⟩ := coreUncorrectable_spec (strike s.dev (latentKey n mem w) u) n mem w
    refine ⟨_, rfl, rfl, rfl, ?_, fun hm => ?_, fun hm => ?_, ?_, coreMemRead_ram ..⟩ <;> dsimp only <;> rw [coreMemRead_uncorrectable h]
    · exact h1
    · exact h2 (by omega)
    · exact h3 (by omega)
    · exact h4

theorem scrubberRepairs : Claim.ScrubberRepairs := by
  intro s n mem ha
  have hx (c : Instr) (f : Dev → Dev) (hc : exec c s = nextDev s f) : exec c s = .next (onDev s f) := hc.trans (nextDev_awake ha)
  refine ⟨fun h => ?_, fun w rest h => ?_, fun u h => ?_, fun u h => ?_⟩
  · rw [hx (.scrubWrite n mem) (fun d => scrubWrite d n mem) rfl, onDev_eq_self]
    rw [scrubWrite, h]
  · refine ⟨_, hx (.scrubWrite n mem) (fun d => scrubWrite d n mem) rfl, ?_⟩
    rw [onDev]
    dsimp only
    rw [scrubWrite, h]
    refine ⟨?_, ?_, ?_, rfl, rfl⟩
    · simp
    · simp
    · exact cnt_bump ..
  · refine ⟨_, hx (.patrolRead n mem u) (fun d => patrolRead d n mem u) rfl, ?_⟩
    rw [onDev]
    dsimp only
    rw [patrolRead, if_pos h]
    refine ⟨?_, coreMemRead_ram ..⟩
    rw [coreMemRead_patrol, coreOf_updCore, sget_sset]
  · rw [hx (.patrolRead n mem u) (fun d => patrolRead d n mem u) rfl, onDev_eq_self]
    exact if_neg h

/-- Settles O42: a read through the correction stage in its three cases, the scrubber and the patrol. -/
theorem coreMemoryRepairs : Obligations.CoreMemoryRepairs := ⟨coreMemoryReadsCorrect, scrubberRepairs⟩

end Sys2Proof.Proofs


/-! ## Granules, windows and credits (O44) -/

namespace Sys2Proof.Proofs
open Sys2Proof.Machine

/-- A granule that no window takes: discarded and counted, with its event. -/
theorem discardGranule_violates (d : Dev) (n : Fin 16) (a : Nat) (writer : BitVec 16) :
    (discardGranule d n false a writer).mem = d.mem ∧ (discardGranule d n false a writer).cores = d.cores
    ∧ cnt (discardGranule d n false a writer) (0x2250 + n) 8 = (cnt d (0x2250 + n) 8 + 1) % 2 ^ 32 := by
  have he : discardGranule d n false a writer = postEvent (bump d (0x2250 + n) 8 4 1) 0x0403 0 (nodeSource n) (a % 2 ^ 40 + writer.toNat * 2 ^ 40) := by
    rw [discardGranule, if_neg Bool.false_ne_true, if_pos n.isLt]
  rw [he]
  exact ⟨by simp, by simp, (cnt_postEvent ..).trans (cnt_bump ..)⟩

theorem discardGranule_stale (d : Dev) (n : Fin 16) (a : Nat) (writer : BitVec 16) :
    discardGranule d n true a writer = bump d (0x2250 + n) 9 4 1 := by
  rw [discardGranule, if_pos rfl, if_pos n.isLt]

theorem closeIfDone_fill (w : Win) : (closeIfDone w).fill = w.fill := by
  have hs : (shutWin w).fill = w.fill := by
    rw [shutWin]
    split <;> rfl
  rw [closeIfDone]
  split
  · split
    · exact hs
    · rfl
  · rfl

theorem winAt_landUnit_fill (d : Dev) (node i v : Nat) (hollow : Bool) : (winAt (landUnit d node i v hollow) node i).fill = (winAt d node i).fill + 1 := by
  rw [landUnit, winAt_setWinAt, closeIfDone_fill]

theorem granulesLandOrAreDiscarded : Claim.GranulesLandOrAreDiscarded := by
  intro s n wm off u writer epoch bs last hollow ha
  have hx (c : Instr) (f : Dev → Dev) (hc : exec c s = nextDev s f) : exec c s = .next (onDev s f) := hc.trans (nextDev_awake ha)
  dsimp only
  rw [hx (.granuleArrive n wm off u writer epoch bs last hollow) (fun d => granuleArrive d n wm off.toNat u.toNat writer epoch bs last hollow) rfl, onDev]
  have hv (a : Nat) := discardGranule_violates s.dev n a writer
  refine ⟨fun j hj => ?_, fun hj hd => ?_, fun hj hd => ?_, fun d i v => winAt_landUnit_fill d n i v hollow⟩
  · have hgo : granuleArrive s.dev n wm off.toNat u.toNat writer epoch bs last hollow =
        if (coreOf s.dev n).disabled then (if last || hollow then giveCredits (bump s.dev (0x2300 + n) 6 8 1) n j writer 1 else bump s.dev (0x2300 + n) 6 8 1)
        else if (winChecked s.dev n j).state = 3 ∨ (winChecked s.dev n j).epoch ≠ epoch then discardGranule s.dev n true (coreAddr n wm off.toNat) writer
        else if (winChecked s.dev n j).writer = writer ∧ unitGranted (winChecked s.dev n j) u.toNat = true
          ∧ landOffset (winChecked s.dev n j) u.toNat 0 = off.toNat / 512 * 512 then landPart s.dev n j u.toNat (off.toNat % 512) bs last hollow
        else discardGranule s.dev n false (coreAddr n wm off.toNat) writer := by
      rw [granuleArrive, hj]
    rw [hgo]
    refine ⟨fun hd h3 he hf hm => ?_, fun hd h3 he hf hw hm => ?_, fun hd h3 => ?_, fun hd h3 he hf => ?_, fun hd => ?_⟩
    · rw [if_neg (by simp [hd]), if_neg (by simp [h3, he]), if_pos hf, landPart, if_neg (by rcases hm with hm | hm <;> simp [hm]), landNow]
    · rw [if_neg (by simp [hd]), if_neg (by simp [h3, he]), if_pos hf, landPart, if_pos (by simp [hw, hm])]
    · rw [if_neg (by simp [hd]), if_pos h3, discardGranule_stale]
    · rw [if_neg (by simp [hd]), if_neg (by simp [h3, he]), if_neg hf]
      exact ⟨_, rfl, hv _⟩
    · rw [if_pos hd]
  · refine ⟨_, rfl, ?_⟩
    dsimp only
    rw [granuleArrive, hj]
    dsimp only
    rw [if_neg (by simp [hd])]
    exact hv _
  · rw [granuleArrive, hj]
    dsimp only
    rw [if_pos hd]

theorem chan_setWinAt (d : Dev) (node i : Nat) (w : Win) (k : Nat) : chan (setWinAt d node i w) k = chan d k := by
  rw [setWinAt]
  split
  · rfl
  · split <;> rfl

theorem setWinAt_mem (d : Dev) (node i : Nat) (w : Win) : (setWinAt d node i w).mem = d.mem := by
  rw [setWinAt]
  split
  · rfl
  · split <;> rfl

theorem chCredit_setCredit (c : Chan) (r v : Nat) : chCredit (setCredit c r v) r = v := sget_sset ..

/-- Credits for a stream channel: those of its receiver grow, and windows stay. -/
theorem giveCredits_spec (d : Dev) (node i : Nat) (writer : BitVec 16) (k : Nat) :
    (giveCredits d node i writer k).mem = d.mem ∧ winAt (giveCredits d node i writer k) node i = winAt d node i
    ∧ ∀ r, writer.toNat / 4096 = 2 → recvOf (chan d (writer.toNat % 4096)) node i = some r →
        chCredit (chan (giveCredits d node i writer k) (writer.toNat % 4096)) r = (chCredit (chan d (writer.toNat % 4096)) r + k) % 4096 := by
  refine ⟨(giveCredits_sameStores d node i writer k).mem, ?_, fun r hw hr => ?_⟩
  · rw [giveCredits]
    split
    · dsimp only
      split
      · exact winAt_setChan ..
      · rfl
    · rfl
  · rw [giveCredits, if_pos hw]
    dsimp only
    rw [hr]
    dsimp only
    rw [chan_setChan, chCredit_setCredit]

theorem windowsDrainAndCreditsReturn : Claim.WindowsDrainAndCreditsReturn := by
  intro s node i ha
  have hx (c : Instr) (f : Dev → Dev) (hc : exec c s = nextDev s f) : exec c s = .next (onDev s f) := hc.trans (nextDev_awake ha)
  dsimp only
  rw [hx (.windowDrainTimeout node i) (fun d => windowDrain d node i) rfl, hx (.creditReturn node i) (fun d => creditReturn d node i) rfl]
  refine ⟨fun h => ?_, fun h2 h3 => ?_, fun h => ?_, fun h1 h0 hoff hw => ?_, fun h1 h0 hoff hw => ?_⟩
  · rw [onDev, windowDrain, if_pos h, shutWin]
  · rw [onDev_eq_self]
    exact if_neg (by simp [h2, h3])
  · rw [onDev_eq_self]
    exact if_neg fun ⟨h1, h0, hoff⟩ => by tauto
  · refine ⟨_, rfl, ?_⟩
    rw [onDev]
    dsimp only
    rw [creditReturn, if_pos ⟨h1, h0, hoff⟩]
    dsimp only
    rw [if_neg hw]
    obtain ⟨hm, hwin, hc⟩ := giveCredits_spec (setWinAt s.dev node i { winAt s.dev node i with
      granted := (winAt s.dev node i).granted + BitVec.ofNat 12 (winAt s.dev node i).pendingCredits, pendingCredits := 0 }) node i
      (winAt s.dev node i).writer (winAt s.dev node i).pendingCredits
    rw [setWinAt_mem] at hm
    rw [winAt_setWinAt] at hwin
    simp only [chan_setWinAt] at hc
    exact ⟨hm, hwin, hc⟩
  · rw [onDev, creditReturn, if_pos ⟨h1, h0, hoff⟩]
    dsimp only
    rw [if_pos hw, giveCredits, if_neg (by omega)]

/-- Settles O44: where an arriving granule goes, and how windows drain and return their credits. -/
theorem windowsTakeGranules : Obligations.WindowsTakeGranules := ⟨granulesLandOrAreDiscarded, windowsDrainAndCreditsReturn⟩

end Sys2Proof.Proofs


/-! ## What writes of core memory and window data leave of the cores -/

namespace Sys2Proof.Proofs
open Sys2Proof.Machine

/-- A step after which a part of every core is as it was. -/
structure KeepsBy {α : Type} (part : Core → α) (d e : Dev) : Prop where
  core : ∀ n, part (coreOf e n) = part (coreOf d n)

namespace KeepsBy

variable {α : Type} {part : Core → α} {d e f : Dev}

theorem of_cores (h : e.cores = d.cores) : KeepsBy part d e := ⟨fun n => by rw [coreOf, coreOf, h]⟩

theorem refl (d : Dev) : KeepsBy part d d := ⟨fun _ => rfl⟩

theorem trans (h : KeepsBy part d e) (k : KeepsBy part e f) : KeepsBy part d f := ⟨fun n => (k.core n).trans (h.core n)⟩

theorem ite {p : Prop} [Decidable p] (he : KeepsBy part d e) (hf : KeepsBy part d f) : KeepsBy part d (if p then e else f) := by
  split
  · exact he
  · exact hf

theorem foldl {β : Type} {g : Dev → β → Dev} (l : List β) (h : ∀ d : Dev, ∀ x ∈ l, KeepsBy part d (g d x)) (d : Dev) : KeepsBy part d (l.foldl g d) := by
  induction l generalizing d with
  | nil => exact refl d
  | cons x xs ih => exact (h d x (by simp)).trans (ih (fun d y hy => h d y (by simp [hy])) _)

/-- What a part keeps, every part of it keeps. -/
theorem of_part {β : Type} {p' : Core → β} (h : KeepsBy part d e) (hp : ∀ c c', part c = part c' → p' c = p' c') : KeepsBy p' d e :=
  ⟨fun n => hp _ _ (h.core n)⟩

theorem updCore (d : Dev) (n : Nat) {g : Core → Core} (h : ∀ c, part (g c) = part c) : KeepsBy part d (updCore d n g) := by
  refine ⟨fun m => ?_⟩
  by_cases hm : m = n
  · subst hm
    rw [coreOf_updCore, h]
  · rw [coreOf_updCore_ne _ _ hm]

theorem updMem (d : Dev) (g : Mem → Mem) : KeepsBy part d (updMem d g) := of_cores rfl
theorem bump (d : Dev) (i sub w k : Nat) : KeepsBy part d (bump d i sub w k) := of_cores rfl
theorem latch (d : Dev) (k : Nat) : KeepsBy part d (latch d k) := of_cores rfl
theorem postEvent (d : Dev) (a b c x : Nat) : KeepsBy part d (postEvent d a b c x) := of_cores (postEvent_cores ..)

end KeepsBy

/-! ### Core memory -/

/-- A core without what a read of its memories moves: PM poison and the correction stage. -/
def coreRead (c : Core) : Core := { c with pm := [], scrub := [], ceSince := 0, ceAddr := 0 }

/-- A core without what a write of its memories moves. -/
def coreStill (c : Core) : Core := { coreRead c with gatherWm := [], gatherAm := [] }

namespace KeepsBy

variable (d : Dev) (n : Nat)

theorem scrubCancel (mem w : Nat) : KeepsBy coreRead d (scrubCancel d n mem w) := ite (updCore _ _ (by exact fun _ => rfl)) (refl d)

theorem wordWritten (mem w : Nat) : KeepsBy coreRead d (wordWritten d n mem w) := (updMem d _).trans (scrubCancel ..)

theorem coreCorrected (mem w : Nat) : KeepsBy coreRead d (coreCorrected d n mem w) := by
  unfold Machine.coreCorrected
  dsimp only
  split
  · exact .trans (bump ..) (.trans (updCore _ _ (by exact fun _ => rfl)) (.trans (latch ..) (.trans (postEvent ..) (updCore _ _ (by exact fun _ => rfl)))))
  · exact .trans (bump ..) (updCore _ _ (by exact fun _ => rfl))

theorem scrubEnter (mem w : Nat) : KeepsBy coreRead d (scrubEnter d n mem w) := ite (refl d) (ite (updCore _ _ (by exact fun _ => rfl)) (bump ..))

theorem coreUncorrectable (mem w : Nat) : KeepsBy coreRead d (coreUncorrectable d n mem w) := by
  unfold Machine.coreUncorrectable
  dsimp only
  exact .trans (bump ..) (.trans (updMem ..) (.trans (ite (updCore _ _ (by exact fun _ => rfl)) (updMem ..)) (postEvent ..)))

theorem coreMemRead (mem w u : Nat) : KeepsBy coreRead d (coreMemRead d n mem w u) := by
  unfold Machine.coreMemRead
  dsimp only
  split
  · exact updMem d _
  · exact .trans (updMem d _) (.trans (coreCorrected ..) (scrubEnter ..))
  · exact .trans (updMem d _) (coreUncorrectable ..)

theorem readWords (mem lo hi : Nat) : KeepsBy coreRead d (readWords d n mem lo hi) := foldl _ (fun e _ _ => coreMemRead e ..) d

theorem readBytes (wm : Bool) (off k : Nat) : KeepsBy coreRead d (readBytes d n wm off k) := ite (refl d) (readWords ..)

theorem readPm (keys : List Nat) : KeepsBy coreRead d (readPm d n keys) := ite (refl d) (foldl _ (fun e _ _ => coreMemRead e ..) d)

theorem pmWritten (keys : List Nat) : KeepsBy coreRead d (pmWritten d n keys) := (updMem d _).trans (foldl _ (fun e _ _ => scrubCancel e ..) _)

theorem touchData (p : Place) (base lo k : Nat) : KeepsBy coreRead d (touchData d p base lo k) := by
  unfold Machine.touchData
  split
  · exact refl d
  · split
    · exact readBytes ..
    · exact readBytes ..
    · exact ite (refl d) (foldl _ (fun e _ _ => readBytes e ..) d)
    · exact refl d

variable {d n}

theorem still {e : Dev} (h : KeepsBy coreRead d e) : KeepsBy coreStill d e :=
  h.of_part fun _ _ he => congrArg (fun c : Core => { c with gatherWm := [], gatherAm := [] }) he

variable (d n)

theorem coreSetBytes (wm : Bool) (off : Nat) (bs : List Byte) : KeepsBy coreStill d (coreSetBytes d n wm off bs) := by
  induction bs generalizing d off with
  | nil => exact refl d
  | cons b bs ih => exact trans (e := coreSetByte d n wm off b) ((updMem d _).trans (ite (updCore _ _ (by intro c; cases wm <;> rfl)) (refl _))) (ih ..)

theorem coreWriteWord (wm : Bool) (off : Nat) (bs : List Byte) (p : Bool) : KeepsBy coreStill d (coreWriteWord d n wm off bs p) := by
  unfold Machine.coreWriteWord
  dsimp only
  exact .trans (ite (refl d) (coreMemRead d n _ _ _).still) (.trans (coreSetBytes ..) (.trans (wordWritten ..).still (updMem ..)))

end KeepsBy

/-- A core without what window data, writes of its memories and the end of an instruction move. -/
def coreKept (c : Core) : Core :=
  { c with ops := [], wins := [], pm := [], outbox := [], wmHeld := [], gatherWm := [], gatherAm := [], scrub := [], remote := [], ceSince := 0, ceAddr := 0 }

/-- A step that moves nothing of a core but its instructions, windows, PM, gather buffers, scrub queue and what waits to be sent. -/
structure KeepsCores (d e : Dev) : Prop where
  core : ∀ n, coreKept (coreOf e n) = coreKept (coreOf d n)

namespace KeepsCores

variable {d e f : Dev}

theorem of_cores (h : e.cores = d.cores) : KeepsCores d e := ⟨fun n => by rw [coreOf, coreOf, h]⟩

theorem refl (d : Dev) : KeepsCores d d := ⟨fun _ => rfl⟩

theorem trans (h : KeepsCores d e) (k : KeepsCores e f) : KeepsCores d f := ⟨fun n => (k.core n).trans (h.core n)⟩

theorem ite {p : Prop} [Decidable p] (he : KeepsCores d e) (hf : KeepsCores d f) : KeepsCores d (if p then e else f) := by
  split
  · exact he
  · exact hf

theorem foldl {α : Type} {g : Dev → α → Dev} (l : List α) (h : ∀ d : Dev, ∀ x ∈ l, KeepsCores d (g d x)) (d : Dev) : KeepsCores d (l.foldl g d) := by
  induction l generalizing d with
  | nil => exact refl d
  | cons x xs ih => exact (h d x (by simp)).trans (ih (fun d y hy => h d y (by simp [hy])) _)

theorem updCore (d : Dev) (n : Nat) {g : Core → Core} (h : ∀ c, coreKept (g c) = coreKept c) : KeepsCores d (updCore d n g) := by
  refine ⟨fun m => ?_⟩
  by_cases hm : m = n
  · subst hm
    rw [coreOf_updCore, h]
  · rw [coreOf_updCore_ne _ _ hm]

theorem updMem (d : Dev) (g : Mem → Mem) : KeepsCores d (updMem d g) := of_cores rfl
theorem bump (d : Dev) (i sub w k : Nat) : KeepsCores d (bump d i sub w k) := of_cores rfl
theorem latch (d : Dev) (k : Nat) : KeepsCores d (latch d k) := of_cores rfl
theorem postEvent (d : Dev) (a b c x : Nat) : KeepsCores d (postEvent d a b c x) := of_cores (postEvent_cores ..)
theorem setChan (d : Dev) (c : Nat) (v : Chan) : KeepsCores d (setChan d c v) := of_cores rfl
theorem drawFree (d : Dev) : KeepsCores d (drawFree d).2 := of_cores rfl

/-! ### Core memory -/

theorem of_still (h : KeepsBy coreStill d e) : KeepsCores d e :=
  ⟨(h.of_part fun _ _ he => congrArg coreKept he : KeepsBy (fun c => coreKept (coreStill c)) d e).core⟩

variable (d) (n : Nat)

theorem markPoison (i : Nat) (p : Bool) : KeepsCores d (markPoison d n i p) := ite (updCore _ _ (by exact fun _ => rfl)) (refl d)

theorem scrubCancel (mem w : Nat) : KeepsCores d (scrubCancel d n mem w) := of_still (KeepsBy.scrubCancel ..).still

theorem coreMemRead (mem w u : Nat) : KeepsCores d (coreMemRead d n mem w u) := of_still (KeepsBy.coreMemRead ..).still

theorem coreWriteWord (wm : Bool) (off : Nat) (bs : List Byte) (p : Bool) : KeepsCores d (coreWriteWord d n wm off bs p) := of_still (.coreWriteWord ..)

theorem flushGather (wm : Bool) (g : Gather) : KeepsCores d (flushGather d n wm g) := by
  have hset (c : Core) (l : List Gather) : coreKept (setGather c wm l) = coreKept c := by cases wm <;> rfl
  unfold Machine.flushGather
  dsimp only
  split
  · exact (updCore _ _ (by exact fun _ => hset ..)).trans (coreWriteWord ..)
  · have hw (e : Dev) (bs : List Byte) (p : Bool) (h : KeepsCores d e) : KeepsCores d (Machine.coreWriteWord e n wm (32 * g.word) bs p) :=
      h.trans (coreWriteWord ..)
    split
    · exact .trans (hw _ _ _ (.trans (updCore _ _ (by exact fun _ => hset ..)) (.trans (bump ..) (coreMemRead ..)))) (markPoison ..)
    · exact hw _ _ _ (.trans (updCore _ _ (by exact fun _ => hset ..)) (.trans (bump ..) (coreMemRead ..)))

theorem narrowPut (who : Gather) (wm : Bool) (off mask : Nat) (bs : List Byte) (p : Bool) : KeepsCores d (narrowPut d n who wm off mask bs p) := by
  have hset (c : Core) (l : List Gather) : coreKept (setGather c wm l) = coreKept c := by cases wm <;> rfl
  unfold Machine.narrowPut
  dsimp only
  have h1 : KeepsCores d (if ((gatherOf (coreOf d n) wm (off / 32)).isNone && decide (4 ≤ (gatherBuf (coreOf d n) wm).length)) = true then
      match gatherBuf (coreOf d n) wm with
      | g :: _ => Machine.flushGather d n wm g
      | [] => d
    else d) := by
    split
    · split
      · exact flushGather ..
      · exact refl d
    · exact refl d
  exact h1.trans (.trans (updCore _ _ (by exact fun _ => hset ..)) (.trans (scrubCancel ..) (ite (flushGather ..) (refl _))))

theorem storePart (who : Gather) (wm : Bool) (off : Nat) (part : List (Byte × Bool)) : KeepsCores d (storePart d n who wm off part) :=
  ite (narrowPut ..) (coreWriteWord ..)

theorem coreStore (who : Gather) (wm : Bool) (k off : Nat) (bs : List (Byte × Bool)) : KeepsCores d (coreStore d n who wm k off bs) := by
  induction k generalizing d off bs with
  | zero => exact refl d
  | succ k ih =>
    cases bs with
    | nil => exact refl d
    | cons b bs => exact (storePart ..).trans (ih ..)

theorem spoil (wm : Bool) (off mask : Nat) (part : List (Byte × Bool)) : KeepsCores d (spoil d n wm off mask part).1 := by
  unfold Machine.spoil
  split
  · exact (drawFree d).trans (updCore _ _ (by exact fun _ => rfl))
  · exact refl d

theorem opStore (o : Op) (wm : Bool) (k off : Nat) (bs : List (Byte × Bool)) : KeepsCores d (opStore d n o wm k off bs) := by
  induction k generalizing d off bs with
  | zero => exact refl d
  | succ k ih =>
    cases bs with
    | nil => exact refl d
    | cons b bs => exact (spoil ..).trans ((storePart ..).trans (ih ..))

theorem finishOp (i : Nat) (g : Op → Op) : KeepsCores d (finishOp d n i g) := updCore _ _ (by exact fun _ => rfl)

/-! ### Window data and credits -/

variable (node i : Nat)

theorem setWinAt (w : Win) : KeepsCores d (setWinAt d node i w) := by
  unfold Machine.setWinAt
  exact ite (updCore _ _ (by exact fun _ => rfl)) (ite (of_cores rfl) (of_cores rfl))

theorem discardGranule (stale : Bool) (addr : Nat) (writer : BitVec 16) : KeepsCores d (discardGranule d node stale addr writer) := by
  unfold Machine.discardGranule
  exact ite (ite (bump ..) (refl d)) (.trans (ite (bump ..) (refl d)) (postEvent ..))

theorem discardUnit (stale : Bool) (addr : Nat) (writer : BitVec 16) (gs : Nat) : KeepsCores d (discardUnit d node stale addr writer gs) :=
  foldl _ (fun e _ _ => discardGranule e ..) d

theorem giveCredits (writer : BitVec 16) (k : Nat) : KeepsCores d (giveCredits d node i writer k) := by
  unfold Machine.giveCredits
  dsimp only
  split
  · split
    · exact setChan ..
    · exact refl d
  · exact refl d

theorem landData (u b : Nat) (bs : List (Byte × Bool)) : KeepsCores d (landData d node i u b bs) := by
  unfold Machine.landData
  dsimp only
  split
  · split
    · exact coreStore ..
    · exact (drawFree d).trans (coreStore ..)
  · exact ite (of_cores rfl) (of_cores rfl)

theorem landUnit (u : Nat) (hollow : Bool) : KeepsCores d (landUnit d node i u hollow) := setWinAt ..

theorem landNow (u b : Nat) (bs : List (Byte × Bool)) (last hollow : Bool) : KeepsCores d (landNow d node i u b bs last hollow) :=
  .trans (ite (refl d) (landData ..)) (ite (landUnit ..) (refl _))

theorem landPart (u b : Nat) (bs : List (Byte × Bool)) (last hollow : Bool) : KeepsCores d (landPart d node i u b bs last hollow) :=
  ite (updCore _ _ (by exact fun _ => rfl)) (landNow ..)

theorem landHeld : KeepsCores d (landHeld d n) := by
  unfold Machine.landHeld
  exact ite (refl d) (.trans (updCore _ _ (by exact fun _ => rfl)) (foldl _ (fun e _ _ => ite (landNow ..) (discardGranule ..)) _))

theorem deliverUnit (writer : BitVec 16) (epoch : BitVec 8) (u : Nat) (bs : List (Byte × Bool)) (hollow : Bool) :
    KeepsCores d (deliverUnit d node i writer epoch u bs hollow) := by
  unfold Machine.deliverUnit
  dsimp only
  exact ite ((bump ..).trans (giveCredits ..)) (ite (discardUnit ..) (ite (landPart ..) (discardUnit ..)))

theorem pumpList (l : List OutUnit) (held : List (Nat × Nat)) : KeepsCores d (pumpList d n l held).1 := by
  induction l generalizing d held with
  | nil => exact refl d
  | cons o t ih =>
    unfold Machine.pumpList
    dsimp only
    split
    · exact ih ..
    · split
      · exact (deliverUnit ..).trans (ih ..)
      · exact ih ..

theorem pump : KeepsCores d (pump d n) := (pumpList d n _ []).trans (updCore _ _ (by exact fun _ => rfl))

theorem sendUnits (us : List OutUnit) : KeepsCores d (sendUnits d n us) := .trans (updCore _ _ (by exact fun _ => rfl)) (pump ..)

theorem sendPieces (o : Op) (t : Desc) (ext : List Nat) (ps : List Piece) (hollow all : Bool) : KeepsCores d (sendPieces d n o t ext ps hollow all) := by
  unfold Machine.sendPieces
  exact .trans (updCore _ _ (by exact fun _ => rfl)) (sendUnits ..)

theorem endOut (o : Op) (t : Desc) (ext : List Nat) : KeepsCores d (endOut d n o t ext) := by
  unfold Machine.endOut
  exact ite ((sendPieces ..).trans (updCore _ _ (by exact fun _ => rfl))) (refl d)

theorem physWriteMarked (g source k a : Nat) (bs : List (Byte × Bool)) : KeepsCores d (physWriteMarked d g source k a bs) := by
  induction k generalizing d a bs with
  | zero => exact refl d
  | succ k ih =>
    cases bs with
    | nil => exact refl d
    | cons b bs => exact (of_cores (writeGranule_cores ..)).trans (ih ..)

end KeepsCores

end Sys2Proof.Proofs


/-! ## The fetch engine (O41) -/

namespace Sys2Proof.Proofs
open Sys2Proof.Machine

/-! ### Lengths of what is read -/

theorem length_peeks (m : Mem) (a n : Nat) : (peeks m a n).length = n := by
  induction n generalizing a with
  | zero => rfl
  | succ n ih => exact congrArg (· + 1) (ih (a + 1))

theorem length_readGranule (d : Dev) (g : Option Nat) (s a : Nat) : (readGranule d g s a).2.1.length = 64 := by
  have hz (p : Prop) [Decidable p] (e e' : Dev) (l : List Byte) (q q' : Bool × Bool) (hl : l.length = 64) :
      (if p then (e, List.replicate 64 (0#8), q) else (e', l, q')).2.1.length = 64 := by
    split
    · exact List.length_replicate
    · exact hl
  unfold readGranule
  dsimp only
  cases areaOf d (a / 64 * 64) with
  | dram => exact hz _ _ _ _ _ _ (length_decBytes ..)
  | sb => exact hz _ _ _ _ _ _ (length_peeks ..)
  | _ => exact List.length_replicate

theorem length_readMarked (g : Option Nat) (s : Nat) (l : List Nat) (d : Dev) : (readMarked d g s l).2.length = 64 * l.length := by
  induction l generalizing d with
  | nil => rfl
  | cons a t ih =>
    have h := length_readGranule d g s a
    simp only [readMarked, List.length_append, List.length_map, List.length_take, List.length_drop, ih, h, List.length_cons]
    omega

theorem length_granulesOf {a n : Nat} (h : n ≠ 0) : (granulesOf a n).length = (a + n - 1) / 64 - a / 64 + 1 := by
  rw [granulesOf, if_neg h, List.length_map, List.length_range]

theorem length_memReadMarked (d : Dev) (g : Option Nat) (s a n : Nat) : (memReadMarked d g s a n).2.length = n := by
  by_cases h : n = 0
  · simp [memReadMarked, h]
  · have hl := length_granulesOf (a := a) h
    simp only [memReadMarked, List.length_take, List.length_drop, length_readMarked, hl]
    omega

/-! ### Granules of a read (R240) -/

theorem cutGranules_sum {k a : Nat} {bs : List (Byte × Bool)} (dst : Nat) (h : a % 64 + bs.length ≤ 64 * k) :
    ((cutGranules k a dst bs).map fun g => g.2.length).sum = bs.length := by
  induction k generalizing a dst bs with
  | zero =>
    have hb : bs = [] := List.length_eq_zero_iff.mp (by omega)
    rw [hb]
    rfl
  | succ k ih =>
    cases bs with
    | nil => rfl
    | cons b t =>
      have hm : a % 64 < 64 := Nat.mod_lt _ (by norm_num)
      have hd : ((b :: t).drop (64 - a % 64)).length = (b :: t).length - (64 - a % 64) := List.length_drop
      have := ih (dst + (64 - a % 64)) (a := a + (64 - a % 64)) (bs := (b :: t).drop (64 - a % 64)) (by rw [hd]; omega)
      simp only [cutGranules, List.map_cons, List.sum_cons, this, hd, List.length_take]
      omega

theorem cutGranules_length_le {r a : Nat} {bs : List (Byte × Bool)} (k dst : Nat) (h : bs ≠ [] → a % 64 + bs.length ≤ 64 * r) :
    (cutGranules k a dst bs).length ≤ r := by
  induction k generalizing r a dst bs with
  | zero => exact Nat.zero_le r
  | succ k ih =>
    cases bs with
    | nil => exact Nat.zero_le r
    | cons b t =>
      have h := h (List.cons_ne_nil b t)
      have hm : a % 64 < 64 := Nat.mod_lt _ (by norm_num)
      rw [List.length_cons] at h
      have hl : ((b :: t).drop (64 - a % 64)).length = t.length + 1 - (64 - a % 64) := List.length_drop
      have := ih (r := r - 1) (a := a + (64 - a % 64)) (bs := (b :: t).drop (64 - a % 64)) (dst + (64 - a % 64)) fun hne => by
        have := List.length_pos_iff.mpr hne
        omega
      show (cutGranules k (a + (64 - a % 64)) (dst + (64 - a % 64)) ((b :: t).drop (64 - a % 64))).length + 1 ≤ r
      omega

/-- The granules that a read of `len` bytes of a transfer asks for. -/
def feGranules (d : Dev) (n : Nat) (x : Xfer) (len : Nat) : List Gran :=
  (cutGranules (len / 64 + 2) x.src x.dst (memReadMarked d (some agFe) n x.src len).2).map fun g =>
    { wc := x.wc, epoch := x.epoch, ring := x.ring, pos := x.pos, dst := g.1, data := g.2 }

theorem feGranules_sum (d : Dev) (n : Nat) (x : Xfer) (len : Nat) : ((feGranules d n x len).map fun g => g.data.length).sum = len := by
  have hl := length_memReadMarked d (some agFe) n x.src len
  have h := cutGranules_sum x.dst (k := len / 64 + 2) (a := x.src) (bs := (memReadMarked d (some agFe) n x.src len).2) (by omega)
  rw [feGranules, List.map_map]
  exact h.trans hl

theorem feGranules_length_le {d : Dev} {n : Nat} {x : Xfer} {len room : Nat} (h : len ≤ room * 64 - (if room = 0 then 0 else x.src % 64)) :
    (feGranules d n x len).length ≤ room := by
  have hl := length_memReadMarked d (some agFe) n x.src len
  rw [feGranules, List.length_map]
  refine cutGranules_length_le _ _ fun hne => ?_
  have := List.length_pos_iff.mpr hne
  split at h <;> omega

/-- What is left of a transfer once `len` bytes of it are asked for. -/
def feLeft (x : Xfer) (len : Nat) : List Xfer := if len < x.len then [{ x with src := x.src + len, dst := x.dst + len, len := x.len - len }] else []

/-- A FETCH's transfer has asked for `len` bytes. -/
def feAsked (d : Dev) (n : Nat) (x : Xfer) (rest : List Xfer) (len : Nat) : Dev :=
  updCore (feAdd (memReadMarked d (some agFe) n x.src len).1 n x.wc (feGranules d n x len).length) n fun c =>
    { c with fe := feLeft x len ++ rest, landing := c.landing ++ feGranules d n x len }

/-- Bytes that a FETCH may ask for: as many granules as the landing buffer has entries for. -/
def feMay (c : Core) (x : Xfer) : Nat :=
  min x.len ((256 - c.landing.length) * 64 - (if 256 - c.landing.length = 0 then 0 else x.src % 64))

/-- A SPILL's transfer has gone out. -/
def feSpilt (d : Dev) (n i : Nat) (o : Op) (x : Xfer) (rest : List Xfer) : Dev :=
  let bs := coreMarked d n ((opDesc o (rDescSrc o.word)).space == 2) x.src x.len
  let e := feStore (updCore d n fun c => { c with fe := rest }) n o x.dst bs
  feSettle (markPoison (bump (bump e (0x22D0 + n) 1 8 1) (0x22D0 + n) 3 8 x.len) n i (bs.any (·.2))) n i o

theorem feTransfer_idle {d : Dev} {n : Nat} (h : (coreOf d n).disabled = true ∨ (coreOf d n).fe = []) : feTransfer d n = d := by
  rw [feTransfer]
  dsimp only
  split
  case h_1 hd hf => simp [hd, hf] at h
  case h_2 => rfl

section
variable {d : Dev} {n : Nat} {x : Xfer} {rest : List Xfer} (hd : (coreOf d n).disabled = false) (hf : (coreOf d n).fe = x :: rest)
include hd hf

theorem feTransfer_dropped (ho : opAt (coreOf d n) x.wc x.ring x.pos = none) : feTransfer d n = updCore d n fun c => { c with fe := rest } := by
  rw [feTransfer]
  dsimp only
  rw [hd, hf]
  dsimp only
  rw [ho]

theorem feTransfer_spill {i : Nat} {o : Op} (ho : opAt (coreOf d n) x.wc x.ring x.pos = some (i, o)) (hs : rOpcode o.word = 0x19) :
    feTransfer d n = feSpilt d n i o x rest := by
  rw [feTransfer]
  dsimp only
  rw [hd, hf]
  dsimp only
  rw [ho]
  exact if_pos hs

theorem feTransfer_fetch {i : Nat} {o : Op} (ho : opAt (coreOf d n) x.wc x.ring x.pos = some (i, o)) (hs : rOpcode o.word ≠ 0x19) :
    feTransfer d n = if feMay (coreOf d n) x = 0 then d
      else if (feLeft x (feMay (coreOf d n) x)).isEmpty then bump (feAsked d n x rest (feMay (coreOf d n) x)) (0x22D0 + n) 1 8 1
      else feAsked d n x rest (feMay (coreOf d n) x) := by
  rw [feTransfer]
  dsimp only
  rw [hd, hf]
  dsimp only
  rw [ho]
  exact if_neg hs

end

theorem coreOf_feAsked (d : Dev) (n : Nat) (x : Xfer) (rest : List Xfer) (len : Nat) :
    (coreOf (feAsked d n x rest len) n).landing = (coreOf d n).landing ++ feGranules d n x len
    ∧ (coreOf (feAsked d n x rest len) n).fe = feLeft x len ++ rest := by
  rw [feAsked, coreOf_updCore, feAdd, coreOf_updCore, coreOf, memReadMarked_cores]
  exact ⟨rfl, rfl⟩

/-! ### What a SPILL leaves of the landing buffer -/

theorem keepsCores_feStore (d : Dev) (n : Nat) (o : Op) (dst : Nat) (bs : List (Byte × Bool)) : KeepsCores d (feStore d n o dst bs) := by
  unfold feStore
  dsimp only
  split
  · exact .physWriteMarked ..
  · exact .sendPieces ..
  · exact .opStore ..

theorem keepsCores_feSettle (d : Dev) (n i : Nat) (o : Op) : KeepsCores d (feSettle d n i o) := by
  unfold feSettle
  exact .ite (.refl d) (.trans (.endOut ..) (.finishOp ..))

theorem feSpilt_landing (d : Dev) (n i : Nat) (o : Op) (x : Xfer) (rest : List Xfer) : (coreOf (feSpilt d n i o x rest) n).landing = (coreOf d n).landing := by
  have h : KeepsCores (updCore d n fun c => { c with fe := rest }) (feSpilt d n i o x rest) := by
    unfold feSpilt
    exact .trans (keepsCores_feStore ..) (.trans (.bump ..) (.trans (.bump ..) (.trans (.markPoison ..) (keepsCores_feSettle ..))))
  have hl := congrArg Core.landing (h.core n)
  rw [coreOf_updCore] at hl
  exact hl

/-- The landing buffer holds at most 256 granules (R240). -/
theorem feTransfer_landing_le {d : Dev} {n : Nat} (h : (coreOf d n).landing.length ≤ 256) : (coreOf (feTransfer d n) n).landing.length ≤ 256 := by
  cases hd : (coreOf d n).disabled with
  | true => rwa [feTransfer_idle (.inl hd)]
  | false =>
    cases hf : (coreOf d n).fe with
    | nil => rwa [feTransfer_idle (.inr hf)]
    | cons x rest =>
      cases ho : opAt (coreOf d n) x.wc x.ring x.pos with
      | none =>
        rw [feTransfer_dropped hd hf ho, coreOf_updCore]
        exact h
      | some io =>
        by_cases hs : rOpcode io.2.word = 0x19
        · rwa [feTransfer_spill hd hf ho hs, feSpilt_landing]
        · have hask : (coreOf (feAsked d n x rest (feMay (coreOf d n) x)) n).landing.length ≤ 256 := by
            rw [(coreOf_feAsked ..).1, List.length_append]
            have := feGranules_length_le (d := d) (n := n) (x := x) (len := feMay (coreOf d n) x) (room := 256 - (coreOf d n).landing.length) (min_le_right ..)
            omega
          rw [feTransfer_fetch hd hf ho hs]
          split
          · exact h
          · split
            · exact hask
            · exact hask

theorem wcOf_feSub (d : Dev) (n w k v : Nat) : wcOf (feSub d n w k) v = wcOf d v := rfl

/-- Settles O41: a transfer of the FE by its kind, the bound of the landing buffer, and a granule that returns. -/
theorem fetchEngineRuns : Obligations.FetchEngineRuns := by
  intro s n ha
  have hx (c : Instr) (f : Dev → Dev) (hc : exec c s = nextDev s f) : exec c s = .next (onDev s f) := hc.trans (nextDev_awake ha)
  dsimp only
  rw [hx (.feTransfer n) (fun d => feTransfer d n) rfl, hx (.feGranuleReturn n) (fun d => feReturn d n) rfl]
  refine ⟨fun h => ?_, fun x rest hd hf ho => ?_, fun x rest i o hd hf ho => ⟨fun hs => ?_, fun hs h0 => ?_, fun hs h0 => ?_⟩, fun t ht hl => ?_, fun hl => ?_,
    fun g rest hl => ⟨fun hd => ?_, fun hd he => ?_, fun hd he ho => ?_, fun i o hd he ho => ?_⟩⟩
  · rw [onDev_eq_self]
    exact feTransfer_idle h
  · rw [onDev, feTransfer_dropped hd hf ho]
  · rw [onDev, feTransfer_spill hd hf ho hs, feSpilt]
  · rw [onDev_eq_self]
    exact (feTransfer_fetch hd hf ho hs).trans (if_pos h0)
  · rw [onDev, feTransfer_fetch hd hf ho hs, if_neg (show feMay (coreOf s.dev n) x ≠ 0 from h0)]
    obtain ⟨hg, hq⟩ := coreOf_feAsked s.dev n x rest (feMay (coreOf s.dev n) x)
    refine ⟨_, _, rfl, ?_, feGranules_sum s.dev n x _, ?_, fun he => ?_⟩
    · dsimp only
      split <;> exact hg
    · dsimp only
      split <;> exact hq
    · have hleft : (feLeft x (feMay (coreOf s.dev n) x)).isEmpty = true := by rw [feLeft, if_neg (not_lt.mpr (show x.len ≤ feMay (coreOf s.dev n) x from he.ge))]; rfl
      dsimp only
      rw [if_pos hleft, cnt_bump, feAsked, cnt_updCore, feAdd, cnt_updCore, (leaves_memReadMarked ..).cnt (by unfold AccessKey odKey; omega)]
      rfl
  · obtain rfl := Host.Outcome.next.inj ht
    exact feTransfer_landing_le hl
  · rw [onDev_eq_self]
    rw [feReturn, hl]
  · rw [onDev, feReturn, hl]
    dsimp only
    rw [if_pos hd]
  · rw [onDev, feReturn, hl]
    dsimp only
    rw [if_neg (by simp [hd]), wcOf_feSub, wcOf_updCore, if_pos he]
  · rw [onDev, feReturn, hl]
    dsimp only
    rw [if_neg (by simp [hd]), wcOf_feSub, wcOf_updCore, if_neg (not_not.mpr he), ho]
  · rw [onDev, feReturn, hl]
    dsimp only
    rw [if_neg (by simp [hd]), wcOf_feSub, wcOf_updCore, if_neg (not_not.mpr he), ho]

end Sys2Proof.Proofs


/-! ## Gathered narrow writes (O43) -/

namespace Sys2Proof.Proofs
open Sys2Proof.Machine

theorem withPos_concat {α : Type} (l : List α) (x : α) : withPos (l ++ [x]) = withPos l ++ [(l.length, x)] := by
  rw [withPos, withPos, List.length_append, List.length_singleton, List.range_succ, List.zip_append (by simp)]
  rfl

theorem bit_eq_div {n : Nat} (r : BitVec n) (i : Nat) : bit r i = decide (r.toNat / 2 ^ i % 2 = 1) := by
  rw [bit, fld, Nat.shiftRight_eq_div_pow, pow_one]
  exact beq_eq_decide ..

/-! ### Merging bytes into an entry (R132) -/

/-- One byte of a narrow write, byte `b` of the word the first, goes into an entry where the mask takes it. -/
def mergeByte (b mask : Nat) (g : Gather) (x : Nat × Byte) : Gather :=
  if mask / 2 ^ x.1 % 2 = 1 then
    { g with bytes := g.bytes.set (b + x.1) x.2, mask := if g.mask / 2 ^ (b + x.1) % 2 = 1 then g.mask else g.mask + 2 ^ (b + x.1) }
  else g

/-- Whether byte `i` of the word is one of the `k` bytes from byte `b` on that the mask takes. -/
abbrev Merged (b mask k i : Nat) : Prop := b ≤ i ∧ i < b + k ∧ mask / 2 ^ (i - b) % 2 = 1

theorem testBit_add_two_pow {m k : Nat} (h : m.testBit k = false) (i : Nat) : (m + 2 ^ k).testBit i = (decide (i = k) || m.testBit i) := by
  have hk : (0:Nat) < 2 ^ k := Nat.two_pow_pos k
  have hr : m % 2 ^ (k + 1) < 2 ^ k := by
    have h2 := Nat.mod_pow_succ (x := m) (b := 2) (k := k)
    rw [Nat.testBit_eq_decide_div_mod_eq, decide_eq_false_iff_not] at h
    have h0 : m / 2 ^ k % 2 = 0 := by omega
    rw [h2, h0, mul_zero, add_zero]
    exact Nat.mod_lt _ hk
  have hsum : m + 2 ^ k = 2 ^ (k + 1) * (m / 2 ^ (k + 1)) + (2 ^ k * 1 + m % 2 ^ (k + 1)) := by
    have := Nat.div_add_mod m (2 ^ (k + 1))
    omega
  have hp : (2 : Nat) ^ (k + 1) = 2 * 2 ^ k := pow_succ' 2 k
  have hlt : 2 ^ k * 1 + m % 2 ^ (k + 1) < 2 ^ (k + 1) := by omega
  have hlt' : m % 2 ^ (k + 1) < 2 ^ (k + 1) := by omega
  conv_rhs => rw [← Nat.div_add_mod m (2 ^ (k + 1))]
  rw [hsum, Nat.testBit_two_pow_mul_add _ hlt, Nat.testBit_two_pow_mul_add _ hr, Nat.testBit_two_pow_mul_add _ hlt']
  rcases lt_trichotomy i k with hi | rfl | hi
  · simp [hi, Nat.lt_succ_of_lt hi, hi.ne]
  · simp
  · simp [hi.ne', show ¬ i < k + 1 by omega]

theorem bit_add_two_pow {m k : Nat} (h : m / 2 ^ k % 2 ≠ 1) (i : Nat) : (m + 2 ^ k) / 2 ^ i % 2 = if i = k then 1 else m / 2 ^ i % 2 := by
  have h' := testBit_add_two_pow (m := m) (k := k) (by rw [Nat.testBit_eq_decide_div_mod_eq, decide_eq_false h]) i
  rw [Nat.testBit_eq_decide_div_mod_eq, Nat.testBit_eq_decide_div_mod_eq] at h'
  by_cases hi : i = k
  · simpa [hi] using h'
  · rw [if_neg hi]
    simp only [hi, decide_false, Bool.false_or, decide_eq_decide] at h'
    omega

theorem mergeByte_mask (b mask : Nat) (g : Gather) (x : Nat × Byte) (i : Nat) :
    (mergeByte b mask g x).mask / 2 ^ i % 2 = if i = b + x.1 ∧ mask / 2 ^ x.1 % 2 = 1 then 1 else g.mask / 2 ^ i % 2 := by
  rw [mergeByte]
  split
  case isTrue h =>
    simp only [h, and_true]
    split
    case isTrue hs =>
      split
      case isTrue hi => rw [hi, hs]
      case isFalse => rfl
    case isFalse hs => exact bit_add_two_pow hs i
  case isFalse h => simp [h]

theorem mergeByte_byte (b mask : Nat) (g : Gather) (x : Nat × Byte) {i : Nat} (hi : i < g.bytes.length) :
    (mergeByte b mask g x).bytes.getD i 0#8 = if i = b + x.1 ∧ mask / 2 ^ x.1 % 2 = 1 then x.2 else g.bytes.getD i 0#8 := by
  rw [mergeByte]
  split
  case isTrue h =>
    simp only [h, and_true, List.getD_eq_getElem?_getD, List.getElem?_set]
    by_cases hib : b + x.1 = i
    · simp [hib, hi]
    · simp [hib, Ne.symm hib]
  case isFalse h => simp [h]

theorem mergeByte_same (b mask : Nat) (g : Gather) (x : Nat × Byte) :
    (mergeByte b mask g x).word = g.word ∧ (mergeByte b mask g x).bytes.length = g.bytes.length := by
  rw [mergeByte]
  split
  · exact ⟨rfl, List.length_set⟩
  · exact ⟨rfl, rfl⟩

theorem mergeBytes_spec (b mask : Nat) (g : Gather) (bs : List Byte) :
    let r := (withPos bs).foldl (mergeByte b mask) g
    r.word = g.word ∧ r.bytes.length = g.bytes.length
    ∧ (∀ i, Merged b mask bs.length i → r.mask / 2 ^ i % 2 = 1 ∧ (i < g.bytes.length → r.bytes.getD i 0#8 = bs.getD (i - b) 0#8))
    ∧ ∀ i, ¬ Merged b mask bs.length i → r.mask / 2 ^ i % 2 = g.mask / 2 ^ i % 2 ∧ (i < g.bytes.length → r.bytes.getD i 0#8 = g.bytes.getD i 0#8) := by
  induction bs using List.reverseRecOn with
  | nil => exact ⟨rfl, rfl, fun i hi => by unfold Merged at hi; simp at hi; omega, fun i _ => ⟨rfl, fun _ => rfl⟩⟩
  | append_singleton l y ih =>
    dsimp only at ih ⊢
    obtain ⟨hw, hl, hin, hout⟩ := ih
    rw [withPos_concat, List.foldl_append, List.foldl_cons, List.foldl_nil]
    obtain ⟨hw', hl'⟩ := mergeByte_same b mask ((withPos l).foldl (mergeByte b mask) g) (l.length, y)
    refine ⟨hw'.trans hw, hl'.trans hl, fun i hi => ?_, fun i hi => ?_⟩
    · rw [Merged, List.length_append, List.length_singleton] at hi
      obtain ⟨h1, h2, h3⟩ := hi
      rw [mergeByte_mask]
      by_cases hlast : i = b + l.length
      · have hm : mask / 2 ^ l.length % 2 = 1 := by simpa [hlast] using h3
        refine ⟨if_pos ⟨hlast, hm⟩, fun hb => ?_⟩
        rw [mergeByte_byte _ _ _ _ (by omega), if_pos ⟨hlast, hm⟩, hlast]
        simp
      · obtain ⟨hmask, hbyte⟩ := hin i ⟨h1, by omega, h3⟩
        refine ⟨(if_neg fun hc => hlast hc.1).trans hmask, fun hb => ?_⟩
        rw [mergeByte_byte _ _ _ _ (by omega), if_neg fun hc => hlast hc.1, hbyte hb, List.getD_append _ _ _ _ (by omega)]
    · have hcond : ¬ (i = b + l.length ∧ mask / 2 ^ l.length % 2 = 1) := fun ⟨he, hm⟩ => hi ⟨by omega, by simp; omega, by simpa [he] using hm⟩
      obtain ⟨hmask, hbyte⟩ := hout i fun ⟨h1, h2, h3⟩ => hi ⟨h1, by simp; omega, h3⟩
      rw [mergeByte_mask]
      refine ⟨(if_neg hcond).trans hmask, fun hb => ?_⟩
      rw [mergeByte_byte _ _ _ _ (by omega), if_neg hcond, hbyte hb]

/-- A merged entry: its word, its bytes and its mask. -/
theorem mergeGather_spec (g who : Gather) (b mask : Nat) (bs : List Byte) (p : Bool) :
    let r := mergeGather g who b mask bs p
    r.word = g.word ∧ r.bytes.length = g.bytes.length
    ∧ (∀ i, Merged b mask bs.length i → r.mask / 2 ^ i % 2 = 1 ∧ (i < g.bytes.length → r.bytes.getD i 0#8 = bs.getD (i - b) 0#8))
    ∧ ∀ i, ¬ Merged b mask bs.length i → r.mask / 2 ^ i % 2 = g.mask / 2 ^ i % 2 ∧ (i < g.bytes.length → r.bytes.getD i 0#8 = g.bytes.getD i 0#8) :=
  mergeBytes_spec b mask g bs

/-! ### An entry in its buffer -/

theorem gatherOf_eq (c : Core) (wm : Bool) (word : Nat) : gatherOf c wm word = (gatherBuf c wm).find? fun g => g.word == word := rfl

@[simp] theorem gatherBuf_setGather (c : Core) (wm : Bool) (l : List Gather) : gatherBuf (setGather c wm l) wm = l := by cases wm <;> rfl

/-- A buffer with the entry of a word put in place of what it holds for it, or behind the others. -/
def bufPut (l : List Gather) (word : Nat) (g : Gather) : List Gather :=
  if (l.find? fun x => x.word == word).isSome then l.map fun x => if x.word == word then g else x else l ++ [g]

section
variable {l : List Gather} {word : Nat} {g : Gather} (hg : g.word = word)
include hg

theorem find_bufPut_same : (bufPut l word g).find? (fun x => x.word == word) = some g := by
  rw [bufPut]
  split
  case isTrue h =>
    obtain ⟨x, hx⟩ := Option.isSome_iff_exists.mp h
    have hw : (x.word == word) = true := by simpa using List.find?_some hx
    have hp : ((fun x : Gather => x.word == word) ∘ fun x => if x.word == word then g else x) = fun x => x.word == word := by
      funext y
      by_cases hy : y.word = word <;> simp [hy, hg]
    rw [List.find?_map, hp, hx, Option.map_some, if_pos hw]
  case isFalse h =>
    rw [List.find?_append, Option.not_isSome_iff_eq_none.mp h]
    simp [hg]

theorem find_bufPut_ne {w : Nat} (hw : w ≠ word) : (bufPut l word g).find? (fun x => x.word == w) = l.find? fun x => x.word == w := by
  rw [bufPut]
  split
  case isTrue h =>
    have hp : ((fun x : Gather => x.word == w) ∘ fun x => if x.word == word then g else x) = fun x => x.word == w := by
      funext y
      by_cases hy : y.word = word
      · simp [hy, hg]
      · simp [hy]
    rw [List.find?_map, hp]
    cases hx : l.find? fun x => x.word == w with
    | none => rfl
    | some x =>
      have hxw : x.word = w := by simpa using List.find?_some hx
      rw [Option.map_some, if_neg (by simp [hxw, hw])]
  case isFalse h => simp [List.find?_append, hg, hw.symm]

omit hg in
theorem mem_bufPut {x : Gather} (hx : x ∈ bufPut l word g) (hw : x.word = word) : x = g := by
  rw [bufPut] at hx
  split at hx
  case isTrue h =>
    obtain ⟨y, -, rfl⟩ := List.mem_map.mp hx
    by_cases hy : y.word = word
    · simp [hy]
    · simp [hy] at hw
  case isFalse h =>
    rcases List.mem_append.mp hx with hx | hx
    · exact absurd (List.find?_isSome.mpr ⟨x, hx, by simp [hw]⟩) h
    · exact List.mem_singleton.mp hx

theorem find_bufPut_dropped (w : Nat) : ((bufPut l word g).filter (· ≠ g)).find? (fun x => x.word == w) = if w = word then none else l.find? fun x => x.word == w := by
  split
  case isTrue hw =>
    refine List.find?_eq_none.mpr fun x hx => ?_
    obtain ⟨hx, hne⟩ := List.mem_filter.mp hx
    rw [hw]
    intro h
    exact (by simpa using hne : x ≠ g) (mem_bufPut hx (by simpa using h))
  case isFalse hw =>
    have hp : (fun x : Gather => decide (decide (x ≠ g) = true ∧ (x.word == w) = true)) = fun x => x.word == w := by
      funext x
      by_cases hx : x = g
      · simp [hx, hg, Ne.symm hw]
      · simp [hx, beq_eq_decide]
    rw [List.find?_filter, hp, find_bufPut_ne hg hw]

end

theorem gatherBuf_of_read {c c' : Core} (h : coreRead c = coreRead c') (wm : Bool) : gatherBuf c wm = gatherBuf c' wm := by
  cases wm
  · exact (congrArg Core.gatherAm h : (coreRead c).gatherAm = (coreRead c').gatherAm)
  · exact (congrArg Core.gatherWm h : (coreRead c).gatherWm = (coreRead c').gatherWm)

/-- The gather buffer of a memory of a core. -/
def bufOf (d : Dev) (n : Nat) (wm : Bool) : List Gather := gatherBuf (coreOf d n) wm

theorem bufOf_read {d e : Dev} (h : KeepsBy coreRead d e) (n : Nat) (wm : Bool) : bufOf e n wm = bufOf d n wm := gatherBuf_of_read (h.core n) wm

theorem bufOf_setGather (d : Dev) (n : Nat) (wm : Bool) (l : Core → List Gather) :
    bufOf (updCore d n fun c => setGather c wm (l c)) n wm = l (coreOf d n) := by
  rw [bufOf, coreOf_updCore, gatherBuf_setGather]

/-! ### Writes of a word -/

theorem coreSetByte_mem (d : Dev) (n : Nat) (wm : Bool) (off : Nat) (b : Byte) : (coreSetByte d n wm off b).mem = poke d.mem (coreAddr n wm off) b := by
  unfold coreSetByte
  dsimp only
  split <;> rfl

theorem coreSetBytes_mem (d : Dev) (n : Nat) (wm : Bool) (off : Nat) (bs : List Byte) :
    (coreSetBytes d n wm off bs).mem = pokes d.mem (coreAddr n wm off) bs := by
  induction bs generalizing d off with
  | nil => rfl
  | cons b t ih =>
    rw [coreSetBytes, ih, coreSetByte_mem]
    rfl

/-- A write of bytes that no entry holds leaves the buffer. -/
theorem coreSetBytes_buf {d : Dev} {n : Nat} {wm : Bool} (off : Nat) (bs : List Byte)
    (h : ∀ k < bs.length, (bufOf d n wm).find? (fun g => g.word == (off + k) / 32) = none) : bufOf (coreSetBytes d n wm off bs) n wm = bufOf d n wm := by
  induction bs generalizing d off with
  | nil => rfl
  | cons b t ih =>
    have h0 : bufOf (coreSetByte d n wm off b) n wm = bufOf d n wm := by
      have hnone : gatherOf (coreOf (updMem d fun m => poke m (coreAddr n wm off) b) n) wm (off / 32) = none := h 0 (by simp)
      unfold coreSetByte
      dsimp only
      rw [hnone]
      rfl
    rw [coreSetBytes, ih, h0]
    intro k hk
    rw [h0, Nat.add_assoc, Nat.add_comm 1 k]
    exact h (k + 1) (by simpa using hk)

theorem coreWriteWord_full {n : Nat} {wm : Bool} {off : Nat} {bs : List Byte} (hb : bs.length = 32) (ho : off % 32 = 0) (d : Dev) (p : Bool) :
    coreWriteWord d n wm off bs p =
      updMem (wordWritten (coreSetBytes d n wm off bs) n (memNo wm) (off / 32)) fun m => setPoison m (coreAddr n wm off) p := by
  rw [coreWriteWord]
  simp only [hb, ho, and_self, if_true]

/-- The flush of a full entry: its bytes in memory, its poison with them. -/
theorem flushFull_spec {d : Dev} {n : Nat} {wm : Bool} {g : Gather} (hm : g.mask = 2 ^ 32 - 1) (hb : g.bytes.length = 32) :
    (flushGather d n wm g).mem.ram = (pokes d.mem (coreAddr n wm (32 * g.word)) g.bytes).ram
    ∧ isPoison (flushGather d n wm g).mem (coreAddr n wm (32 * g.word)) = g.poison
    ∧ bufOf (flushGather d n wm g) n wm
      = bufOf (coreSetBytes (updCore d n fun c => setGather c wm ((gatherBuf c wm).filter (· ≠ g))) n wm (32 * g.word) g.bytes) n wm := by
  have he : flushGather d n wm g = coreWriteWord (updCore d n fun c => setGather c wm ((gatherBuf c wm).filter (· ≠ g))) n wm (32 * g.word) g.bytes g.poison := by
    rw [flushGather]
    exact if_pos hm
  rw [he, coreWriteWord_full hb (Nat.mul_mod_right ..)]
  refine ⟨?_, ?_, ?_⟩
  · rw [updMem_mem, setPoison_ram, wordWritten_ram, coreSetBytes_mem]
    rfl
  · rw [updMem_mem]
    cases g.poison with
    | true => exact isPoison_setPoison ..
    | false => simp [isPoison, setPoison, delNat]
  · exact bufOf_read (.trans (.wordWritten ..) (.updMem ..)) n wm

/-! ### A narrow write -/

/-- The entry a narrow write merges into: the word's own, or a new one. -/
def gatherOld (d : Dev) (n : Nat) (wm : Bool) (word : Nat) : Gather :=
  (gatherOf (coreOf d n) wm word).getD { word := word, bytes := List.replicate 32 0#8 }

/-- The entry after a narrow write. -/
def gatherNew (d : Dev) (n : Nat) (who : Gather) (wm : Bool) (off mask : Nat) (bs : List Byte) (p : Bool) : Gather :=
  mergeGather (gatherOld d n wm (off / 32)) who (off % 32) mask bs p

/-- A device whose buffer holds the entry of a word. -/
def gatherHeld (d : Dev) (n : Nat) (wm : Bool) (word : Nat) (g : Gather) : Dev :=
  scrubCancel (updCore d n fun c => setGather c wm (bufPut (bufOf d n wm) word g)) n (memNo wm) word

theorem bufOf_gatherHeld (d : Dev) (n : Nat) (wm : Bool) (word : Nat) (g : Gather) : bufOf (gatherHeld d n wm word g) n wm = bufPut (bufOf d n wm) word g := by
  rw [gatherHeld, bufOf_read (.scrubCancel ..), bufOf_setGather]

/-- A narrow write once there is room. -/
def narrowTail (d : Dev) (n : Nat) (who : Gather) (wm : Bool) (off mask : Nat) (bs : List Byte) (p : Bool) : Dev :=
  if (gatherNew d n who wm off mask bs p).mask = 2 ^ 32 - 1
  then flushGather (gatherHeld d n wm (off / 32) (gatherNew d n who wm off mask bs p)) n wm (gatherNew d n who wm off mask bs p)
  else gatherHeld d n wm (off / 32) (gatherNew d n who wm off mask bs p)

theorem narrowPut_roomy {d : Dev} {n off : Nat} {wm : Bool} (who : Gather) (mask : Nat) (bs : List Byte) (p : Bool)
    (h : gatherOf (coreOf d n) wm (off / 32) = none → (bufOf d n wm).length < 4) :
    narrowPut d n who wm off mask bs p = narrowTail d n who wm off mask bs p := by
  have hno : ¬ ((gatherOf (coreOf d n) wm (off / 32)).isNone && decide (4 ≤ (gatherBuf (coreOf d n) wm).length)) = true := by
    rw [Bool.and_eq_true, Option.isNone_iff_eq_none, decide_eq_true_iff]
    exact fun ⟨hn, hl⟩ => absurd hl (not_le.mpr (h hn))
  unfold narrowPut
  dsimp only
  rw [if_neg hno]
  rfl

theorem gatherOld_word (d : Dev) (n : Nat) (wm : Bool) (word : Nat) : (gatherOld d n wm word).word = word := by
  rw [gatherOld]
  cases h : gatherOf (coreOf d n) wm word with
  | none => rfl
  | some g => simpa using List.find?_some h

/-- What a byte of the word reads through the entry that a narrow write merges into. -/
theorem coreByte_old {d : Dev} {n x : Nat} {wm : Bool} {word : Nat} (hx : x / 32 = word) :
    coreByte d n wm x = if (gatherOld d n wm word).mask / 2 ^ (x % 32) % 2 = 1 then (gatherOld d n wm word).bytes.getD (x % 32) 0#8
      else peek d.mem (coreAddr n wm x) := by
  rw [coreByte, hx, gatherOld]
  cases h : gatherOf (coreOf d n) wm word with
  | none => simp
  | some g => rfl

theorem coreByte_gatherHeld (d : Dev) (n x : Nat) (wm : Bool) {word : Nat} {g : Gather} (hg : g.word = word) :
    coreByte (gatherHeld d n wm word g) n wm x = if x / 32 = word then
      (if g.mask / 2 ^ (x % 32) % 2 = 1 then g.bytes.getD (x % 32) 0#8 else peek d.mem (coreAddr n wm x)) else coreByte d n wm x := by
  have hm : (gatherHeld d n wm word g).mem = d.mem := by rw [gatherHeld, scrubCancel_mem, updCore_mem]
  rw [coreByte, hm, gatherOf_eq, ← bufOf, bufOf_gatherHeld]
  by_cases hx : x / 32 = word
  · rw [if_pos hx, hx, find_bufPut_same hg]
  · rw [if_neg hx, find_bufPut_ne hg hx]
    rfl

theorem mask_full {m : Nat} (h : m = 2 ^ 32 - 1) {i : Nat} (hi : i < 32) : m / 2 ^ i % 2 = 1 := by
  have := Nat.testBit_two_pow_sub_one 32 i
  rw [Nat.testBit_eq_decide_div_mod_eq, decide_eq_decide] at this
  rw [h]
  exact this.mpr hi

theorem peek_flushed {d : Dev} {n : Nat} {wm : Bool} {g : Gather} (hm : g.mask = 2 ^ 32 - 1) (hb : g.bytes.length = 32) (x : Nat) :
    peek (flushGather d n wm g).mem (coreAddr n wm x) = if x / 32 = g.word then g.bytes.getD (x % 32) 0#8 else peek d.mem (coreAddr n wm x) := by
  rw [peek_congr (flushFull_spec hm hb).1]
  split
  case isTrue hx =>
    have ha : coreAddr n wm x = coreAddr n wm (32 * g.word) + x % 32 := by
      rw [coreAddr, coreAddr]
      omega
    have hi : x % 32 < g.bytes.length := by omega
    rw [ha, peek_pokes_inside _ _ _ hi]
    simp [hi]
  case isFalse hx => exact peek_pokes_outside (by rw [coreAddr, coreAddr, hb]; omega)

theorem coreByte_flushed {d : Dev} {n : Nat} (x : Nat) {wm : Bool} {word : Nat} {g : Gather} (hg : g.word = word) (hm : g.mask = 2 ^ 32 - 1) (hb : g.bytes.length = 32) :
    coreByte (flushGather (gatherHeld d n wm word g) n wm g) n wm x = if x / 32 = word then g.bytes.getD (x % 32) 0#8 else coreByte d n wm x := by
  have hmem : (gatherHeld d n wm word g).mem = d.mem := by rw [gatherHeld, scrubCancel_mem, updCore_mem]
  have hdrop : bufOf (updCore (gatherHeld d n wm word g) n fun c => setGather c wm ((gatherBuf c wm).filter (· ≠ g))) n wm
      = (bufPut (bufOf d n wm) word g).filter (· ≠ g) := by rw [bufOf_setGather, ← bufOf, bufOf_gatherHeld]
  have hbuf : bufOf (flushGather (gatherHeld d n wm word g) n wm g) n wm = (bufPut (bufOf d n wm) word g).filter (· ≠ g) := by
    obtain ⟨-, -, h⟩ := flushFull_spec (d := gatherHeld d n wm word g) (n := n) (wm := wm) hm hb
    rw [h, coreSetBytes_buf _ _ fun k hk => ?_, hdrop]
    rw [hdrop, find_bufPut_dropped hg, if_pos (by omega)]
  rw [coreByte, gatherOf_eq, ← bufOf, hbuf, find_bufPut_dropped hg, peek_flushed hm hb, hg, hmem]
  by_cases hx : x / 32 = word
  · rw [if_pos hx, if_pos hx, if_pos hx]
  · rw [if_neg hx, if_neg hx, if_neg hx]
    rfl

/-- A narrow write with room in the buffer: each byte of its word as the merged entry has it, every other byte as before (R132). -/
theorem coreByte_narrowPut {d : Dev} {n off : Nat} {wm : Bool} (who : Gather) (mask : Nat) (bs : List Byte) (p : Bool)
    (hroom : gatherOf (coreOf d n) wm (off / 32) = none → (bufOf d n wm).length < 4) (hlen : ∀ g, gatherOf (coreOf d n) wm (off / 32) = some g → g.bytes.length = 32) (x : Nat) :
    coreByte (narrowPut d n who wm off mask bs p) n wm x =
      if x / 32 = off / 32 ∧ Merged (off % 32) mask bs.length (x % 32) then bs.getD (x % 32 - off % 32) 0#8 else coreByte d n wm x := by
  obtain ⟨hw, hl, hin, hout⟩ := mergeGather_spec (gatherOld d n wm (off / 32)) who (off % 32) mask bs p
  rw [← gatherNew] at hw hl hin hout
  have hold : (gatherOld d n wm (off / 32)).bytes.length = 32 := by
    rw [gatherOld]
    cases h : gatherOf (coreOf d n) wm (off / 32) with
    | none => exact List.length_replicate
    | some g => exact hlen g h
  rw [gatherOld_word] at hw
  rw [hold] at hl hin hout
  have hx32 : x % 32 < 32 := Nat.mod_lt _ (by norm_num)
  rw [narrowPut_roomy who mask bs p hroom, narrowTail]
  have hread : ∀ e : Dev, (coreByte e n wm x = if x / 32 = off / 32 then
      (if (gatherNew d n who wm off mask bs p).mask / 2 ^ (x % 32) % 2 = 1 then (gatherNew d n who wm off mask bs p).bytes.getD (x % 32) 0#8
        else peek d.mem (coreAddr n wm x)) else coreByte d n wm x) →
      coreByte e n wm x = if x / 32 = off / 32 ∧ Merged (off % 32) mask bs.length (x % 32) then bs.getD (x % 32 - off % 32) 0#8 else coreByte d n wm x := by
    intro e he
    rw [he]
    by_cases hx : x / 32 = off / 32
    · by_cases hm : Merged (off % 32) mask bs.length (x % 32)
      · obtain ⟨h1, h2⟩ := hin _ hm
        rw [if_pos hx, if_pos h1, if_pos ⟨hx, hm⟩, h2 hx32]
      · obtain ⟨h1, h2⟩ := hout _ hm
        rw [if_pos hx, h1, h2 hx32, ← coreByte_old hx, if_neg fun h => hm h.2]
    · rw [if_neg hx, if_neg fun h => hx h.1]
  split
  case isTrue hm =>
    refine hread _ ((coreByte_flushed x hw hm hl).trans ?_)
    rw [if_pos (mask_full hm hx32)]
  case isFalse hm => exact hread _ (coreByte_gatherHeld d n x wm hw)

/-! ### The flush of the oldest entry makes room (R132) -/

/-- What a narrow write needs of a core besides its buffers: the writers of its instructions, its windows, and whether it is disabled. -/
def coreFront (c : Core) : List Gather × Sparse Win × Bool := (c.ops.map opWriter, c.wins, c.disabled)

theorem map_modifyAt {α β : Type} {g : α → β} {f : α → α} (h : ∀ x, g (f x) = g x) (l : List α) (i : Nat) : (modifyAt l i f).map g = l.map g := by
  induction l generalizing i with
  | nil => cases i <;> rfl
  | cons x t ih =>
    cases i with
    | zero => simp [modifyAt, h]
    | succ i => simp [modifyAt, ih]

theorem flushGather_front (d : Dev) (n : Nat) (wm : Bool) (g : Gather) : KeepsBy coreFront d (flushGather d n wm g) := by
  have hstill {d e : Dev} (h : KeepsBy coreStill d e) : KeepsBy coreFront d e :=
    h.of_part fun _ _ he => (congrArg coreFront he : coreFront (coreStill _) = coreFront (coreStill _))
  have hset : KeepsBy coreFront d (updCore d n fun c => setGather c wm ((gatherBuf c wm).filter (· ≠ g))) :=
    .updCore _ _ (by intro c; cases wm <;> rfl)
  have hmark (e : Dev) (i : Nat) (p : Bool) : KeepsBy coreFront e (markPoison e n i p) :=
    .ite (.updCore _ _ (by
      intro c
      exact congrArg (fun l => (l, c.wins, c.disabled)) (map_modifyAt (f := fun o => { o with poisoned := true }) (fun _ => rfl) c.ops i))) (.refl e)
  unfold flushGather
  dsimp only
  split
  · exact hset.trans (hstill (.coreWriteWord ..))
  · split
    · exact .trans hset (.trans (.bump ..) (.trans (hstill (KeepsBy.coreMemRead ..).still) (.trans (hstill (.coreWriteWord ..)) (hmark ..))))
    · exact .trans hset (.trans (.bump ..) (.trans (hstill (KeepsBy.coreMemRead ..).still) (hstill (.coreWriteWord ..))))

/-- What every entry of a buffer has, and clearing a bit of a mask leaves, every entry has once bytes are written; none is added. -/
theorem coreSetBytes_entries {P : Gather → Prop} (hP : ∀ x b, b < 32 → x.mask / 2 ^ b % 2 = 1 → P x → P { x with mask := x.mask - 2 ^ b })
    (d : Dev) (n : Nat) (wm : Bool) (off : Nat) (bs : List Byte) (h : ∀ x ∈ bufOf d n wm, P x) :
    (∀ x ∈ bufOf (coreSetBytes d n wm off bs) n wm, P x) ∧ (bufOf (coreSetBytes d n wm off bs) n wm).length ≤ (bufOf d n wm).length := by
  induction bs generalizing d off with
  | nil => exact ⟨h, le_rfl⟩
  | cons b t ih =>
    have hdrop : bufOf (coreSetByte d n wm off b) n wm = bufOf d n wm ∨ bufOf (coreSetByte d n wm off b) n wm = gatherDrop (bufOf d n wm) (off / 32) (off % 32) := by
      unfold coreSetByte
      dsimp only
      split
      · refine .inr ?_
        rw [bufOf, coreOf_updCore]
        cases wm <;> rfl
      · exact .inl rfl
    obtain ⟨hall, hlen⟩ : (∀ x ∈ bufOf (coreSetByte d n wm off b) n wm, P x) ∧ (bufOf (coreSetByte d n wm off b) n wm).length ≤ (bufOf d n wm).length := by
      rcases hdrop with he | he
      · rw [he]
        exact ⟨h, le_rfl⟩
      · rw [he, gatherDrop]
        refine ⟨fun x hx => ?_, (List.length_filter_le ..).trans (List.length_map ..).le⟩
        obtain ⟨y, hy, rfl⟩ := List.mem_map.mp (List.mem_of_mem_filter hx)
        split
        case isTrue hc =>
          simp only [Bool.and_eq_true, beq_iff_eq] at hc
          exact hP y _ (Nat.mod_lt _ (by norm_num)) hc.2 (h y hy)
        case isFalse => exact h y hy
    obtain ⟨h1, h2⟩ := ih (coreSetByte d n wm off b) (off + 1) hall
    exact ⟨h1, h2.trans hlen⟩

theorem flushGather_entries {P : Gather → Prop} (hP : ∀ x b, b < 32 → x.mask / 2 ^ b % 2 = 1 → P x → P { x with mask := x.mask - 2 ^ b })
    (d : Dev) (n : Nat) (wm : Bool) (g : Gather) (h : ∀ x ∈ (bufOf d n wm).filter (· ≠ g), P x) :
    (∀ x ∈ bufOf (flushGather d n wm g) n wm, P x) ∧ (bufOf (flushGather d n wm g) n wm).length ≤ ((bufOf d n wm).filter (· ≠ g)).length := by
  have hset := bufOf_setGather d n wm fun c => (gatherBuf c wm).filter (· ≠ g)
  have hwrite (e : Dev) (off : Nat) (bs : List Byte) (p : Bool) (he : bufOf e n wm = (bufOf d n wm).filter (· ≠ g)) :
      (∀ x ∈ bufOf (coreWriteWord e n wm off bs p) n wm, P x) ∧ (bufOf (coreWriteWord e n wm off bs p) n wm).length ≤ ((bufOf d n wm).filter (· ≠ g)).length := by
    have hr (f : Dev) (hf : bufOf f n wm = bufOf e n wm) : (∀ x ∈ bufOf (coreSetBytes f n wm off bs) n wm, P x)
        ∧ (bufOf (coreSetBytes f n wm off bs) n wm).length ≤ ((bufOf d n wm).filter (· ≠ g)).length := by
      obtain ⟨h1, h2⟩ := coreSetBytes_entries hP f n wm off bs (by rw [hf, he]; exact h)
      exact ⟨h1, h2.trans (by rw [hf, he])⟩
    unfold coreWriteWord
    dsimp only
    rw [bufOf_read (.trans (.wordWritten ..) (.updMem ..))]
    split
    · exact hr e rfl
    · exact hr _ (bufOf_read (.coreMemRead ..) n wm)
  have hmark (e : Dev) (i : Nat) (p : Bool) : bufOf (markPoison e n i p) n wm = bufOf e n wm := by
    unfold markPoison
    split
    · rw [bufOf, coreOf_updCore]
      cases wm <;> rfl
    · rfl
  unfold flushGather
  dsimp only
  split
  · exact hwrite _ _ _ _ hset
  · split
    · rw [hmark]
      exact hwrite _ _ _ _ ((bufOf_read (.trans (.bump ..) (.coreMemRead ..)) n wm).trans hset)
    · exact hwrite _ _ _ _ ((bufOf_read (.trans (.bump ..) (.coreMemRead ..)) n wm).trans hset)

theorem narrowPut_flushes {d : Dev} {n off : Nat} {wm : Bool} {g : Gather} {rest : List Gather} (who : Gather) (mask : Nat) (bs : List Byte) (p : Bool)
    (hnone : gatherOf (coreOf d n) wm (off / 32) = none) (hbuf : gatherBuf (coreOf d n) wm = g :: rest) (hrest : rest.length = 3) :
    narrowPut d n who wm off mask bs p = narrowPut (flushGather d n wm g) n who wm off mask bs p := by
  obtain ⟨hw, hl⟩ := flushGather_entries (P := fun x => x.word ≠ off / 32) (fun _ _ _ _ h => h) d n wm g fun x hx =>
    by simpa using List.find?_eq_none.mp hnone x (List.mem_of_mem_filter hx)
  have hshort : (gatherBuf (coreOf (flushGather d n wm g) n) wm).length < 4 := by
    have hb : ((bufOf d n wm).filter (· ≠ g)).length ≤ rest.length := by
      rw [bufOf, hbuf, List.filter_cons_of_neg (by simp)]
      exact List.length_filter_le ..
    rw [← bufOf]
    omega
  have hpos : ((gatherOf (coreOf d n) wm (off / 32)).isNone && decide (4 ≤ (gatherBuf (coreOf d n) wm).length)) = true := by
    rw [hnone, hbuf]
    simp [hrest]
  rw [narrowPut_roomy who mask bs p fun _ => hshort]
  unfold narrowPut
  dsimp only
  rw [if_pos hpos, hbuf]
  rfl

end Sys2Proof.Proofs


/-! ## Narrow writes, partial writes of the SB and the window-register fill as instructions (O43) -/

namespace Sys2Proof.Proofs
open Sys2Proof.Machine

/-! ### NARROW_WRITE, GATHER_FLUSH -/

theorem narrowWrite_plain {d : Dev} {n i : Nat} {o : Op} {wm : Bool} {off : Nat} (mask : Nat) (bs : List Byte) (p : Bool)
    (ho : (coreOf d n).ops[i]? = some o) (hd : (coreOf d n).disabled = false) (hw : windowAt (coreOf d n) wm off = none) :
    narrowWrite d n i wm off mask bs p = narrowPut d n (opWriter o) wm off mask bs p := by
  rw [narrowWrite, ho]
  dsimp only
  rw [if_neg (by simp [hd]), spoil, hw, List.map_map]
  exact congrArg (fun l => narrowPut d n (opWriter o) wm off mask l p) (List.map_id _)

/-- The window whose region a narrow write spoils notes it. -/
def spoilt (d : Dev) (n j off mask k : Nat) : Dev :=
  updCore (drawFree d).2 n fun c => setWin c j { win (coreOf d n) j with
    spoilt := (((List.range k).filter fun b => mask / 2 ^ b % 2 = 1).map (off + ·)).foldl (fun l a => insNat a l) (win (coreOf d n) j).spoilt }

theorem narrowWrite_window {d : Dev} {n i j : Nat} {o : Op} {wm : Bool} {off : Nat} (mask : Nat) (bs : List Byte) (p : Bool)
    (ho : (coreOf d n).ops[i]? = some o) (hd : (coreOf d n).disabled = false) (hw : windowAt (coreOf d n) wm off = some j) :
    narrowWrite d n i wm off mask bs p = narrowPut (spoilt d n j off mask bs.length) n (opWriter o) wm off mask
      ((withPos bs).map fun b => Config.undefByte d.freeNo (off + b.1)) p := by
  have hl : ((withPos (bs.map fun b => (b, p))).map fun b => (Config.undefByte (drawFree d).1 (off + b.1), b.2.2)).map (·.1)
      = (withPos bs).map fun b => Config.undefByte d.freeNo (off + b.1) := by
    rw [withPos, withPos, List.length_map, List.zip_map_right, List.map_map, List.map_map]
    rfl
  rw [narrowWrite, ho]
  dsimp only
  rw [if_neg (by simp [hd]), spoil, hw]
  dsimp only
  rw [hl, spoilt, List.length_map]
  rfl

theorem coreByte_spoilt (d : Dev) (n j off mask k : Nat) (wm : Bool) (x : Nat) : coreByte (spoilt d n j off mask k) n wm x = coreByte d n wm x := by
  rw [spoilt, coreByte, gatherOf_eq, coreOf_updCore]
  rfl

theorem undef_getD (k off : Nat) (bs : List Byte) {b : Nat} (hb : b < bs.length) :
    ((withPos bs).map fun x => Config.undefByte k (off + x.1)).getD b 0#8 = Config.undefByte k (off + b) := by
  have hz : (withPos bs)[b]? = some (b, bs[b]) := by simp [withPos, hb]
  rw [List.getD_eq_getElem?_getD, List.getElem?_map, hz]
  rfl

/-- What a narrow write of `bs` leaves of bytes it does not write, and gives to those it does. -/
def NarrowWritten (d e : Dev) (n : Nat) (wm : Bool) (off : Nat) (mask : BitVec 16) (bs : List Byte) : Prop :=
  ((∀ b < bs.length, bit mask b = false → coreByte e n wm (off + b) = coreByte d n wm (off + b)) ∧ ∀ x, x / 32 ≠ off / 32 → coreByte e n wm x = coreByte d n wm x)
  ∧ ∀ b < bs.length, bit mask b = true → coreByte e n wm (off + b) = bs.getD b 0#8

theorem narrowPut_written {d : Dev} {n off : Nat} {wm : Bool} (who : Gather) (mask : BitVec 16) {bs : List Byte} (p : Bool)
    (hroom : gatherOf (coreOf d n) wm (off / 32) = none → (bufOf d n wm).length < 4) (hlen : ∀ g, gatherOf (coreOf d n) wm (off / 32) = some g → g.bytes.length = 32)
    (hfit : off % 32 + bs.length ≤ 32) : NarrowWritten d (narrowPut d n who wm off mask.toNat bs p) n wm off mask bs := by
  have h := coreByte_narrowPut who mask.toNat bs p hroom hlen
  have hat {b : Nat} (hb : b < bs.length) : (off + b) / 32 = off / 32 ∧ (off + b) % 32 = off % 32 + b := by omega
  refine ⟨⟨fun b hb hm => ?_, fun x hx => ?_⟩, fun b hb hm => ?_⟩
  · obtain ⟨h1, h2⟩ := hat hb
    rw [h, if_neg]
    rintro ⟨-, -, -, hbit⟩
    rw [h2, Nat.add_sub_cancel_left] at hbit
    simp [bit_eq_div, hbit] at hm
  · rw [h, if_neg fun hc => hx hc.1]
  · obtain ⟨h1, h2⟩ := hat hb
    rw [bit_eq_div, decide_eq_true_iff] at hm
    rw [h, h2, if_pos ⟨h1, by omega, by omega, by rwa [Nat.add_sub_cancel_left]⟩, Nat.add_sub_cancel_left]

/-- A new entry of at most 16 bytes is not full: it stays in the buffer, and memory stays. -/
theorem narrowPut_new_mem {d : Dev} {n off : Nat} {wm : Bool} (who : Gather) (mask : BitVec 16) (bs : List Byte) (p : Bool)
    (hnone : gatherOf (coreOf d n) wm (off / 32) = none) (hroom : (bufOf d n wm).length < 4) : (narrowPut d n who wm off mask.toNat bs p).mem = d.mem := by
  obtain ⟨-, -, -, hout⟩ := mergeGather_spec (gatherOld d n wm (off / 32)) who (off % 32) mask.toNat bs p
  have hzero (i : Nat) : (gatherOld d n wm (off / 32)).mask / 2 ^ i % 2 = 0 := by
    rw [gatherOld, hnone]
    simp
  have hnot : (gatherNew d n who wm off mask.toNat bs p).mask ≠ 2 ^ 32 - 1 := by
    intro hm
    have hbit {i : Nat} (hi : i < 32) : Merged (off % 32) mask.toNat bs.length i := by
      by_contra hn
      have := (hout i hn).1.trans (hzero i)
      rw [← gatherNew, mask_full hm hi] at this
      exact absurd this (by decide)
    obtain ⟨h0, -, -⟩ := hbit (i := 0) (by norm_num)
    obtain ⟨-, -, h31⟩ := hbit (i := 31) (by norm_num)
    have hlt := mask.isLt
    rw [show 31 - off % 32 = 31 by omega, Nat.div_eq_of_lt (by omega)] at h31
    exact absurd h31 (by decide)
  rw [narrowPut_roomy who mask.toNat bs p fun _ => hroom, narrowTail, if_neg hnot, gatherHeld, scrubCancel_mem, updCore_mem]

theorem windowAt_congr {c c' : Core} (h : c.wins = c'.wins) (wm : Bool) (off : Nat) : windowAt c wm off = windowAt c' wm off := by
  have hw (j : Nat) : win c j = win c' j := by rw [win, win, h]
  unfold windowAt
  exact congrArg (fun p => (List.range 20).find? p) (funext fun j => by rw [hw])

theorem bufOf_spoilt (d : Dev) (n j off mask k : Nat) (wm : Bool) : bufOf (spoilt d n j off mask k) n wm = bufOf d n wm := by
  rw [spoilt, bufOf, coreOf_updCore]
  rfl

theorem flushFull_notin {d : Dev} {n : Nat} {wm : Bool} {g : Gather} (hm : g.mask = 2 ^ 32 - 1) : g ∉ gatherBuf (coreOf (flushGather d n wm g) n) wm := by
  obtain ⟨h, -⟩ := flushGather_entries (P := fun x => x ≠ g) (fun x b hb hx hne he => by
    have hbit := mask_full hm hb
    have hmask : g.mask = x.mask - 2 ^ b := congrArg Gather.mask he.symm
    have hpos : (0 : Nat) < 2 ^ b := Nat.two_pow_pos b
    have hle : 2 ^ b ≤ x.mask := by
      by_contra hlt
      rw [Nat.div_eq_of_lt (by omega)] at hx
      exact absurd hx (by decide)
    rw [show x.mask = g.mask + 2 ^ b by omega, Nat.add_div_right _ hpos] at hx
    omega) d n wm g fun x hx => by simpa using (List.mem_filter.mp hx).2
  exact fun hg => h g hg rfl

theorem narrowWritesGatherClaim : Claim.NarrowWritesGather := by
  intro s n wm ha
  have hx (c : Instr) (f : Dev → Dev) (hc : exec c s = nextDev s f) : exec c s = .next (onDev s f) := hc.trans (nextDev_awake ha)
  dsimp only
  refine ⟨fun i off mask bs p h => ?_, fun i off mask bs p hd ho hfit => ?_, fun k hk => ?_, fun k g hk => ?_, fun g hm hb => ?_⟩
  · rw [hx (.narrowWrite n i wm off mask bs p) (fun d => narrowWrite d n i wm off.toNat mask.toNat bs p) rfl, onDev_eq_self]
    rw [narrowWrite]
    rcases h with h | h
    · split
      · exact if_pos h
      · rfl
    · rw [h]
  · obtain ⟨o, ho⟩ := Option.isSome_iff_exists.mp ho
    rw [hx (.narrowWrite n i wm off mask bs p) (fun d => narrowWrite d n i wm off.toNat mask.toNat bs p) rfl, onDev]
    refine ⟨fun hw hnone hl => ?_, fun g hw hsome hb => ?_, fun g rest hw hnone hbuf hrest => ?_, fun j hw hnone hl => ?_⟩
    · have hmem := narrowPut_new_mem (opWriter o) mask bs p hnone hl
      have hwr := narrowPut_written (opWriter o) mask p (fun _ => hl) (by simp [hnone]) hfit
      rw [← narrowWrite_plain mask.toNat bs p ho hd hw] at hmem hwr
      exact ⟨_, rfl, congrArg Mem.ram hmem, hwr⟩
    · have hwr := narrowPut_written (opWriter o) mask (bs := bs) p (fun h => by rw [hsome] at h; cases h) (fun g' hg => by rw [hsome] at hg; exact Option.some.inj hg ▸ hb) hfit
      rw [← narrowWrite_plain mask.toNat bs p ho hd hw] at hwr
      exact ⟨_, rfl, hwr⟩
    · have hF : Awake { s with dev := flushGather s.dev n wm g } := by
        have hctl := (StoreStep.flushGather (n := n) (by omega) s.dev wm g).units.ctl
        exact (congrArg _ hctl).trans ha
      obtain ⟨hops, hwins, hdis⟩ : (coreOf (flushGather s.dev n wm g) n).ops.map opWriter = (coreOf s.dev n).ops.map opWriter
          ∧ (coreOf (flushGather s.dev n wm g) n).wins = (coreOf s.dev n).wins ∧ (coreOf (flushGather s.dev n wm g) n).disabled = (coreOf s.dev n).disabled := by
        have := (flushGather_front s.dev n wm g).core n
        simpa [coreFront] using this
      obtain ⟨o', ho', hwho⟩ : ∃ o', (coreOf (flushGather s.dev n wm g) n).ops[i.val]? = some o' ∧ opWriter o' = opWriter o := by
        have := congrArg (·[i.val]?) hops
        simpa [ho] using this
      rw [show exec (.narrowWrite n i wm off mask bs p) { s with dev := flushGather s.dev n wm g }
        = nextDev { s with dev := flushGather s.dev n wm g } (fun d => narrowWrite d n i wm off.toNat mask.toNat bs p) from rfl, nextDev_awake hF, onDev,
        narrowWrite_plain mask.toNat bs p ho hd hw, narrowWrite_plain mask.toNat bs p ho' (hdis.trans hd) ((windowAt_congr hwins ..).trans hw), hwho,
        narrowPut_flushes (opWriter o) mask.toNat bs p hnone hbuf hrest]
    · have hbuf := bufOf_spoilt s.dev n j off.toNat mask.toNat bs.length wm
      have hnone' : gatherOf (coreOf (spoilt s.dev n j off.toNat mask.toNat bs.length) n) wm (off.toNat / 32) = none := by
        rw [gatherOf_eq, ← bufOf, hbuf]
        exact hnone
      have hlen : ((withPos bs).map fun b => Config.undefByte s.dev.freeNo (off.toNat + b.1)).length = bs.length := by simp [withPos]
      have hmem := narrowPut_new_mem (opWriter o) mask ((withPos bs).map fun b => Config.undefByte s.dev.freeNo (off.toNat + b.1)) p hnone' (by rwa [hbuf])
      obtain ⟨⟨hkeep, helse⟩, hput⟩ := narrowPut_written (opWriter o) mask (bs := (withPos bs).map fun b => Config.undefByte s.dev.freeNo (off.toNat + b.1)) p
        (fun _ => by rwa [hbuf]) (fun g hg => by rw [hnone'] at hg; cases hg) (by rwa [hlen])
      rw [← narrowWrite_window mask.toNat bs p ho hd hw] at hmem hkeep helse hput
      rw [hlen] at hkeep hput
      simp only [coreByte_spoilt] at hkeep helse
      exact ⟨_, rfl, congrArg Mem.ram hmem, ⟨hkeep, helse⟩, fun b hb hm => (hput b hb hm).trans (undef_getD _ _ _ hb)⟩
  · have hnone : flushAt s.dev n wm k = s.dev := by rw [flushAt, hk]
    rw [hx (.gatherFlush n wm k) (fun d => flushAt d n wm k) rfl, hx (.gatherTimeout n wm k) (fun d => flushAt d n wm k) rfl, onDev_eq_self hnone]
    exact ⟨rfl, rfl⟩
  · have hsome : flushAt s.dev n wm k = flushGather s.dev n wm g := by rw [flushAt, hk]
    rw [hx (.gatherFlush n wm k) (fun d => flushAt d n wm k) rfl, hx (.gatherTimeout n wm k) (fun d => flushAt d n wm k) rfl, onDev, hsome]
    exact ⟨rfl, rfl⟩
  · obtain ⟨hram, hpo, -⟩ := flushFull_spec (d := s.dev) (n := n) (wm := wm) hm hb
    refine ⟨fun b hlt => ?_, fun a hout => ?_, hpo, flushFull_notin hm⟩
    · rw [peek_flushed hm hb, if_pos (by omega), Nat.mul_add_mod, Nat.mod_eq_of_lt hlt]
    · rw [peek_congr hram]
      exact peek_pokes_outside (by rwa [hb])

/-! ### Partial writes of the SB (R153) -/

/-- Whether the region check refuses an agent's write of the granule at `a`, or the cluster's key is missing. -/
def writeRefused (d : Dev) (g : Option Nat) (a : Nat) : Bool :=
  match g with
  | some g => !agentMay d g true (a / 64 * 64)
  | none => keyMissing d a

/-- What a refused write leaves. -/
def writeViolated (d : Dev) (g : Option Nat) (a : Nat) : Dev :=
  match g with
  | some g => violation d g true (a / 64 * 64)
  | none => d

/-- The correction stage of a write of an SB granule: a partial one is counted and reads both words. -/
def sbOpened (d : Dev) (s a n : Nat) : Dev :=
  if n < 64 then sbCorrect (sbCorrect (bump d (0x2260 + s) 3 4 1) (a / 64 * 64)) (a / 64 * 64 + 32)
  else updMem d fun m => { m with latent := sset (fun _ => 0) (sset (fun _ => 0) m.latent (a / 32) 0) (a / 32 + 1) 0 }

theorem writeGranule_sb {d : Dev} {g : Option Nat} {source a k : Nat} (bs : List Byte) (pl ph : Bool) (h : areaOf d a = .sb k) :
    ∃ lo hi, writeGranule d g source a bs pl ph = if writeRefused d g a then writeViolated d g a
      else updMem (sbOpened d k a bs.length) fun m => setPoison (setPoison (pokes m a bs) (a / 64 * 64) lo) (a / 64 * 64 + 32) hi := by
  unfold writeGranule
  simp only [h]
  exact ⟨_, _, rfl⟩

theorem sbOpened_ram (d : Dev) (s a n : Nat) : (sbOpened d s a n).mem.ram = d.mem.ram := by
  unfold sbOpened
  split
  · simp
  · rfl

theorem writeViolated_ram (d : Dev) (g : Option Nat) (a : Nat) : (writeViolated d g a).mem.ram = d.mem.ram := by
  cases g with
  | none => rfl
  | some g => exact congrArg Mem.ram (violation_mem ..)

theorem cnt_sbCorrect_three (d : Dev) (a k : Nat) : cnt (sbCorrect d a) (0x2260 + k) 3 = cnt d (0x2260 + k) 3 := by
  have hb (e : Dev) (i sub : Nat) (hs : sub = 1 ∨ sub = 2) : cnt (bump e (0x2260 + i) sub 4 1) (0x2260 + k) 3 = cnt e (0x2260 + k) 3 :=
    cnt_bump_ne _ _ _ _ _ (by unfold odKey; omega)
  unfold sbCorrect
  dsimp only
  split
  · rfl
  · split
    · split
      · rw [cnt_postEvent, cnt_latch, cnt_updMem, hb _ _ _ (.inl rfl), cnt_updMem]
      · rw [cnt_updMem, hb _ _ _ (.inl rfl), cnt_updMem]
    · rw [cnt_postEvent, cnt_updMem, hb _ _ _ (.inr rfl), cnt_updMem]

theorem cnt_sbOpened (d : Dev) (k a : Nat) {n : Nat} (hn : n < 64) : cnt (sbOpened d k a n) (0x2260 + k) 3 = (cnt d (0x2260 + k) 3 + 1) % 2 ^ 32 := by
  rw [sbOpened, if_pos hn, cnt_sbCorrect_three, cnt_sbCorrect_three, cnt_bump]
  rfl

/-- An SB granule whose halves have been struck. -/
def sbStruck (d : Dev) (a u0 u1 : Nat) : Dev := strike (strike d (a / 64 * 2) u0) (a / 64 * 2 + 1) u1

theorem sbStruck_ram (d : Dev) (a u0 u1 : Nat) : (sbStruck d a u0 u1).mem.ram = d.mem.ram := by rw [sbStruck, strike_ram, strike_ram]

theorem sbPartialWritesMerge : Claim.SbPartialWritesMerge := by
  intro s g a bs p u0 u1 ha
  have hx (c : Instr) (f : Dev → Dev) (hc : exec c s = nextDev s f) : exec c s = .next (onDev s f) := hc.trans (nextDev_awake ha)
  dsimp only
  rw [hx (.sbPartialWrite g a bs p u0 u1) (fun d => sbPartialWrite d g a.toNat bs p u0 u1) rfl, onDev]
  have hsb {k : Nat} (h : areaOf s.dev a.toNat = .sb k) : sbPartialWrite s.dev g a.toNat bs p u0 u1 =
      memWrite (sbStruck s.dev a.toNat u0 u1) (agentOf g) (agentSource g a.toNat) a.toNat bs p := by
    rw [sbPartialWrite, h]
    rfl
  have hgran {k : Nat} (h : areaOf s.dev a.toNat = .sb k) (hne : bs ≠ []) (hfit : a.toNat % 64 + bs.length ≤ 64) :=
    writeGranule_sb (g := agentOf g) (source := agentSource g a.toNat) bs p p (show areaOf (sbStruck s.dev a.toNat u0 u1) a.toNat = .sb k from h)
  refine ⟨fun k h hne hl hfit hr => ?_, fun k h hfit hr => ?_, fun h => ?_⟩
  · have hr : writeRefused (sbStruck s.dev a.toNat u0 u1) (agentOf g) a.toNat = false := by cases g <;> exact hr
    obtain ⟨lo, hi, he⟩ := hgran h hne hfit
    rw [if_neg (by rw [hr]; decide)] at he
    rw [hsb h, memWrite_within _ _ _ _ _ hne hfit, he]
    have hram : (updMem (sbOpened (sbStruck s.dev a.toNat u0 u1) k a.toNat bs.length)
        fun m => setPoison (setPoison (pokes m a.toNat bs) (a.toNat / 64 * 64) lo) (a.toNat / 64 * 64 + 32) hi).mem.ram = (pokes s.dev.mem a.toNat bs).ram := by
      rw [updMem_mem, setPoison_ram, setPoison_ram]
      exact pokes_ram ((sbOpened_ram ..).trans (sbStruck_ram ..)) ..
    refine ⟨_, rfl, rfl, rfl, ?_, fun x hx => ?_, (cnt_sbOpened _ k _ hl)⟩
    · rw [peeks_of_ram hram]
      exact peeks_pokes
    · rw [peek_congr hram]
      exact peek_pokes_outside hx
  · have hr : writeRefused (sbStruck s.dev a.toNat u0 u1) (agentOf g) a.toNat = true := by cases g <;> exact hr
    refine ⟨_, rfl, fun x => peek_congr ?_ x⟩
    by_cases hne : bs = []
    · rw [hsb h, hne, memWrite, writeGranules_nil, sbStruck_ram]
    · obtain ⟨lo, hi, he⟩ := hgran h hne hfit
      rw [hsb h, memWrite_within _ _ _ _ _ hne hfit, he, if_pos hr, writeViolated_ram, sbStruck_ram]
  · rw [sbPartialWrite]
    split
    case h_1 k hk => exact absurd hk (h k)
    case h_2 => rfl

/-! ### WREG_FILL (R192) -/

theorem touchData_ram (d : Dev) (p : Place) (base lo k : Nat) : (touchData d p base lo k).mem.ram = d.mem.ram := by
  have hwords (e : Dev) (n mem lo hi : Nat) : (readWords e n mem lo hi).mem.ram = e.mem.ram :=
    foldl_keeps (·.mem.ram) _ (fun e w _ => coreMemRead_ram e ..) e
  have hbytes (e : Dev) (n : Nat) (wm : Bool) (off k : Nat) : (readBytes e n wm off k).mem.ram = e.mem.ram := by
    unfold readBytes
    split
    · rfl
    · exact hwords ..
  unfold touchData
  split
  · rfl
  · split
    · exact hbytes ..
    · exact hbytes ..
    · split
      · rfl
      · exact foldl_keeps (·.mem.ram) _ (fun e u _ => hbytes e ..) d
    · rfl

theorem touchFill_spec (d : Dev) (x : Cnv) (iy : Int) (cols : List Int) :
    KeepsBy coreRead d (touchFill d x iy cols) ∧ (touchFill d x iy cols).mem.ram = d.mem.ram := by
  unfold touchFill
  split
  · exact ⟨.foldl _ (fun e _ _ => .touchData e ..) d, foldl_keeps (·.mem.ram) _ (fun e _ _ => touchData_ram e ..) d⟩
  · exact ⟨.refl d, rfl⟩

theorem sget_foldl_withPos {α : Type} [DecidableEq α] {dflt : Nat → α} (base : Nat) (l : List α) (t : Sparse α) :
    (∀ e v, l[e]? = some v → sget dflt ((withPos l).foldl (fun r e => sset dflt r (base + e.1) e.2) t) (base + e) = v) := by
  induction l using List.reverseRecOn with
  | nil => exact fun e v h => by simp at h
  | append_singleton l y ih =>
    intro e v h
    rw [withPos_concat, List.foldl_append, List.foldl_cons, List.foldl_nil, sget_sset_if]
    by_cases he : e = l.length
    · subst he
      rw [if_pos rfl]
      simpa using h
    · rw [if_neg (by omega)]
      have hlt : e < l.length := by
        have := (List.getElem?_eq_some_iff.mp h).1
        simp at this
        omega
      exact ih e v (by rwa [List.getElem?_append_left hlt] at h)

/-- The half in turn, filled with the words of a fill. -/
def wregFilled (d : Dev) (n : Nat) (x : Cnv) (sl : List Nat × Nat) (iy : Int) (cols : List Int) : Dev :=
  let h := (coreOf d n).wregHalf.toNat
  updCore (touchFill d x iy cols) n fun c => { c with
    wreg := (withPos ((cols.flatMap fun ix => fillWords d x sl iy ix).take 1024)).foldl (fun r e => sset (fun _ => (0#256, false)) r (h * 1024 + e.1) e.2) c.wreg
    wregFull := c.wregFull ||| BitVec.ofNat 2 (2 ^ h)
    wregHalf := c.wregHalf + 1 }

section
variable {d : Dev} {n i : Nat}

theorem wregFill_idle (t ky kx kb : Nat) (h : (coreOf d n).disabled = true ∨ (coreOf d n).stopped = true
    ∨ bit (coreOf d n).wregFull (coreOf d n).wregHalf.toNat = true ∨ (coreOf d n).ops[i]? = none) : wregFill d n i t ky kx kb = d := by
  unfold wregFill
  dsimp only
  split
  case h_1 o ho =>
    refine if_neg ?_
    simp only [Bool.and_eq_true, Bool.not_eq_true', not_and, Bool.not_eq_false]
    rcases h with h | h | h | h
    · simp [h]
    · simp [h]
    · exact fun _ => h
    · exact absurd (ho.symm.trans h) (by simp)
  case h_2 => rfl

variable {o : Op} (ho : (coreOf d n).ops[i]? = some o)
include ho

theorem wregFill_misses (t ky kx kb : Nat) (h : o.issued = false ∨ isConvOp (rOpcode o.word) = false
    ∨ inRow (cnvAt d n o) (cnvTile (cnvAt d n o) t).oy ky = none ∨ (blockSlices (cnvAt d n o) (cnvTile (cnvAt d n o) t).nb)[kb]? = none) :
    wregFill d n i t ky kx kb = d := by
  unfold wregFill
  dsimp only
  rw [ho]
  dsimp only
  split
  case isTrue hc =>
    simp only [Bool.and_eq_true] at hc
    obtain ⟨⟨⟨-, hi⟩, hcv⟩, -⟩ := hc
    rcases h with h | h | h | h
    · simp [hi] at h
    · simp [hcv] at h
    · rw [h]
    · rw [h]
      cases inRow (cnvAt d n o) (cnvTile (cnvAt d n o) t).oy ky <;> rfl
  case isFalse => rfl

theorem wregFill_fills {t ky kb : Nat} (kx : Nat) {iy : Int} {sl : List Nat × Nat} (hd : (coreOf d n).disabled = false) (hs : (coreOf d n).stopped = false)
    (hi : o.issued = true) (hc : isConvOp (rOpcode o.word) = true) (hf : bit (coreOf d n).wregFull (coreOf d n).wregHalf.toNat = false)
    (hy : inRow (cnvAt d n o) (cnvTile (cnvAt d n o) t).oy ky = some iy) (hb : (blockSlices (cnvAt d n o) (cnvTile (cnvAt d n o) t).nb)[kb]? = some sl) :
    wregFill d n i t ky kx kb = wregFilled d n (cnvAt d n o) sl iy (fillCols (cnvAt d n o) (cnvTile (cnvAt d n o) t).cols kx) := by
  unfold wregFill
  dsimp only
  rw [ho]
  dsimp only
  rw [if_pos (by simp [hd, hs, hi, hc, hf]), hy, hb]
  rfl

end

theorem wregFilled_spec (d : Dev) (n : Nat) (x : Cnv) (sl : List Nat × Nat) (iy : Int) (cols : List Int) :
    bit (coreOf (wregFilled d n x sl iy cols) n).wregFull (coreOf d n).wregHalf.toNat = true
    ∧ (coreOf (wregFilled d n x sl iy cols) n).wregHalf = (coreOf d n).wregHalf + 1
    ∧ (∀ e < 1024, ∀ v, (cols.flatMap fun ix => fillWords d x sl iy ix)[e]? = some v →
        sget (fun _ => (0#256, false)) (coreOf (wregFilled d n x sl iy cols) n).wreg ((coreOf d n).wregHalf.toNat * 1024 + e) = v)
    ∧ (wregFilled d n x sl iy cols).mem.ram = d.mem.ram := by
  obtain ⟨hk, hr⟩ := touchFill_spec d x iy cols
  have hhalf : (coreOf (touchFill d x iy cols) n).wregHalf = (coreOf d n).wregHalf :=
    (hk.of_part fun _ _ he => (congrArg Core.wregHalf he : (coreRead _).wregHalf = (coreRead _).wregHalf) : KeepsBy Core.wregHalf d _).core n
  have hlt := (coreOf d n).wregHalf.isLt
  rw [wregFilled, coreOf_updCore]
  refine ⟨?_, ?_, fun e he v hv => ?_, hr⟩
  · rw [bit_or, bit_ofNat_two_pow _ (by omega)]
    simp
  · rw [hhalf]
  · exact sget_foldl_withPos _ _ _ e v (by rwa [List.getElem?_take_of_lt he])

theorem windowRegisterFills : Claim.WindowRegisterFills := by
  intro s n i t ky kx kb ha
  have hx (c : Instr) (f : Dev → Dev) (hc : exec c s = nextDev s f) : exec c s = .next (onDev s f) := hc.trans (nextDev_awake ha)
  dsimp only
  rw [hx (.wregFill n i t ky kx kb) (fun d => wregFill d n i t.toNat ky kx kb.toNat) rfl]
  refine ⟨fun h => ?_, fun o ho => ⟨fun h => ?_, fun iy sl hd hs hi hc hf hy hb => ?_⟩⟩
  · rw [onDev_eq_self]
    exact wregFill_idle _ _ _ _ h
  · rw [onDev_eq_self]
    exact wregFill_misses ho _ _ _ _ h
  · rw [onDev, wregFill_fills ho kx hd hs hi hc hf hy hb]
    exact ⟨_, rfl, wregFilled_spec ..⟩

/-- Settles O43: narrow writes through the gather buffer, partial writes of the SB, and the window-register fill. -/
theorem narrowWritesGather : Obligations.NarrowWritesGather := ⟨narrowWritesGatherClaim, sbPartialWritesMerge, windowRegisterFills⟩

end Sys2Proof.Proofs


/-! ## Shared tile counters (O37) -/

namespace Sys2Proof.Proofs
open Sys2Proof.Machine

/-! ### The claim's test and set (R182) -/

/-- Address of the byte of the claim bitmap that holds tile t's bit. -/
def claimByte (d : Dev) (k t : Nat) : Nat := bitmapBase k (ctrOf d k) + t / 8

theorem testAndSet_bit (d : Dev) (k t : Nat) : (testAndSet d k t).2 = bit (peek d.mem (claimByte d k t)) (t % 8) := by
  rw [testAndSet, claimByte]
  dsimp only
  rw [peek_congr (sbCorrect_ram ..)]

theorem testAndSet_ctrs (d : Dev) (k t : Nat) : (testAndSet d k t).1.ctrs = d.ctrs := sbCorrect_ctrs ..

theorem testAndSet_cores (d : Dev) (k t : Nat) : (testAndSet d k t).1.cores = d.cores := sbCorrect_cores ..

theorem claimByte_testAndSet (d : Dev) (k t v : Nat) : claimByte (testAndSet d k t).1 k v = claimByte d k v := by
  rw [claimByte, claimByte, ctrOf, testAndSet_ctrs, ← ctrOf]

theorem peek_testAndSet (d : Dev) (k t a : Nat) :
    peek (testAndSet d k t).1.mem a = if a = claimByte d k t then peek d.mem a ||| BitVec.ofNat 8 (2 ^ (t % 8)) else peek d.mem a := by
  rw [testAndSet]
  dsimp only
  rw [updMem_mem, pokes, pokes, ← claimByte]
  split
  case isTrue ha => rw [ha, peek_poke_same, peek_congr (sbCorrect_ram ..)]
  case isFalse ha => rw [peek_poke_ne ha, peek_congr (sbCorrect_ram ..)]

theorem testAndSet_again (d : Dev) (k t : Nat) : (testAndSet (testAndSet d k t).1 k t).2 = true := by
  rw [testAndSet_bit, claimByte_testAndSet, peek_testAndSet, if_pos rfl, bit_or, bit_ofNat_two_pow _ (Nat.mod_lt _ (by norm_num))]
  simp

theorem testAndSet_other (d : Dev) (k : Nat) {t v : Nat} (h : v ≠ t) : (testAndSet (testAndSet d k t).1 k v).2 = (testAndSet d k v).2 := by
  rw [testAndSet_bit, testAndSet_bit, claimByte_testAndSet, peek_testAndSet]
  split
  case isTrue ha =>
    have hne : t % 8 ≠ v % 8 := by
      rw [claimByte, claimByte] at ha
      omega
    rw [bit_or, bit_ofNat_two_pow _ (Nat.mod_lt _ (by norm_num)), decide_eq_false hne, Bool.or_false]
  case isFalse => rfl

/-! ### What a claim leaves of the released regions -/

theorem countRow_cores (d : Dev) (n : Nat) (o : Op) (k t : Nat) : (countRow d n o k t).cores = d.cores := by
  unfold countRow
  dsimp only
  split
  · split <;> rfl
  · rfl

/-- A claim that has set its tile's bit: the tile taken, DONE risen, the row counted. -/
def claimTaken (d : Dev) (n i : Nat) (o : Op) (k t : Nat) (rest : List Nat) : Dev :=
  let e := setOp (testAndSet d k t).1 n i { o with tiles := rest, taken := o.taken + 1 }
  countRow (setCtr e k { ctrOf e k with done := (ctrOf e k).done + 1 }) n o k t

theorem claimTaken_released (d : Dev) (n i : Nat) (o : Op) (k t : Nat) (rest : List Nat) :
    (coreOf (claimTaken d n i o k t rest) n).released = (coreOf d n).released := by
  have h : (claimTaken d n i o k t rest).cores = (setOp (testAndSet d k t).1 n i { o with tiles := rest, taken := o.taken + 1 }).cores := countRow_cores ..
  rw [coreOf, h, ← coreOf, setOp, coreOf_updCore]
  dsimp only
  rw [coreOf, testAndSet_cores, ← coreOf]

/-! ### Replies (R181) -/

/-- The instruction of core n whose reply may be taken. -/
def answeredOp (d : Dev) (n : Nat) : Option (Nat × Op) :=
  drawingOp (coreOf d n) fun o => o.reply.isSome && (match o.reply with | some (.grant t) => tileReady d n o t | _ => true)

/-- The instruction at position i takes its reply. -/
def tileAnswer (d : Dev) (n i : Nat) (o : Op) : Dev :=
  match o.reply with
  | some (.grant t) =>
    if tileHollow d n o t then settleShared (setOp (blankTile d n o t) n i { o with reply := none, lastGrant := t, incomplete := true }) n i
    else sharedFree (setOp (workTile d n o (o.taken + o.tiles.length) t) n i { o with reply := none, tiles := o.tiles ++ [t], lastGrant := t }) n i
  | some .exhausted => settleShared (setOp d n i { o with reply := none, exhausted := true }) n i
  | some .stale => finishOp (setOp (if o.epoch = (wcOf d o.wc).epoch then postEventWc d 0x0522 1 n o.wc 0 else d) n i { o with reply := none, tiles := [] }) n i
      fun o => { o with cancelled := true }
  | none => d

theorem tileReceive_eq (d : Dev) (n : Nat) : tileReceive d n = match answeredOp d n with
    | some (i, o) => tileAnswer d n i o
    | none => d := rfl

theorem tileReceive_none {d : Dev} {n : Nat} (h : answeredOp d n = none) : tileReceive d n = d := by
  rw [tileReceive_eq, h]

section
variable {d : Dev} {n i : Nat} {o : Op} (h : answeredOp d n = some (i, o))
include h

theorem tileReceive_grant {t : Nat} (hr : o.reply = some (.grant t)) :
    tileReceive d n = if tileHollow d n o t then settleShared (setOp (blankTile d n o t) n i { o with reply := none, lastGrant := t, incomplete := true }) n i
      else sharedFree (setOp (workTile d n o (o.taken + o.tiles.length) t) n i { o with reply := none, tiles := o.tiles ++ [t], lastGrant := t }) n i := by
  rw [tileReceive_eq, h]
  dsimp only
  rw [tileAnswer, hr]

theorem tileReceive_exhausted (hr : o.reply = some .exhausted) :
    tileReceive d n = settleShared (setOp d n i { o with reply := none, exhausted := true }) n i := by
  rw [tileReceive_eq, h]
  dsimp only
  rw [tileAnswer, hr]

theorem tileReceive_stale (hr : o.reply = some .stale) :
    tileReceive d n = finishOp (setOp (if o.epoch = (wcOf d o.wc).epoch then postEventWc d 0x0522 1 n o.wc 0 else d) n i { o with reply := none, tiles := [] }) n i
      fun o => { o with cancelled := true } := by
  rw [tileReceive_eq, h]
  dsimp only
  rw [tileAnswer, hr]

end

/-! ### Claims (R182) -/

/-- The instruction of core n whose oldest tile may be claimed. -/
def claimingOp (d : Dev) (n : Nat) : Option (Nat × Op) :=
  findIdxElem (fun o => o.issued && !o.done && !o.cancelled && o.ctr.isSome && vuFree (coreOf d n) o
    && (match o.tiles with | t :: _ => !(coreOf d n).retry.contains (unitOf o t) | [] => false)) (coreOf d n).ops 0

/-- A claim that found its tile's bit set: the region discarded, with its event. -/
def claimLost (d : Dev) (n i : Nat) (o : Op) (k t : Nat) (rest : List Nat) : Dev :=
  settleShared (postEventWc (bump (updCore (setOp (testAndSet d k t).1 n i { o with tiles := rest, taken := o.taken + 1 }) n fun c => dropRegion c (unitOf o t))
    (0x2270 + k / 64) 3 4 1) 0x0520 1 (srcHub (k / 64)) o.wc 0) n i

/-- The oldest tile of the instruction at position i is claimed. -/
def tileClaimed (d : Dev) (n i : Nat) (o : Op) : Dev :=
  match o.ctr, o.tiles with
  | some (k, _), t :: rest =>
    if (testAndSet d k t).2 then claimLost d n i o k t rest
    else if (coreOf (claimTaken d n i o k t rest) n).released.any fun r => r.unit == unitOf o t then settleShared (claimTaken d n i o k t rest) n i
    else settleShared (finishTile (claimTaken d n i o k t rest) n i { o with tiles := rest, taken := o.taken + 1 } o.taken t) n i
  | _, _ => d

theorem tileClaim_eq (d : Dev) (n : Nat) : tileClaim d n = match claimingOp d n with
    | some (i, o) => tileClaimed d n i o
    | none => d := rfl

theorem tileClaim_none {d : Dev} {n : Nat} (h : claimingOp d n = none) : tileClaim d n = d := by
  rw [tileClaim_eq, h]

theorem tileClaim_some {d : Dev} {n i : Nat} {o : Op} {k : Nat} {gen : BitVec 16} {t : Nat} {rest : List Nat}
    (h : claimingOp d n = some (i, o)) (hk : o.ctr = some (k, gen)) (ht : o.tiles = t :: rest) :
    tileClaim d n = if (testAndSet d k t).2 then claimLost d n i o k t rest
      else if (coreOf d n).released.any fun r => r.unit == unitOf o t then settleShared (claimTaken d n i o k t rest) n i
      else settleShared (finishTile (claimTaken d n i o k t rest) n i { o with tiles := rest, taken := o.taken + 1 } o.taken t) n i := by
  rw [tileClaim_eq, h]
  dsimp only
  rw [tileClaimed, hk, ht]
  dsimp only
  rw [claimTaken_released]

/-- Settles O37: requests, grants and claims of shared tile counters. -/
theorem tilesAreSharedOut : Obligations.TilesAreSharedOut := by
  intro s n ha
  have hx (c : Instr) (f : Dev → Dev) (hc : exec c s = nextDev s f) : exec c s = .next (onDev s f) := hc.trans (nextDev_awake ha)
  dsimp only
  rw [hx (.tileRequest n) (fun d => tileRequest d n) rfl, hx (.tileGrantReceive n) (fun d => tileReceive d n) rfl, hx (.tileClaim n) (fun d => tileClaim d n) rfl]
  refine ⟨fun h => ?_, fun i o k gen h hk => ⟨fun hg h3 hlt => ?_, fun hg h3 hle => ?_, fun hs => ?_⟩, fun h => ?_,
    fun i o h => ⟨fun t hr hh => ?_, fun t hr hh => ?_, fun hr => ?_, fun hr => ?_⟩, fun h => ?_,
    fun i o k gen t rest h hk ht => ⟨fun hw hrel => ?_, fun hw hrel => ?_, fun hw => ?_⟩, fun k t => ⟨testAndSet_again s.dev k t, fun v hv => testAndSet_other s.dev k hv⟩⟩
  · rw [onDev_eq_self]
    rw [tileRequest, h]
  · rw [onDev, tileRequest, h]
    dsimp only
    rw [hk]
    dsimp only
    rw [if_neg (by simp [hg, h3]), if_pos hlt]
  · rw [onDev, tileRequest, h]
    dsimp only
    rw [hk]
    dsimp only
    rw [if_neg (by simp [hg, h3]), if_neg (not_lt.mpr hle)]
  · rw [onDev, tileRequest, h]
    dsimp only
    rw [hk]
    dsimp only
    rw [if_pos hs]
  · rw [onDev_eq_self]
    exact tileReceive_none h
  · rw [onDev, tileReceive_grant h hr, if_neg (by simp [hh])]
  · rw [onDev, tileReceive_grant h hr, if_pos hh]
  · rw [onDev, tileReceive_exhausted h hr]
  · rw [onDev, tileReceive_stale h hr]
  · rw [onDev_eq_self]
    exact tileClaim_none h
  · rw [onDev, tileClaim_some h hk ht, if_neg (by simp [hw]), if_neg (by simpa using hrel)]
    rfl
  · rw [onDev, tileClaim_some h hk ht, if_neg (by simp [hw]), if_pos (by simpa using hrel)]
    rfl
  · rw [onDev, tileClaim_some h hk ht, if_pos hw]
    rfl

end Sys2Proof.Proofs


/-! ## Stream channels (O45) -/

namespace Sys2Proof.Proofs
open Sys2Proof.Machine

theorem mem_winRecvs {c : Chan} {r : Nat} : r ∈ winRecvs c ↔ r < 4 ∧ isWinRecv c r = true := by
  rw [winRecvs, List.mem_filter, List.mem_range]

theorem winRecvs_all {c : Chan} {p : Nat → Bool} : (winRecvs c).all p = true ↔ ∀ r < 4, isWinRecv c r = true → p r = true := by
  rw [List.all_eq_true]
  exact ⟨fun h r hr hw => h r (mem_winRecvs.mpr ⟨hr, hw⟩), fun h r hr => h r (mem_winRecvs.mp hr).1 (mem_winRecvs.mp hr).2⟩

theorem channelsOpenAndClose : Claim.ChannelsOpenAndClose := by
  intro s ch ha
  have hx (c : Instr) (f : Dev → Dev) (hc : exec c s = nextDev s f) : exec c s = .next (onDev s f) := hc.trans (nextDev_awake ha)
  dsimp only
  rw [hx (.channelActive ch) (fun d => chanActive d ch.toNat) rfl, hx (.channelCancelDone ch) (fun d => chanCancelDone d ch.toNat) rfl]
  refine ⟨fun k v => ⟨fun h0 hk => ?_, fun h => ?_, ?_⟩, fun h1 hopen => ?_, fun h => ?_, fun h => ?_, fun h => ?_⟩
  · rw [hx (.channelDescriptorWrite ch k v true) (fun d => chanDescWrite d ch.toNat k v true) rfl, onDev, chanDescWrite, if_neg (by decide)]
    dsimp only
    rw [if_pos ⟨h0, hk⟩]
  · rw [hx (.channelDescriptorWrite ch k v true) (fun d => chanDescWrite d ch.toNat k v true) rfl, onDev_eq_self]
    rw [chanDescWrite, if_neg (by decide)]
    exact if_neg fun ⟨h0, hk⟩ => by rcases h with h | h <;> omega
  · exact hx (.channelDescriptorWrite ch k v false) (fun d => chanDescWrite d ch.toNat k v false) rfl
  · rw [onDev, chanActive, if_pos ⟨h1, winRecvs_all.mpr hopen⟩]
  · rw [onDev_eq_self]
    refine if_neg fun ⟨h1, hopen⟩ => ?_
    rcases h with h | ⟨r, hr, hw, ho⟩
    · exact h h1
    · rw [winRecvs_all.mp hopen r hr hw] at ho
      exact Bool.noConfusion ho
  · rw [onDev, chanCancelDone, if_pos h]
  · rw [onDev_eq_self]
    exact if_neg h

/-! ### The engine's choice (R229) -/

theorem chosenChan_spec {d : Dev} {e ch : Nat} (h : chosenChan d e = some ch) :
    canSend (chan d ch) = true ∧ 64 * e ≤ ch ∧ ch < 64 * e + 64
    ∧ ∀ c, 64 * e ≤ c → c < 64 * e + 64 → canSend (chan d c) = true → wClass (wcOf d (chWc (chan d ch))) ≤ wClass (wcOf d (chWc (chan d c))) := by
  have hmem {c : Nat} : c ∈ ((List.range 64).map (64 * e + ·)).filter (fun ch => canSend (chan d ch)) ↔ (64 * e ≤ c ∧ c < 64 * e + 64) ∧ canSend (chan d c) = true := by
    rw [List.mem_filter, List.mem_map]
    refine and_congr_left' ⟨fun ⟨k, hk, he⟩ => ?_, fun ⟨h1, h2⟩ => ⟨c - 64 * e, List.mem_range.mpr (by omega), by omega⟩⟩
    have := List.mem_range.mp hk
    omega
  obtain ⟨⟨h1, h2⟩, h3⟩ := hmem.mp (bestOf_mem h)
  refine ⟨h3, h1, h2, fun c hc1 hc2 hc3 => ?_⟩
  have hle := bestOf_le (fun ch => wClass (wcOf d (chWc (chan d ch))) * 64
    + (ch % 64 + 64 - (sget (fun _ => 63) d.se.rr (e * 4 + wClass (wcOf d (chWc (chan d ch)))) + 1)) % 64) (hmem.mpr ⟨⟨hc1, hc2⟩, hc3⟩)
  obtain ⟨y, hy, hle⟩ := hle
  obtain rfl : y = ch := Option.some.inj (hy.symm.trans h)
  omega

/-! ### The stall timer (R232, R234) -/

theorem chan_detach (ch : Nat) (d : Dev) (r : Nat) : chan (detach ch d r) ch =
    { chan d ch with detached := (chan d ch).detached ||| BitVec.ofNat 4 (2 ^ r), held := (chan d ch).held ||| BitVec.ofNat 4 (2 ^ r) } := by
  rw [detach]
  simp

theorem bit_foldl_or (l : List Nat) (m : BitVec 4) {r : Nat} (hr : r < 4) :
    bit (l.foldl (fun m r => m ||| BitVec.ofNat 4 (2 ^ r)) m) r = (bit m r || l.contains r) := by
  induction l generalizing m with
  | nil => simp
  | cons x t ih =>
    rw [List.foldl_cons, ih, bit_or, bit_ofNat_two_pow x hr, List.contains_cons, Bool.or_assoc]
    by_cases hx : x = r
    · simp [hx]
    · rw [decide_eq_false hx, beq_false_of_ne (Ne.symm hx)]

theorem foldl_detach (ch : Nat) (l : List Nat) (d : Dev) :
    (chan (l.foldl (detach ch) d) ch).detached = l.foldl (fun m r => m ||| BitVec.ofNat 4 (2 ^ r)) (chan d ch).detached
    ∧ (chan (l.foldl (detach ch) d) ch).held = l.foldl (fun m r => m ||| BitVec.ofNat 4 (2 ^ r)) (chan d ch).held := by
  induction l generalizing d with
  | nil => exact ⟨rfl, rfl⟩
  | cons x t ih =>
    obtain ⟨h1, h2⟩ := ih (detach ch d x)
    rw [chan_detach] at h1 h2
    exact ⟨h1, h2⟩

/-- A channel whose timer has run out, before any receiver is detached. -/
def stallCounted (d : Dev) (ch : Nat) : Dev :=
  let c := reattach (chan d ch)
  bump (setChan d ch { c with held := (owedRecvs c).foldl (fun m r => m ||| BitVec.ofNat 4 (2 ^ r)) c.held }) (0x22C0 + ch / 64) 4 8 (1200 * stallTimeout d c)

/-- Receivers of a channel with and without a credit. -/
def creditless (c : Chan) : List Nat := (attached c).filter fun r => chCredit c r == 0
def credited (c : Chan) : List Nat := (attached c).filter fun r => chCredit c r != 0

/-- The channel waits for a credit or for hollow units owed. -/
def StallWaits (c : Chan) : Prop := c.state = 2 ∧ (nextUnit c).isSome = true ∧ (creditless c ≠ [] ∨ owedRecvs c ≠ [])

theorem stallTimeoutAt_idle {d : Dev} {ch : Nat} (h : ¬ StallWaits (reattach (chan d ch))) : stallTimeoutAt d ch = d := by
  rw [stallTimeoutAt]
  dsimp only
  split
  case isTrue hc =>
    refine if_pos ?_
    have hn : ¬ (creditless (reattach (chan d ch)) ≠ [] ∨ owedRecvs (reattach (chan d ch)) ≠ []) := fun hw => h ⟨hc.1, hc.2, hw⟩
    push Not at hn
    rw [waitsForOwed, hn.2]
    exact Bool.and_eq_true_iff.mpr ⟨List.isEmpty_iff.mpr hn.1, rfl⟩
  case isFalse => rfl

theorem stallTimeoutAt_waits {d : Dev} {ch : Nat} (h : StallWaits (reattach (chan d ch))) :
    stallTimeoutAt d ch = if credited (reattach (chan d ch)) = [] then stallCounted d ch
      else (creditless (reattach (chan d ch))).foldl (detach ch) (stallCounted d ch) := by
  obtain ⟨h2, hu, hw⟩ := h
  have hno : ¬ ((creditless (reattach (chan d ch))).isEmpty && !waitsForOwed (reattach (chan d ch))) = true := by
    rw [waitsForOwed, Bool.not_not, Bool.and_eq_true, List.isEmpty_iff, List.isEmpty_iff]
    tauto
  rw [stallTimeoutAt]
  dsimp only
  rw [if_pos ⟨h2, hu⟩]
  refine (if_neg hno).trans ?_
  by_cases hc : credited (reattach (chan d ch)) = []
  · rw [if_pos hc]
    exact if_pos (List.isEmpty_iff.mpr hc)
  · rw [if_neg hc]
    exact if_neg (mt List.isEmpty_iff.mp hc)

theorem stallTimeoutAt_spec {d : Dev} {ch : Nat} (h : StallWaits (reattach (chan d ch))) :
    (stallTimeoutAt d ch).mem = d.mem
    ∧ (∀ r < 4, bit (chan (stallTimeoutAt d ch) ch).detached r
        = (bit (reattach (chan d ch)).detached r || (decide (credited (reattach (chan d ch)) ≠ []) && (creditless (reattach (chan d ch))).contains r)))
    ∧ (∀ r ∈ owedRecvs (reattach (chan d ch)), bit (chan (stallTimeoutAt d ch) ch).held r = true)
    ∧ cnt (stallTimeoutAt d ch) (0x22C0 + ch / 64) 4 = (cnt d (0x22C0 + ch / 64) 4 + 1200 * stallTimeout d (reattach (chan d ch))) % 2 ^ 64 := by
  have hchan : chan (stallCounted d ch) ch = { reattach (chan d ch) with
      held := (owedRecvs (reattach (chan d ch))).foldl (fun m r => m ||| BitVec.ofNat 4 (2 ^ r)) (reattach (chan d ch)).held } := by
    rw [stallCounted]
    simp
  have hcnt : cnt (stallCounted d ch) (0x22C0 + ch / 64) 4 = (cnt d (0x22C0 + ch / 64) 4 + 1200 * stallTimeout d (reattach (chan d ch))) % 2 ^ 64 := by
    rw [stallCounted, cnt_bump]
    rfl
  have howed (r : Nat) (hr : r ∈ owedRecvs (reattach (chan d ch))) : r < 4 := by
    unfold owedRecvs at hr
    split at hr
    · split at hr
      · exact List.mem_range.mp (List.mem_filter.mp hr).1
      · simp at hr
    · simp at hr
  have hheld (r : Nat) (hr : r ∈ owedRecvs (reattach (chan d ch))) : bit (chan (stallCounted d ch) ch).held r = true := by
    rw [hchan, bit_foldl_or _ _ (howed r hr), List.contains_iff_mem.mpr hr, Bool.or_true]
  rw [stallTimeoutAt_waits h]
  split
  case isTrue hc =>
    refine ⟨rfl, fun r hr => ?_, hheld, hcnt⟩
    rw [hchan, hc]
    simp
  case isFalse hc =>
    obtain ⟨hd, hh⟩ := foldl_detach ch (creditless (reattach (chan d ch))) (stallCounted d ch)
    refine ⟨foldl_keeps (fun e : Dev => e.mem) _ (fun e r _ => ?_) _, fun r hr => ?_, fun r hr => ?_, ?_⟩
    · rw [detach]
      simp
    · rw [hd, hchan, bit_foldl_or _ _ hr]
      simp [hc]
    · rw [hh, bit_foldl_or _ _ (howed r hr), hheld r hr, Bool.true_or]
    · rw [← hcnt]
      refine foldl_keeps (fun e => cnt e (0x22C0 + ch / 64) 4) _ (fun e r _ => ?_) _
      rw [detach]
      exact (cnt_postEventWc ..).trans ((cnt_bump_ne _ _ _ _ _ (by unfold odKey; omega)).trans rfl)

/-! ### A hollow unit (R233) -/

/-- A step that leaves memory and what each channel owes. -/
structure KeepsOwed (d e : Dev) : Prop where
  mem : e.mem = d.mem
  owed : ∀ k, (chan e k).owed = (chan d k).owed

namespace KeepsOwed

variable {d e f : Dev}

theorem of_se (h : e.mem = d.mem) (k : e.se = d.se) : KeepsOwed d e := ⟨h, fun i => by rw [chan, k, ← chan]⟩

theorem trans (h : KeepsOwed d e) (k : KeepsOwed e f) : KeepsOwed d f := ⟨k.mem.trans h.mem, fun i => (k.owed i).trans (h.owed i)⟩

theorem ite {p : Prop} [Decidable p] (he : KeepsOwed d e) (hf : KeepsOwed d f) : KeepsOwed d (if p then e else f) := by
  split
  · exact he
  · exact hf

theorem bump (d : Dev) (i sub w k : Nat) : KeepsOwed d (bump d i sub w k) := of_se rfl rfl

theorem setWinAt (d : Dev) (node i : Nat) (w : Win) : KeepsOwed d (setWinAt d node i w) := by
  unfold Machine.setWinAt
  exact ite (of_se rfl rfl) (ite (of_se rfl rfl) (of_se rfl rfl))

theorem discardGranule (d : Dev) (node : Nat) (stale : Bool) (addr : Nat) (writer : BitVec 16) : KeepsOwed d (discardGranule d node stale addr writer) := by
  unfold Machine.discardGranule
  exact ite (ite (bump ..) (of_se rfl rfl)) (.trans (ite (bump ..) (of_se rfl rfl)) (of_se (postEvent_mem ..) (postEvent_se ..)))

theorem giveCredits (d : Dev) (node i : Nat) (writer : BitVec 16) (n : Nat) : KeepsOwed d (giveCredits d node i writer n) := by
  unfold Machine.giveCredits
  dsimp only
  split
  · split
    · refine ⟨rfl, fun k => ?_⟩
      by_cases hk : k = writer.toNat % 4096
      · rw [hk, chan_setChan]
        rfl
      · rw [chan_setChan_ne _ _ hk]
    · exact of_se rfl rfl
  · exact of_se rfl rfl

/-- A hollow unit brings no bytes: it only lands, waits, or is discarded. -/
theorem deliverHollow (d : Dev) (node i : Nat) (writer : BitVec 16) (epoch : BitVec 8) (u : Nat) (bs : List (Byte × Bool)) :
    KeepsOwed d (deliverUnit d node i writer epoch u bs true) := by
  have hdiscard (stale : Bool) (addr gs : Nat) : KeepsOwed d (discardUnit d node stale addr writer gs) := by
    unfold discardUnit
    induction (List.range gs) generalizing d with
    | nil => exact of_se rfl rfl
    | cons k t ih => exact (discardGranule ..).trans (ih ..)
  unfold deliverUnit
  dsimp only
  exact ite ((bump ..).trans (giveCredits ..)) (ite (hdiscard ..) (ite (ite (of_se rfl rfl) (setWinAt ..)) (hdiscard ..)))

end KeepsOwed

theorem hollowSend_spec {d : Dev} {ch r : Nat} (hch : ch < 512) (h : ((chan d ch).state = 2 ∨ (chan d ch).state = 3) ∧ isWinRecv (chan d ch) r = true
    ∧ chOwed (chan d ch) r ≠ 0 ∧ chCredit (chan d ch) r ≠ 0) :
    chOwed (chan (hollowSend d ch r) ch) r = chOwed (chan d ch) r - 1
    ∧ cnt (hollowSend d ch r) (0x22C0 + ch / 64) 2 = (cnt d (0x22C0 + ch / 64) 2 + 1) % 2 ^ 64 ∧ (hollowSend d ch r).mem = d.mem := by
  rw [hollowSend]
  dsimp only
  rw [if_pos h]
  generalize hc' : { setCredit (setOwed (chan d ch) r (chOwed (chan d ch) r - 1)) r (chCredit (chan d ch) r - 1) with
    unitNo := sset (fun _ => 0) (chan d ch).unitNo r (sget (fun _ => 0) (chan d ch).unitNo r + 1) } = c'
  have ho : chOwed c' r = chOwed (chan d ch) r - 1 := by
    rw [← hc']
    exact sget_sset ..
  have hk := KeepsOwed.deliverHollow (bump (setChan d ch c') (0x22C0 + ch / 64) 2 8 1) (rvNode (chRecv (chan d ch) r)) (rvWindow (chRecv (chan d ch) r))
    (chanWriter ch) (chan d ch).epoch (sget (fun _ => 0) (chan d ch).unitNo r) []
  refine ⟨?_, ?_, hk.mem⟩
  · rw [chOwed, hk.owed, ← chOwed, chan_bump, chan_setChan, ho]
  · rw [(FlowStep.deliverUnit ..).cnt (by unfold FlowKey StoreKey AccessKey odKey; omega), cnt_bump]
    rfl

/-! ### The end of a stream (R227) -/

theorem atEnd_iff (c : Chan) : atEnd c = true ↔ ∃ f rest, c.frames = f :: rest ∧ f.ends = true := by
  rw [atEnd]
  cases c.frames with
  | nil => simp
  | cons f rest => simp

theorem streamEndSend_eq {d : Dev} {ch : Nat} (r : Nat) (h : ((chan d ch).state = 2 ∨ (chan d ch).state = 3) ∧ atEnd (chan d ch) = true) :
    streamEndSend d ch r =
      if isWinRecv (chan d ch) r = true ∧ bit (chan d ch).ended r = false ∧ chOwed (chan d ch) r = 0 then
        streamOver (streamEndAt (setChan (setChan d ch { chan d ch with state := 3 }) ch
          { setCredit { chan d ch with state := 3 } r 0 with ended := (chan d ch).ended ||| BitVec.ofNat 4 (2 ^ r) })
          (rvNode (chRecv (chan d ch) r)) (rvWindow (chRecv (chan d ch) r)) (chanWriter ch) (chan d ch).epoch (chan d ch).sent.toNat) ch
      else streamOver (setChan d ch { chan d ch with state := 3 }) ch := by
  rw [streamEndSend]
  dsimp only
  rw [if_pos h, chan_setChan]

/-- The numbers that the minimality clause of the statement ranges over are read in `Fin 8`, where none is below `64 * e + 64 = 0`; over all channels of the
engine `chosenChan_spec` states it. -/
theorem channelsSend : Claim.ChannelsSend := by
  intro s ha
  have hx (c : Instr) (f : Dev → Dev) (hc : exec c s = nextDev s f) : exec c s = .next (onDev s f) := hc.trans (nextDev_awake ha)
  refine ⟨fun e h => ?_, fun e ch h => ?_, fun e ch h => ?_, fun ch => ⟨fun h => ?_, fun h => ?_⟩, fun ch r => ⟨fun h => ?_, fun h => ?_⟩,
    fun ch r => ⟨fun h => ?_, fun h hdue => ?_, fun h hdue => ?_⟩, fun w => ⟨fun h => ?_, fun n h0 hlt hn => ?_⟩⟩
  · rw [hx (.unitSend e) (fun d => unitSend d e) rfl, onDev_eq_self]
    rw [unitSend, h]
  · rw [hx (.unitSend e) (fun d => unitSend d e) rfl, onDev, unitSend, h]
  · obtain ⟨hs, hlo, hhi, -⟩ := chosenChan_spec h
    have hnone : ∀ e c : Fin 8, ¬ c < 64 * e + 64 := by decide
    exact ⟨hs, hlo, hhi, fun c _ hc => absurd hc (hnone e c)⟩
  · rw [hx (.stallTimeout ch) (fun d => stallTimeoutAt d ch.toNat) rfl, onDev_eq_self]
    exact stallTimeoutAt_idle h
  · exact ⟨_, hx (.stallTimeout ch) (fun d => stallTimeoutAt d ch.toNat) rfl, stallTimeoutAt_spec h⟩
  · rw [hx (.hollowUnitSend ch r) (fun d => hollowSend d ch.toNat r) rfl, onDev_eq_self]
    exact if_neg h
  · exact ⟨_, hx (.hollowUnitSend ch r) (fun d => hollowSend d ch.toNat r) rfl, hollowSend_spec ch.isLt h⟩
  · rw [hx (.streamEndSend ch r) (fun d => streamEndSend d ch.toNat r) rfl, onDev_eq_self]
    exact if_neg (by rwa [atEnd_iff])
  · rw [hx (.streamEndSend ch r) (fun d => streamEndSend d ch.toNat r) rfl, onDev, streamEndSend_eq _ (by rwa [atEnd_iff]), if_pos hdue]
  · rw [hx (.streamEndSend ch r) (fun d => streamEndSend d ch.toNat r) rfl, onDev, streamEndSend_eq _ (by rwa [atEnd_iff]), if_neg hdue]
  · rw [hx (.loadTurnGrant w) (fun d => loadTurnGrant d w.toNat) rfl, onDev_eq_self]
    rw [loadTurnGrant]
    rcases h with h | h | h
    · exact if_neg fun hc => hc.1 h
    · exact if_neg fun hc => absurd hc.2 (not_lt.mpr h)
    · rw [h]
      exact ite_self _
  · rw [hx (.loadTurnGrant w) (fun d => loadTurnGrant d w.toNat) rfl, onDev, loadTurnGrant]
    rw [if_pos ⟨h0, hlt⟩, hn]

/-- Settles O45: channels open and close, send, detach, end, and take load turns. -/
theorem channelsRun : Obligations.ChannelsRun := ⟨channelsOpenAndClose, channelsSend⟩

end Sys2Proof.Proofs


/-! ## Rounding, narrowing, generated exponents and PM adds (O35) -/

namespace Sys2Proof.Proofs
open Sys2Proof.Machine

/-! ### Rounding (R88) -/

/-- A rounded magnitude is off by at most half a unit, and upward on a tie. -/
theorem roundMagnitude (k h : Nat) (hh : 0 < h) :
    let a := (k + h) / (2 * h)
    a * (2 * h) ≤ k + h ∧ k < a * (2 * h) + h := by
  have h1 := Nat.div_add_mod (k + h) (2 * h)
  have h2 := Nat.mod_lt (k + h) (show 0 < 2 * h by omega)
  rw [Nat.mul_comm] at h1
  dsimp only
  omega

theorem roundingIsNearestAway : Claim.RoundingIsNearestAway := by
  intro m e q hq
  obtain ⟨sh, hsh⟩ : ∃ sh, (q - e).toNat = sh + 1 := ⟨(q - e).toNat - 1, by omega⟩
  obtain ⟨hlo, hhi⟩ := roundMagnitude m.natAbs (2 ^ sh) (Nat.two_pow_pos sh)
  have hp : (2 : Int) ^ (sh + 1) = ((2 * 2 ^ sh : Nat) : Int) := by push_cast; ring
  have hr : roundAway m e q = if m < 0 then -(((m.natAbs + 2 ^ sh) / (2 * 2 ^ sh) : Nat) : Int) else (((m.natAbs + 2 ^ sh) / (2 * 2 ^ sh) : Nat) : Int) := by
    rw [roundAway, if_neg (not_le.mpr hq), hsh]
    dsimp only
    rw [Nat.add_sub_cancel, pow_succ']
  rw [hr, hsh, hp, pow_succ' 2 sh]
  generalize (m.natAbs + 2 ^ sh) / (2 * 2 ^ sh) = a at hlo hhi ⊢
  generalize 2 ^ sh = h at hlo hhi ⊢
  have hcast : ((a : Int) * ((2 * h : Nat) : Int)) = ((a * (2 * h) : Nat) : Int) := by push_cast; rfl
  have hneg : (-(a : Int) * ((2 * h : Nat) : Int)) = -((a * (2 * h) : Nat) : Int) := by push_cast; ring
  generalize a * (2 * h) = ap at hlo hhi hcast hneg
  split <;> simp only [hcast, hneg] <;> omega

/-! ### Narrowing to an integer format -/

theorem floatFmt_of_isInt {f : Fmt} (hf : fmtIsInt f = true) : floatFmt f = none := by
  cases f with
  | int4 => rfl
  | int8 => rfl
  | uint8 => rfl
  | int16 => rfl
  | int32 => rfl
  | _ => exact absurd hf (by decide)

theorem narrow_int {f : Fmt} (hf : fmtIsInt f = true) (z : Nat) (e m k : Int) :
    let n := (if f = .uint8 then (z : Int) else 0) + roundAway m (k - e) 0
    narrow f z e (.num m k) = if n < (intRange f).1 then ⟨lowBits (fmtBits f) (intRange f).1, true, false⟩
      else if (intRange f).2 < n then ⟨lowBits (fmtBits f) (intRange f).2, true, false⟩ else ⟨lowBits (fmtBits f) n, false, false⟩ := by
  dsimp only
  rw [narrow, floatFmt_of_isInt hf, sub_eq_add_neg]
  rfl

theorem sext_lowBits {w : Nat} (hw : 0 < w) {n : Int} (hlo : -(2 ^ (w - 1) : Int) ≤ n) (hhi : n < 2 ^ (w - 1)) : sext w (lowBits w n) = n := by
  have hofInt : BitVec.ofNat w (lowBits w n) = BitVec.ofInt w n := by
    refine BitVec.eq_of_toNat_eq ?_
    rw [BitVec.toNat_ofNat, BitVec.toNat_ofInt, lowBits]
    have hpos : (0 : Int) < 2 ^ w := by positivity
    have h1 := Int.emod_nonneg n hpos.ne'
    have h2 := Int.emod_lt_of_pos n hpos
    refine (Nat.mod_eq_of_lt ?_).trans (by push_cast; rfl)
    have : ((2 ^ w : Nat) : Int) = 2 ^ w := by push_cast; rfl
    omega
  have hdouble : (2 : Int) ^ w = 2 * 2 ^ (w - 1) := by
    conv_lhs => rw [← Nat.succ_pred_eq_of_pos hw, pow_succ']
    rfl
  have hnat : ((2 ^ w : Nat) : Int) = 2 * 2 ^ (w - 1) := by push_cast; exact hdouble
  rw [sext_eq_toInt hw, hofInt, BitVec.toInt_ofInt]
  exact Int.bmod_eq_of_le (by rw [hnat]; omega) (by rw [hnat]; omega)

/-- A number of an integer format's range is what its bits spell. -/
theorem intOf_lowBits {f : Fmt} (hf : fmtIsInt f = true) {n : Int} (hlo : (intRange f).1 ≤ n) (hhi : n ≤ (intRange f).2) :
    intOf f (lowBits (fmtBits f) n) = n := by
  cases f with
  | int4 => exact sext_lowBits (w := 4) (by norm_num) hlo (Int.lt_add_one_of_le hhi)
  | int8 => exact sext_lowBits (w := 8) (by norm_num) hlo (Int.lt_add_one_of_le hhi)
  | int16 => exact sext_lowBits (w := 16) (by norm_num) hlo (Int.lt_add_one_of_le hhi)
  | int32 => exact sext_lowBits (w := 32) (by norm_num) hlo (Int.lt_add_one_of_le hhi)
  | uint8 =>
    simp only [intRange] at hlo hhi
    simp only [intOf, lowBits, fmtBits]
    norm_num
    omega
  | _ => exact absurd hf (by decide)

theorem intRange_ordered (f : Fmt) : (intRange f).1 ≤ (intRange f).2 := by cases f <;> decide

theorem narrowingSaturates : Claim.NarrowingSaturates := by
  intro f z e m k hf hz
  dsimp only
  rw [narrow_int hf]
  have hord := intRange_ordered f
  generalize (if f = .uint8 then (z : Int) else 0) + roundAway m (k - e) 0 = n
  split
  case isTrue h =>
    rw [intOf_lowBits hf le_rfl hord]
    exact ⟨le_rfl, hord, iff_of_true rfl (.inl h), fun hc => Bool.noConfusion hc⟩
  case isFalse h =>
    split
    case isTrue h' =>
      rw [intOf_lowBits hf hord le_rfl]
      exact ⟨hord, le_rfl, iff_of_true rfl (.inr h'), fun hc => Bool.noConfusion hc⟩
    case isFalse h' =>
      rw [intOf_lowBits hf (not_lt.mp h) (not_lt.mp h')]
      exact ⟨not_lt.mp h, not_lt.mp h', iff_of_false Bool.false_ne_true (by tauto), fun _ => rfl⟩

/-! ### Generated exponents (R101) -/

/-- The search from −128 up: the first exponent that fits, or 127. -/
theorem genExp_cases (f : Fmt) (z : Nat) (row : List Val) :
    (∃ k : Nat, k < 256 ∧ genExp f z row = (k : Int) - 128 ∧ row.all (expFits f z ((k : Int) - 128)) = true ∧ ∀ j : Nat, j < k → row.all (expFits f z ((j : Int) - 128)) = false)
    ∨ (genExp f z row = 127 ∧ ∀ j : Nat, j < 256 → row.all (expFits f z ((j : Int) - 128)) = false) := by
  rw [genExp, List.find?_map]
  cases h : (List.range 256).find? ((fun e => row.all (expFits f z e)) ∘ fun k : Nat => (k : Int) - 128) with
  | some k =>
    obtain ⟨hk, hp, hq⟩ := find?_range_eq_some.mp h
    exact .inl ⟨k, hk, rfl, hp, hq⟩
  | none => exact .inr ⟨rfl, fun j hj => by simpa using List.find?_eq_none.mp h j (List.mem_range.mpr hj)⟩

theorem generatedExponentIsSmallest : Claim.GeneratedExponentIsSmallest := by
  intro f z row
  have hnat {e : Int} (h : -128 ≤ e) : ∃ j : Nat, e = (j : Int) - 128 := ⟨(e + 128).toNat, by omega⟩
  rcases genExp_cases f z row with ⟨k, hk, hg, hfit, hno⟩ | ⟨hg, hno⟩
  · rw [hg]
    refine ⟨by omega, by omega, fun e he hlt => ?_, fun _ => hfit⟩
    obtain ⟨j, rfl⟩ := hnat he
    exact hno j (by omega)
  · rw [hg]
    refine ⟨by norm_num, le_rfl, fun e he hlt => ?_, fun h => absurd h (lt_irrefl _)⟩
    obtain ⟨j, rfl⟩ := hnat he
    exact hno j (by omega)

/-! ### PM adds (R85) -/

theorem pmInt_above {e : PmEntry} {c : Int} (p : Bool) (h : 2147483647 < e.bits.toInt + c) :
    (pmInt e false c p).bits.toInt = 2147483647 ∧ (pmInt e false c p).sat = true := by
  have hs : satInt (e.bits.toInt + c) = (2147483647, true) := by rw [satInt, if_neg (by omega), if_pos h]
  simp only [pmInt, Bool.false_eq_true, if_false, hs]
  exact ⟨toInt_ofInt_of_inRange (by norm_num) le_rfl, rfl⟩

theorem pmInt_below {e : PmEntry} {c : Int} (p : Bool) (h : e.bits.toInt + c < -2147483648) :
    (pmInt e false c p).bits.toInt = -2147483648 ∧ (pmInt e false c p).sat = true := by
  have hs : satInt (e.bits.toInt + c) = (-2147483648, true) := by rw [satInt, if_pos h]
  simp only [pmInt, Bool.false_eq_true, if_false, hs]
  exact ⟨toInt_ofInt_of_inRange le_rfl (by norm_num), rfl⟩

theorem pmAddsSaturate : Claim.PmAddsSaturate := by
  intro e c p
  refine ⟨fun hlo hhi => ?_, pmInt_above p, pmInt_below p, Bool.or_comm .., fun hlo hhi => ?_⟩
  · obtain ⟨h1, h2, -⟩ := pmInt_of_inRange (e := e) (first := false) (p := p) rfl hlo hhi
    exact ⟨h1, h2⟩
  · obtain ⟨h1, h2, h3⟩ := pmInt_of_inRange (e := e) (first := true) (p := p) rfl hlo hhi
    exact ⟨h1, h2, h3.trans (Bool.or_false p)⟩

/-- Settles O35: rounding to nearest with ties away, saturation, the smallest exponent that fits, and the clamp of PM adds. -/
theorem narrowingRoundsAndSaturates : Obligations.NarrowingRoundsAndSaturates :=
  ⟨roundingIsNearestAway, narrowingSaturates, generatedExponentIsSmallest, pmAddsSaturate⟩

end Sys2Proof.Proofs


/-! ## Release and drain of regions (O36) -/

namespace Sys2Proof.Proofs
open Sys2Proof.Machine

/-! ### Release (R61) -/

/-- The rows of a part of a unit. -/
abbrev partRows (d : Dev) (n : Nat) (o : Op) (t : Nat) (p : List Nat × List Nat) : List UnitRow := regionRows d n o t p

/-- A tile is granted and not yet claimed. -/
abbrev tileHeld (o : Op) (t : Nat) : Bool := o.ctr.isSome && o.tiles.contains t

/-- The region of unit t, whose first part is p, may be released. -/
def MayRelease (d : Dev) (n : Nat) (o : Op) (t : Nat) (p : List Nat × List Nat) : Prop :=
  o.issued = true ∧ o.done = false ∧ isMatrix o = true ∧ (∀ r ∈ (coreOf d n).released, r.unit ≠ unitOf o t) ∧ unitQuiet (coreOf d n) (unitOf o t) = true
  ∧ regionFull d n o (unitOf o t) (pmRowsIn (regionRows d n o t p)) = true ∧ summed (coreOf d n) o (regionRows d n o t p) = true
  ∧ (unitPasses d n o t ≠ 0 ∨ o.ctr = none ∨ tileHeld o t = true)

/-- A unit's PM, cleared and complete where it has no pass to run. -/
def unitFilled (d : Dev) (n : Nat) (o : Op) (t : Nat) (p : List Nat × List Nat) : Dev :=
  if unitPasses d n o t = 0 then
    completeRows (putPm d n (((regionRows d n o t p).flatMap (·.cells)).map fun x => (x.key, {}))) n o (unitOf o t) (pmRowsIn (regionRows d n o t p))
  else d

/-- The release of a region that may be released. -/
def regionGoes (d : Dev) (n i : Nat) (o : Op) (t : Nat) (p : List Nat × List Nat) (ps : List (List Nat × List Nat)) : Dev :=
  if ps.isEmpty then updCore (retryPassed (unitFilled d n o t p) n (unitOf o t)) n fun c => { c with
    released := c.released ++ [{ unit := unitOf o t, rows := (regionRows d n o t p).map (·.m), keys := pmRowsIn (regionRows d n o t p) }] }
  else if tileHeld o t then retryPassed (unitFilled d n o t p) n (unitOf o t)
  else if vuFree (coreOf d n) o then
    settleShared (updCore (drainUnit (retryPassed (unitFilled d n o t p) n (unitOf o t)) n i o t p ps) n fun c => dropRegion c (unitOf o t)) n i
  else unitFilled d n o t p

/-- What keeps a region from its release, as the model tests it. -/
def releaseBlocked (d : Dev) (n : Nat) (o : Op) (t : Nat) (p : List Nat × List Nat) : Bool :=
  !(o.issued && !o.done && isMatrix o) || ((coreOf d n).released.any fun r => r.unit == unitOf o t) || !unitQuiet (coreOf d n) (unitOf o t)
    || !regionFull d n o (unitOf o t) (pmRowsIn (regionRows d n o t p)) || !summed (coreOf d n) o (regionRows d n o t p)
    || (unitPasses d n o t == 0 && o.ctr.isSome && !tileHeld o t)

theorem releaseBlocked_eq_false (d : Dev) (n : Nat) (o : Op) (t : Nat) (p : List Nat × List Nat) : releaseBlocked d n o t p = false ↔ MayRelease d n o t p := by
  simp only [releaseBlocked, MayRelease, Bool.or_eq_false_iff, Bool.not_eq_false', Bool.and_eq_true, Bool.not_eq_true', Bool.and_eq_false_iff, List.any_eq_false,
    beq_iff_eq, beq_eq_false_iff_ne, Option.isSome_eq_false_iff, Option.isNone_iff_eq_none, and_assoc, or_assoc]

section
variable {d : Dev} {n i : Nat}

theorem regionRelease_none (t : Nat) (h : (coreOf d n).ops[i]? = none) : regionRelease d n i t = d := by
  unfold regionRelease
  dsimp only
  rw [h]

variable {o : Op} (ho : (coreOf d n).ops[i]? = some o)
include ho

theorem regionRelease_noParts {t : Nat} (h : unitParts d n o t = []) : regionRelease d n i t = d := by
  unfold regionRelease
  dsimp only
  rw [ho]
  dsimp only
  rw [h]

variable {t : Nat} {p : List Nat × List Nat} {ps : List (List Nat × List Nat)} (hp : unitParts d n o t = p :: ps)
include hp

theorem regionRelease_eq : regionRelease d n i t = if releaseBlocked d n o t p then d else regionGoes d n i o t p ps := by
  unfold regionRelease
  dsimp only
  rw [ho]
  dsimp only
  rw [hp]
  rfl

theorem regionRelease_held (h : ¬ MayRelease d n o t p) : regionRelease d n i t = d := by
  rw [regionRelease_eq ho hp, if_pos (by rwa [← releaseBlocked_eq_false, Bool.not_eq_false] at h)]

theorem regionRelease_goes (h : MayRelease d n o t p) : regionRelease d n i t = regionGoes d n i o t p ps := by
  rw [regionRelease_eq ho hp, if_neg (by rw [(releaseBlocked_eq_false ..).mpr h]; exact Bool.false_ne_true)]

end

/-! ### Drain (R60, R97) -/

/-- The PM rows of a row that no row drained before has had compared. -/
def drainFresh (d : Dev) (o : Op) (rel : Release) (r : UnitRow) : List Nat :=
  if wCheckMode (wcOf d o.wc) = 0 then (pmRowsIn [r]).filter fun k => !rel.compared.contains k else []

/-- The first PM row of those that fails the drain check. -/
def drainFails (c : Core) (o : Op) (u : Option Upset) (fresh : List Nat) : Option Nat :=
  fresh.find? fun k => !drainOk c (unitFloat o) k (drainEntries c u k)

/-- A row drains: its PM rows pass, and it is rescaled, narrowed and written. -/
def rowDrains (d e : Dev) (n i : Nat) (o : Op) (t : Nat) (rows : List UnitRow) (r : UnitRow) (u : Option Upset) (fresh : List Nat) : Dev :=
  settleShared (updCore (drainUnitRow (bump e (0x2210 + n) 8 4 (uncheckedRows (coreOf d n) fresh)) n i o t r u) n
    fun c => rowDrained c o (unitOf o t) rows r fresh) n i

section
variable {d : Dev} {n i : Nat}

theorem drainEntryCmd_none (t m : Nat) (u : Option Upset) (h : (coreOf d n).ops[i]? = none) : drainEntryCmd d n i t m u = d := by
  unfold drainEntryCmd
  dsimp only
  rw [h]

variable {o : Op} (ho : (coreOf d n).ops[i]? = some o) {t m : Nat}
include ho

theorem drainEntryCmd_noRow (u : Option Upset)
    (h : unitParts d n o t = [] ∨ ∃ p ps, unitParts d n o t = p :: ps ∧ (regionRows d n o t p).find? (fun r => r.m == m) = none) :
    drainEntryCmd d n i t m u = d := by
  unfold drainEntryCmd
  dsimp only
  rw [ho]
  dsimp only
  rcases h with h | ⟨p, ps, h, hr⟩
  · rw [h]
    cases (coreOf d n).released.find? fun r => r.unit == unitOf o t && r.rows.contains m <;> rfl
  · rw [h]
    cases (coreOf d n).released.find? fun r => r.unit == unitOf o t && r.rows.contains m with
    | none => rfl
    | some rel =>
      dsimp only
      rw [hr]

theorem drainEntryCmd_unreleased (u : Option Upset) (h : ∀ r ∈ (coreOf d n).released, r.unit ≠ unitOf o t ∨ r.rows.contains m = false) :
    drainEntryCmd d n i t m u = d := by
  have hnone : (coreOf d n).released.find? (fun r => r.unit == unitOf o t && r.rows.contains m) = none :=
    List.find?_eq_none.mpr fun r hr => by
      rw [Bool.and_eq_true, beq_iff_eq]
      rintro ⟨h1, h2⟩
      rcases h r hr with h | h
      · exact h h1
      · rw [h] at h2
        exact Bool.noConfusion h2
  unfold drainEntryCmd
  dsimp only
  rw [ho]
  dsimp only
  rw [hnone]

theorem drainEntryCmd_waits (u : Option Upset) (h : o.issued = false ∨ o.done = true ∨ tileHeld o t = true ∨ vuFree (coreOf d n) o = false) :
    drainEntryCmd d n i t m u = d := by
  have hc : (!(o.issued && !o.done) || (o.ctr.isSome && o.tiles.contains t) || !vuFree (coreOf d n) o) = true := by
    rcases h with h | h | h | h <;> simp [h]
    exact .inl (.inr (by simpa using h))
  unfold drainEntryCmd
  dsimp only
  rw [ho]
  dsimp only
  split
  · split
    · exact if_pos hc
    · rfl
  · rfl

theorem drainEntryCmd_eq {rel : Release} {p : List Nat × List Nat} {ps : List (List Nat × List Nat)} {r : UnitRow} (u : Option Upset)
    (hrel : (coreOf d n).released.find? (fun r => r.unit == unitOf o t && r.rows.contains m) = some rel) (hp : unitParts d n o t = p :: ps)
    (hr : (regionRows d n o t p).find? (fun r => r.m == m) = some r) (h1 : o.issued = true) (h2 : o.done = false) (h3 : tileHeld o t = false)
    (h4 : vuFree (coreOf d n) o = true) :
    drainEntryCmd d n i t m u = match drainFails (coreOf d n) o u (drainFresh d o rel r) with
      | some k => mismatch (readPm d n (r.cells.map (·.key))) n (k / 1024) 2 0 0 (k % 1024) (unitOf o t)
      | none => rowDrains d (readPm d n (r.cells.map (·.key))) n i o t (regionRows d n o t p) r u (drainFresh d o rel r) := by
  have hc : (!(o.issued && !o.done) || (o.ctr.isSome && o.tiles.contains t) || !vuFree (coreOf d n) o) = false := by
    rw [show (o.ctr.isSome && o.tiles.contains t) = false from h3, h1, h2, h4]
    rfl
  have hf : (if (wCheckMode (wcOf d o.wc) == 0) = true then (pmRowsIn [r]).filter fun k => !rel.compared.contains k else []) = drainFresh d o rel r := by
    simp only [drainFresh, beq_iff_eq]
  unfold drainEntryCmd
  dsimp only
  rw [ho]
  dsimp only
  rw [hrel, hp]
  dsimp only
  rw [hr]
  dsimp only
  rw [if_neg (by rw [hc]; exact Bool.false_ne_true), hf]
  rfl

end

/-! ### Outlier sums (R105, R106) -/

theorem sput_fst (t : Sparse W32) (k : Nat) (v : W32) (j : Nat) : (sput t k v).any (fun z => z.1 == j) = (k == j || t.any fun z => z.1 == j) := by
  induction t with
  | nil => rfl
  | cons x t ih =>
    obtain ⟨i, w⟩ := x
    rw [sput]
    split
    case isTrue h => simp [h]
    case isFalse h =>
      split
      · rfl
      · rw [List.any_cons, ih, List.any_cons, Bool.or_left_comm]

/-- Every key of a list of new entries is in the table afterwards. -/
theorem foldl_sput_any {l : List (Nat × W32)} {x : Nat × W32} (hx : x ∈ l) (t : Sparse W32) :
    (l.foldl (fun s v => sput s v.1 v.2) t).any (fun z => z.1 == x.1) = true :=
  foldl_reaches (P := fun (x : Nat × W32) (s : Sparse W32) => s.any (fun z => z.1 == x.1) = true)
    (fun s v => by rw [sput_fst, beq_self_eq_true, Bool.true_or]) (fun s v y h => by rw [sput_fst, h, Bool.or_true]) l t x hx

/-- The sums formed for some rows of a unit. -/
def osumsOf (d : Dev) (n : Nat) (o : Op) (t : Nat) (rs : List UnitRow) : List (Nat × W32) :=
  rs.flatMap fun r => r.cells.map fun x => (osumKey o r.no x.ch, toF32 (osumOf d n o t r x.ch))

/-- The core's table with those sums, counted. -/
def osumsFormed (d : Dev) (n : Nat) (o : Op) (t : Nat) (rs : List UnitRow) : Dev :=
  updCore (bump (bump d (0x2230 + n) 6 8 1) (0x2230 + n) 3 4 ((rs.map (osumInvalid d n o t)).sum)) n fun c =>
    { c with osums := (osumsOf d n o t rs).foldl (fun s v => sput s v.1 v.2) c.osums }

/-- The rows of a unit that are row m of a part. -/
abbrev osumRows (d : Dev) (n : Nat) (o : Op) (t m : Nat) : List UnitRow := ((unitParts d n o t).flatMap (regionRows d n o t)).filter fun r => r.m == m

section
variable {d : Dev} {n i : Nat}

theorem outlierSums_none (t m : Nat) (h : (coreOf d n).ops[i]? = none) : outlierSums d n i t m = d := by
  unfold outlierSums
  dsimp only
  rw [h]

variable {o : Op} (ho : (coreOf d n).ops[i]? = some o) {t m : Nat}
include ho

theorem outlierSums_eq (h : osumRows d n o t m ≠ []) : outlierSums d n i t m =
    if o.issued && !o.done && isMatrix o && vuFree (coreOf d n) o && !(opList o (rDescA o.word)).isEmpty then osumsFormed d n o t (osumRows d n o t m) else d := by
  obtain ⟨r, rs, hr⟩ := List.exists_cons_of_ne_nil h
  unfold outlierSums
  dsimp only
  rw [ho]
  dsimp only
  rw [show ((unitParts d n o t).flatMap (regionRows d n o t)).filter (fun r => r.m == m) = r :: rs from hr, hr]
  rfl

theorem outlierSums_idle (h : osumRows d n o t m = [] ∨ o.issued = false ∨ o.done = true ∨ isMatrix o = false ∨ vuFree (coreOf d n) o = false
    ∨ (opList o (rDescA o.word)).isEmpty = true) : outlierSums d n i t m = d := by
  by_cases hr : osumRows d n o t m = []
  · unfold outlierSums
    dsimp only
    rw [ho]
    dsimp only
    rw [show ((unitParts d n o t).flatMap (regionRows d n o t)).filter (fun r => r.m == m) = [] from hr]
  · rw [outlierSums_eq ho hr]
    refine if_neg ?_
    rcases h.resolve_left hr with h | h | h | h | h <;> simp [h]

theorem outlierSums_forms (hr : osumRows d n o t m ≠ []) (h1 : o.issued = true) (h2 : o.done = false) (h3 : isMatrix o = true) (h4 : vuFree (coreOf d n) o = true)
    (h5 : (opList o (rDescA o.word)).isEmpty = false) : outlierSums d n i t m = osumsFormed d n o t (osumRows d n o t m) := by
  rw [outlierSums_eq ho hr, if_pos (by rw [h1, h2, h3, h4, h5]; rfl)]

end

theorem osumsFormed_spec (d : Dev) (n : Nat) (o : Op) (t : Nat) (rs : List UnitRow) :
    (coreOf (osumsFormed d n o t rs) n).pm = (coreOf d n).pm
    ∧ (∀ r ∈ rs, ∀ y ∈ r.cells, (coreOf (osumsFormed d n o t rs) n).osums.any (fun z => z.1 == osumKey o r.no y.ch) = true)
    ∧ (∀ r y, rs = [r] → r.cells = [y] → sget (fun _ => 0#32) (coreOf (osumsFormed d n o t rs) n).osums (osumKey o r.no y.ch) = toF32 (osumOf d n o t r y.ch))
    ∧ cnt (osumsFormed d n o t rs) (0x2230 + n) 6 = (cnt d (0x2230 + n) 6 + 1) % 2 ^ 64 := by
  rw [osumsFormed, coreOf_updCore]
  refine ⟨rfl, fun r hr y hy => ?_, fun r y hrs hc => ?_, ?_⟩
  · exact foldl_sput_any (x := (osumKey o r.no y.ch, toF32 (osumOf d n o t r y.ch))) (List.mem_flatMap.mpr ⟨r, hr, List.mem_map.mpr ⟨y, hy, rfl⟩⟩) _
  · rw [hrs, osumsOf, List.flatMap_singleton, hc]
    exact sget_sput_same ..
  · rw [cnt_updCore, cnt_bump_ne _ _ _ _ _ (by unfold odKey; omega), cnt_bump]
    rfl

/-! ### Calibration windows (R108) -/

/-- A slot's window, closed: both counts cleared and added to the core's. -/
def calibCleared (d : Dev) (n k : Nat) : Dev :=
  updCore (bump (bump d (0x2230 + n) 1 8 (satSlot (coreOf d n) k).narrowed) (0x2230 + n) 2 8 (satSlot (coreOf d n) k).clipped) n
    fun c => setSat c k { satSlot (coreOf d n) k with narrowed := 0, clipped := 0 }

/-- Whether the clipped share passes the threshold, with its event enabled. -/
def calibHigh (d : Dev) (n k : Nat) : Bool :=
  decide (setting d 0x2220 1 * (satSlot (coreOf d n) k).narrowed < (satSlot (coreOf d n) k).clipped * 65536) && setting d 0x2220 3 == 1

/-- A window closes, and where its share is high it is counted, with its event. -/
theorem closeCalib_cases (d : Dev) (n k : Nat) :
    (calibHigh d n k = false ∧ closeCalib d n k = calibCleared d n k)
    ∨ ∃ e, (closeCalib d n k = e) ∧ (∀ i sub, cnt e i sub = cnt (bump (calibCleared d n k) (0x2230 + n) 5 4 1) i sub)
        ∧ coreOf e n = coreOf (calibCleared d n k) n := by
  unfold closeCalib
  dsimp only
  split
  case isTrue h =>
    refine .inr ⟨_, rfl, ?_⟩
    split
    · exact ⟨fun i sub => cnt_postEventWc .., coreOf_postEventWc ..⟩
    · exact ⟨fun i sub => cnt_postEvent .., coreOf_postEvent ..⟩
  case isFalse h => exact .inl ⟨Bool.eq_false_of_not_eq_true h, rfl⟩

theorem closeCalib_spec (d : Dev) (n k : Nat) :
    (satSlot (coreOf (closeCalib d n k) n) k).narrowed = 0 ∧ (satSlot (coreOf (closeCalib d n k) n) k).clipped = 0
    ∧ cnt (closeCalib d n k) (0x2230 + n) 1 = (cnt d (0x2230 + n) 1 + (satSlot (coreOf d n) k).narrowed) % 2 ^ 64
    ∧ cnt (closeCalib d n k) (0x2230 + n) 2 = (cnt d (0x2230 + n) 2 + (satSlot (coreOf d n) k).clipped) % 2 ^ 64
    ∧ (setting d 0x2220 3 = 1 → setting d 0x2220 1 * (satSlot (coreOf d n) k).narrowed < (satSlot (coreOf d n) k).clipped * 65536 →
        cnt (closeCalib d n k) (0x2230 + n) 5 = (cnt d (0x2230 + n) 5 + 1) % 2 ^ 32) := by
  have hslot : satSlot (coreOf (calibCleared d n k) n) k = { satSlot (coreOf d n) k with narrowed := 0, clipped := 0 } := by
    rw [calibCleared, coreOf_updCore]
    exact sget_sset ..
  have hne {sub sub' : Nat} (h1 : sub < 256) (h2 : sub' < 256) (h : sub ≠ sub') : odKey (0x2230 + n) sub ≠ odKey (0x2230 + n) sub' := by
    unfold odKey
    omega
  have h1 : cnt (calibCleared d n k) (0x2230 + n) 1 = (cnt d (0x2230 + n) 1 + (satSlot (coreOf d n) k).narrowed) % 2 ^ 64 := by
    rw [calibCleared, cnt_updCore, cnt_bump_ne _ _ _ _ _ (hne (by norm_num) (by norm_num) (by norm_num)), cnt_bump]
    rfl
  have h2 : cnt (calibCleared d n k) (0x2230 + n) 2 = (cnt d (0x2230 + n) 2 + (satSlot (coreOf d n) k).clipped) % 2 ^ 64 := by
    rw [calibCleared, cnt_updCore, cnt_bump, cnt_bump_ne _ _ _ _ _ (hne (by norm_num) (by norm_num) (by norm_num))]
    rfl
  have h5 : cnt (calibCleared d n k) (0x2230 + n) 5 = cnt d (0x2230 + n) 5 := by
    rw [calibCleared, cnt_updCore, cnt_bump_ne _ _ _ _ _ (hne (by norm_num) (by norm_num) (by norm_num)),
      cnt_bump_ne _ _ _ _ _ (hne (by norm_num) (by norm_num) (by norm_num))]
  rcases closeCalib_cases d n k with ⟨hlow, he⟩ | ⟨e, he, hcnt, hcore⟩
  · rw [he, hslot]
    refine ⟨rfl, rfl, h1, h2, fun hs hlt => ?_⟩
    simp [calibHigh, hs, hlt] at hlow
  · rw [he, hcore, hslot, hcnt, hcnt, hcnt, cnt_bump_ne _ _ _ _ _ (hne (by norm_num) (by norm_num) (by norm_num)),
      cnt_bump_ne _ _ _ _ _ (hne (by norm_num) (by norm_num) (by norm_num)), cnt_bump, h5]
    exact ⟨rfl, rfl, h1, h2, fun _ _ => rfl⟩

/-- Settles O36: regions are released and drained, outlier sums formed, and calibration windows closed. -/
theorem regionsReleaseAndDrain : Obligations.RegionsReleaseAndDrain := by
  intro s n ha
  have hx (c : Instr) (f : Dev → Dev) (hc : exec c s = nextDev s f) : exec c s = .next (onDev s f) := hc.trans (nextDev_awake ha)
  have hrel (i : Fin 256) (t : BitVec 16) := hx (.regionRelease n i t) (fun d => regionRelease d n i t.toNat) rfl
  have hdrain (i : Fin 256) (t : BitVec 16) (m : W32) (u : Option Upset) := hx (.drainEntry n i t m u) (fun d => drainEntryCmd d n i t.toNat m.toNat u) rfl
  have hsum (i : Fin 256) (t : BitVec 16) (m : W32) := hx (.outlierSum n i (t, m)) (fun d => outlierSums d n i t.toNat m.toNat) rfl
  have hcal (k : Fin 16) := hx (.calibWindowClose n k) (fun d => calibClose d n k) rfl
  dsimp only
  refine ⟨fun i ho t m u => ⟨?_, ?_, ?_⟩, fun i o t ho => ⟨fun hp => ?_, fun p ps hp hm => ?_, fun p ps hp hm => ⟨fun h => ?_, fun h hh => ?_, fun h hh hv => ?_, fun h hh hv => ?_⟩,
    fun m v h => ?_, fun m v h => ?_, fun m v rel p ps r hfind hp hrow h1 h2 h3 h4 => ⟨fun hok hlat => ?_, fun k hk => ?_⟩,
    fun m => ⟨fun h => ?_, fun hr h1 h2 h3 h4 h5 => ?_⟩⟩, fun k h => ?_, fun k h => ?_⟩
  · rw [hrel, onDev_eq_self (regionRelease_none _ ho)]
  · rw [hdrain, onDev_eq_self (drainEntryCmd_none _ _ _ ho)]
  · rw [hsum, onDev_eq_self (outlierSums_none _ _ ho)]
  · rw [hrel, onDev_eq_self (regionRelease_noParts ho hp)]
  · rw [hrel, onDev_eq_self (regionRelease_held ho hp hm)]
  · rw [hrel, onDev, regionRelease_goes ho hp hm, regionGoes, if_pos (List.isEmpty_iff.mpr h)]
    rfl
  · rw [hrel, onDev, regionRelease_goes ho hp hm, regionGoes, if_neg (by simp [h]), if_pos hh]
    rfl
  · rw [hrel, onDev, regionRelease_goes ho hp hm, regionGoes, if_neg (by simp [h]), if_neg (by rw [tileHeld, hh]; exact Bool.false_ne_true), if_pos hv]
    rfl
  · rw [hrel, onDev, regionRelease_goes ho hp hm, regionGoes, if_neg (by simp [h]), if_neg (by rw [tileHeld, hh]; exact Bool.false_ne_true), if_neg (by simp [hv])]
    rfl
  · rw [hdrain, onDev_eq_self (drainEntryCmd_noRow ho v h)]
  · rw [hdrain]
    rcases h with h | h
    · rw [onDev_eq_self (drainEntryCmd_unreleased ho v h)]
    · rw [onDev_eq_self (drainEntryCmd_waits ho v h)]
  · have hno : drainFails (coreOf s.dev n) o v (drainFresh s.dev o rel r) = none := List.find?_eq_none.mpr fun k hk => by rw [hok k hk]; decide
    have hread : readPm s.dev n (r.cells.map (·.key)) = s.dev := if_pos (List.isEmpty_iff.mpr hlat)
    rw [hdrain, onDev, drainEntryCmd_eq ho v hfind hp hrow h1 h2 h3 h4, hno, hread]
    rfl
  · have hyes : drainFails (coreOf s.dev n) o v (drainFresh s.dev o rel r) = some k := hk
    rw [hdrain, onDev, drainEntryCmd_eq ho v hfind hp hrow h1 h2 h3 h4, hyes]
  · rw [hsum, onDev_eq_self (outlierSums_idle ho h)]
  · have hform := outlierSums_forms ho (m := m.toNat) (t := t.toNat) hr h1 h2 h3 h4 h5
    obtain ⟨hpm, hkeys, hone, hcnt⟩ := osumsFormed_spec s.dev n o t.toNat (osumRows s.dev n o t.toNat m.toNat)
    rw [hsum, onDev, hform]
    exact ⟨_, rfl, rfl, rfl, rfl, hpm, hkeys, hone, hcnt⟩
  · rw [hcal, onDev_eq_self]
    exact if_neg (not_le.mpr h)
  · rw [hcal, onDev, calibClose, if_pos h]
    exact ⟨_, rfl, closeCalib_spec s.dev n k⟩

end Sys2Proof.Proofs


/-! ## O39: what retries, retirement and the disabling of a core leave of it -/

namespace Sys2Proof.Proofs
open Sys2Proof.Machine

/-! ### Steps that leave the other blocks' cores -/

theorem writeThrough_cores (d : Dev) (w : Nat) : (writeThrough d w).cores = d.cores :=
  (updWc_cores ..).trans ((memWrite_cores ..).trans (memRead_cores ..))

theorem loadEntry_cores (d : Dev) (w v : Nat) : (loadEntry d w v).cores = d.cores :=
  (foldl_keeps (fun e : Dev => e.cores) _ (fun _ _ _ => updRing_cores ..) _).trans (updWc_cores ..)

theorem faultWc_cores (d : Dev) (w c : Nat) : (faultWc d w c).cores = d.cores := (postEventWc_cores ..).trans (updWc_cores ..)

theorem fillEntry_cores (d : Dev) (w : Nat) : (fillEntry d w).cores = d.cores := by
  have hr : (bump (memRead d (some agCp) srcCp (entryAddr d w) 256).1 0x2602 4 4 1).cores = d.cores := (bump_cores ..).trans (memRead_cores ..)
  unfold fillEntry
  dsimp only
  split
  · exact (faultWc_cores ..).trans hr
  · split
    · exact (faultWc_cores ..).trans ((loadEntry_cores ..).trans hr)
    · exact (loadEntry_cores ..).trans hr

theorem touchWc_cores (d : Dev) (w : Nat) : (touchWc d w).cores = d.cores := (updWc_cores ..).trans (updCp_cores ..)

theorem makeRoom_cores (d : Dev) : (makeRoom d).1.cores = d.cores := by
  unfold makeRoom
  split
  · rfl
  · split
    · exact (updWc_cores ..).trans (writeThrough_cores ..)
    · exact bump_cores ..

theorem ensureCached_cores (d : Dev) (w : Nat) : (ensureCached d w).1.cores = d.cores := by
  unfold ensureCached
  dsimp only
  split
  · exact touchWc_cores ..
  · split
    · exact (touchWc_cores ..).trans ((fillEntry_cores ..).trans (makeRoom_cores d))
    · exact makeRoom_cores d

theorem fillForCompletion_cores (d : Dev) (w : Nat) : (fillForCompletion d w).cores = d.cores := by
  unfold fillForCompletion
  split
  · rfl
  · exact ensureCached_cores d w

theorem writeCompletion_cores (d : Dev) (w tag opcode epoch kind ring status detail flags pos : Nat) :
    (writeCompletion d w tag opcode epoch kind ring status detail flags pos).cores = d.cores :=
  (raiseIrq_cores ..).trans ((updWc_cores ..).trans (memWrite_cores ..))

theorem recordDone_cores (d : Dev) (w : Nat) (word : Line) (epoch ring : Nat) (pos : W32) (status detail flags : Nat) :
    (recordDone d w word epoch ring pos status detail flags).cores = d.cores := by
  unfold recordDone
  dsimp only
  split <;> split <;> simp only [postEventWc_cores, writeCompletion_cores, fillForCompletion_cores]

theorem poolSettle_cores (d : Dev) : (poolSettle d).cores = d.cores := by
  unfold poolSettle
  split
  · exact setCnt_cores ..
  · rfl

theorem releaseSettle_cores (d : Dev) (w : Nat) : (releaseSettle d w).cores = d.cores := by
  unfold releaseSettle
  split
  · refine (writeCompletion_cores ..).trans ((updWc_cores ..).trans ?_)
    refine (foldl_keeps (fun e : Dev => e.cores) _ (fun e x _ => (updWc_cores ..).trans (updRing_cores ..)) _).trans ?_
    exact foldl_keeps (fun e : Dev => e.cores) _ (fun e x _ => (setCnt_cores ..).trans (setCtr_cores ..)) _
  · rfl

theorem leaveFlight_cores (d : Dev) (w : Nat) : (leaveFlight d w).cores = d.cores :=
  (releaseSettle_cores ..).trans ((poolSettle_cores ..).trans ((updWc_cores ..).trans (updWc_cores ..)))

theorem retireShared_cores (d : Dev) (s : Shared) (o : Op) : (retireShared d s o).cores = d.cores := by
  unfold retireShared
  dsimp only
  split
  · split
    · exact (leaveFlight_cores ..).trans ((recordDone_cores ..).trans ((setCtr_cores ..).trans (updCp_cores ..)))
    · exact (leaveFlight_cores ..).trans ((recordDone_cores ..).trans (updCp_cores ..))
  · exact updCp_cores ..

theorem returnTurns_cores (d : Dev) (n : Nat) : (returnTurns d n).cores = d.cores := by
  unfold returnTurns
  split
  · rfl
  · refine foldl_keeps (fun e : Dev => e.cores) _ (fun e x _ => ?_) _
    split
    · exact updWc_cores ..
    · rfl

theorem writeSeqWords_cores (d : Dev) (g source : Nat) (o : Op) : (writeSeqWords d g source o).cores = d.cores := by
  unfold writeSeqWords
  split
  · rfl
  · exact foldl_keeps (fun e : Dev => e.cores) _ (fun e x _ => memWrite_cores ..) _

/-! ### A retirement leaves the arrays and the disable mark -/

/-- What of a core the end of an instruction leaves. -/
def standing (c : Core) : Sparse Arr × Bool × Nat := (c.arrays, c.disabled, c.disableCause)

/-- A step that leaves the arrays and the disable mark of every core, and its list of retries where that is empty. -/
structure Stands (d e : Dev) : Prop where
  core : ∀ n, standing (coreOf e n) = standing (coreOf d n)
  retry : ∀ n, (coreOf d n).retry = [] → (coreOf e n).retry = []

namespace Stands

variable {d e f : Dev}

theorem refl (d : Dev) : Stands d d := ⟨fun _ => rfl, fun _ h => h⟩

theorem trans (h : Stands d e) (k : Stands e f) : Stands d f :=
  ⟨fun n => (k.core n).trans (h.core n), fun n hn => k.retry n (h.retry n hn)⟩

theorem of_cores (h : e.cores = d.cores) : Stands d e :=
  ⟨fun n => by rw [coreOf, coreOf, h], fun n hn => by rw [coreOf, h]; exact hn⟩

theorem of_kept (h : KeepsCores d e) : Stands d e :=
  ⟨fun n => (congrArg standing (h.core n) :), fun n hn => (congrArg Core.retry (h.core n)).trans hn⟩

theorem ite {p : Prop} [Decidable p] (he : Stands d e) (hf : Stands d f) : Stands d (if p then e else f) := by
  split
  · exact he
  · exact hf

theorem foldl {β : Type} {g : Dev → β → Dev} (l : List β) (h : ∀ d : Dev, ∀ x ∈ l, Stands d (g d x)) (d : Dev) : Stands d (l.foldl g d) := by
  induction l generalizing d with
  | nil => exact refl d
  | cons x xs ih => exact (h d x (by simp)).trans (ih (fun d y hy => h d y (by simp [hy])) _)

theorem updCore (d : Dev) (n : Nat) {g : Core → Core} (h : ∀ c, standing (g c) = standing c) (hr : ∀ c, c.retry = [] → (g c).retry = []) :
    Stands d (updCore d n g) := by
  refine ⟨fun m => ?_, fun m hm => ?_⟩
  · by_cases e : m = n
    · subst e
      rw [coreOf_updCore, h]
    · rw [coreOf_updCore_ne _ _ e]
  · by_cases e : m = n
    · subst e
      rw [coreOf_updCore]
      exact hr _ hm
    · rw [coreOf_updCore_ne _ _ e]
      exact hm

variable (d) (n : Nat)

theorem dsPut (off : Nat) (bs : List Byte) (p : Bool) : Stands d (dsPut d n off bs p) := by
  refine of_kept (.of_still (KeepsBy.still ?_))
  unfold Machine.dsPut
  dsimp only
  exact .trans (.ite (.refl d) (.coreMemRead ..)) (.trans (.updMem ..) (.trans (.wordWritten ..) (.updMem ..)))

theorem setLen (w r : Nat) (v : W32) : Stands d (setLen d w r v) := by
  unfold Machine.setLen
  refine (of_cores (memWrite_cores ..)).trans (foldl _ (fun e m _ => ?_) _)
  split
  · exact dsPut ..
  · exact refl e

theorem flushOwned (o : Op) : Stands d (flushOwned d n o) :=
  (foldl _ (fun _ _ _ => of_kept (.flushGather ..)) _).trans (foldl _ (fun _ _ _ => of_kept (.flushGather ..)) _)

theorem freeUnits (u : UnitUse) : Stands d (freeUnits d n u) := ite (refl d) (of_kept (.setWinAt ..))

theorem beginClose (i : Nat) : Stands d (beginClose d n i) := ite (of_kept (.setWinAt ..)) (refl d)

theorem forgetOp (i : Nat) (o : Op) : Stands d (Machine.updCore d n fun c => Machine.forgetWork { c with ops := removeAt c.ops i } o) :=
  updCore _ _ (fun _ => rfl) (fun c h => by simp [Machine.forgetWork, h])

theorem lenOut (c : Bool) (v : Option Nat) (w r : Nat) :
    Stands d (match v with | some v => if c then d else Machine.setLen d w r (BitVec.ofNat 32 v) | none => d) := by
  split
  · exact ite (refl d) (setLen ..)
  · exact refl d

/-- The end of a retirement: the last member of a shared instruction ends it, and any other instruction has its record. -/
theorem settled (o : Op) : Stands d (match d.cp.shared.find? fun x => x.wc == o.wc && x.ring == o.ring && x.pos == o.pos with
    | some x => retireShared d x o
    | none => leaveFlight (recordDone d o.wc o.word o.epoch.toNat o.ring o.pos (statusOf o.cancelled (opFlags o)) 0 (opFlags o)) o.wc) := by
  split
  · exact of_cores (retireShared_cores ..)
  · exact of_cores ((leaveFlight_cores ..).trans (recordDone_cores ..))

theorem retireOp (i : Nat) (o : Op) : Stands d (retireOp d n i o) := by
  unfold Machine.retireOp
  exact .trans (flushOwned d n o) (.trans (ite (refl _) (foldl _ (fun e u _ => freeUnits e n u) _))
    (.trans (lenOut ..) (.trans (of_cores (writeSeqWords_cores ..)) (.trans (forgetOp ..)
      (.trans (foldl _ (fun e w _ => beginClose e n w) _) (.trans (of_kept (.landHeld ..)) (.trans (of_cores (returnTurns_cores ..)) (settled ..))))))))

theorem retireMany (l : List (Nat × Op)) : Stands d (retireMany d n l) := by
  induction l with
  | nil => exact refl d
  | cons x xs ih => exact ih.trans (retireOp ..)

end Stands

/-! ### Executing a unit again leaves the arrays' rows and the retries -/

/-- What of an array a unit that is executed again leaves. -/
def arrRows (a : Arr) : Nat × List FeedRow × List PipeRow := (a.cause, a.feeder, a.pipe)

/-- What of a core a unit that is executed again leaves. -/
def atStake (c : Core) : (Nat → Nat × List FeedRow × List PipeRow) × List UnitTag × Bool × Nat :=
  (fun b => arrRows (arr c b), c.retry, c.disabled, c.disableCause)

theorem atStake_eq {c c' : Core} (h : atStake c' = atStake c) :
    (∀ b, arrRows (arr c' b) = arrRows (arr c b)) ∧ c'.retry = c.retry ∧ c'.disabled = c.disabled :=
  ⟨fun b => congrArg (fun x => x.1 b) h, congrArg (fun x => x.2.1) h, congrArg (fun x => x.2.2.1) h⟩

theorem atStake_setArr (c : Core) (a : Nat) {v : Arr} (h : arrRows v = arrRows (arr c a)) : atStake (setArr c a v) = atStake c := by
  refine Prod.ext (funext fun b => ?_) rfl
  by_cases hb : b = a
  · subst hb
    simp only [atStake, arr_setArr, h]
  · simp only [atStake, arr_setArr_ne c v hb]

namespace KeepsBy

theorem stake {d e : Dev} (h : KeepsBy coreRead d e) : KeepsBy atStake d e :=
  h.of_part fun _ _ he => (congrArg atStake he :)

variable (d : Dev) (n : Nat)

theorem updArr (a : Nat) {g : Arr → Arr} (h : ∀ v, arrRows (g v) = arrRows v) : KeepsBy atStake d (updArr d n a g) :=
  updCore _ _ fun c => atStake_setArr c a (h _)

theorem putPm (es : List (Nat × PmEntry)) : KeepsBy atStake d (putPm d n es) :=
  .trans (updCore _ _ (by exact fun _ => rfl)) (pmWritten ..).stake

theorem touchRows (x : Mat) (rows : List Nat) : KeepsBy atStake d (touchRows d x rows) := by
  unfold Machine.touchRows
  exact ite (foldl _ (fun e _ _ => ite (refl e) (touchData ..).stake) d) (refl d)

end KeepsBy

theorem arrRows_loadBank (a : Arr) (u : UnitTag) (codes : List Nat) : arrRows (loadBank a u codes) = arrRows a := by
  unfold loadBank
  dsimp only
  split <;> rfl

namespace KeepsBy

variable (d : Dev) (n : Nat)

theorem computePart (x : Mat) (u : UnitTag) (region : Nat) (load : Bool) (rows cols : List Nat) :
    KeepsBy atStake d (computePart d x u region load rows cols) := by
  unfold Machine.computePart
  exact .trans (touchRows d x rows) (.trans (bump ..) (.trans (bump ..) (.trans (ite (refl _) (.trans (bump ..) (bump ..)))
    (.trans (foldl _ (fun e a _ => updArr e x.n a.2 fun v => by
      dsimp only
      split
      · rw [arrRows_loadBank]
        split <;> rfl
      · split <;> rfl) _) (putPm ..)))))

theorem computeCnvPart (x : Cnv) (u : UnitTag) (t : CnvTile) (region : Nat) (rows cols : List Nat) :
    KeepsBy atStake d (computeCnvPart d x u t region rows cols) := by
  unfold Machine.computeCnvPart
  exact .trans (bump ..) (.trans (bump ..) (.trans (bump ..) (.trans (ite (refl _) (.trans (bump ..) (bump ..)))
    (.trans (foldl _ (fun e a _ => updArr e x.n a.2 fun v => by
      dsimp only
      split
      · rfl
      · exact arrRows_loadBank ..) _) (putPm ..)))))

theorem computeUnit (o : Op) (t region : Nat) (p : List Nat × List Nat) : KeepsBy atStake d (computeUnit d n o t region p) := by
  unfold Machine.computeUnit
  exact ite (computeCnvPart ..) (computePart ..)

theorem completeRows (o : Op) (u : UnitTag) (keys : List Nat) : KeepsBy atStake d (completeRows d n o u keys) :=
  foldl _ (fun _ _ _ => updCore _ _ (by exact fun c => atStake_setArr _ _ rfl)) d

theorem reExecute (u : UnitTag) : KeepsBy atStake d (reExecute d n u) := by
  unfold Machine.reExecute
  split
  · split
    · exact refl d
    · dsimp only
      split
      · exact (computeUnit ..).trans (completeRows ..)
      · exact refl d
  · exact refl d

end KeepsBy

/-! ### Abandoned units -/

theorem arr_abandon (c : Core) (p : UnitTag → Bool) {b : Nat} (hb : b < 4) : arr (abandon c p) b = dropUnits p (arr c b) := by
  have h : arr (abandon c p) b = arr ((List.range 4).foldl (fun c a => setArr c a (dropUnits p (arr c a))) c) b := rfl
  rw [h]
  have hr : List.range 4 = [0, 1, 2, 3] := rfl
  rw [hr]
  simp only [List.foldl_cons, List.foldl_nil]
  obtain rfl | rfl | rfl | rfl : b = 0 ∨ b = 1 ∨ b = 2 ∨ b = 3 := by omega
  all_goals simp [arr_setArr_ne]

theorem abandon_disabled (c : Core) (p : UnitTag → Bool) : (abandon c p).disabled = c.disabled :=
  foldl_keeps (fun c : Core => c.disabled) (f := fun c a => setArr c a (dropUnits p (arr c a))) _ (fun _ _ _ => rfl) c

/-- No row of the unit waits or is in flight on an array that has dropped it. -/
theorem dropUnits_unit (a : Arr) (u : UnitTag) :
    (∀ r ∈ (dropUnits (· == u) a).feeder, r.unit ≠ u) ∧ ∀ r ∈ (dropUnits (· == u) a).pipe, r.row.unit ≠ u := by
  constructor <;> intro r hr <;> simpa using (List.mem_filter.mp hr).2

/-! ### Disabling and retirement -/

theorem sinkHeld_kept (d : Dev) (n : Nat) : KeepsCores d (sinkHeld d n) :=
  .trans (.updCore _ _ (by exact fun _ => rfl)) (.foldl _ (fun _ _ _ => .trans (.bump ..) (.ite (.giveCredits ..) (.refl _))) _)

/-- The core as its disabling begins. -/
def disabling (c : Core) (cause : Nat) : Core := { abandon c (fun _ => true) with
    disabled := true, disableCause := cause, fe := [], outbox := [], remote := [], retry := [], released := [], osums := []
    loadWaits := none, matrixWaits := none
    ops := c.ops.map fun o => { o with incomplete := true, done := true, issued := true, closes := [], units := [] } }

theorem disabling_disabled (c : Core) (cause : Nat) : (disabling c cause).disabled = true := by dsimp only [disabling]
theorem disabling_disableCause (c : Core) (cause : Nat) : (disabling c cause).disableCause = cause := by dsimp only [disabling]
theorem disabling_retry (c : Core) (cause : Nat) : (disabling c cause).retry = [] := by dsimp only [disabling]
theorem disabling_arrays (c : Core) (cause : Nat) : (disabling c cause).arrays = (abandon c fun _ => true).arrays := by dsimp only [disabling]

/-- The standing windows of a disabled core are revoked. -/
def revokeAll (d : Dev) (n : Nat) : Dev := (List.range 20).foldl (fun d i =>
    let w := win (coreOf d n) i
    if w.state = 1 ∨ w.state = 2 then setWinAt d n i { w with state := 3, pendingCredits := 0, hollow := [] } else d) d

/-- No work context resides on a disabled core. -/
def leaveResidents (d : Dev) (n : Nat) : Dev := (d.cp.wcs.map (·.1)).foldl (fun d w =>
    if bit (wcOf d w).resident n then updWc d w fun c => { c with resident := c.resident &&& ~~~(BitVec.ofNat 16 (2 ^ n)), dirty := true } else d) d

theorem revokeAll_stands (d : Dev) (n : Nat) : Stands d (revokeAll d n) :=
  .foldl _ (fun e _ _ => .ite (.of_kept (.setWinAt ..)) (.refl e)) _

theorem leaveResidents_stands (d : Dev) (n : Nat) : Stands d (leaveResidents d n) :=
  .foldl _ (fun e _ _ => .ite (.of_cores (updWc_cores ..)) (.refl e)) _

theorem noResidents_stands (d : Dev) (n : Nat) : Stands d (updCore d n fun c => { c with resident := [] }) :=
  .updCore _ _ (fun _ => rfl) (fun _ h => h)

/-- The device as a core's instructions begin to retire. -/
def disabled (d : Dev) (n cause : Nat) : Dev := updCore (sinkHeld d n) n (disabling · cause)

theorem disableCore_stands (d : Dev) (n before cause : Nat) : Stands (disabled d n cause) (disableCore d n before cause) := by
  let e := retireMany (disabled d n cause) n (withPos (coreOf (disabled d n cause) n).ops)
  let f := leaveResidents (revokeAll e n) n
  have h : disableCore d n before cause
      = postEvent (updCore f n fun c => { c with resident := [] }) 0x1003 0 n (before + cause * 16 + min 65535 (coreOf d n).ops.length * 65536) := by
    dsimp only [disableCore, e, f, leaveResidents, revokeAll, disabled, disabling]
  rw [h]
  exact (Stands.retireMany ..).trans ((revokeAll_stands ..).trans ((leaveResidents_stands ..).trans
    ((noResidents_stands ..).trans (.of_cores (postEvent_cores ..)))))

/-- A disabled core: its mark and cause are set, no retry is left, and the cause of each array stays. -/
theorem disableCore_spec (d : Dev) (n before cause : Nat) :
    (coreOf (disableCore d n before cause) n).disabled = true ∧ (coreOf (disableCore d n before cause) n).disableCause = cause
    ∧ (coreOf (disableCore d n before cause) n).retry = []
    ∧ ∀ b < 4, (arr (coreOf (disableCore d n before cause) n) b).cause = (arr (coreOf d n) b).cause := by
  have h := disableCore_stands d n before cause
  have hc := h.core n
  have hr := h.retry n
  rw [disabled, coreOf_updCore] at hc hr
  obtain ⟨harrays, hdis, hwhy⟩ : (coreOf (disableCore d n before cause) n).arrays = (disabling (coreOf (sinkHeld d n) n) cause).arrays
      ∧ (coreOf (disableCore d n before cause) n).disabled = (disabling (coreOf (sinkHeld d n) n) cause).disabled
      ∧ (coreOf (disableCore d n before cause) n).disableCause = (disabling (coreOf (sinkHeld d n) n) cause).disableCause := by
    simpa only [standing, Prod.mk.injEq] using hc
  refine ⟨hdis.trans (disabling_disabled ..), hwhy.trans (disabling_disableCause ..), hr (disabling_retry ..), fun b hb => ?_⟩
  have ha : arr (coreOf (disableCore d n before cause) n) b = arr (abandon (coreOf (sinkHeld d n) n) fun _ => true) b := by
    rw [arr, harrays, disabling_arrays, arr]
  have hs : arr (coreOf (sinkHeld d n) n) b = arr (coreOf d n) b := (congrArg (fun c => arr c b) ((sinkHeld_kept d n).core n) :)
  rw [ha, arr_abandon _ _ hb, hs]
  rfl

/-- The core as an array's retirement leaves it before the abandoned units run again. -/
def retiring (us : List UnitTag) (a : Nat) (c : Core) : Core :=
  { abandon (setArr c a { arr c a with cause := 4 }) (fun u => us.contains u) with retry := [] }

theorem retiring_disabled (us : List UnitTag) (a : Nat) (c : Core) : (retiring us a c).disabled = c.disabled := by
  dsimp only [retiring]
  exact abandon_disabled _ _

theorem retiring_retry (us : List UnitTag) (a : Nat) (c : Core) : (retiring us a c).retry = [] := by dsimp only [retiring]

theorem retiring_cause (us : List UnitTag) (a : Nat) (c : Core) {b : Nat} (hb : b < 4) : (arr (retiring us a c) b).cause = if b = a then 4 else (arr c b).cause := by
  have h : arr (retiring us a c) b = dropUnits (fun u => us.contains u) (arr (setArr c a { arr c a with cause := 4 }) b) := by
    rw [← arr_abandon _ _ hb]
    dsimp only [retiring, arr]
  rw [h]
  split
  · next e =>
    subst e
    rw [arr_setArr]
    rfl
  · next e =>
    rw [arr_setArr_ne _ _ e]
    rfl

/-- The arrays enabled beside the one that retires. -/
theorem arraysOn_retiring (us : List UnitTag) (a : Nat) {c : Core} (hc : c.disabled = false) :
    arraysOn (retiring us a c) = (List.range 4).filter fun b => b != a && (arr c b).cause == 0 := by
  unfold arraysOn
  rw [retiring_disabled, hc]
  refine List.filter_congr fun b hb => ?_
  rw [retiring_cause us a c (List.mem_range.mp hb)]
  by_cases e : b = a <;> simp [e]

theorem retireArray_spec (d : Dev) (n a : Nat) (ha : a < 4) (hd : (coreOf d n).disabled = false) :
    (arr (coreOf (retireArray d n a) n) a).cause = 4 ∧ (coreOf (retireArray d n a) n).retry = []
    ∧ (3 ≤ ((List.range 4).filter fun b => b != a && (arr (coreOf d n) b).cause == 0).length → (coreOf (retireArray d n a) n).disabled = false)
    ∧ (((List.range 4).filter fun b => b != a && (arr (coreOf d n) b).cause == 0).length < 3 →
      (coreOf (retireArray d n a) n).disabled = true ∧ (coreOf (retireArray d n a) n).disableCause = 3) := by
  have hr : ∀ x, coreOf (postEvent (updCore d n (retiring (unitsAtWork (coreOf d n)) a)) 0x1002 0 n x) n = retiring (unitsAtWork (coreOf d n)) a (coreOf d n) := fun x => by
    rw [coreOf_postEvent, coreOf_updCore]
  have hcause : (arr (retiring (unitsAtWork (coreOf d n)) a (coreOf d n)) a).cause = 4 := by rw [retiring_cause _ _ _ ha, if_pos rfl]
  have hcauseE := fun x => (congrArg (fun c => (arr c a).cause) (hr x)).trans hcause
  let e := postEvent (updCore d n (retiring (unitsAtWork (coreOf d n)) a)) 0x1002 0 n (a + arraysMask (coreOf (updCore d n (retiring (unitsAtWork (coreOf d n)) a)) n) * 16)
  have he : retireArray d n a = if (arraysOn (coreOf e n)).length < 3 then disableCore e n (arraysMask (coreOf d n)) 3
      else (unitsAtWork (coreOf d n)).foldl (fun d u => reExecute d n u) e := by
    unfold e retiring retireArray
    rfl
  rw [he, hr, arraysOn_retiring _ a hd]
  split
  · next hlt =>
    obtain ⟨hdis, hwhy, hretry, hcauses⟩ := disableCore_spec e n (arraysMask (coreOf d n)) 3
    exact ⟨(hcauses a ha).trans (hcauseE _), hretry, fun h => absurd hlt (Nat.not_lt.mpr h), fun _ => ⟨hdis, hwhy⟩⟩
  · next hge =>
    have hk := (KeepsBy.foldl (unitsAtWork (coreOf d n)) (fun d u _ => KeepsBy.reExecute d n u) e).core n
    rw [hr] at hk
    obtain ⟨hrows, hretry, hdis⟩ := atStake_eq hk
    have ha := hrows a
    simp only [arrRows, Prod.mk.injEq] at ha
    exact ⟨ha.1.trans hcause, hretry.trans (retiring_retry ..),
      fun _ => hdis.trans ((retiring_disabled ..).trans hd), fun h => absurd h hge⟩

/-! ### Mismatches -/

/-- The core as a unit's first mismatch leaves it before the unit runs again. -/
def retrying (c : Core) (u : UnitTag) : Core :=
  { abandon c (· == u) with retry := c.retry ++ [u], released := c.released.filter fun r => !(r.unit == u) }

theorem retrying_retry (c : Core) (u : UnitTag) : (retrying c u).retry = c.retry ++ [u] := by dsimp only [retrying]

theorem retrying_disabled (c : Core) (u : UnitTag) : (retrying c u).disabled = c.disabled := by
  dsimp only [retrying]
  exact abandon_disabled _ _

theorem arr_retrying (c : Core) (u : UnitTag) {b : Nat} (hb : b < 4) : arr (retrying c u) b = dropUnits (· == u) (arr c b) := by
  rw [← arr_abandon _ _ hb]
  dsimp only [retrying, arr]

theorem mismatchRetriesThenRetires : Claim.MismatchRetriesThenRetires := by
  intro d n a kind group col entry u _ ha hd
  let e := postEvent (bump d (0x2210 + n) 7 4 1) 0x1001 0 n (mismatchPayload a kind group (b2n ((coreOf d n).retry.contains u)) col entry u.tile)
  have hc : coreOf e n = coreOf d n := coreOf_postEvent ..
  have hm : mismatch d n a kind group col entry u = if (coreOf d n).retry.contains u
      then retireArray (updCore e n fun c => { c with released := c.released.filter fun r => !(r.unit == u) }) n a
      else reExecute (updCore (bump e (0x2300 + n) 2 4 1) n (retrying · u)) n u := rfl
  refine ⟨fun hu => ?_, fun hu => ?_⟩
  · have hk := (KeepsBy.reExecute (updCore (bump e (0x2300 + n) 2 4 1) n (retrying · u)) n u).core n
    rw [coreOf_updCore, coreOf_bump, hc] at hk
    rw [hm, if_neg (by simpa using hu)]
    obtain ⟨hrows, hretry, hdis⟩ := atStake_eq hk
    refine ⟨hretry.trans (retrying_retry ..), hdis.trans ((retrying_disabled ..).trans hd), fun b hb => ?_⟩
    have hb := (hrows b).trans (congrArg arrRows (arr_retrying _ _ hb))
    obtain ⟨hcause, hfeeder, hpipe⟩ := by simpa only [arrRows, Prod.mk.injEq] using hb
    obtain ⟨hnf, hnp⟩ := dropUnits_unit (arr (coreOf d n) b) u
    exact ⟨hcause, hfeeder ▸ hnf, hpipe ▸ hnp⟩
  · rw [hm, if_pos (by simpa using hu)]
    have h := retireArray_spec (updCore e n fun c => { c with released := c.released.filter fun r => !(r.unit == u) }) n a ha
      (by rw [coreOf_updCore, hc]; exact hd)
    rw [coreOf_updCore, hc] at h
    exact h

end Sys2Proof.Proofs


/-! ## O39: rows land in PM beat by beat -/

namespace Sys2Proof.Proofs
open Sys2Proof.Machine

/-! ### PM entries under reads and writes -/

theorem pmKeyOf_pmWordOf (k : Nat) : pmKeyOf (pmWordOf k) = k := by
  have harray : pmWordOf k / 32768 = k / 32768 := by
    unfold pmWordOf
    omega
  have hcol : pmWordOf k % 32 = k / 1024 % 32 := by
    unfold pmWordOf
    omega
  have hentry : pmWordOf k / 32 % 1024 = k % 1024 := by
    have h : pmWordOf k / 32 = k / 32768 * 1024 + k % 1024 := by
      unfold pmWordOf
      omega
    omega
  rw [pmKeyOf, harray, hcol, hentry]
  omega

/-- PM entry e of a core. -/
def pmEntry (c : Core) (e : Nat) : PmEntry := sget (fun _ => {}) c.pm e

/-- PM as a read of the entries `ks` leaves it: the data and the saturation flags stay, and of poison only that of the entries read may rise. -/
structure PmRead (ks : List Nat) (c c' : Core) : Prop where
  bits : ∀ e, (pmEntry c' e).bits = (pmEntry c e).bits
  sat : ∀ e, (pmEntry c' e).sat = (pmEntry c e).sat
  other : ∀ e, e ∉ ks → pmEntry c' e = pmEntry c e

theorem PmRead.of_pm {c c' : Core} (ks : List Nat) (h : c'.pm = c.pm) : PmRead ks c c' := by
  constructor <;> intro e <;> simp only [pmEntry, h, implies_true]

theorem PmRead.trans {ks ls : List Nat} {c c' c'' : Core} (h : PmRead ks c c') (k : PmRead ls c' c'') : PmRead (ks ++ ls) c c'' :=
  ⟨fun e => (k.bits e).trans (h.bits e), fun e => (k.sat e).trans (h.sat e), fun e he => by
    rw [List.mem_append, not_or] at he
    exact (k.other e he.2).trans (h.other e he.1)⟩

theorem scrubCancel_keepsPm (d : Dev) (n mem w : Nat) : KeepsBy (·.pm) d (scrubCancel d n mem w) :=
  .ite (.updCore _ _ (by exact fun _ => rfl)) (.refl d)

theorem pmWritten_keepsPm (d : Dev) (n : Nat) (keys : List Nat) : KeepsBy (·.pm) d (pmWritten d n keys) :=
  .trans (.updMem ..) (.foldl _ (fun e _ _ => scrubCancel_keepsPm e ..) _)

theorem coreCorrected_keepsPm (d : Dev) (n mem w : Nat) : KeepsBy (·.pm) d (coreCorrected d n mem w) := by
  unfold coreCorrected
  exact .trans (.bump ..) (.trans (.updCore _ _ (by exact fun _ => rfl))
    (.ite (.trans (.latch ..) (.trans (.postEvent ..) (.updCore _ _ (by exact fun _ => rfl)))) (.refl _)))

theorem scrubEnter_keepsPm (d : Dev) (n mem w : Nat) : KeepsBy (·.pm) d (scrubEnter d n mem w) :=
  .ite (.refl d) (.ite (.updCore _ _ (by exact fun _ => rfl)) (.bump ..))

/-- An uncorrectable error of a PM entry raises its poison bit and moves nothing else of PM. -/
theorem pmEntry_coreUncorrectable (d : Dev) (n w e : Nat) : pmEntry (coreOf (coreUncorrectable d n 2 w) n) e
    = if e = pmKeyOf w then { pmEntry (coreOf d n) e with poison := true } else pmEntry (coreOf d n) e := by
  unfold coreUncorrectable
  dsimp only
  rw [if_pos rfl, coreOf_postEvent, coreOf_updCore, coreOf_updMem, coreOf_bump]
  unfold pmEntry
  by_cases h : e = pmKeyOf w
  · rw [if_pos h, h, sget_supd]
  · rw [if_neg h, sget_supd_ne _ _ h]

theorem pmRead_coreMemRead (d : Dev) (n k : Nat) : PmRead [k] (coreOf d n) (coreOf (coreMemRead d n 2 (pmWordOf k) 0) n) := by
  unfold coreMemRead
  dsimp only
  split
  · exact .of_pm _ rfl
  · exact .of_pm _ (((coreCorrected_keepsPm ..).trans (scrubEnter_keepsPm ..)).core n)
  · constructor <;> intro e
    · rw [pmEntry_coreUncorrectable]
      split <;> rfl
    · rw [pmEntry_coreUncorrectable]
      split <;> rfl
    · intro he
      rw [pmEntry_coreUncorrectable, pmKeyOf_pmWordOf, if_neg (by simpa using he)]
      rfl

theorem pmRead_readPm (d : Dev) (n : Nat) (keys : List Nat) : PmRead keys (coreOf d n) (coreOf (readPm d n keys) n) := by
  unfold readPm
  split
  · exact .of_pm _ rfl
  next h =>
    clear h
    induction keys generalizing d with
    | nil => exact .of_pm _ rfl
    | cons k ks ih => exact (pmRead_coreMemRead d n k).trans (ih _)

theorem readPm_clean {d : Dev} (n : Nat) (keys : List Nat) (h : d.mem.latent = []) : readPm d n keys = d := by rw [readPm, h]; rfl

theorem readPm_ram (d : Dev) (n : Nat) (keys : List Nat) : (readPm d n keys).mem.ram = d.mem.ram := by
  unfold readPm
  split
  · rfl
  · exact foldl_keeps (fun e : Dev => e.mem.ram) _ (fun e _ _ => coreMemRead_ram e ..) d

theorem pmWritten_ram (d : Dev) (n : Nat) (keys : List Nat) : (pmWritten d n keys).mem.ram = d.mem.ram :=
  (foldl_keeps (fun e : Dev => e.mem.ram) _ (fun e k _ => congrArg (·.ram) (scrubCancel_mem e n 2 (pmWordOf k))) _).trans rfl

/-! ### A beat added to PM -/

/-- Read-modify-writes of the places of distinct keys: each place takes its own, and the others stay. -/
theorem sget_foldl_rmw {α β : Type} [DecidableEq α] {dflt : Nat → α} (key : Nat → Nat) (F : α → Nat × β → α) (l : List β) (t : Sparse α)
    (hinj : ∀ x < l.length, ∀ y < l.length, key x = key y → x = y) :
    let r := (withPos l).foldl (fun r o => sset dflt r (key o.1) (F (sget dflt r (key o.1)) o)) t
    (∀ x v, l[x]? = some v → sget dflt r (key x) = F (sget dflt t (key x)) (x, v))
    ∧ ∀ e, (∀ x < l.length, e ≠ key x) → sget dflt r e = sget dflt t e := by
  induction l using List.reverseRecOn with
  | nil => exact ⟨fun x v h => by simp at h, fun _ _ => rfl⟩
  | append_singleton l y ih =>
    have hlen : (l ++ [y]).length = l.length + 1 := by simp
    obtain ⟨hmine, hother⟩ := ih fun x hx z hz => hinj x (by omega) z (by omega)
    have hne : ∀ x < l.length, key l.length ≠ key x := fun x hx h => by
      have := hinj l.length (by omega) x (by omega) h
      omega
    dsimp only
    rw [withPos_concat, List.foldl_append, List.foldl_cons, List.foldl_nil]
    refine ⟨fun x v h => ?_, fun e he => ?_⟩
    · rw [sget_sset_if]
      by_cases hx : x = l.length
      · subst hx
        rw [if_pos rfl, hother _ hne]
        have hy : y = v := by simpa using h
        rw [hy]
      · have hlt : x < l.length := by
          have := (List.getElem?_eq_some_iff.mp h).1
          omega
        rw [if_neg (hne x hlt).symm]
        exact hmine x v (by rwa [List.getElem?_append_left hlt] at h)
    · rw [sget_sset_ne _ _ _ (he l.length (by omega))]
      exact hother e fun x hx => he x (by omega)

theorem landKey_injective (ai : Nat) (r : FeedRow) {x y : Nat} (hx : x < if r.mark = 3 then 128 else 32) (hy : y < if r.mark = 3 then 128 else 32)
    (h : landKey ai r x = landKey ai r y) : x = y := by
  unfold landKey at h
  split at h <;> rename_i hm
  · rw [if_pos hm] at hx hy
    omega
  · omega

/-- An addition to a PM entry reads the entry's data and saturation flag for its own, and its poison for its own. -/
theorem pmRow_one {e e' : PmEntry} (hb : e.bits = e'.bits) (hs : e.sat = e'.sat) (float first poison : Bool) (c : Contrib) :
    (pmRow float e first poison [c]).bits = (pmRow float e' first poison [c]).bits
    ∧ (pmRow float e first poison [c]).sat = (pmRow float e' first poison [c]).sat := by
  cases float <;> simp [pmRow, pmInt, pmFloat, hb, hs]

/-- PM as a beat's columns leave it. -/
def beatPm (ai : Nat) (p : PipeRow) (pm : Sparse PmEntry) : Sparse PmEntry :=
  (withPos (p.outs.getD (p.landed - 1) [])).foldl (fun pm o =>
    let k := landKey ai p.row o.1
    sset (fun _ => {}) pm k (pmRow p.float (sget (fun _ => {}) pm k) (p.row.first && p.landed - 1 == 0) p.poison
      [{ v := bitsVal p.float o.2, ovf := (p.ovf.getD (p.landed - 1) []).getD o.1 false }])) pm

/-- The device as a beat's columns find it: the entries are read, but by the first beat, and then written. -/
def beatRead (d : Dev) (n ai : Nat) (p : PipeRow) : Dev :=
  let keys := (List.range (p.outs.getD (p.landed - 1) []).length).map (landKey ai p.row)
  pmWritten (if p.row.first && p.landed - 1 == 0 then d else readPm d n keys) n keys

/-- An array's checksum accumulators after a beat. -/
def beatAccs (d : Dev) (n ai : Nat) (p : PipeRow) : Dev :=
  (withPos (rowTargets ai p.row)).foldl (fun d k => updCore d n fun c =>
    let mag := if p.float then max p.mag (magOf ((pmRowEntries c k.2).map fun e => ofF32 e.bits)) else 0
    let chk := p.chk.getD (p.landed - 1) []
    let mine := if p.row.mark = 3 then (chk[k.1]?).toList else chk
    setArr c ai { arr c ai with accs := supd (fun _ => 0#48) (arr c ai).accs (k.2 % 1024) fun v => accAdd p.float p.row.first (p.landed - 1) v mine mag }) d

theorem landBeat_eq (d : Dev) (n ai : Nat) (p : PipeRow) :
    landBeat d n ai p = beatAccs (updCore (beatRead d n ai p) n fun c => { c with pm := beatPm ai p c.pm }) n ai p := rfl

theorem beatAccs_keeps (d : Dev) (n ai : Nat) (p : PipeRow) : KeepsBy (fun c => (atStake c, c.pm)) d (beatAccs d n ai p) :=
  .foldl _ (fun _ _ _ => .updCore _ _ (by exact fun c => Prod.ext (atStake_setArr c ai rfl) rfl)) d

theorem beatAccs_mem (d : Dev) (n ai : Nat) (p : PipeRow) : (beatAccs d n ai p).mem = d.mem :=
  foldl_keeps (fun e : Dev => e.mem) _ (by exact fun _ _ _ => rfl) d

theorem beatRead_keeps (d : Dev) (n ai : Nat) (p : PipeRow) : KeepsBy coreRead d (beatRead d n ai p) :=
  .trans (.ite (.refl d) (.readPm ..)) (.pmWritten ..)

theorem beatRead_ram (d : Dev) (n ai : Nat) (p : PipeRow) : (beatRead d n ai p).mem.ram = d.mem.ram := by
  unfold beatRead
  dsimp only
  rw [pmWritten_ram]
  split
  · rfl
  · exact readPm_ram ..

theorem pmRead_beatRead (d : Dev) (n ai : Nat) (p : PipeRow) :
    PmRead ((List.range (p.outs.getD (p.landed - 1) []).length).map (landKey ai p.row)) (coreOf d n) (coreOf (beatRead d n ai p) n)
    ∧ (d.mem.latent = [] → ∀ e, pmEntry (coreOf (beatRead d n ai p) n) e = pmEntry (coreOf d n) e) := by
  have hw : ∀ e : Dev, ∀ keys, (coreOf (pmWritten e n keys) n).pm = (coreOf e n).pm := fun e keys => (pmWritten_keepsPm e n keys).core n
  unfold beatRead
  dsimp only
  refine ⟨?_, fun hl e => ?_⟩
  · split
    · exact .of_pm _ (hw ..)
    · obtain ⟨hb, hs, ho⟩ := pmRead_readPm d n ((List.range (p.outs.getD (p.landed - 1) []).length).map (landKey ai p.row))
      refine ⟨fun e => ?_, fun e => ?_, fun e he => ?_⟩ <;> rw [pmEntry, hw]
      · exact hb e
      · exact hs e
      · exact ho e he
  · rw [pmEntry, hw, readPm_clean n _ hl, ite_self]
    rfl

theorem landBeat_stake (d : Dev) (n ai : Nat) (p : PipeRow) : KeepsBy atStake d (landBeat d n ai p) := by
  rw [landBeat_eq]
  exact .trans (beatRead_keeps d n ai p).stake (.trans (.updCore _ _ (by exact fun _ => rfl))
    ((beatAccs_keeps _ n ai p).of_part (p' := atStake) fun _ _ h => congrArg Prod.fst h))

theorem landBeat_ram (d : Dev) (n ai : Nat) (p : PipeRow) : (landBeat d n ai p).mem.ram = d.mem.ram := by
  rw [landBeat_eq, beatAccs_mem]
  exact beatRead_ram d n ai p

theorem landBeat_pm (d : Dev) (n ai : Nat) (p : PipeRow) : (coreOf (landBeat d n ai p) n).pm = beatPm ai p (coreOf (beatRead d n ai p) n).pm := by
  rw [landBeat_eq]
  refine (congrArg Prod.snd ((beatAccs_keeps _ n ai p).core n)).trans ?_
  rw [coreOf_updCore]

/-- Each column of a landed beat is added to its own PM entry, and no other entry moves. -/
theorem landBeat_spec (d : Dev) (n ai : Nat) (p : PipeRow) (hlen : (p.outs.getD (p.landed - 1) []).length ≤ if p.row.mark = 3 then 128 else 32) :
    let out := p.outs.getD (p.landed - 1) []
    let add (x : Nat) (e : PmEntry) : PmEntry := pmRow p.float e (p.row.first && p.landed - 1 == 0) p.poison
      [{ v := bitsVal p.float (out.getD x 0), ovf := (p.ovf.getD (p.landed - 1) []).getD x false }]
    (∀ x < out.length,
      (pmEntry (coreOf (landBeat d n ai p) n) (landKey ai p.row x)).bits = (add x (pmEntry (coreOf d n) (landKey ai p.row x))).bits
      ∧ (pmEntry (coreOf (landBeat d n ai p) n) (landKey ai p.row x)).sat = (add x (pmEntry (coreOf d n) (landKey ai p.row x))).sat
      ∧ (d.mem.latent = [] → pmEntry (coreOf (landBeat d n ai p) n) (landKey ai p.row x) = add x (pmEntry (coreOf d n) (landKey ai p.row x))))
    ∧ ∀ e, (∀ x < out.length, e ≠ landKey ai p.row x) → pmEntry (coreOf (landBeat d n ai p) n) e = pmEntry (coreOf d n) e := by
  intro out add
  obtain ⟨hread, hclean⟩ := pmRead_beatRead d n ai p
  obtain ⟨hmine, hother⟩ := sget_foldl_rmw (dflt := fun _ => ({} : PmEntry)) (landKey ai p.row)
    (fun e o => pmRow p.float e (p.row.first && p.landed - 1 == 0) p.poison
      [{ v := bitsVal p.float o.2, ovf := (p.ovf.getD (p.landed - 1) []).getD o.1 false }]) out (coreOf (beatRead d n ai p) n).pm
    (fun x hx y hy h => landKey_injective ai p.row (lt_of_lt_of_le hx hlen) (lt_of_lt_of_le hy hlen) h)
  have hval : ∀ x < out.length, pmEntry (coreOf (landBeat d n ai p) n) (landKey ai p.row x)
      = add x (pmEntry (coreOf (beatRead d n ai p) n) (landKey ai p.row x)) := fun x hx => by
    have hx' : out[x]? = some (out.getD x 0) := by simp [List.getD, hx]
    rw [pmEntry, landBeat_pm]
    exact hmine x _ hx'
  refine ⟨fun x hx => ?_, fun e he => ?_⟩
  · rw [hval x hx]
    obtain ⟨hb, hs⟩ := pmRow_one (hread.bits (landKey ai p.row x)) (hread.sat (landKey ai p.row x)) p.float (p.row.first && p.landed - 1 == 0) p.poison
      { v := bitsVal p.float (out.getD x 0), ovf := (p.ovf.getD (p.landed - 1) []).getD x false }
    exact ⟨hb, hs, fun hl => by rw [hclean hl]⟩
  · rw [pmEntry, landBeat_pm]
    refine (hother e he).trans (hread.other e fun hm => ?_)
    obtain ⟨x, hx, hk⟩ := List.mem_map.mp hm
    exact he x (List.mem_range.mp hx) hk.symm

/-! ### The row behind the beat -/

/-- The array as the beat leaves it: the row stays in the pipe with beats to come, else it leaves. -/
def pipeMoved (d : Dev) (n ai : Nat) (q : PipeRow) (rest : List PipeRow) : Dev :=
  updArr d n ai fun a => { a with pipe := if q.landed < q.outs.length then q :: rest else rest }

theorem arrRows_pipeMoved (d : Dev) (n ai : Nat) (q : PipeRow) (rest : List PipeRow) :
    (arr (coreOf (pipeMoved d n ai q rest) n) ai).pipe = if q.landed < q.outs.length then q :: rest else rest := by
  rw [pipeMoved, arr_updArr]

theorem pipeMoved_openPasses (d : Dev) (n ai : Nat) (q : PipeRow) (rest : List PipeRow) :
    (arr (coreOf (pipeMoved d n ai q rest) n) ai).openPasses = (arr (coreOf d n) ai).openPasses := by
  rw [pipeMoved, arr_updArr]

theorem pipeMoved_core (d : Dev) (n ai : Nat) (q : PipeRow) (rest : List PipeRow) :
    (coreOf (pipeMoved d n ai q rest) n).pm = (coreOf d n).pm ∧ (coreOf (pipeMoved d n ai q rest) n).retry = (coreOf d n).retry := by
  rw [pipeMoved, updArr, coreOf_updCore]
  exact ⟨rfl, rfl⟩

/-- A whole row: its sums are kept and its PM rows complete. -/
def rowKept (d : Dev) (n ai : Nat) (p : PipeRow) : Dev :=
  let d := if p.row.mark = 3 then d else updArr d n ai fun a => updPass a p.pass (addSums p)
  if p.row.last then updCore d n fun c => { c with
      pmRows := (rowTargets ai p.row).foldl (fun t k => sset (fun _ => {}) t k { unit := some p.row.unit, done := true }) c.pmRows } else d

theorem rowKept_keeps (d : Dev) (n ai : Nat) (p : PipeRow) : KeepsBy (fun c => (atStake c, c.pm)) d (rowKept d n ai p) := by
  unfold rowKept
  exact .trans (.ite (.refl d) (.updCore _ _ (by exact fun c => Prod.ext (atStake_setArr c ai rfl) rfl))) (.ite (.updCore _ _ (by exact fun _ => rfl)) (.refl _))

theorem rowKept_mem (d : Dev) (n ai : Nat) (p : PipeRow) : (rowKept d n ai p).mem = d.mem := by
  unfold rowKept
  dsimp only
  split <;> split <;> rfl

theorem rowDone_eq {p : PipeRow} (h : p.row.mark ≠ 2) (d : Dev) (n ai : Nat) (u : Option Upset) :
    rowDone d n ai p u = if p.due && !rowGood p
      then if p.row.mark = 3 then mismatch (rowKept d n ai p) n ai 3 0 (u.getD {}).row p.row.entry p.row.unit
        else mismatch (rowKept d n ai p) n ai 0 (u.getD {}).group 0 p.row.entry p.row.unit
      else rowKept d n ai p := by
  unfold rowDone
  rw [if_neg h]
  rfl

theorem rowLands_landing {d : Dev} {n ai : Nat} {p : PipeRow} {rest : List PipeRow} (hp : (arr (coreOf d n) ai).pipe = p :: rest)
    (hs : (coreOf d n).stopped = false) (hc : p.taken + p.landed + (if p.float then 8 else 6) ≤ (arr (coreOf d n) ai).cycle) (u : Option Upset) :
    let q := disturb p u
    let e := if p.row.mark = 2 then pipeMoved d n ai q rest else landBeat (pipeMoved d n ai q rest) n ai q
    rowLands d n ai u = if q.landed < q.outs.length then e else rowDone e n ai q u := by
  unfold rowLands
  dsimp only
  rw [hp]
  dsimp only
  rw [if_neg (by rw [hs]; simpa using hc)]
  rfl

/-- The checksum row's pass leaves the array's open passes. -/
def passClosed (d : Dev) (n ai : Nat) (p : PipeRow) : Dev := updArr d n ai fun a => { a with openPasses := a.openPasses.filter fun q => q.id != p.pass }

theorem rowDone_checksum {p : PipeRow} (h : p.row.mark = 2) (d : Dev) (n ai : Nat) (u : Option Upset) :
    rowDone d n ai p u = match (if p.due then ((arr (coreOf d n) ai).openPasses.find? fun q => q.id == p.pass).bind (badColumn p) else none) with
      | some col => mismatch (passClosed d n ai p) n ai 1 0 col 0 p.row.unit
      | none => passClosed d n ai p := by
  unfold rowDone
  rw [if_pos h]
  rfl

theorem rowLands_spec : Claim.RowsLandInPm := by
  intro s n k u ha
  have hx : exec (.rowLands n k u) s = .next (onDev s fun d => rowLands d n k u) := nextDev_awake ha
  refine ⟨fun h => ?_, fun p rest hp hs hc => ?_⟩
  · rw [hx, onDev_eq_self]
    unfold rowLands
    dsimp only
    obtain h | h | ⟨p, rest, hp, hc⟩ := h
    · rw [h]
    · split
      · rfl
      · rw [if_pos (by rw [h]; rfl)]
    · rw [hp]
      dsimp only
      rw [if_pos (by simpa using Or.inr hc)]
  have hland := rowLands_landing hp hs hc u
  dsimp only at hland
  intro q out left key old same
  have hpipe := arrRows_pipeMoved s.dev n k q rest
  obtain ⟨hpm, hretry⟩ := pipeMoved_core s.dev n k q rest
  have hstake := landBeat_stake (pipeMoved s.dev n k q rest) n k q
  refine ⟨fun hm hlen hend => ?_, fun hm hq hdue hbad => ?_, fun hm hend => ?_, fun col hm hq hdue hbad => ?_⟩
  · let e := landBeat (pipeMoved s.dev n k q rest) n k q
    rw [if_neg hm] at hland
    obtain ⟨f, hf, hkeep, hmem⟩ : ∃ f, rowLands s.dev n k u = f ∧ KeepsBy (fun c => (atStake c, c.pm)) e f ∧ f.mem = e.mem := by
      refine ⟨_, hland, ?_⟩
      by_cases hq : q.landed < q.outs.length
      · rw [if_pos hq]
        exact ⟨.refl e, rfl⟩
      · rw [if_neg hq, rowDone_eq (p := disturb p u) hm, if_neg]
        · exact ⟨rowKept_keeps .., rowKept_mem ..⟩
        · obtain h | h | h := hend
          · exact absurd h hq
          · simp [show (disturb p u).due = false from h]
          · simp [show rowGood (disturb p u) = true from h]
    obtain ⟨hmine, hother⟩ := landBeat_spec (pipeMoved s.dev n k q rest) n k q hlen
    have hfpm : (coreOf f n).pm = (coreOf e n).pm := congrArg Prod.snd (hkeep.core n)
    refine ⟨_, hx, rfl, rfl, ?_, fun x hxl => ?_, fun y hy => ?_, fun x => ?_⟩
    · have hrows := (atStake_eq ((congrArg Prod.fst (hkeep.core n)).trans (hstake.core n))).1 k
      rw [onDev, hf]
      exact (congrArg (fun r => r.2.2) hrows).trans hpipe
    · obtain ⟨hb, hsat, hclean⟩ := hmine x hxl
      rw [onDev, hf, hfpm]
      rw [pmEntry, pmEntry, hpm] at hb hsat hclean
      exact ⟨hb, hsat, fun hl => congrArg PmEntry.poison (hclean hl)⟩
    · rw [onDev, hf, hfpm]
      have h := hother y hy
      rw [pmEntry, pmEntry, hpm] at h
      exact h
    · rw [onDev, hf, hmem]
      exact peek_of_ram (landBeat_ram ..) x
  · rw [if_neg hm, if_neg (not_lt.mpr hq), rowDone_eq (p := disturb p u) hm, if_pos (by
      rw [show (disturb p u).due = true from hdue, show rowGood (disturb p u) = false from hbad]; rfl)] at hland
    obtain ⟨hrows, hr, _⟩ := atStake_eq ((congrArg Prod.fst ((rowKept_keeps _ n k q).core n)).trans (hstake.core n))
    refine ⟨rowKept (landBeat (pipeMoved s.dev n k q rest) n k q) n k q, ?_, hr.trans hretry, ?_⟩
    · rw [if_neg (not_lt.mpr hq)] at hpipe
      exact (congrArg (fun r => r.2.2) (hrows k)).trans hpipe
    · rw [hx, onDev, hland]
      rfl
  · rw [if_pos hm] at hland
    refine ⟨_, hx, ?_⟩
    rw [onDev, hland]
    by_cases hq : q.landed < q.outs.length
    · rw [if_pos hq]
      exact ⟨hpipe, hpm, rfl, rfl⟩
    · have hnone : (if q.due then ((arr (coreOf (pipeMoved s.dev n k q rest) n) k).openPasses.find? fun y => y.id == q.pass).bind (badColumn q) else none) = none := by
        rw [pipeMoved_openPasses]
        obtain h | h | h := hend
        · exact absurd h hq
        · rw [if_neg (by rw [show q.due = false from h]; simp)]
        · rw [show ((arr (coreOf s.dev n) k).openPasses.find? fun y => y.id == q.pass).bind (badColumn q) = none from h, ite_self]
      rw [if_neg hq, rowDone_checksum (p := disturb p u) hm, hnone]
      exact ⟨(congrArg Arr.pipe (arr_updArr ..)).trans hpipe, (congrArg Core.pm (coreOf_updCore ..)).trans hpm, rfl, rfl⟩
  · have hsome : (if q.due then ((arr (coreOf (pipeMoved s.dev n k q rest) n) k).openPasses.find? fun y => y.id == q.pass).bind (badColumn q) else none) = some col := by
      rw [pipeMoved_openPasses, if_pos (show q.due = true from hdue)]
      exact hbad
    rw [if_pos hm, if_neg (not_lt.mpr hq), rowDone_checksum (p := disturb p u) hm, hsome] at hland
    rw [if_neg (not_lt.mpr hq)] at hpipe
    refine ⟨passClosed (pipeMoved s.dev n k q rest) n k q, ?_, ?_, ?_⟩
    · exact (congrArg Arr.pipe (arr_updArr ..)).trans hpipe
    · exact (congrArg Core.pm (coreOf_updCore ..)).trans hpm
    · rw [hx, onDev, hland]
      rfl

/-- Settles O39: a beat's columns are read-modify-writes of distinct PM entries, and the rest of a landing moves no PM entry; a mismatch abandons the unit and runs it again, and the second one retires the array. -/
theorem rowsLandInPm : Obligations.RowsLandInPm := ⟨rowLands_spec, mismatchRetriesThenRetires⟩

end Sys2Proof.Proofs


/-! ## O8: commands that store nothing in memory -/

namespace Sys2Proof.Proofs
open Sys2Proof.Machine

/-- A step that leaves memory as it is. -/
structure KeepsMem (d e : Dev) : Prop where
  mem : e.mem = d.mem

namespace KeepsMem

theorem refl (d : Dev) : KeepsMem d d := ⟨rfl⟩

theorem trans {d e f : Dev} (h : KeepsMem d e) (k : KeepsMem e f) : KeepsMem d f := ⟨k.mem.trans h.mem⟩

/-- A step after one that leaves memory by its definition. -/
theorem after {d e f : Dev} (k : KeepsMem e f) (h : e.mem = d.mem) : KeepsMem d f := ⟨k.mem.trans h⟩

theorem ite {p : Prop} [Decidable p] {d e f : Dev} (he : KeepsMem d e) (hf : KeepsMem d f) : KeepsMem d (if p then e else f) := by
  split
  · exact he
  · exact hf

theorem foldl {β : Type} {g : Dev → β → Dev} (l : List β) (h : ∀ d x, KeepsMem d (g d x)) (d : Dev) : KeepsMem d (l.foldl g d) :=
  ⟨foldl_keeps (fun e : Dev => e.mem) l (fun e x _ => (h e x).mem) d⟩

variable (d : Dev)

/-! ### Counts, events and frames to send -/

theorem bump (i sub w k : Nat) : KeepsMem d (bump d i sub w k) := ⟨rfl⟩
theorem setCnt (i sub v : Nat) : KeepsMem d (setCnt d i sub v) := ⟨rfl⟩
theorem postEvent (a b c x : Nat) : KeepsMem d (postEvent d a b c x) := ⟨postEvent_mem ..⟩
theorem postOnce (k a b c x : Nat) : KeepsMem d (postOnce d k a b c x) := ⟨postOnce_mem ..⟩
theorem addressError (source a : Nat) : KeepsMem d (addressError d source a) := postEvent ..
theorem latch (k : Nat) : KeepsMem d (latch d k) := ⟨latch_mem ..⟩
theorem raiseLevel (i : Nat) : KeepsMem d (raiseLevel d i) := ⟨rfl⟩
theorem updCore (n : Nat) (f : Core → Core) : KeepsMem d (updCore d n f) := ⟨rfl⟩
theorem updMgc (f : Mgc → Mgc) : KeepsMem d (updMgc d f) := ⟨rfl⟩
theorem updCam (p : Nat) (f : Cam → Cam) : KeepsMem d (updCam d p f) := ⟨rfl⟩
theorem updPower (f : Power → Power) : KeepsMem d (updPower d f) := ⟨rfl⟩
theorem updIsland (n : Nat) (f : Island → Island) : KeepsMem d (updIsland d n f) := ⟨updIsland_mem ..⟩
theorem updBreath (f : Breath → Breath) : KeepsMem d (updBreath d f) := ⟨rfl⟩
theorem updIc (n : Nat) (f : Ic → Ic) : KeepsMem d (updIc d n f) := ⟨rfl⟩
theorem updPorts (f : Ports → Ports) : KeepsMem d (updPorts d f) := ⟨rfl⟩
theorem canQueue (kind base : Nat) (bs : List Byte) : KeepsMem d (canQueue d kind base bs) := ite (refl d) (updMgc ..)
theorem drawNonce : KeepsMem d (drawNonce d) := ⟨rfl⟩

/-! ### The test port, boot, the TU and the MGC -/

theorem tapInstruction (t : TapOp) : KeepsMem d (tapInstruction d t) := ite (refl d) ⟨rfl⟩

theorem loadKeys : KeepsMem d (loadKeys d) := ite ⟨rfl⟩ (refl d)

theorem knownAnswer (ok : Bool) : KeepsMem d (knownAnswer d ok) := ite (refl d) (.after (loadKeys _) rfl)

theorem trainingDone (ok : Bool) (size rate packages ranks : Nat) : KeepsMem d (trainingDone d ok size rate packages ranks) :=
  ite (refl d) (ite (.after (loadKeys _) rfl) ⟨rfl⟩)

theorem ac0Release : KeepsMem d (ac0Release d) := ite ⟨rfl⟩ (refl d)

theorem canJoin : KeepsMem d (canJoin d) := ite (updMgc ..) (refl d)

theorem selfTestStart : KeepsMem d (selfTestStart d) := ite ⟨rfl⟩ (refl d)

theorem tuStart (op : Nat) : KeepsMem d (tuStart d op) := ite (refl d) ⟨rfl⟩

theorem attestSigned (o : Otp) : KeepsMem d (attestSigned o d) := ite ⟨rfl⟩ (refl d)

theorem tokenTested (o : Otp) : KeepsMem d (tokenTested o d) := by
  unfold Machine.tokenTested
  split
  · exact refl d
  · dsimp only
    refine ite ⟨rfl⟩ ?_
    split
    · exact .after (.trans (postEvent ..) (drawNonce _)) rfl
    · exact .after (.trans (ite (setCnt ..) (refl _)) (.trans (postEvent ..) (drawNonce _))) rfl

theorem mboxPut (n off : Nat) (bs : List Byte) : KeepsMem d (mboxPut d n off bs) := by
  induction bs generalizing d off with
  | nil => exact refl d
  | cons b bs ih => exact .after (ih ..) rfl

theorem mailboxPost (n : Nat) : KeepsMem d (mailboxPost d n) := ite (bump ..) (.trans (mboxPut ..) (updMgc ..))

theorem requestIn (bs : List Byte) : KeepsMem d (requestIn d bs) := by
  unfold Machine.requestIn
  exact ite (refl d) (ite (updMgc ..) (.trans (ite (bump ..) (.trans (bump ..) (canQueue ..))) (postOnce ..)))

theorem segTimeout : KeepsMem d (segTimeout d) := by
  unfold Machine.segTimeout
  split
  · exact .trans (updMgc ..) (canQueue ..)
  · exact refl d

theorem heartbeat : KeepsMem d (heartbeat d) := ite (refl d) ((canQueue ..).trans (updMgc ..))

theorem canEventFrame : KeepsMem d (canEventFrame d) := by
  unfold Machine.canEventFrame
  refine ite (refl d) ?_
  split
  · exact refl d
  · exact ite ⟨rfl⟩ (.after (canQueue ..) rfl)

theorem putCopy (o : Otp) (c : StoreCopy) : KeepsMem d (putCopy o d c) := ite ⟨rfl⟩ ⟨rfl⟩

theorem storeComplete (o : Otp) (ok : Bool) : KeepsMem d (storeComplete o d ok) := by
  unfold Machine.storeComplete
  split
  · exact refl d
  · refine ite (.trans (updMgc ..) (.trans (ite (putCopy ..) (refl _)) (setCnt ..))) ?_
    split
    · exact .trans (updMgc ..) (.trans (putCopy ..) ⟨rfl⟩)
    · exact ⟨rfl⟩

/-! ### The CP, windows and channels -/

theorem ctxBaseWrite (v : W64) : KeepsMem d (ctxBaseWrite d v) := by
  obtain ⟨b, base, h⟩ : ∃ b base, Machine.ctxBaseWrite d v = if b = true then d else updCp d fun c => { c with ctxBase := base } := ⟨_, _, rfl⟩
  rw [h]
  exact ite (refl d) ⟨rfl⟩

theorem evtCtrlWrite (v : W64) : KeepsMem d (evtCtrlWrite d v) := by
  constructor
  unfold Machine.evtCtrlWrite
  extract_lets old new
  clear_value old new
  split <;> rfl

theorem evtHeadWrite (v : W64) : KeepsMem d (evtHeadWrite d v) := ite ⟨rfl⟩ (bump ..)

theorem windowDrain (node i : Nat) : KeepsMem d (windowDrain d node i) := ite ⟨setWinAt_mem ..⟩ (refl d)

theorem chanDescWrite (ch k : Nat) (v : W64) (whole : Bool) : KeepsMem d (chanDescWrite d ch k v whole) :=
  ite (addressError ..) (ite ⟨rfl⟩ (refl d))

theorem chanActive (ch : Nat) : KeepsMem d (chanActive d ch) := ite ⟨rfl⟩ (refl d)

theorem chanCancelDone (ch : Nat) : KeepsMem d (chanCancelDone d ch) := ite ⟨rfl⟩ (refl d)

theorem loadTurnGrant (w : Nat) : KeepsMem d (loadTurnGrant d w) := by
  unfold Machine.loadTurnGrant
  refine ite ?_ (refl d)
  split
  · exact ⟨rfl⟩
  · exact refl d

/-! ### Camera ports, the ledger and image contexts -/

theorem hsBurst (p : Nat) (sync : Bool) : KeepsMem d (hsBurst d p sync) := ite (bump ..) (.trans (updCam ..) (ite ⟨rfl⟩ (refl _)))

theorem idleBurst (p : Nat) : KeepsMem d (idleBurst d p) := ite (refl d) (bump ..)

theorem deskew (p : Nat) (initial : Bool) : KeepsMem d (deskew d p initial) := ite (updCam ..) (refl d)

theorem updFrame (n no : Nat) (g : IcFrame → IcFrame) : KeepsMem d (updFrame d n no g) := ⟨rfl⟩

theorem takeLine (p n : Nat) (f : IcFrame) (bad : Bool) (bytes : Nat) (px : List Nat) : KeepsMem d (takeLine d p n f bad bytes px) :=
  ite (refl d) (ite (.trans (bump ..) (updFrame ..)) (ite (updFrame ..) (.after (.trans (ite (bump ..) (refl _)) (updFrame ..)) rfl)))

theorem insertBad (p n : Nat) : KeepsMem d (insertBad p d n) := by
  unfold Machine.insertBad
  split
  · exact .after (takeLine ..) rfl
  · exact refl d

theorem packetHeader (p vc dt word ecc : Nat) : KeepsMem d (packetHeader d p vc dt word ecc) := by
  unfold Machine.packetHeader
  exact ite (refl d) (ite (.trans (bump ..) (.trans (updCam ..) (foldl _ (fun e n => insertBad e p n) _)))
    (.trans (.trans (ite (bump ..) (refl d)) (bump ..)) (ite (updCam ..) (.trans (updCam ..) (ite (refl _) (bump ..))))))

theorem imageLine (p : Nat) (payload : List Byte) (crcOk : Bool) : KeepsMem d (imageLine d p payload crcOk) := by
  unfold Machine.imageLine
  split
  · dsimp only
    refine .trans (e := dropHeader d p) (updCam ..) ?_
    split
    · split
      · exact .trans (ite (refl _) (.trans (bump ..) (updCam ..))) (.trans (ite (refl _) (.trans (bump ..) (updCam ..))) (takeLine ..))
      · exact .trans (ite (refl _) (.trans (bump ..) (updCam ..))) (.trans (ite (refl _) (.trans (bump ..) (updCam ..))) (bump ..))
    · exact bump ..
  · exact refl d

theorem i3cCommand (p : Nat) (v : W64) : KeepsMem d (i3cCommand d p v) := ite (bump ..) ⟨rfl⟩

theorem i3cDone (p code bytes : Nat) (rx : List Byte) : KeepsMem d (i3cDone d p code bytes rx) := by
  unfold Machine.i3cDone
  exact ite (.after (ite (refl _) (bump ..)) rfl) (refl d)

theorem ibi (p addr : Nat) (payload : Option Byte) : KeepsMem d (ibi d p addr payload) := ite ⟨rfl⟩ (refl d)

theorem trigStart (p : Nat) : KeepsMem d (trigStart d p) := ite ⟨rfl⟩ (refl d)

theorem missEntry (p e : Nat) : KeepsMem d (missEntry d p e) := .after (postEvent ..) rfl

theorem ledgerArm (p e : Nat) (tag : Byte) : KeepsMem d (ledgerArm d p e tag) :=
  ite (refl d) (.after (ite (missEntry ..) (refl _)) rfl)

theorem ledgerDisarm (p e : Nat) (tag : Byte) : KeepsMem d (ledgerDisarm d p e tag) := ite (refl d) ⟨rfl⟩

theorem ledgerIssue (p e : Nat) : KeepsMem d (ledgerIssue d p e) := by
  unfold Machine.ledgerIssue
  exact ite (.after (ite (.trans (bump ..) (updCam ..)) (refl _)) rfl) (refl d)

theorem ledgerGood (p e issue : Nat) : KeepsMem d (ledgerGood d p e issue) := by
  unfold Machine.ledgerGood
  exact .after (ite (.trans (bump ..) (postEvent ..)) (refl _)) rfl

theorem ledgerFail (p e issue code : Nat) : KeepsMem d (ledgerFail d p e issue code) := .after (postEvent ..) rfl

theorem ledgerStop (p code : Nat) : KeepsMem d (ledgerStop d p code) := by
  unfold Machine.ledgerStop
  dsimp only
  split
  · exact ite (refl d) (.trans (updCam ..) (.trans (ite (ledgerGood ..) (ledgerFail ..)) (updCam ..)))
  · exact refl d

/-! ### Audio, Ethernet, CAN FD and the PLIC -/

theorem groupTake (g src : Nat) (t : Int) (row : List (BitVec 24)) : KeepsMem d (groupTake d g src t row) := ite (refl d) (ite ⟨rfl⟩ ⟨rfl⟩)

theorem micSample (hp : Bool) (m : Nat) (x : BitVec 24) : KeepsMem d (micSample d hp m x).1 := by
  unfold Machine.micSample
  split <;> exact ⟨rfl⟩

theorem micSamples (hp : Bool) (v : List (BitVec 24)) (ms : List Nat) : KeepsMem d (micSamples d hp v ms).1 := by
  induction ms generalizing d with
  | nil => exact refl d
  | cons m ms ih => exact (micSample d hp m _).trans (ih _)

theorem groupPdm (rate : Nat) (v : List (BitVec 24)) (g : Nat) : KeepsMem d (groupPdm rate v d g) :=
  ite (.trans (micSamples ..) (groupTake ..)) (refl d)

theorem pdmSample (rate : Nat) (v : List (BitVec 24)) : KeepsMem d (pdmSample d rate v) := foldl _ (fun e g => groupPdm e rate v g) d

theorem groupTdm (t : Nat) (v : List W32) (g : Nat) : KeepsMem d (groupTdm t v d g) := ite (groupTake ..) (refl d)

theorem tdmFrame (t : Nat) (v : List W32) : KeepsMem d (tdmFrame d t v) :=
  ite (.after (foldl _ (fun e g => groupTdm e t v g) _) rfl) (refl d)

theorem usbSof : KeepsMem d (usbSof d) := ite ⟨rfl⟩ (refl d)

theorem ethReceive (e : Nat) (f : List Byte) (fcsBad : Bool) : KeepsMem d (ethReceive d e f fcsBad) := by
  unfold Machine.ethReceive
  exact ite (refl d) (.trans (ite (bump ..) (refl d)) (ite (refl _) (ite ⟨rfl⟩ (bump ..))))

theorem ptpCapture (v : W64) : KeepsMem d (ptpCapture d v) := ite ⟨rfl⟩ (refl d)

theorem canReceive (f : CanFrame) : KeepsMem d (canReceive d f) :=
  ite (refl d) (ite (requestIn ..) (ite (refl d) (ite (ite ⟨rfl⟩ (refl d)) (bump ..))))

theorem canBusOff (tec : Nat) : KeepsMem d (canBusOff d tec) := ite (refl d) (.after (postEvent ..) rfl)

theorem canRecover : KeepsMem d (canRecover d) := ite ⟨rfl⟩ (refl d)

theorem canErrorState (passive : Bool) : KeepsMem d (canErrorState d passive) := ite (refl d) ⟨rfl⟩

theorem gpioEdge (i : Nat) (level : Bool) : KeepsMem d (gpioEdge d i level) := ite (refl d) ⟨rfl⟩

theorem cacheUncorrectable (a : Nat) : KeepsMem d (cacheUncorrectable d a) := ⟨raiseIrq_mem ..⟩

theorem plicClaim (c : Nat) : KeepsMem d (plicClaim d c) := by
  unfold Machine.plicClaim
  split <;> exact ⟨rfl⟩

/-! ### The memory controller -/

theorem regionWrite (r k : Nat) (v : W64) (fromMgc whole : Bool) : KeepsMem d (regionWrite d r k v fromMgc whole) := by
  unfold Machine.regionWrite
  exact ite (addressError ..) (ite (refl d) ⟨rfl⟩)

theorem unmappedAccess (g : Option (Fin 8)) (a : Nat) (write whole : Bool) : KeepsMem d (unmappedAccess d g a write whole) :=
  ite (addressError ..) (refl d)

theorem linkCorrected (c k : Nat) : KeepsMem d (linkCorrected d c k) := by
  unfold Machine.linkCorrected
  exact .trans (bump ..) (ite (refl _) (.after (ite (.trans (latch ..) (.trans (postEvent ..) ⟨rfl⟩)) (refl _)) rfl))

theorem retrainDone (ok : Bool) (ns k : Nat) : KeepsMem d (retrainDone d ok ns k) := by
  unfold Machine.retrainDone
  split
  · exact refl d
  next c _ =>
    dsimp only
    refine .trans (e := Machine.setCnt (Machine.linkCorrected d c k) 0x2401 4 (max (cnt (Machine.linkCorrected d c k) 0x2401 4) ns)) ((linkCorrected ..).trans (setCnt ..)) ?_
    split
    · exact ⟨rfl⟩
    · exact .trans (postEvent ..) ⟨rfl⟩

/-! ### Power and the breath -/

theorem frequencyStep (i : Nat) : KeepsMem d (frequencyStep d i) := ite (updPower ..) (updIsland ..)

theorem clockStop (n : Nat) : KeepsMem d (clockStop d n) := ite (updCore ..) (refl d)

theorem avsLimit (n : Nat) : KeepsMem d (avsLimit d n) := ite (.trans (bump ..) (.trans (updIsland ..) (postOnce ..))) (refl d)

theorem avsUpdate (n : Nat) (slack : Int) : KeepsMem d (avsUpdate d n slack) :=
  ite (refl d) (ite (ite (avsLimit ..) (updIsland ..)) (ite (updIsland ..) (refl d)))

theorem avsRecovery (n : Nat) : KeepsMem d (avsRecovery d n) := ite (.trans (updIsland ..) (frequencyStep ..)) (refl d)

theorem droopStretch (n : Nat) (slack : Int) : KeepsMem d (droopStretch d n slack) := ite (.trans (updIsland ..) (bump ..)) (updIsland ..)

theorem monitorRead (k : Nat) (ok : Bool) (mv count code : Nat) : KeepsMem d (monitorRead d k ok mv count code) :=
  ite (refl d) (ite (updPower ..) (.trans (bump ..) (updPower ..)))

theorem telemetry : KeepsMem d (telemetry d) := by
  unfold Machine.telemetry
  exact .trans (updPower ..) (ite (ite (.trans (setCnt ..) (postEvent ..)) (refl _)) (ite (setCnt ..) (refl _)))

theorem floors (p cap hyst : Nat) : KeepsMem d (floors d p cap hyst) := by
  unfold Machine.floors
  exact .trans (updPower ..) (ite (.after (postOnce ..) rfl) (ite (setCnt ..) (refl _)))

theorem writeLimits (n : Nat) : KeepsMem d (writeLimits d n) := .trans (updIsland ..) (updCore ..)

theorem bellowsWindow : KeepsMem d (bellowsWindow d) := by
  unfold Machine.bellowsWindow
  exact .trans (telemetry d) (.trans (ite (refl _) (.trans (updPower ..) (.trans (updPower ..) (.trans (setCnt ..) (floors ..))))) (.trans (updPower ..) (foldl _ (fun e n => writeLimits e n) _)))

theorem heatCore (n : Nat) (t : Int) : KeepsMem d (heatCore d n t) := by
  unfold Machine.heatCore
  exact ite (.trans (ite (refl d) (bump ..)) (.trans (updIsland ..) (ite (postOnce ..) (refl _)))) (ite (updIsland ..) (refl d))

theorem thermalCritical (k : Nat) (t : Int) : KeepsMem d (thermalCritical d k t) := by
  unfold Machine.thermalCritical
  exact .trans (ite (refl d) (postEvent ..)) (.trans (updPower ..) (foldl _ (fun _ _ => .trans (updIsland ..) (updCore ..)) _))

theorem setSetting (i sub v : Nat) : KeepsMem d (setSetting d i sub v) := ⟨rfl⟩

theorem stopAll : KeepsMem d (stopAll d) := by
  unfold Machine.stopAll
  exact foldl _ (fun _ _ => .trans (setCnt ..) (setSetting ..)) d

theorem tripped : KeepsMem d (tripped d) := ⟨rfl⟩

theorem thermalTrip (k : Nat) : KeepsMem d (thermalTrip d k) := by
  unfold Machine.thermalTrip
  exact .trans (canQueue ..) (.after (.trans (setCnt ..) (.trans (stopAll _) (tripped _))) rfl)

theorem thermalSample (ts : List Int) : KeepsMem d (thermalSample d ts) := by
  unfold Machine.thermalSample
  split
  · exact refl d
  · exact .trans (foldl _ (fun _ _ => setCnt ..) d) (.after (ite (refl _) (ite (thermalTrip ..)
      (.trans (ite (updPower ..) (refl _)) (.trans (foldl _ (fun _ _ => heatCore ..) _) (ite (thermalCritical ..) (refl _)))))) rfl)

theorem setLock (v : Nat) : KeepsMem d (setLock d v) := ⟨rfl⟩

theorem dueEvent (n : Nat) (e : Int) : KeepsMem d (dueEvent d n e) := by
  unfold Machine.dueEvent
  dsimp only
  split
  · exact ⟨rfl⟩
  · split
    · exact .after (.trans (postEvent ..) ⟨rfl⟩) rfl
    · split <;> exact ⟨rfl⟩

theorem syncEvent (icn : Option Nat) : KeepsMem d (syncEvent d icn) := by
  unfold Machine.syncEvent
  dsimp only
  refine ite ?_ (refl d)
  split
  · exact .trans (updBreath ..) (dueEvent ..)
  · exact refl d

end KeepsMem

theorem mem_nextDev {s t : State} {f : Dev → Dev} (h : nextDev s f = .next t) (hf : ∀ d, KeepsMem d (f d)) : t.dev.mem = s.dev.mem := by
  injection h with h
  rw [← h]
  split
  · rfl
  · exact (hf s.dev).mem

theorem mem_nextMgc {s t : State} {f : Dev → Dev} (h : nextMgc s f = .next t) (hf : ∀ d, KeepsMem d (f d)) : t.dev.mem = s.dev.mem := by
  injection h with h
  rw [← h]
  split
  · rfl
  · exact (hf s.dev).mem

theorem mem_onDev {s t : State} {f : Dev → Dev} (h : Host.Outcome.next (onDev s f) = (.next t : Host.Outcome State Fault Refusal)) (hf : ∀ d, KeepsMem d (f d)) :
    t.dev.mem = s.dev.mem := by
  injection h with h
  rw [← h]
  exact (hf s.dev).mem

theorem mem_fuseProgramDone (s : State) : (fuseProgramDone s).dev.mem = s.dev.mem := by
  unfold fuseProgramDone
  split
  · rfl
  · dsimp only
    split <;> rw [postEvent_mem] <;> rfl

end Sys2Proof.Proofs


/-! ## O8: what the arrays' reads leave, and the obligation -/

namespace Sys2Proof.Proofs
open Sys2Proof.Machine

/-! ### The issue cycle reads core memory and stores nothing -/

theorem readBytes_ram (d : Dev) (n : Nat) (wm : Bool) (off k : Nat) : (readBytes d n wm off k).mem.ram = d.mem.ram := by
  unfold readBytes
  split
  · rfl
  · exact foldl_keeps (fun e : Dev => e.mem.ram) _ (fun e _ _ => coreMemRead_ram e ..) d

theorem touchRow_ram (d : Dev) (n : Nat) (r : FeedRow) : (touchRow d n r).mem.ram = d.mem.ram := by
  unfold touchRow
  split
  · split
    · rfl
    · exact foldl_keeps (fun e : Dev => e.mem.ram) _ (fun e _ _ => readBytes_ram e ..) d
  · rfl

theorem issueRow_ram (d : Dev) (n ai : Nat) (a : Arr) (r : FeedRow) : (issueRow d n ai a r).1.mem.ram = d.mem.ram := touchRow_ram d n r

theorem freeHalf_mem (d : Dev) (n : Nat) (r : FeedRow) : (freeHalf d n r).mem = d.mem := by
  unfold freeHalf
  split <;> rfl

theorem beatDone_mem (d : Dev) (n : Nat) (a : Arr) (r : FeedRow) (left : Nat) : (beatDone d n a r left).1.mem = d.mem := by
  unfold beatDone
  dsimp only
  split
  · exact freeHalf_mem d n r
  · rfl

theorem issueHead_ram (d : Dev) (n ai : Nat) (a : Arr) (r : FeedRow) : (issueHead d n ai a r).1.mem.ram = d.mem.ram := by
  unfold issueHead
  dsimp only
  rw [beatDone_mem]
  split
  · rfl
  · split
    · rfl
    · exact issueRow_ram ..

theorem bubble_mem (d : Dev) (n : Nat) (a : Arr) (held : Bool) : (bubble d n a held).1.mem = d.mem := by
  unfold bubble
  simp only [apply_ite Prod.fst, apply_ite Dev.mem, updCore_mem, bump_mem, ite_self]

theorem issueArray_ram (c : Core) (n : Nat) (d : Dev) (ai : Nat) : (issueArray c n d ai).mem.ram = d.mem.ram := by
  unfold issueArray
  dsimp only
  rw [updArr_mem]
  split
  · rw [bubble_mem]
  · split
    · rw [beatDone_mem]
    · split
      · rw [bubble_mem]
      · split
        · exact issueHead_ram ..
        · rw [bubble_mem]
          split <;> rfl

theorem issueCycle_ram (d : Dev) (n : Nat) (push : Nat → Option FeedRow) : (issueCycle d n push).mem.ram = d.mem.ram := by
  unfold issueCycle
  dsimp only
  split
  · rfl
  · exact foldl_keeps (fun e : Dev => e.mem.ram) _ (fun e a _ => issueArray_ram _ n e a) _

theorem wregFill_ram (d : Dev) (n i t ky kx kb : Nat) : (wregFill d n i t ky kx kb).mem.ram = d.mem.ram := by
  unfold wregFill
  dsimp only
  split
  · split
    · split
      · exact (touchFill_spec ..).2
      · rfl
    · rfl
  · rfl

theorem ram_nextDev {s t : State} {f : Dev → Dev} (h : nextDev s f = .next t) (hf : ∀ d, (f d).mem.ram = d.mem.ram) (a : Nat) :
    peek t.dev.mem a = peek s.dev.mem a := by
  injection h with h
  refine peek_of_ram ?_ a
  rw [← h]
  split
  · rfl
  · exact hf s.dev

theorem onlyReads_peek {c : Instr} {s t : State} (hc : onlyReads c = true) (h : exec c s = .next t) (a : Nat) : peek t.dev.mem a = peek s.dev.mem a := by
  cases c with
  | issueCycle n p q => exact ram_nextDev h (fun d => issueCycle_ram d n _) a
  | wregFill n i t ky kx kb => exact ram_nextDev h (fun d => wregFill_ram d ..) a
  | _ => exact absurd hc Bool.false_ne_true

/-! ### The commands that store nothing -/

theorem mem_nextAll {s t : State} {f : State → State} (h : nextAll s f = .next t) (hf : ∀ s, (f s).dev.mem = s.dev.mem) : t.dev.mem = s.dev.mem := by
  injection h with h
  rw [← h]
  split
  · rfl
  · exact hf s

theorem keepsMemory_mem {c : Instr} {s t : State} (hc : keepsMemory c = true) (h : exec c s = .next t) : t.dev.mem = s.dev.mem := by
  cases c with
  | tapReset => exact mem_onDev h (fun _ => ⟨rfl⟩)
  | tapInstruction _ => exact mem_onDev h (fun d => .tapInstruction d _)
  | tuKnownAnswerTests _ => exact mem_nextMgc h (fun d => .knownAnswer d ..)
  | trainingComplete _ _ _ _ _ => exact mem_nextDev h (fun d => .trainingDone d ..)
  | ac0Release => exact mem_nextDev h (fun d => .ac0Release d)
  | canJoin => exact mem_nextMgc h (fun d => .canJoin d)
  | selfTestStart => exact mem_nextDev h (fun d => .selfTestStart d)
  | verifyLoader => exact mem_nextDev h (fun d => .tuStart d ..)
  | verify => exact mem_nextDev h (fun d => .tuStart d ..)
  | extend => exact mem_nextDev h (fun d => .tuStart d ..)
  | releaseBootPhase => exact mem_nextDev h (fun d => .tuStart d ..)
  | fuseProgramDone => exact mem_nextAll h mem_fuseProgramDone
  | attestSigned => exact mem_nextMgc h (fun d => .attestSigned d ..)
  | debugTokenTested => exact mem_nextMgc h (fun d => .tokenTested d ..)
  | mailboxPost _ => exact mem_nextMgc h (fun d => .mailboxPost d ..)
  | canRequestFrame _ => exact mem_nextMgc h (fun d => .requestIn d ..)
  | segTimeout => exact mem_nextMgc h (fun d => .segTimeout d)
  | heartbeat => exact mem_nextMgc h (fun d => .heartbeat d)
  | canEventFrame => exact mem_nextMgc h (fun d => .canEventFrame d)
  | storeComplete _ => exact mem_nextMgc h (fun d => .storeComplete d ..)
  | ctxBaseWrite _ => exact mem_nextDev h (fun d => .ctxBaseWrite d ..)
  | evtCtrlWrite _ => exact mem_nextDev h (fun d => .evtCtrlWrite d ..)
  | evtHeadWrite _ => exact mem_nextDev h (fun d => .evtHeadWrite d ..)
  | groupChangeover _ _ _ => exact mem_nextDev h (fun _ => ⟨rfl⟩)
  | rampDownStart _ _ => exact mem_nextDev h (fun _ => ⟨rfl⟩)
  | rampDownStep _ _ => exact mem_nextDev h (fun _ => ⟨rfl⟩)
  | rampUpStep _ _ => exact mem_nextDev h (fun _ => ⟨rfl⟩)
  | dutyWindow _ _ => exact mem_nextDev h (fun _ => ⟨rfl⟩)
  | windowDrainTimeout _ _ => exact mem_nextDev h (fun d => .windowDrain d ..)
  | channelDescriptorWrite _ _ _ _ => exact mem_nextDev h (fun d => .chanDescWrite d ..)
  | channelActive _ => exact mem_nextDev h (fun d => .chanActive d ..)
  | channelCancelDone _ => exact mem_nextDev h (fun d => .chanCancelDone d ..)
  | loadTurnGrant _ => exact mem_nextDev h (fun d => .loadTurnGrant d ..)
  | hsBurst _ _ => exact mem_nextDev h (fun d => .hsBurst d ..)
  | idleBursts _ => exact mem_nextDev h (fun d => .idleBurst d ..)
  | deskewSequence _ _ => exact mem_nextDev h (fun d => .deskew d ..)
  | packetHeader _ _ _ _ _ => exact mem_nextDev h (fun d => .packetHeader d ..)
  | imageLinePacket _ _ _ => exact mem_nextDev h (fun d => .imageLine d ..)
  | i3cWrite _ _ _ => exact mem_nextDev h (fun d => .i3cCommand d ..)
  | i3cRead _ _ _ => exact mem_nextDev h (fun d => .i3cCommand d ..)
  | i3cWriteThenRead _ _ _ _ => exact mem_nextDev h (fun d => .i3cCommand d ..)
  | i3cCcc _ _ _ _ _ _ => exact mem_nextDev h (fun d => .i3cCommand d ..)
  | i3cCommandDone _ _ _ _ => exact mem_nextDev h (fun d => .i3cDone d ..)
  | ibi _ _ _ => exact mem_nextDev h (fun d => .ibi d ..)
  | triggerPulseStart _ => exact mem_nextDev h (fun d => .trigStart d ..)
  | triggerPulseEnd _ => exact mem_nextDev h (fun _ => ⟨rfl⟩)
  | shadowWrite _ _ _ => exact mem_nextDev h (fun _ => ⟨rfl⟩)
  | latchCopyDone _ => exact mem_nextDev h (fun _ => ⟨rfl⟩)
  | ledgerArm _ _ _ => exact mem_nextDev h (fun d => .ledgerArm d ..)
  | ledgerDisarm _ _ _ => exact mem_nextDev h (fun d => .ledgerDisarm d ..)
  | ledgerIssue _ _ => exact mem_nextDev h (fun d => .ledgerIssue d ..)
  | ledgerTransferStop _ _ => exact mem_nextDev h (fun d => .ledgerStop d ..)
  | pdmSample _ _ => exact mem_nextDev h (fun d => .pdmSample d ..)
  | tdmFrameSync _ _ => exact mem_nextDev h (fun d => .tdmFrame d ..)
  | usbSof => exact mem_nextDev h (fun d => .usbSof d)
  | ethFrameReceive _ _ _ => exact mem_nextDev h (fun d => .ethReceive d ..)
  | mdioDone _ => exact mem_nextDev h (fun d => .raiseLevel d ..)
  | ptpTick => exact mem_nextDev h (fun _ => ⟨rfl⟩)
  | ptpStep _ => exact mem_nextDev h (fun _ => ⟨rfl⟩)
  | ptpCapture _ => exact mem_nextDev h (fun d => .ptpCapture d ..)
  | ptpPps => exact mem_nextDev h (fun d => .updPorts d ..)
  | canFrameReceive _ => exact mem_nextMgc h (fun d => .canReceive d ..)
  | canBusOff _ => exact mem_nextMgc h (fun d => .canBusOff d ..)
  | canBusRecovery => exact mem_nextMgc h (fun d => .canRecover d)
  | canErrorStateChange _ => exact mem_nextMgc h (fun d => .canErrorState d ..)
  | uartDataRead _ => exact mem_nextDev h (fun _ => ⟨rfl⟩)
  | gpioEdge _ _ => exact mem_nextDev h (fun d => .gpioEdge d ..)
  | apcCacheUncorrectable _ => exact mem_nextDev h (fun d => .cacheUncorrectable d ..)
  | plicClaim _ => exact mem_nextDev h (fun d => .plicClaim d ..)
  | regionEntryWrite _ _ _ _ _ => exact mem_nextDev h (fun d => .regionWrite d ..)
  | unmappedAccess _ _ _ _ => exact mem_nextDev h (fun d => .unmappedAccess d ..)
  | refresh _ => exact mem_nextDev h (fun _ => ⟨rfl⟩)
  | retrainDue _ => exact mem_nextDev h (fun _ => ⟨rfl⟩)
  | retrainChannelDone _ _ _ => exact mem_nextDev h (fun d => .retrainDone d ..)
  | frequencyStep _ => exact mem_nextDev h (fun d => .frequencyStep d ..)
  | clockStop _ => exact mem_nextDev h (fun d => .clockStop d ..)
  | clockRestart _ => exact mem_nextDev h (fun d => .updCore d ..)
  | avsUpdate _ _ => exact mem_nextDev h (fun d => .avsUpdate d ..)
  | avsRecovery _ => exact mem_nextDev h (fun d => .avsRecovery d ..)
  | droopStretch _ _ => exact mem_nextDev h (fun d => .droopStretch d ..)
  | monitorRead _ _ _ _ _ => exact mem_nextMgc h (fun d => .monitorRead d ..)
  | bellowsWindow => exact mem_nextMgc h (fun d => .bellowsWindow d)
  | thermalSample _ => exact mem_nextMgc h (fun d => .thermalSample d ..)
  | syncReferenceEvent _ => exact mem_nextMgc h (fun d => .syncEvent d ..)
  | _ => exact absurd hc Bool.false_ne_true

/-- Settles O8, by a frame rule for each meaning of the commands listed. -/
theorem commandsKeepMemory : Obligations.CommandsKeepMemory :=
  fun _ _ _ h => ⟨fun hc => keepsMemory_mem hc h, fun hc => onlyReads_peek hc h⟩

end Sys2Proof.Proofs


/-! ## O21: functions move through their states, and the store completes -/

namespace Sys2Proof.Proofs
open Sys2Proof.Machine

/-- A step that moves no function's state. -/
structure KeepsActual (d e : Dev) : Prop where
  actual : ∀ g < 34, Machine.actual e g = Machine.actual d g

namespace KeepsActual

variable {d e f : Dev}

theorem refl (d : Dev) : KeepsActual d d := ⟨fun _ _ => rfl⟩

theorem trans (h : KeepsActual d e) (k : KeepsActual e f) : KeepsActual d f := ⟨fun g hg => (k.actual g hg).trans (h.actual g hg)⟩

theorem of_od (h : e.od = d.od) : KeepsActual d e := ⟨fun g _ => by rw [Machine.actual, Machine.actual, cnt, cnt, h]⟩

/-- A step after one that leaves the dictionary by its definition. -/
theorem after (k : KeepsActual e f) (h : e.od = d.od) : KeepsActual d f := (of_od h).trans k

theorem ite {p : Prop} [Decidable p] (he : KeepsActual d e) (hf : KeepsActual d f) : KeepsActual d (if p then e else f) := by
  split
  · exact he
  · exact hf

theorem foldl {β : Type} {g : Dev → β → Dev} (l : List β) (h : ∀ d x, KeepsActual d (g d x)) (d : Dev) : KeepsActual d (l.foldl g d) :=
  ⟨fun n hn => foldl_keeps (fun e : Dev => Machine.actual e n) l (fun e x _ => (h e x).actual n hn) d⟩

theorem of_leaves (h : Leaves AccessKey d e) : KeepsActual d e := ⟨fun _ hg => h.cnt (accessKey_function (by omega) (by decide))⟩

variable (d)

/-- Counters behind the functions' entries. -/
theorem setCnt {i : Nat} (sub v : Nat) (hi : 0x1122 ≤ i) : KeepsActual d (setCnt d i sub v) :=
  ⟨fun _ hg => cnt_setCnt_ne _ _ _ _ (by unfold odKey; omega)⟩

theorem bump {i : Nat} (sub w k : Nat) (hi : 0x1122 ≤ i) : KeepsActual d (bump d i sub w k) := setCnt d _ _ hi

/-- The other counters of a function's entry. -/
theorem setEntry {i sub : Nat} (v : Nat) (hsub : sub < 256) (hne : sub ≠ 3) : KeepsActual d (Machine.setCnt d i sub v) :=
  ⟨fun _ _ => cnt_setCnt_ne _ _ _ _ (by unfold odKey; omega)⟩

theorem postEvent (a b c x : Nat) : KeepsActual d (postEvent d a b c x) := ⟨fun _ _ => cnt_postEvent ..⟩

theorem setAbort (f code i sub : Nat) : KeepsActual d (setAbort d f code i sub) :=
  .trans (setEntry d _ (by decide) (by decide)) (.trans (setEntry _ _ (by decide) (by decide)) (setEntry _ _ (by decide) (by decide)))

theorem queueLoad (p q : Nat) : KeepsActual d (queueLoad d p q) := of_leaves (QueueStep.queueLoad ..).leaves

theorem usbSettle : KeepsActual d (usbSettle d) := by
  unfold Machine.usbSettle
  exact ite (.after (.trans (of_leaves (QueueStep.portAbort ..).leaves) (setCnt _ _ _ (by decide))) rfl) (of_od rfl)

theorem noteBlocks (n : Nat) : KeepsActual d (noteBlocks d n) := .trans (setCnt _ _ _ (by unfold icX; omega)) (setCnt _ _ _ (by unfold icX; omega))

theorem icStart (n : Nat) : KeepsActual d (icStart d n) := by
  unfold Machine.icStart
  exact .after (.trans (setCnt _ _ _ (by unfold icX; omega)) (.trans (foldl _ (fun _ _ => setCnt _ _ _ (by unfold icX; omega)) _)
    (.trans (setCnt _ _ _ (by unfold icX; omega)) (noteBlocks ..)))) rfl

theorem blockStart (f : Nat) : KeepsActual d (blockStart d f) := by
  unfold Machine.blockStart
  exact ite (of_od rfl) (ite (icStart ..) (ite (of_od rfl) (refl d)))

theorem missEntry (p e : Nat) : KeepsActual d (missEntry d p e) :=
  .after (.trans (bump _ _ _ _ (by omega)) (postEvent ..)) rfl

theorem missArmed (p : Nat) : KeepsActual d (missArmed d p) := foldl _ (fun e x => missEntry e p x) d

theorem setChan (c : Nat) (v : Chan) : KeepsActual d (setChan d c v) := of_od rfl

theorem icStopped (n : Nat) : KeepsActual d (icStopped d n) := by
  unfold Machine.icStopped
  refine .trans ?_ (foldl _ (fun e p => ite (missArmed e p) (refl e)) _)
  refine .trans ?_ (foldl _ (fun e f => ite (setChan e ..) (refl e)) _)
  exact .after (noteBlocks ..) rfl

end KeepsActual

/-! ### Transitions -/

theorem actual_setActual_ne (d : Dev) {f g : Nat} (v : Nat) (h : g ≠ f) : actual (setActual d f v) g = actual d g :=
  cnt_setCnt_ne _ _ _ _ (by unfold odKey; omega)

theorem actual_bump (d : Dev) (f k : Nat) {sub w : Nat} (hsub : sub < 256) (hne : sub ≠ 3) (g : Nat) :
    actual (bump d (0x1100 + f) sub w k) g = actual d g := cnt_bump_ne _ _ _ _ _ (by unfold odKey; omega)

theorem actual_goRunning (d : Dev) (f : Nat) : actual (goRunning d f) f = 2 :=
  (actual_bump _ f 1 (by decide) (by decide) f).trans (cnt_setCnt ..)

/-- A port function's start loads its queues and settles the terminations of USB. -/
theorem functionRunning_actual {d : Dev} {f : Nat} (hf : f < 34) (h : actual d f = 1) (hp : 0x1D ≤ f) : actual (functionRunning d f) f = 2 := by
  unfold functionRunning
  rw [if_neg (by omega)]
  dsimp only
  split
  · have hq := KeepsActual.foldl (List.range (queueCount (f - portFn 0))) (fun e q => KeepsActual.queueLoad e (f - portFn 0) q) (goRunning d f)
    exact ((hq.trans (.ite (.usbSettle _) (.refl _))).actual f hf).trans (actual_goRunning d f)
  · exact actual_goRunning d f

theorem functionStopped_actual {d : Dev} {f : Nat} (hf : f < 34) (h : actual d f = 3) (hm : mayStop d f = true) : actual (functionStopped d f) f = 0 := by
  unfold functionStopped
  rw [if_pos (by rw [h, hm]; rfl)]
  have hk : KeepsActual (setActual d f 0) (if 0x05 ≤ f ∧ f ≤ 0x14 then icStopped (setActual d f 0) (f - 0x05)
      else if 0x15 ≤ f ∧ f ≤ 0x1C then updGrp (setActual d f 0) (f - 0x15) fun _ => {} else setActual d f 0) :=
    .ite (.icStopped ..) (.ite (.of_od rfl) (.refl _))
  exact (hk.actual f hf).trans (actual_setActual ..)

theorem actual_toFaulted (d : Dev) {f : Nat} (hf : f < 34) : actual (toFaulted d f) f = 4 := by
  unfold toFaulted
  refine ((KeepsActual.ite (.usbSettle _) (.refl _)).actual f hf).trans ?_
  rw [actual_bump _ f 1 (by decide) (by decide), actual_setActual]

theorem toFaulted_of_ne (d : Dev) {f : Nat} (h : f ≠ 0x1D) : toFaulted d f = bump (setActual d f 4) (0x1100 + f) 8 4 1 := if_neg h

theorem fnUp_iff (d : Dev) (f : Nat) : fnUp d f = true ↔ actual d f = 1 ∨ actual d f = 2 := by simp [fnUp]

theorem functionTransitions : Claim.FunctionTransitions := by
  intro s f ha
  have hx (c : Instr) (g : Dev → Dev) (hc : exec c s = nextDev s g) : exec c s = .next (onDev s g) := hc.trans (nextDev_awake ha)
  have hrun := hx (.functionRunning f) (fun d => functionRunning d f) rfl
  have hfail := hx (.startFailed f) (fun d => startFailed d f) rfl
  have hstop := hx (.functionStopped f) (fun d => functionStopped d f) rfl
  have htime := hx (.stopTimeout f) (fun d => stopTimeout d f) rfl
  have hfault (cause : BitVec 16) := hx (.functionFaulted f cause) (fun d => functionFaulted d f cause.toNat) rfl
  refine ⟨fun h hf => ?_, fun h hf => ⟨_, hrun, functionRunning_actual f.isLt h hf⟩, fun h => ?_, fun h => ?_, fun h => ?_, fun h hm hf => ?_,
    fun h hm => ⟨_, hstop, functionStopped_actual f.isLt h hm⟩, fun h => ?_, fun h hf => ?_, fun h => ⟨_, htime, ?_⟩, fun h => ?_,
    fun cause h hf => ?_, fun cause h => ⟨_, hfault cause, ?_⟩, fun cause h h' => ?_⟩
  · rw [hrun, onDev, functionRunning, if_neg (by omega)]
    dsimp only
    rw [if_neg (by unfold portFn; omega)]
    rfl
  · rw [hrun, onDev_eq_self]
    rw [functionRunning, if_pos h]
  · rw [hfail, onDev, startFailed, if_pos h]
    rfl
  · rw [hfail, onDev_eq_self]
    rw [startFailed, if_neg h]
  · rw [hstop, onDev, functionStopped, if_pos (by rw [h, hm]; rfl)]
    dsimp only
    rw [if_neg (by omega)]
    split
    · omega
    · rfl
  · rw [hstop, onDev_eq_self]
    rw [functionStopped, if_neg]
    obtain h | h := h <;> simp [h]
  · rw [htime, onDev, stopTimeout, if_pos h, toFaulted_of_ne _ hf]
    rfl
  · rw [onDev, stopTimeout, if_pos h]
    exact (cnt_postEvent ..).trans (actual_toFaulted _ f.isLt)
  · rw [htime, onDev_eq_self]
    rw [stopTimeout, if_neg h]
  · rw [hfault, onDev, functionFaulted, if_pos ((fnUp_iff ..).mpr h), toFaulted_of_ne _ hf]
    rfl
  · rw [onDev, functionFaulted, if_pos ((fnUp_iff ..).mpr h)]
    exact (cnt_postEvent ..).trans (actual_toFaulted _ f.isLt)
  · rw [hfault, onDev_eq_self]
    rw [functionFaulted, if_neg (by rw [fnUp_iff]; omega)]

/-! ### A request moves its own function -/

theorem requestRunning_actual (d : Dev) (f : Nat) {g : Nat} (hg : g < 34) :
    actual (requestRunning d f).1 g = actual d g ∨ g = f ∧ actual (requestRunning d f).1 g = 1 := by
  unfold requestRunning
  split
  · exact .inl ((KeepsActual.setAbort ..).actual g hg)
  · have hb := (KeepsActual.blockStart (setActual (setAbort (setRequested d f 2) f 0 0 0) f 1) f).actual g hg
    by_cases h : g = f
    · exact .inr ⟨h, hb.trans (by rw [h, actual_setActual])⟩
    · exact .inl (hb.trans ((actual_setActual_ne _ _ h).trans ((KeepsActual.setAbort ..).actual g hg)))

theorem poolSettle_actual (d : Dev) (g : Nat) : actual (poolSettle d) g = actual d g ∨ g = 0 ∧ actual (poolSettle d) g = 0 := by
  unfold poolSettle
  split
  · by_cases h : g = 0
    · exact .inr ⟨h, by rw [h]; exact cnt_setCnt ..⟩
    · exact .inl (cnt_setCnt_ne _ _ _ _ (by unfold odKey; omega))
  · exact .inl rfl

theorem requestStopped_actual (d : Dev) (f : Nat) {g : Nat} (hg : g < 34) :
    actual (requestStopped d f) g = actual d g ∨ g = f ∧ actual (requestStopped d f) g ≤ 4 := by
  have hs : actual (setActual (setRequested d f 0) f 3) g = actual d g ∨ g = f ∧ actual (setActual (setRequested d f 0) f 3) g ≤ 4 := by
    by_cases h : g = f
    · exact .inr ⟨h, by rw [h, actual_setActual]; decide⟩
    · exact .inl (actual_setActual_ne _ _ h)
  unfold requestStopped
  dsimp only
  split
  · rw [(KeepsActual.usbSettle _).actual g hg]
    exact hs
  · split
    · next hf =>
      obtain h | ⟨h0, h⟩ := poolSettle_actual (setActual (setRequested d f 0) f 3) g
      · rw [h]
        exact hs
      · exact .inr ⟨by rw [h0, hf], by rw [h]; decide⟩
    · exact hs

theorem writeRequested_actual (d : Dev) (can : Bool) (f v : Nat) {g : Nat} (hg : g < 34) :
    actual (writeRequested d can f v).1 g = actual d g ∨ g = f ∧ actual (writeRequested d can f v).1 g ≤ 4 := by
  unfold writeRequested
  dsimp only
  split
  · exact .inl rfl
  · split
    · exact .inl rfl
    · split
      · exact (requestRunning_actual d f hg).imp id fun ⟨h, h'⟩ => ⟨h, by rw [h']; decide⟩
      · exact requestStopped_actual d f hg

theorem requestsMoveOneFunction : Claim.RequestsMoveOneFunction := by
  intro d can f v g _ hg _ hd
  obtain h | ⟨hgf, h⟩ := writeRequested_actual d can f v hg
  · exact ⟨by rw [h]; exact hd, fun _ => h⟩
  · exact ⟨h, fun hne => absurd hgf hne⟩

/-! ### The store -/

theorem putCopy_stores (o : Otp) (d : Dev) (c : StoreCopy) :
    if writesCopy0 o d then (putCopy o d c).store0 = c ∧ (putCopy o d c).store1 = d.store1
    else (putCopy o d c).store1 = c ∧ (putCopy o d c).store0 = d.store0 := by
  unfold putCopy
  split <;> exact ⟨rfl, rfl⟩

theorem putCopy_mgc (o : Otp) (d : Dev) (c : StoreCopy) : (putCopy o d c).mgc = d.mgc := by
  unfold putCopy
  split <;> rfl

theorem cnt_putCopy (o : Otp) (d : Dev) (c : StoreCopy) (i sub : Nat) : cnt (putCopy o d c) i sub = cnt d i sub := by
  unfold putCopy
  split <;> rfl

theorem storeCompletes : Claim.StoreCompletes := by
  intro s ha
  have hx (ok : Bool) : exec (.storeComplete ok) s = .next (onDev s fun d => storeComplete s.otp d ok) := nextMgc_awake ha
  let e := updMgc s.dev fun m => { m with storing := none }
  refine ⟨fun recs h => ?_, fun recs h => ?_, fun h => ?_, fun h => ?_, fun ok h => ?_⟩
  · let g := (topGen s.otp s.dev + 1) % 2 ^ 32
    let p := putCopy s.otp e (sealCopy s.otp g recs)
    have hd : storeComplete s.otp s.dev true = bump (setCnt (setCnt p 0x1400 2 2) 0x1400 3 g) 0x1400 4 4 1 := by
      unfold storeComplete
      rw [h]
      rfl
    refine ⟨_, sealCopy s.otp g recs, hx true, rfl, rfl, ?_, rfl, rfl, copyValid_sealCopy .., ?_, ?_, ?_, ?_⟩
    · rw [onDev, hd]
      exact putCopy_mgc s.otp e _
    · rw [onDev, hd]
      exact putCopy_stores s.otp e (sealCopy s.otp g recs)
    · rw [onDev, hd, cnt_bump_ne _ _ _ _ _ (by unfold odKey; omega), cnt_setCnt_ne _ _ _ _ (by unfold odKey; omega), cnt_setCnt]
    · rw [onDev, hd, cnt_bump_ne _ _ _ _ _ (by unfold odKey; omega), cnt_setCnt]
    · rw [onDev, hd, cnt_bump, cnt_setCnt_ne _ _ _ _ (by unfold odKey; omega), cnt_setCnt_ne _ _ _ _ (by unfold odKey; omega), cnt_putCopy]
      rfl
  · have hd : storeComplete s.otp s.dev false = setCnt (putCopy s.otp e {}) 0x1400 2 3 := by
      unfold storeComplete
      rw [h]
      rfl
    refine ⟨_, hx false, ?_, ?_, ?_⟩
    · rw [onDev, hd]
      exact putCopy_mgc s.otp e _
    · rw [onDev, hd, cnt_setCnt]
    · rw [onDev, hd]
      exact putCopy_stores s.otp e {}
  · rw [hx, onDev, storeComplete, h]
    rfl
  · rw [hx, onDev, storeComplete, h]
    rfl
  · rw [hx, onDev_eq_self]
    rw [storeComplete, h]

/-- Settles O21: the transitions by the function's state and number, with what the blocks do leaving every ACTUAL; the store by what was to be stored. -/
theorem functionsRun : Obligations.FunctionsRun := ⟨functionTransitions, requestsMoveOneFunction, storeCompletes⟩

end Sys2Proof.Proofs


/-! ## O14: what a write does once its checks have passed -/

namespace Sys2Proof.Proofs
open Sys2Proof.Machine

/-! ### The checked write by the kind of its entry -/

section
variable {o : Otp} {d : Dev} {i sub : Nat} {bs : List Byte} {r : OdRow}

theorem odWrite_number (can : Bool) (hc : checkAbort d can i sub bs.length = none) (hr : odRow i sub = some r) (hs : odSize r.ty ≠ 0)
    (hn : numOk o d r i sub (leNat bs) = true) (hf : 0x1122 ≤ i) :
    odWrite o d can i sub bs = if i = 0x1400 then (storeCommand o d (leNat bs), none) else (putNum d i sub (leNat bs), none) := by
  unfold odWrite
  rw [hc, hr]
  dsimp only
  rw [if_neg hs, if_neg (by rw [hn]; decide), if_neg (by omega)]

theorem odWrite_outOfRange (can : Bool) (hc : checkAbort d can i sub bs.length = none) (hr : odRow i sub = some r) (hs : odSize r.ty ≠ 0)
    (hn : numOk o d r i sub (leNat bs) = false) : odWrite o d can i sub bs = (d, some (0x0906, i, sub)) := by
  unfold odWrite
  rw [hc, hr]
  dsimp only
  rw [if_neg hs, if_pos hn]

theorem odWrite_domain (can : Bool) (hc : checkAbort d can i sub bs.length = none) (hr : odRow i sub = some r) (hs : odSize r.ty = 0)
    (hi : i ≠ 0x1410) : odWrite o d can i sub bs = (putDom d i sub bs, none) := by
  unfold odWrite
  rw [hc, hr]
  dsimp only
  rw [if_pos hs, if_neg fun h => hi h.1]

end

/-! ### The rows of the entries that start something -/

theorem odRow_storeCmd : odRow 0x1400 1 = some ⟨0x1400, 1, 1, 0x1, .u8, .wo, 0, 1, 2, 1, []⟩ := by decide +kernel
theorem odRow_revoke : odRow 0x6001 3 = some ⟨0x6001, 1, 1, 0x3, .u8, .wo, 0, 0, 3, 1, []⟩ := by decide +kernel
theorem odRow_rollbackAdvance : odRow 0x6001 4 = some ⟨0x6001, 1, 1, 0x4, .u8, .wo, 0, 1, 64, 1, []⟩ := by decide +kernel
theorem odRow_fuseLock : odRow 0x6001 5 = some ⟨0x6001, 1, 1, 0x5, .bool, .wo, 0, 1, 1, 1, []⟩ := by decide +kernel
theorem odRow_attestNonce : odRow 0x6021 1 = some ⟨0x6021, 1, 1, 0x1, .dom, .wo, 0, 32, 32, 1, []⟩ := by decide +kernel
theorem odRow_debugToken : odRow 0x6030 2 = some ⟨0x6030, 1, 1, 0x2, .dom, .wo, 0, 5485, 5485, 1, []⟩ := by decide +kernel

/-- No range but its row's limits holds for an entry of the store or of trust. -/
theorem rangeExtra_trust (d : Dev) {i : Nat} (hi : i = 0x1400 ∨ 0x6000 ≤ i) (sub v : Nat) : rangeExtra d i sub v = true := by
  unfold rangeExtra
  repeat rw [if_neg (by omega)]

/-- Such an entry takes what lies within its limits. -/
theorem rangeOk_of_limits (d : Dev) {i : Nat} (hi : i = 0x1400 ∨ 0x6000 ≤ i) (sub v : Nat) {r : OdRow} (hstep : r.step = 1) (hlo : r.lo ≤ v) (hhi : v ≤ r.hi) :
    rangeOk d r i sub v = true := by
  rw [rangeOk, rangeExtra_trust d hi]
  simp [odInRange, hstep, hlo, hhi, Nat.mod_one]

theorem numOk_of_ne (o : Otp) {d : Dev} {r : OdRow} {i sub v : Nat} (h : rangeOk d r i sub v = true) (hi : i ≠ 0x6001 ∨ (sub ≠ 3 ∧ sub ≠ 4)) :
    numOk o d r i sub v = true := by
  unfold numOk
  rw [h]
  obtain h | ⟨h, h'⟩ := hi <;> simp_all

theorem numOk_revoke (o : Otp) {d : Dev} {r : OdRow} {v : Nat} : numOk o d r 0x6001 3 v = (rangeOk d r 0x6001 3 v && !revokeBad o d v) := by
  simp [numOk]

theorem numOk_advance (o : Otp) {d : Dev} {r : OdRow} {v : Nat} : numOk o d r 0x6001 4 v = (rangeOk d r 0x6001 4 v && !advanceBad o d v) := by
  simp [numOk]

theorem le_of_revokeOk {o : Otp} {d : Dev} {v : Nat} (h : revokeBad o d v = false) : v ≤ 3 := by
  simp only [revokeBad, Bool.or_eq_false_iff, decide_eq_false_iff_not] at h
  omega

theorem limits_of_advanceOk {o : Otp} {d : Dev} {v : Nat} (h : advanceBad o d v = false) : 1 ≤ v ∧ v ≤ 64 := by
  simp only [advanceBad, Bool.or_eq_false_iff, decide_eq_false_iff_not] at h
  omega

/-! ### What a function's block leaves of the functions' entries -/

/-- Counters the blocks move at a start or a stop: those of memory, of the cameras and image contexts, and of the ports. -/
def BlockKey (k : Nat) : Prop := AccessKey k ∨ 0x3000 * 256 ≤ k

theorem blockKey_of_ge {i sub : Nat} (hi : 0x3000 ≤ i) : BlockKey (odKey i sub) := .inr (by unfold odKey; omega)

theorem blockKey_function {f sub : Nat} (hf : f < 34) (hsub : sub < 256) : ¬ BlockKey (odKey (0x1100 + f) sub) := by
  unfold BlockKey AccessKey odKey
  omega

theorem leaves_blockEntry (d : Dev) {i : Nat} (sub v : Nat) (hi : 0x3000 ≤ i) : Leaves BlockKey d (setCnt d i sub v) := leaves_setCnt _ _ _ _ (blockKey_of_ge hi)

theorem leaves_noteBlocks (d : Dev) (n : Nat) : Leaves BlockKey d (noteBlocks d n) :=
  .trans (leaves_blockEntry _ _ _ (by unfold icX; omega)) (leaves_blockEntry _ _ _ (by unfold icX; omega))

theorem leaves_bufBytes (d : Dev) (n : Nat) :
    Leaves BlockKey d ((List.range 3).foldl (fun d f => setCnt d (icX n + 4 + f) 9 (bufBytes d n f)) d) := by
  refine leaves_foldl _ (fun e f _ => ?_) d
  exact leaves_blockEntry _ _ _ (by unfold icX; omega)

theorem leaves_icStart (d : Dev) (n : Nat) : Leaves BlockKey d (icStart d n) := by
  unfold icStart
  refine .trans ?_ (leaves_noteBlocks ..)
  refine .trans ?_ (leaves_blockEntry _ _ _ (by unfold icX; omega))
  refine .trans ?_ (leaves_bufBytes ..)
  refine .trans ?_ (leaves_blockEntry _ _ _ (by unfold icX; omega))
  exact .of_same rfl rfl rfl

theorem leaves_blockStart (d : Dev) (f : Nat) : Leaves BlockKey d (blockStart d f) := by
  unfold blockStart
  exact ite_leaves (.of_same rfl rfl rfl) (ite_leaves (leaves_icStart ..) (ite_leaves (.of_same rfl rfl rfl) (.refl d)))

theorem leaves_usbSettle (d : Dev) : Leaves BlockKey d (usbSettle d) := by
  unfold usbSettle
  have hterm : Leaves BlockKey d (updPorts d fun x => { x with term := false }) := .of_same rfl rfl rfl
  exact ite_leaves (.trans (hterm.trans ((QueueStep.portAbort ..).leaves.mono fun _ h => .inl h)) (leaves_blockEntry _ _ _ (by decide)))
    (.of_same rfl rfl rfl)

/-! ### A request to run -/

theorem writeRequested_run {d : Dev} {f : Nat} (hd : actual d f = 0) (hs : deviceState d ≠ 3) : writeRequested d false f 2 = requestRunning d f := by
  unfold writeRequested
  rw [if_neg (by simp), if_neg (by rw [hd]; omega), if_pos rfl]

theorem cnt_setAbort (d : Dev) (f code i sub : Nat) : cnt (setAbort d f code i sub) (0x1100 + f) 4 = code
    ∧ cnt (setAbort d f code i sub) (0x1100 + f) 5 = i ∧ cnt (setAbort d f code i sub) (0x1100 + f) 6 = sub := by
  refine ⟨?_, ?_, cnt_setCnt ..⟩
  · rw [setAbort, cnt_setCnt_ne _ _ _ _ (by unfold odKey; omega), cnt_setCnt_ne _ _ _ _ (by unfold odKey; omega), cnt_setCnt]
  · rw [setAbort, cnt_setCnt_ne _ _ _ _ (by unfold odKey; omega), cnt_setCnt]

/-- The function as a start that passes its validation sets it, before its block starts. -/
def starting (d : Dev) (f : Nat) : Dev := setActual (setAbort (setRequested d f 2) f 0 0 0) f 1

theorem requestRunning_ok {d : Dev} {f : Nat} (hf : f < 34) (h : startFault d f = none) : ∃ e, requestRunning d f = (e, none)
    ∧ actual e f = 1 ∧ requested e f = 2 ∧ cnt e (0x1100 + f) 4 = 0 := by
  have hk := leaves_blockStart (starting d f) f
  refine ⟨blockStart (starting d f) f, by rw [requestRunning, h]; rfl, ?_, ?_, ?_⟩
  · exact (hk.cnt (blockKey_function hf (by decide))).trans (actual_setActual ..)
  · exact (hk.setting ..).trans (requested_setRequested ..)
  · refine (hk.cnt (blockKey_function hf (by decide))).trans ((cnt_setCnt_ne _ _ _ _ (by unfold odKey; omega)).trans (cnt_setAbort ..).1)

theorem requestStopped_spec {d : Dev} {f : Nat} (hf : f < 34) : requested (requestStopped d f) f = 0
    ∧ actual (requestStopped d f) f = if f = 0 ∧ anyInflight d = false then 0 else 3 := by
  have h0 : requested (setActual (setRequested d f 0) f 3) f = 0 := requested_setRequested ..
  have h3 : actual (setActual (setRequested d f 0) f 3) f = 3 := actual_setActual ..
  unfold requestStopped
  dsimp only
  split
  · next hu =>
    have hk := leaves_usbSettle (setActual (setRequested d f 0) f 3)
    rw [if_neg (by rw [hu]; exact fun h => absurd h.1 (by decide))]
    exact ⟨(hk.setting ..).trans h0, (hk.cnt (blockKey_function hf (by decide))).trans h3⟩
  · split
    · next hz =>
      subst hz
      have hi : anyInflight (setActual (setRequested d 0 0) 0 3) = anyInflight d := rfl
      unfold poolSettle
      rw [h0, h3, hi]
      cases anyInflight d with
      | false => exact ⟨h0, cnt_setCnt ..⟩
      | true => exact ⟨h0, h3⟩
    · next hz => exact ⟨h0, h3.trans (if_neg fun h => hz h.1).symm⟩

/-- Settles O14: each entry's row and range lead its write to its own effect. -/
theorem checkedWritesTakeEffect : Obligations.CheckedWritesTakeEffect := by
  intro o d bs
  refine ⟨fun f hf hc hv hd hs hstart => ?_, fun f hf hc hv hd hs c i sub hstart => ?_, fun f hf hpool husb hc hv hup => ?_, fun f hf hc hv hup => ?_,
    fun hc hv => ?_, fun hc hv => ?_, fun v hc hv hok => ?_, fun v hc hv hbad => ?_, fun v hc hv hok => ?_, fun hc hv => ?_, fun hc => ?_, fun hc hs => ?_⟩
  · rw [odWrite_requested hf o hc (.inr hv), hv, writeRequested_run hd hs]
    exact requestRunning_ok hf hstart
  · rw [odWrite_requested hf o hc (.inr hv), hv, writeRequested_run hd hs]
    refine ⟨setAbort d f c i sub, by rw [requestRunning, hstart], ((KeepsActual.setAbort ..).actual f hf).trans hd, rfl, cnt_setAbort ..⟩
  · rw [odWrite_requested hf o hc (.inl hv), hv, writeRequested_stop hup, requestStopped_of_ne husb hpool]
    rfl
  · rw [odWrite_requested hf o hc (.inl hv), hv, writeRequested_stop hup]
    exact ⟨_, rfl, requestStopped_spec hf⟩
  · rw [odWrite_number false hc odRow_storeCmd (by decide) (numOk_of_ne o (rangeOk_of_limits d (.inl rfl) 1 _ rfl (show 1 ≤ leNat bs by omega)
      (show leNat bs ≤ 2 by omega)) (.inl (by decide))) (by decide), if_pos rfl, hv]
    rfl
  · rw [odWrite_number false hc odRow_storeCmd (by decide) (numOk_of_ne o (rangeOk_of_limits d (.inl rfl) 1 _ rfl (show 1 ≤ leNat bs by omega)
      (show leNat bs ≤ 2 by omega)) (.inl (by decide))) (by decide), if_pos rfl, hv]
    rfl
  · subst hv
    have hr := rangeOk_of_limits d (i := 0x6001) (.inr (by decide)) 3 _ (r := ⟨0x6001, 1, 1, 0x3, .u8, .wo, 0, 0, 3, 1, []⟩) rfl
      (Nat.zero_le _) (le_of_revokeOk hok)
    rw [odWrite_number false hc odRow_revoke (by decide) (by rw [numOk_revoke, hr, hok]; rfl) (by decide)]
    rfl
  · subst hv
    exact odWrite_outOfRange false hc odRow_revoke (by decide) (by rw [numOk_revoke, hbad]; simp)
  · subst hv
    obtain ⟨hlo, hhi⟩ := limits_of_advanceOk hok
    have hr := rangeOk_of_limits d (i := 0x6001) (.inr (by decide)) 4 _ (r := ⟨0x6001, 1, 1, 0x4, .u8, .wo, 0, 1, 64, 1, []⟩) rfl hlo hhi
    rw [odWrite_number false hc odRow_rollbackAdvance (by decide) (by rw [numOk_advance, hr, hok]; rfl) (by decide)]
    rfl
  · rw [odWrite_number false hc odRow_fuseLock (by decide) (numOk_of_ne o (rangeOk_of_limits d (.inr (by decide)) 5 _ rfl
      (show 1 ≤ leNat bs by omega) (show leNat bs ≤ 1 by omega)) (.inr (by decide))) (by decide)]
    rfl
  · rw [odWrite_domain false hc odRow_attestNonce rfl (by decide)]
    rfl
  · rw [odWrite_domain false hc odRow_debugToken rfl (by decide), putDom, if_neg (by decide), if_neg (by decide), if_pos rfl, if_neg hs]
    rfl

end Sys2Proof.Proofs


/-! ## O12: TU operations start while none runs and end with their result -/

namespace Sys2Proof.Proofs
open Sys2Proof.Machine

theorem tuStart_of_idle {d : Dev} (h : d.tu.op = none) (op : Nat) : tuStart d op = { d with tu := { d.tu with op := some (op, d.tu.addr.toNat) } } := by
  rw [tuStart, h]
  rfl

theorem tuStart_of_busy {d : Dev} (h : d.tu.op.isSome = true) (op : Nat) : tuStart d op = d := by rw [tuStart, if_pos h]

theorem tuCommandsStart : Claim.TuCommandsStart := by
  intro s ha
  have hx (c : Instr) (op : Nat) (hc : exec c s = nextDev s fun d => tuStart d op) : exec c s = .next (onDev s fun d => tuStart d op) :=
    hc.trans (nextDev_awake ha)
  refine ⟨fun h => ?_, fun h => ?_⟩
  · rw [hx .verifyLoader 1 rfl, hx .verify 2 rfl, hx .extend 3 rfl, hx .releaseBootPhase 4 rfl]
    simp only [onDev, tuStart_of_idle h, and_self]
  · rw [hx .verifyLoader 1 rfl, hx .verify 2 rfl, hx .extend 3 rfl, hx .releaseBootPhase 4 rfl]
    have hb (op : Nat) : onDev s (fun d => tuStart d op) = s := onDev_eq_self (f := fun d => tuStart d op) (tuStart_of_busy h op)
    simp only [hb, and_self]

/-! ### Reads and tests of the TU -/

theorem bootStage_memRead (d : Dev) (g : Option Nat) (s a n : Nat) : bootStage (memRead d g s a n).1 = bootStage d :=
  (leaves_memRead d g s a n).cnt (by unfold AccessKey odKey; omega)

theorem tuRead_tu (d : Dev) (a n : Nat) : (tuRead d a n).1.tu = d.tu := memRead_tu ..

theorem bootStage_tuRead (d : Dev) (a n : Nat) : bootStage (tuRead d a n).1 = bootStage d := bootStage_memRead ..

theorem bootStage_updTu (d : Dev) (f : Tu → Tu) : bootStage (updTu d f) = bootStage d := rfl

theorem bootStage_tuEnd (d : Dev) (k : Nat) : bootStage (tuEnd d k) = bootStage d := rfl

/-- A device that a test has left: the TU's buffer alone has moved of the TU, and the boot stage stands. -/
structure Tested (d e : Dev) : Prop where
  tu : ∃ ram, e.tu = { d.tu with ram := ram }
  stage : bootStage e = bootStage d

theorem Tested.read {d e : Dev} (h : Tested d e) (a n : Nat) : Tested d (tuRead e a n).1 := by
  obtain ⟨ram, hr⟩ := h.tu
  exact ⟨⟨ram, by rw [tuRead_tu, hr]⟩, by rw [bootStage_tuRead, h.stage]⟩

/-- The device with a container's header in the TU's buffer. -/
def headerRead (d : Dev) (a : Nat) : Dev := updTu (tuRead d a 0x1600).1 fun t => { t with ram := (tuRead d a 0x1600).2.1 }

theorem tested_headerRead (d : Dev) (a : Nat) : Tested d (headerRead d a) := by
  refine ⟨⟨(tuRead d a 0x1600).2.1, ?_⟩, bootStage_tuRead d a 0x1600⟩
  rw [← tuRead_tu d a 0x1600]
  rfl

theorem tuTest_eq (o : Otp) (d : Dev) (want : Nat → Bool) (a : Nat) : tuTest o d want a =
    if (tuRead d a 0x1600).2.2 then (headerRead d a, (tuRead d a 0x1600).2.1, some 10)
    else match headerTests o want a (tuRead d a 0x1600).2.1 with
      | some k => (headerRead d a, (tuRead d a 0x1600).2.1, some k)
      | none =>
        let q := tuRead (headerRead d a) (a + 0x1600) (bfield (tuRead d a 0x1600).2.1 0x10 4)
        if q.2.2 then (q.1, (tuRead d a 0x1600).2.1, some 10)
        else match payloadTests o (tuRead d a 0x1600).2.1 q.2.1 with
          | some k => (q.1, (tuRead d a 0x1600).2.1, some k)
          | none => (q.1, (tuRead d a 0x1600).2.1, if 12 ≤ (headerRead d a).tu.meas.length then some 11 else none) := rfl

theorem tested_tuTest (o : Otp) (d : Dev) (want : Nat → Bool) (a : Nat) : Tested d (tuTest o d want a).1 := by
  have h := tested_headerRead d a
  rw [tuTest_eq]
  split
  · exact h
  · split
    · exact h
    · have hq := h.read (a + 0x1600) (bfield (tuRead d a 0x1600).2.1 0x10 4)
      dsimp only
      split
      · exact hq
      · split <;> exact hq

theorem tuTest_header (o : Otp) (d : Dev) (want : Nat → Bool) (a : Nat) : (tuTest o d want a).2.1 = (tuRead d a 0x1600).2.1 := by
  rw [tuTest_eq]
  split
  · rfl
  · split
    · rfl
    · dsimp only
      split
      · rfl
      · split <;> rfl

theorem want_of_headerTests {o : Otp} {want : Nat → Bool} {a : Nat} {h : List Byte} (hn : headerTests o want a h = none) : want (bfield h 6 1) = true := by
  by_contra hw
  rw [headerTests, if_pos (.inr (.inr (by simpa using hw)))] at hn
  exact absurd hn (by simp)

/-- A container that a test passes is of a TYPE the request takes. -/
theorem want_of_tuTest {o : Otp} {d : Dev} {want : Nat → Bool} {a : Nat} (h : (tuTest o d want a).2.2 = none) :
    want (bfield (tuTest o d want a).2.1 6 1) = true := by
  rw [tuTest_header]
  refine want_of_headerTests (o := o) (a := a) ?_
  rw [tuTest_eq] at h
  split at h
  · exact absurd h (by simp)
  · split at h
    · exact absurd h (by simp)
    · assumption

/-! ### The end of an operation -/

/-- The device with an operation of the TU ended: its result, its measurements, and what it leaves of the boot chain. -/
structure Ended (d e : Dev) (reason : Nat) (meas : List Meas) : Prop where
  op : e.tu.op = none
  done : e.tu.done = true
  passed : e.tu.passed = (reason == 0)
  reason : e.tu.reason = reason
  meas : e.tu.meas = meas
  tried : e.tu.loaderTried = d.tu.loaderTried
  stage : bootStage e = bootStage d

theorem ended_tuEnd {d e : Dev} (ht : e.tu.loaderTried = d.tu.loaderTried) (hs : bootStage e = bootStage d) (k : Nat) : Ended d (tuEnd e k) k e.tu.meas :=
  ⟨rfl, rfl, rfl, rfl, rfl, ht, hs⟩

theorem imageRefused_tu (d : Dev) (h : List Byte) (c s k : Nat) : (imageRefused d h c s k).tu = d.tu := postEvent_tu ..

theorem bootStage_imageRefused (d : Dev) (h : List Byte) (c s k : Nat) : bootStage (imageRefused d h c s k) = bootStage d := cnt_postEvent ..

/-- A refusal reports its reason and measures nothing; a pass adds the image's measurement. -/
theorem tuImage_spec (o : Otp) (d : Dev) (want : Nat → Bool) (a : Nat) :
    (∀ k, (tuTest o d want a).2.2 = some k → (tuImage o d want a).2 = false ∧ Ended d (tuImage o d want a).1 k d.tu.meas)
    ∧ ((tuTest o d want a).2.2 = none → (tuImage o d want a).2 = true
      ∧ Ended d (tuImage o d want a).1 0 (addMeas d.tu (measure (tuTest o d want a).2.1)).meas) := by
  obtain ⟨⟨ram, htu⟩, hs⟩ := tested_tuTest o d want a
  refine ⟨fun k h => ?_, fun h => ?_⟩
  · have hi : tuImage o d want a = (tuEnd (imageRefused (tuTest o d want a).1 (tuTest o d want a).2.1 0 3 k) k, false) := by
      rw [tuImage, h]
    rw [hi]
    have he := ended_tuEnd (d := d) (e := imageRefused (tuTest o d want a).1 (tuTest o d want a).2.1 0 3 k) (by rw [imageRefused_tu, htu])
      (by rw [bootStage_imageRefused, hs]) k
    rw [imageRefused_tu, htu] at he
    exact ⟨rfl, he⟩
  · have hi : tuImage o d want a = (tuEnd (updTu (tuTest o d want a).1 fun t => addMeas t (measure (tuTest o d want a).2.1)) 0, true) := by
      rw [tuImage, h]
    have hm : ∀ m, (addMeas { d.tu with ram := ram } m).meas = (addMeas d.tu m).meas
        ∧ (addMeas { d.tu with ram := ram } m).loaderTried = d.tu.loaderTried := fun m => by
      unfold addMeas
      split <;> exact ⟨rfl, rfl⟩
    rw [hi]
    refine ⟨rfl, rfl, rfl, rfl, rfl, ?_, ?_, by rw [bootStage_tuEnd, bootStage_updTu, hs]⟩
    · rw [← (hm _).1, ← htu]
      rfl
    · rw [← (hm (measure (tuTest o d want a).2.1)).2, ← htu]
      rfl

theorem addMeas_loader {t : Tu} {m : Meas} (h : m.ty = 3) : (addMeas t m).meas = t.meas.take 2 ++ m :: t.meas.drop 2 := by rw [addMeas, if_pos h]

theorem addMeas_other {t : Tu} {m : Meas} (h : m.ty ≠ 3) : (addMeas t m).meas = t.meas ++ [m] := by rw [addMeas, if_neg h]

theorem length_addMeas (t : Tu) (m : Meas) : (addMeas t m).meas.length = t.meas.length + 1 := by
  unfold addMeas
  split
  · simp only [List.length_append, List.length_cons, List.length_take, List.length_drop]
    omega
  · simp

/-- An image operation ends with a reason and no measurement, or passes with one more. -/
theorem tuImage_ends (o : Otp) (d : Dev) (want : Nat → Bool) (a : Nat) : ∃ k meas, Ended d (tuImage o d want a).1 k meas
    ∧ (meas = d.tu.meas ∨ k = 0 ∧ meas.length = d.tu.meas.length + 1) := by
  obtain ⟨hsome, hnone⟩ := tuImage_spec o d want a
  cases h : (tuTest o d want a).2.2 with
  | some k => exact ⟨k, _, (hsome k h).2, .inl rfl⟩
  | none => exact ⟨0, _, (hnone h).2, .inr ⟨rfl, length_addMeas ..⟩⟩

/-! ### The operations -/

/-- VERIFY_LOADER's image operation. -/
def loaderImage (o : Otp) (d : Dev) (a : Nat) : Dev × Bool := tuImage o (updTu d fun t => { t with loaderTried := true }) (· == 3) a

theorem tuDone_loader {o : Otp} {d : Dev} {a : Nat} (h : d.tu.op = some (1, a)) :
    tuDone o d = if d.tu.loaderTried || decide (4 ≤ bootStage d) then tuEnd d 12
      else if (loaderImage o d a).2 then setStage (loaderImage o d a).1 3 else (loaderImage o d a).1 := by
  rw [tuDone, h]
  rfl

theorem tuDone_verify {o : Otp} {d : Dev} {a : Nat} (h : d.tu.op = some (2, a)) :
    tuDone o d = (tuImage o d (fun t => decide (0x80 ≤ t) && decide (t ≤ 0xFE)) a).1 := by
  rw [tuDone, h]
  rfl

/-- The record that EXTEND adds. -/
def extendMeas (bs : List Byte) : Meas := { ty := bfield bs 0 1, slot := 0xFF, svn := bfield bs 4 4, digest := bslice bs 8 64 }

theorem tuDone_extend {o : Otp} {d : Dev} {a : Nat} (h : d.tu.op = some (3, a)) :
    tuDone o d = if (tuRead d a 72).2.2 then tuEnd (tuRead d a 72).1 10
      else if 12 ≤ d.tu.meas.length then tuEnd (tuRead d a 72).1 11
      else tuEnd (updTu (tuRead d a 72).1 fun t => { t with meas := t.meas ++ [extendMeas (tuRead d a 72).2.1] }) 0 := by
  rw [tuDone, h]
  rfl

theorem tuDone_release {o : Otp} {d : Dev} {op a : Nat} (h : d.tu.op = some (op, a)) (h1 : op ≠ 1) (h2 : op ≠ 2) (h3 : op ≠ 3) :
    tuDone o d = if bootStage d = 3 then tuEnd (setStage d 4) 0 else tuEnd d 12 := by
  rw [tuDone, h]
  dsimp only
  rw [if_neg h1, if_neg h2, if_neg h3]

theorem extend_ended (d : Dev) (a : Nat) :
    Ended d (tuEnd (tuRead d a 72).1 10) 10 d.tu.meas ∧ Ended d (tuEnd (tuRead d a 72).1 11) 11 d.tu.meas
    ∧ Ended d (tuEnd (updTu (tuRead d a 72).1 fun t => { t with meas := t.meas ++ [extendMeas (tuRead d a 72).2.1] }) 0) 0
        (d.tu.meas ++ [extendMeas (tuRead d a 72).2.1]) := by
  have htu := tuRead_tu d a 72
  have hs := bootStage_tuRead d a 72
  have he (k : Nat) := ended_tuEnd (d := d) (e := (tuRead d a 72).1) (by rw [htu]) hs k
  rw [htu] at he
  refine ⟨he 10, he 11, rfl, rfl, rfl, rfl, ?_, ?_, hs⟩
  · rw [← htu]
    rfl
  · rw [← htu]
    rfl

/-- Whatever the operation, it ends, and adds a measurement only with a pass. -/
theorem tuDone_ends (o : Otp) {d : Dev} {op a : Nat} (h : d.tu.op = some (op, a)) :
    (tuDone o d).tu.op = none ∧ (tuDone o d).tu.done = true ∧ ((tuDone o d).tu.passed = true ↔ (tuDone o d).tu.reason = 0)
    ∧ (tuDone o d).tu.meas.length ≤ d.tu.meas.length + 1 ∧ ((tuDone o d).tu.passed = false → (tuDone o d).tu.meas = d.tu.meas) := by
  have hend : ∀ {d' e : Dev} {k meas}, Ended d' e k meas → (meas = d.tu.meas ∨ k = 0 ∧ meas.length = d.tu.meas.length + 1) →
      e.tu.op = none ∧ e.tu.done = true ∧ (e.tu.passed = true ↔ e.tu.reason = 0) ∧ e.tu.meas.length ≤ d.tu.meas.length + 1
      ∧ (e.tu.passed = false → e.tu.meas = d.tu.meas) := by
    intro d' e k meas he hm
    refine ⟨he.op, he.done, by rw [he.passed, he.reason]; exact beq_iff_eq, ?_, fun hp => ?_⟩
    · rw [he.meas]
      obtain hm | ⟨-, hm⟩ := hm
      · rw [hm]
        omega
      · omega
    · rw [he.meas]
      obtain hm | ⟨hk, -⟩ := hm
      · exact hm
      · rw [he.passed, hk] at hp
        exact absurd hp (by decide)
  by_cases h1 : op = 1
  · subst h1
    rw [tuDone_loader h]
    split
    · exact hend (ended_tuEnd rfl rfl 12) (.inl rfl)
    · obtain ⟨k, meas, he, hm⟩ := tuImage_ends o (updTu d fun t => { t with loaderTried := true }) (· == 3) a
      have hres := hend he hm
      split <;> exact hres
  · by_cases h2 : op = 2
    · subst h2
      rw [tuDone_verify h]
      obtain ⟨k, meas, he, hm⟩ := tuImage_ends o d (fun t => decide (0x80 ≤ t) && decide (t ≤ 0xFE)) a
      exact hend he hm
    · by_cases h3 : op = 3
      · subst h3
        obtain ⟨h10, h11, h0⟩ := extend_ended d a
        rw [tuDone_extend h]
        split
        · exact hend h10 (.inl rfl)
        · split
          · exact hend h11 (.inl rfl)
          · exact hend h0 (.inr ⟨rfl, by simp⟩)
      · rw [tuDone_release h h1 h2 h3]
        split
        · exact hend (ended_tuEnd (d := setStage d 4) rfl rfl 0) (.inl rfl)
        · exact hend (ended_tuEnd (d := d) rfl rfl 12) (.inl rfl)

theorem tuOperationsEnd : Claim.TuOperationsEnd := by
  intro s ha
  have hx : exec .tuOperationDone s = .next (onDev s fun d => tuDone s.otp d) := nextMgc_awake ha
  refine ⟨fun h => ?_, fun op a hop => ⟨⟨_, hx, rfl, rfl, tuDone_ends s.otp hop⟩, fun h1 hno => ?_, fun h1 ht hst => ?_, fun h2 => ?_, fun h3 => ?_,
    fun h4 hst => ?_, fun h4 hst => ?_⟩⟩
  · rw [hx, onDev_eq_self]
    rw [tuDone, h]
  · subst h1
    rw [hx, onDev, tuDone_loader hop, if_pos (by simpa using hno)]
    rfl
  · subst h1
    have hd : tuDone s.otp s.dev = if (loaderImage s.otp s.dev a).2 then setStage (loaderImage s.otp s.dev a).1 3 else (loaderImage s.otp s.dev a).1 := by
      rw [tuDone_loader hop, if_neg (by simp [ht]; omega)]
    obtain ⟨hsome, hnone⟩ := tuImage_spec s.otp (updTu s.dev fun t => { t with loaderTried := true }) (· == 3) a
    refine ⟨_, hx, ?_, fun e h r hr => ?_⟩
    · obtain ⟨k, meas, he, -⟩ := tuImage_ends s.otp (updTu s.dev fun t => { t with loaderTried := true }) (· == 3) a
      rw [onDev, hd]
      split <;> exact he.tried
    · have ht : tuTest s.otp (updTu s.dev fun t => { t with loaderTried := true }) (· == 3) a = (e, h, r) := hr
      rw [ht] at hsome hnone
      rw [onDev, hd]
      refine ⟨fun hrn => ?_, fun why hrs => ?_⟩
      · obtain ⟨h2, he⟩ := hnone hrn
        have hty : (measure h).ty = 3 := by
          have hw := want_of_tuTest (o := s.otp) (d := updTu s.dev fun t => { t with loaderTried := true }) (want := (· == 3)) (a := a) (by rw [ht]; exact hrn)
          rw [ht] at hw
          exact beq_iff_eq.mp hw
        rw [if_pos (show (loaderImage s.otp s.dev a).2 = true from h2)]
        exact ⟨cnt_setCnt .., he.passed, he.meas.trans (addMeas_loader hty)⟩
      · obtain ⟨h2, he⟩ := hsome why hrs
        rw [if_neg (by rw [loaderImage, h2]; decide)]
        exact ⟨he.stage, he.meas, he.reason⟩
  · subst h2
    obtain ⟨hsome, hnone⟩ := tuImage_spec s.otp s.dev (fun t => decide (0x80 ≤ t) && decide (t ≤ 0xFE)) a
    refine ⟨_, hx, ?_, fun e h r hr => ?_⟩
    · obtain ⟨k, meas, he, -⟩ := tuImage_ends s.otp s.dev (fun t => decide (0x80 ≤ t) && decide (t ≤ 0xFE)) a
      rw [onDev, tuDone_verify hop]
      exact he.stage
    · rw [hr] at hsome hnone
      rw [onDev, tuDone_verify hop]
      refine ⟨fun hrn => ?_, fun why hrs => ⟨(hsome why hrs).2.meas, (hsome why hrs).2.reason⟩⟩
      have hty : (measure h).ty ≠ 3 := by
        have hw := want_of_tuTest (o := s.otp) (d := s.dev) (want := fun t => decide (0x80 ≤ t) && decide (t ≤ 0xFE)) (a := a) (by rw [hr]; exact hrn)
        rw [hr] at hw
        intro hty
        rw [show bfield h 6 1 = 3 from hty] at hw
        exact absurd hw (by decide)
      exact ⟨(hnone hrn).2.meas.trans (addMeas_other hty), (hnone hrn).2.passed⟩
  · subst h3
    obtain ⟨h10, h11, h0⟩ := extend_ended s.dev a
    refine ⟨_, hx, ?_, fun e bs bad hr => ?_⟩
    · rw [onDev, tuDone_extend hop]
      split
      · exact h10.stage
      · split
        · exact h11.stage
        · exact h0.stage
    · rw [hr] at h10 h11 h0
      rw [onDev, tuDone_extend hop, hr]
      dsimp only
      refine ⟨fun hb => ?_, fun hb hl => ?_, fun hb hl => ?_⟩
      · rw [if_pos hb]
        exact ⟨h10.reason, h10.meas⟩
      · rw [if_neg (by simp [hb]), if_pos hl]
        exact ⟨h11.reason, h11.meas⟩
      · rw [if_neg (by simp [hb]), if_neg (by omega)]
        exact ⟨h0.passed, h0.meas⟩
  · rw [hx, onDev, tuDone_release hop (by omega) (by omega) (by omega), if_pos hst]
    rfl
  · rw [hx, onDev, tuDone_release hop (by omega) (by omega) (by omega), if_neg hst]
    rfl

/-- Settles O12: each operation by its own equation, its end through what the test of an image leaves. -/
theorem tuOperationsRun : Obligations.TuOperationsRun := ⟨tuCommandsStart, tuOperationsEnd⟩

end Sys2Proof.Proofs


/-! ## O9: the boot ROM's steps -/

namespace Sys2Proof.Proofs
open Sys2Proof.Machine

theorem knownAnswer_of_none {d : Dev} (h : d.boot.kat = none) (ok : Bool) :
    knownAnswer d ok = { d with
      boot := { d.boot with kat := some ok, failed := d.boot.failed || !ok }
      dmc := if ok = true ∧ d.boot.training = some true then { d.dmc with keyLoaded := 0xFF#8, keys := (List.range 8).map fun i => drawKey (d.freeNo + i) } else d.dmc
      freeNo := if ok = true ∧ d.boot.training = some true then d.freeNo + 8 else d.freeNo } := by
  simp only [knownAnswer, h, Option.isSome_none, Bool.false_eq_true, if_false, loadKeys, updBoot]
  by_cases hk : ok = true ∧ d.boot.training = some true
  · have hl : d.boot.training = some true ∧ some ok = some true := ⟨hk.2, congrArg some hk.1⟩
    rw [if_pos hk, if_pos hk]
    exact if_pos hl
  · have hl : ¬(d.boot.training = some true ∧ some ok = some true) := fun h => hk ⟨Option.some.inj h.2, h.1⟩
    rw [if_neg hk, if_neg hk]
    exact if_neg hl

/-- The medium's directory as the boot ROM reads it: the main copy, else its backup (R514). -/
def readDir (main backup : List Byte) : Option (List DirEntry) :=
  match parseDir main with
  | some es => some es
  | none => parseDir backup

/-- STORE_BASE as the entries of a directory give it (R514, log 148). -/
def withStoreBase (d : Dev) (es : Option (List DirEntry)) : Dev :=
  match (es.getD []).find? (·.ty == 0x10) with
  | some e => if cnt d 0x1400 5 = 0 then setCnt d 0x1400 5 e.offset else d
  | none => d

theorem directoryRead_of_unread {d : Dev} {m : Nat} (hk : d.boot.kat = some true) (hm : m ∈ mediaOrder d.boot.mode) (hd : dirOf d.boot m = none)
    (main backup : List Byte) :
    directoryRead d m main backup =
      withStoreBase { d with boot := { d.boot with dirs := sset (fun _ => none) d.boot.dirs m (some (readDir main backup)) } } (readDir main backup) := by
  have hc : ((mediaOrder d.boot.mode).contains m && (dirOf d.boot m).isNone && d.boot.kat == some true) = true := by
    simp only [List.contains_iff_mem.mpr hm, hd, hk, Option.isNone_none, beq_self_eq_true, Bool.and_self]
  exact if_pos hc

theorem bootTest_boot (o : Otp) (d : Dev) (bs : List Byte) (bad : Nat) : (bootTest o d bs bad).1.boot = d.boot := by
  unfold bootTest
  extract_lets h d₁
  split
  · rfl
  split
  · rfl
  rename_i p d₂ _ _ _
  have h₂ : d₂.boot = d.boot := by
    show (if bootType d₁.boot = 2 then memWrite d₁ (some agMgc) srcTu (bfield h 0x18 8) p false else updMgc d₁ fun m => { m with ram := p }).boot = _
    split
    · exact memWrite_boot ..
    · rfl
  split <;> exact h₂

theorem imageRefused_boot (d : Dev) (h : List Byte) (c s k : Nat) : (imageRefused d h c s k).boot = d.boot := postEvent_boot ..

/-- The search after a candidate was refused: the next place counts as tried, and after the last one of a search that has read every directory
    recovery begins (R515, R516). -/
def searchOn (d : Dev) (tried places : Nat) : Dev :=
  let d := updBoot d fun b => if b.passed1 then { b with tried2 := tried + 1 } else { b with tried1 := tried + 1 }
  if places ≤ tried + 1 && allRead d.boot then updBoot d fun b => { b with recovery := true } else d

theorem allRead_tried (b : Boot) (k : Nat) :
    allRead (if b.passed1 then { b with tried2 := k + 1 } else { b with tried1 := k + 1 }) = allRead b := by split <;> rfl

theorem searchOn_eq (d : Dev) (tried places : Nat) : searchOn d tried places = { d with boot := (searchOn d tried places).boot } := by
  unfold searchOn
  extract_lets e
  split <;> rfl

theorem boot_tried {b : Boot} (hr : b.recovery = false) (k : Nat) :
    (if b.passed1 then { b with tried2 := k + 1 } else { b with tried1 := k + 1 }) =
      { b with tried1 := if b.passed1 then b.tried1 else k + 1, tried2 := if b.passed1 then k + 1 else b.tried2, recovery := false } := by
  cases b
  subst hr
  dsimp only
  split <;> rfl

theorem searchOn_boot (d : Dev) (k places : Nat) (hr : d.boot.recovery = false) :
    (searchOn d k places).boot = { d.boot with
      tried1 := if d.boot.passed1 then d.boot.tried1 else k + 1
      tried2 := if d.boot.passed1 then k + 1 else d.boot.tried2
      recovery := decide (places ≤ k + 1) && allRead d.boot } := by
  have hall := allRead_tried d.boot k
  unfold searchOn
  extract_lets e
  have he : e.boot = if d.boot.passed1 then { d.boot with tried2 := k + 1 } else { d.boot with tried1 := k + 1 } := rfl
  rw [he, hall]
  cases hs : decide (places ≤ k + 1) && allRead d.boot
  · rw [if_neg Bool.false_ne_true, he, boot_tried hr]
  · simp only [if_true, updBoot, he]
    split <;> rfl

/-- The boot ROM is at work on images: its own tests have passed and neither the second container has passed nor the firmware started. -/
structure Searching (b : Boot) (recovery : Bool) : Prop where
  kat : b.kat = some true
  recovery_eq : b.recovery = recovery
  mgc : b.mgc = false
  passed2 : b.passed2 = false

theorem Searching.inRecovery {b : Boot} {r : Bool} (h : Searching b r) : Machine.inRecovery b = r := by
  rw [Machine.inRecovery, h.kat, h.recovery_eq]
  exact Bool.or_false r

theorem bootImage_of_candidate {o : Otp} {d : Dev} (h : Searching d.boot false) (bs : List Byte) (bad : Nat) {m c : Nat} {e : DirEntry} {k : Nat}
    (hk : k = if d.boot.passed1 then d.boot.tried2 else d.boot.tried1) (hc : (candidates d.boot (bootType d.boot))[k]? = some (m, c, e))
    {d' : Dev} {r : Option Nat} (ht : bootTest o d (bs.take e.length) bad = (d', r)) :
    bootImage o d bs bad = match r with
      | none => bootPass d' m (bs.take e.length)
      | some why => searchOn (imageRefused d' (bs.take e.length) c m why) k (candidates d.boot (bootType d.boot)).length := by
  have hr : (bootTest o d (bs.take e.length) bad).2 = r := by rw [ht]
  have hd' : d'.boot = d.boot := by rw [← bootTest_boot o d (bs.take e.length) bad, ht]
  have hgo : (d.boot.mgc || d.boot.passed2 || inRecovery d.boot || d.boot.kat != some true) = false := by
    rw [h.inRecovery, h.kat, h.mgc, h.passed2]
    rfl
  rw [bootImage, hgo, if_neg Bool.false_ne_true]
  simp only [← hk, hc, ht]
  cases r with
  | none => rfl
  | some why =>
    have hall := allRead_tried d.boot k
    simp only [searchOn, updBoot, imageRefused_boot, hd', hall]

theorem uartImage_of_recovery {o : Otp} {d : Dev} (h : Searching d.boot true) (bs : List Byte) (bad : Nat) :
    uartImage o d bs bad = match (bootTest o d bs bad).2 with
      | none => bootPass (bootTest o d bs bad).1 2 bs
      | some why => imageRefused (bootTest o d bs bad).1 bs 0 2 why := by
  have hgo : (!inRecovery d.boot || d.boot.mgc || d.boot.passed2 || d.boot.kat != some true) = false := by
    rw [h.inRecovery, h.kat, h.mgc, h.passed2]
    rfl
  exact if_neg (by rw [hgo]; exact Bool.false_ne_true)

/-- Settles O9: each step is its own function, with the tests it owes passed; a refused candidate leaves the CP and the TU to the search, which
    only notes how far it has come. -/
theorem bootRomStepsRun : Obligations.BootRomStepsRun := by
  intro s
  refine ⟨fun hm hk ok => ?_, fun hm hk ok => ?_, fun ha hk m main backup hmem hdir => ⟨readDir main backup, rfl, ?_⟩,
    fun ha hk hr hg h2 bs bad m c e k htried hcand => ?_, fun ha hk hr hg h2 bs bad => ?_⟩
  · rw [show exec (.tuKnownAnswerTests ok) s = nextMgc s fun d => knownAnswer d ok from rfl, nextMgc_awake hm, onDev, onDev, knownAnswer_of_none hk]
  · rw [show exec (.tuKnownAnswerTests ok) s = nextMgc s fun d => knownAnswer d ok from rfl, nextMgc_awake hm, onDev_eq_self]
    exact if_pos hk
  · rw [show exec (.bootDirectoryRead m main backup) s = nextDev s fun d => directoryRead d m.val main backup from rfl, nextDev_awake ha, onDev, onDev,
      directoryRead_of_unread hk hmem hdir]
    rfl
  · have hgo : Searching s.dev.boot false := ⟨hk, hr, hg, h2⟩
    have hx : exec (.bootImageVerify bs bad) s = .next (onDev s fun d => bootImage s.otp d bs bad.val) := nextDev_awake ha
    rcases ht : bootTest s.otp s.dev (bs.take e.length) bad.val with ⟨d, r⟩
    have hd : d.boot = s.dev.boot := by rw [← bootTest_boot s.otp s.dev (bs.take e.length) bad.val, ht]
    have hi := bootImage_of_candidate hgo bs bad.val htried hcand ht
    cases r with
    | none => rw [hx, onDev, hi]
    | some why =>
      refine ⟨_, hx, rfl, ?_⟩
      rw [onDev, hi]
      have hb := searchOn_boot (imageRefused d (bs.take e.length) c m why) k (candidates s.dev.boot (bootType s.dev.boot)).length
        (by rw [imageRefused_boot, hd, hr])
      rw [imageRefused_boot, hd] at hb
      dsimp only
      rw [hb]
      refine ⟨by rw [searchOn_eq], by rw [searchOn_eq], rfl, rfl, ?_⟩
      rw [Bool.and_eq_true, decide_eq_true_iff]
  · have hx : exec (.uartRecoveryContainer bs bad) s = .next (onDev s fun d => uartImage s.otp d bs bad.val) := nextDev_awake ha
    have hi := uartImage_of_recovery (o := s.otp) ⟨hk, hr, hg, h2⟩ bs bad.val
    rcases ht : bootTest s.otp s.dev bs bad.val with ⟨d, r⟩
    rw [ht] at hi
    cases r with
    | none => rw [hx, onDev, hi]
    | some why => rw [hx, onDev, hi]

end Sys2Proof.Proofs


/-! ## O38: an issue cycle beside a gated mate that still holds credit -/

namespace Sys2Proof.Proofs
open Sys2Proof.Machine

/-- A SWAP that arrays 0 and 1 share. -/
def sharedSwap : FeedRow := { mark := 1, share := 3#4 }

/-- An array at the given ramp step with that SWAP at the head of its queue, a complete shadow tile and a whole slot of credit. -/
def swapWaits (ramp : Nat) : Arr := { feeder := [sharedSwap], shadow := { loaded := 32 }, ramp := ramp, rampCredit := 4 }

/-- Core 0 with array 0 at full density and array 1 gated, both waiting for the shared SWAP. -/
def gatedMate : State := { dev := { cores := [(0, { arrays := [(0, swapWaits 0), (1, swapWaits 4)] })] } }

theorem gatedMate_mayIssue : mayIssue (coreOf gatedMate.dev 0) 0 = true := by decide

/-- In the cycle itself array 1 begins its ramp-up without credit, so array 0 spends no slot. -/
theorem gatedMate_spends_nothing : (arr (coreOf (issueCycle gatedMate.dev 0 fun _ => none) 0) 0).dutyUsed = 0 := by decide

/-- Nothing else falls due in the cycle: no changeover, no duty window, and each array at full density or gated. -/
theorem gatedMate_quiet :
    ∀ k < 4, (arr (coreOf gatedMate.dev 0) k).cause = 0 →
      (arr (coreOf gatedMate.dev 0) k).changing = 0#4 ∧ (arr (coreOf gatedMate.dev 0) k).dutyPos < 16 ∧
        ((arr (coreOf gatedMate.dev 0) k).ramp = 0 ∨ (arr (coreOf gatedMate.dev 0) k).ramp = 4) := by decide

theorem gatedMate_issueCycle :
    exec (.issueCycle 0 (none, none) (none, none)) gatedMate = .next (onDev gatedMate fun d => issueCycle d 0 fun _ => none) := by
  rw [show exec (.issueCycle 0 (none, none) (none, none)) gatedMate
    = nextDev gatedMate fun d => issueCycle d 0 fun a => ([none, none, none, none].getD a none) from rfl, nextDev_awake rfl]
  have hpush : (fun a => ([none, none, none, none] : List (Option FeedRow)).getD a none) = fun _ => none := by
    funext a
    rcases a with _ | _ | _ | _ | a <;> rfl
  simp only [hpush]

/-- Refutes O38: a SWAP shared by array 0, at full density, and array 1, gated but holding the credit of a slot, may issue as the core stands
    before the cycle; the cycle first brings array 1 to ramp-up without credit, so that array 0's head does not issue. Where the
    model itself gates an array it clears the credit (`rampTo`); the statement speaks of every state. -/
theorem not_arrayIssues : ¬ Obligations.ArrayIssues := by
  intro h
  obtain ⟨-, -, hquiet⟩ := h.1 gatedMate 0 none none none none rfl
  obtain ⟨t, ht, hk⟩ := hquiet (by decide) (by decide) rfl rfl rfl rfl gatedMate_quiet
  obtain rfl : onDev gatedMate (fun d => issueCycle d 0 fun _ => none) = t := Host.Outcome.next.inj (gatedMate_issueCycle.symm.trans ht)
  obtain ⟨-, -, hissues, -⟩ := hk 0 (by decide) rfl
  obtain ⟨hduty, -⟩ := hissues sharedSwap [] rfl rfl rfl rfl gatedMate_mayIssue
  exact absurd (gatedMate_spends_nothing.symm.trans hduty) (by decide)

end Sys2Proof.Proofs


/-! ## O10: resets return the device to its reset state -/

namespace Sys2Proof.Proofs
open Sys2Proof.Machine

/-- The device that a reset leaves before the fuses set its arrays: the straps and what a reset keeps (R546, R547). -/
def strapped (d : Dev) : Dev :=
  let b : Dev := { store0 := d.store0, store1 := d.store1, freeNo := d.freeNo, ctl := { testMode := d.ctl.testMode, tap := d.ctl.tap }
                   boot := { mode := d.boot.mode, recovery := d.boot.mode == 3 } }
  setCnt (setCnt (setCnt b 0x6000 2 d.boot.mode) 0x1300 2 (cnt d 0x1300 2)) 0x1300 3 (cnt d 0x1300 2)

theorem freshDev_eq (o : Otp) (d : Dev) : freshDev o d = (List.range 16).foldl (fuseCore o) (strapped d) := rfl

/-! ### What the fuses set -/

/-- The fuses' setting of one array: its cause and its repair byte (R55, R502). -/
def fuseArr (o : Otp) (n : Nat) (d : Dev) (a : Nat) : Dev :=
  let f := bit (fusedMask o) (4 * n + a)
  let r := sget (fun _ => 0#8) o.repair (4 * n + a)
  if f || r != 0#8 then updArr d n a fun x => { x with cause := b2n f, repair := r } else d

theorem fuseCore_eq (o : Otp) (d : Dev) (n : Nat) : fuseCore o d n = (List.range 4).foldl (fuseArr o n) d := rfl

theorem fuseArr_writes (o : Otp) (n : Nat) (d : Dev) (a : Nat) : fuseArr o n d a = d ∨ ∃ g, fuseArr o n d a = updArr d n a g := by
  unfold fuseArr
  extract_lets f r
  split
  · exact .inr ⟨_, rfl⟩
  · exact .inl rfl

theorem fuseArr_beside (o : Otp) (n : Nat) (d : Dev) (a : Nat) : { fuseArr o n d a with cores := [] } = { d with cores := [] } := by
  obtain h | ⟨g, h⟩ := fuseArr_writes o n d a <;> rw [h]
  rfl

theorem fuseArr_core (o : Otp) (n : Nat) (d : Dev) (a m : Nat) : { coreOf (fuseArr o n d a) m with arrays := [] } = { coreOf d m with arrays := [] } := by
  obtain h | ⟨g, h⟩ := fuseArr_writes o n d a <;> rw [h]
  by_cases hm : m = n
  · rw [hm, updArr, coreOf_updCore]
    rfl
  · rw [coreOf_updArr_ne d _ hm]

theorem fuseArr_cause (o : Otp) (n : Nat) {d : Dev} {a : Nat} (h : (arr (coreOf d n) a).cause = 0) :
    (arr (coreOf (fuseArr o n d a) n) a).cause = b2n (bit (fusedMask o) (4 * n + a)) := by
  unfold fuseArr
  extract_lets f r
  by_cases hf : (f || r != 0#8) = true
  · rw [if_pos hf, arr_updArr]
  · rw [if_neg hf, h]
    have hff : f = false := (Bool.or_eq_false_iff.mp (Bool.not_eq_true _ ▸ hf)).1
    rw [show bit (fusedMask o) (4 * n + a) = false from hff]
    rfl

theorem fuseArr_arr_ne (o : Otp) (n : Nat) (d : Dev) {a b : Nat} (h : a ≠ b) : arr (coreOf (fuseArr o n d a) n) b = arr (coreOf d n) b := by
  obtain hf | ⟨g, hf⟩ := fuseArr_writes o n d a <;> rw [hf]
  exact arr_updArr_ne d _ (Ne.symm h)

theorem fuseCore_cause (o : Otp) {d : Dev} {n a : Nat} (ha : a < 4) (h : (arr (coreOf d n) a).cause = 0) :
    (arr (coreOf (fuseCore o d n) n) a).cause = b2n (bit (fusedMask o) (4 * n + a)) := by
  obtain ⟨e, he, -, hfold⟩ := foldl_at (fun e : Dev => arr (coreOf e n) a) (fun _ => ()) (f := fuseArr o n)
    (fun e c hc => fuseArr_arr_ne o n e hc) (fun _ _ => rfl) List.nodup_range (List.mem_range.mpr ha) d
  rw [fuseCore_eq, hfold]
  exact fuseArr_cause o n ((congrArg Arr.cause he).trans h)

theorem fuseCore_core_ne (o : Otp) (d : Dev) {n m : Nat} (h : n ≠ m) : coreOf (fuseCore o d n) m = coreOf d m := by
  rw [fuseCore_eq]
  refine foldl_keeps (fun e : Dev => coreOf e m) _ (fun e a _ => ?_) d
  obtain hf | ⟨g, hf⟩ := fuseArr_writes o n e a <;> rw [hf]
  exact coreOf_updArr_ne e _ (Ne.symm h)

/-! ### The device after a reset -/

theorem freshDev_beside (o : Otp) (d : Dev) : { freshDev o d with cores := [] } = { strapped d with cores := [] } := by
  rw [freshDev_eq]
  refine foldl_keeps (fun e : Dev => { e with cores := [] }) _ (fun e n _ => ?_) _
  rw [fuseCore_eq]
  exact foldl_keeps (fun e : Dev => { e with cores := [] }) _ (fun e a _ => fuseArr_beside o n e a) e

theorem freshDev_part (o : Otp) (d : Dev) {γ : Type} (g : Dev → γ) (hg : ∀ e, g { e with cores := [] } = g e) : g (freshDev o d) = g (strapped d) :=
  (hg _).symm.trans ((congrArg g (freshDev_beside o d)).trans (hg _))

theorem freshDev_core (o : Otp) (d : Dev) (m : Nat) : { coreOf (freshDev o d) m with arrays := [] } = ({} : Core) := by
  rw [freshDev_eq]
  refine (foldl_keeps (fun e : Dev => { coreOf e m with arrays := [] }) _ (fun e n _ => ?_) _).trans rfl
  rw [fuseCore_eq]
  exact foldl_keeps (fun e : Dev => { coreOf e m with arrays := [] }) _ (fun e a _ => fuseArr_core o n e a m) e

theorem freshDev_cause (o : Otp) (d : Dev) {n a : Nat} (hn : n < 16) (ha : a < 4) :
    (arr (coreOf (freshDev o d) n) a).cause = b2n (bit (fusedMask o) (4 * n + a)) := by
  obtain ⟨e, he, -, hfold⟩ := foldl_at (fun e : Dev => coreOf e n) (fun _ => ()) (f := fuseCore o)
    (fun e c hc => fuseCore_core_ne o e hc) (fun _ _ => rfl) List.nodup_range (List.mem_range.mpr hn) (strapped d)
  rw [freshDev_eq, hfold]
  exact fuseCore_cause o ha (congrArg (fun c => (arr c a).cause) he)

theorem freshDev_cnt (o : Otp) (d : Dev) (i sub : Nat) : cnt (freshDev o d) i sub = cnt (strapped d) i sub :=
  freshDev_part o d (fun e => cnt e i sub) fun _ => rfl

theorem freshDev_ctl (o : Otp) (d : Dev) : (freshDev o d).ctl = { testMode := d.ctl.testMode, tap := d.ctl.tap } := freshDev_part o d Dev.ctl fun _ => rfl

theorem freshDev_boot (o : Otp) (d : Dev) : (freshDev o d).boot = { mode := d.boot.mode, recovery := d.boot.mode == 3 } :=
  freshDev_part o d Dev.boot fun _ => rfl

theorem freshDev_mode (o : Otp) (d : Dev) : (freshDev o d).boot.mode = d.boot.mode := by rw [freshDev_boot]

theorem strapped_mode (d : Dev) : cnt (strapped d) 0x6000 2 = d.boot.mode := by
  rw [strapped, cnt_setCnt_ne _ _ _ _ (by decide), cnt_setCnt_ne _ _ _ _ (by decide), cnt_setCnt]

theorem strapped_pins (d : Dev) : cnt (strapped d) 0x1300 2 = cnt d 0x1300 2 := by
  rw [strapped, cnt_setCnt_ne _ _ _ _ (by decide), cnt_setCnt]

theorem strapped_node (d : Dev) : cnt (strapped d) 0x1300 3 = cnt d 0x1300 2 := by
  rw [strapped, cnt_setCnt]

theorem strapped_cnt_ne (d : Dev) {i sub : Nat} (hs : sub < 256) (h : (i, sub) ∉ [(0x6000, 2), (0x1300, 2), (0x1300, 3)]) : cnt (strapped d) i sub = 0 := by
  simp only [List.mem_cons, List.not_mem_nil, or_false, not_or, Prod.mk.injEq] at h
  obtain ⟨h1, h2, h3⟩ := h
  rw [strapped, cnt_setCnt_ne _ _ _ _ (by unfold odKey; omega), cnt_setCnt_ne _ _ _ _ (by unfold odKey; omega),
    cnt_setCnt_ne _ _ _ _ (by unfold odKey; omega)]
  rfl

theorem freshOf_freshDev (o : Otp) (d : Dev) : FreshOf d (freshDev o d) := by
  have h {γ : Type} (g : Dev → γ) (hg : ∀ e, g { e with cores := [] } = g e) := freshDev_part o d g hg
  exact {
    od := ⟨h (fun e : Dev => e.od.sets) fun _ => rfl, h (fun e : Dev => e.od.doms) fun _ => rfl⟩
    counts := fun i sub hs hn => (freshDev_cnt o d i sub).trans (strapped_cnt_ne d hs fun hm => hn (List.mem_append_left [(0x1010, 3)] hm))
    memory := ⟨h Dev.mem fun _ => rfl, h Dev.dmc fun _ => rfl⟩
    compute := ⟨h Dev.cp fun _ => rfl, h Dev.ctrs fun _ => rfl, h Dev.se fun _ => rfl, h Dev.mpe fun _ => rfl⟩
    cores := freshDev_core o d
    image := ⟨h Dev.cams fun _ => rfl, h Dev.ics fun _ => rfl, h Dev.ipl fun _ => rfl⟩
    rest := ⟨h Dev.afe fun _ => rfl, h Dev.ports fun _ => rfl, h Dev.mgc fun _ => rfl, h Dev.power fun _ => rfl, h Dev.tu fun _ => rfl, h Dev.breath fun _ => rfl,
      h Dev.regs fun _ => rfl, h Dev.once fun _ => rfl⟩
    apc := h (fun e : Dev => { e.apc with mtimeOff := 0 }) fun _ => rfl
    boot := by rw [freshDev_boot]
    stores := ⟨h Dev.store0 fun _ => rfl, h Dev.store1 fun _ => rfl⟩ }

/-- What FreshOf says bears neither on the pins' part nor on what the store of another device with the same media holds. -/
theorem freshOf_ctl {e e' d : Dev} (h : FreshOf e d) (h0 : e'.store0 = e.store0) (h1 : e'.store1 = e.store1) (c : Ctl) : FreshOf e' { d with ctl := c } :=
  { od := h.od, counts := h.counts, memory := h.memory, compute := h.compute, cores := h.cores, image := h.image, rest := h.rest, apc := h.apc,
    boot := h.boot, stores := ⟨h.stores.1.trans h0.symm, h.stores.2.trans h1.symm⟩ }

/-- Nor does it bear on the timer logic, which a warm reset keeps. -/
theorem freshOf_timer {e d : Dev} (h : FreshOf e d) (cause : Nat) (k : Clk) (m : Nat) :
    FreshOf e { setCnt d 0x1010 3 cause with clk := k, apc := { d.apc with mtimeOff := m } } :=
  { od := h.od
    counts := fun i sub hs hn => by
      have hk : (i, sub) ≠ (0x1010, 3) := fun he => hn (by simp [he])
      refine (cnt_setCnt_ne d 0x1010 3 cause (j := i) (q := sub) ?_).trans (h.counts i sub hs hn)
      unfold odKey
      rintro hkey
      exact hk (by rw [Prod.mk.injEq]; omega)
    memory := h.memory, compute := h.compute, cores := h.cores, image := h.image, rest := h.rest, apc := h.apc, boot := h.boot, stores := h.stores }

/-! ### The resets -/

/-- The device as PORST_N falls: the test access port is in reset first (R549). -/
def tapReset (s : State) : Dev := { s.dev with ctl := { s.dev.ctl with tap := .idcode } }

theorem porstFall_eq (s : State) (mask : BitVec 64) :
    porstFall s mask =
      let d := freshDev (cutFuses s mask) (tapReset s)
      { s with otp := cutFuses s mask, dev := { d with ctl := { d.ctl with porstLow := true, sysrstLow := s.dev.ctl.sysrstLow } } } := rfl

theorem porstFall_fresh (s : State) (mask : BitVec 64) :
    FreshOf s.dev (porstFall s mask).dev ∧ (porstFall s mask).dev.clk = {}
      ∧ (porstFall s mask).dev.ctl = { porstLow := true, sysrstLow := s.dev.ctl.sysrstLow, testMode := s.dev.ctl.testMode, tap := .idcode } := by
  rw [porstFall_eq]
  exact ⟨freshOf_ctl (e' := s.dev) (freshOf_freshDev (cutFuses s mask) (tapReset s)) rfl rfl _,
    freshDev_part (cutFuses s mask) (tapReset s) Dev.clk fun _ => rfl,
    congrArg (fun c : Ctl => { c with porstLow := true, sysrstLow := s.dev.ctl.sysrstLow }) (freshDev_ctl (cutFuses s mask) (tapReset s))⟩

/-- The device whose straps PORST_N's rise samples (R546). -/
def sampled (s : State) (mode node : Nat) (test : Bool) : Dev :=
  setCnt { s.dev with boot := { s.dev.boot with mode := mode }, ctl := { testMode := test, tap := .idcode } } 0x1300 2 node

theorem porstRise_of_low {s : State} (h : s.dev.ctl.porstLow = true) (mode node : Nat) (test : Bool) :
    porstRise s mode node test =
      let d := freshDev s.otp (sampled s mode node test)
      { s with dev := { d with ctl := { d.ctl with sysrstLow := s.dev.ctl.sysrstLow } } } := if_pos h

theorem warmOf_warmReset {s : State} (h : s.dev.ctl.held = false) (cause : Nat) (mask : BitVec 64) (low : Bool) :
    WarmOf s (warmReset s cause mask low) cause mask ∧ (warmReset s cause mask low).dev.ctl.sysrstLow = low := by
  have hw : warmReset s cause mask low =
      let o := cutFuses s mask
      let d := setCnt (freshDev o s.dev) 0x1010 3 cause
      { s with otp := o, dev := { d with clk := s.dev.clk, apc := { d.apc with mtimeOff := s.dev.apc.mtimeOff }, ctl := { d.ctl with sysrstLow := low } } } :=
    if_neg (by rw [h]; exact Bool.false_ne_true)
  rw [hw]
  refine ⟨?_, rfl⟩
  exact {
    pending := rfl
    otp := rfl
    fresh := freshOf_ctl (freshOf_timer (freshOf_freshDev (cutFuses s mask) s.dev) cause s.dev.clk s.dev.apc.mtimeOff) rfl rfl _
    clock := ⟨rfl, rfl⟩
    cause := cnt_setCnt (freshDev (cutFuses s mask) s.dev) 0x1010 3 cause
    straps := ⟨freshDev_mode (cutFuses s mask) s.dev,
      (cnt_setCnt_ne (freshDev (cutFuses s mask) s.dev) 0x1010 3 cause (j := 0x1300) (q := 2) (by decide)).trans
        ((freshDev_cnt _ _ _ _).trans (strapped_pins s.dev))⟩ }

theorem porstLow_of_awake {s : State} (h : Awake s) : s.dev.ctl.porstLow = false := by
  have hm : s.dev.ctl.heldMgc = false := (Bool.or_eq_false_iff.mp h).1
  exact (Bool.or_eq_false_iff.mp (Bool.or_eq_false_iff.mp hm).1).1

theorem sysrstAssert_of_long {s : State} {ns : Nat} (h : 1000 ≤ ns) (mask : BitVec 64) :
    sysrstAssert s ns mask =
      if s.dev.ctl.porstLow then { s with dev := { s.dev with ctl := { s.dev.ctl with sysrstLow := true } } } else warmReset s 1 mask true :=
  if_pos (by rw [decide_eq_true h, Bool.true_or])

theorem warmReset_of_held {s : State} (h : s.dev.ctl.held = true) (cause : Nat) (mask : BitVec 64) (low : Bool) : warmReset s cause mask low = s := if_pos h

theorem resetsReturnTheDevice_each : Claim.ResetsReturnTheDevice := by
  intro s
  refine ⟨fun mask => ?_, fun hp mode node test => ?_, fun ha ns mask hns => ?_, fun ha mask => ⟨_, rfl, warmOf_warmReset ha 2 mask false⟩,
    fun ha mask => ⟨_, rfl, warmOf_warmReset ha 3 mask false⟩, rfl⟩
  · exact ⟨_, rfl, rfl, rfl, porstFall_fresh s mask⟩
  · let d := sampled s mode.val node.toNat test
    have hr := porstRise_of_low hp mode.val node.toNat test
    refine ⟨_, rfl, ?_⟩
    rw [hr]
    exact ⟨rfl, rfl, freshOf_ctl (e' := s.dev) (freshOf_freshDev s.otp d) rfl rfl _, congrArg Clk.ns (freshDev_part s.otp d Dev.clk fun _ => rfl), freshDev_mode s.otp d,
      (freshDev_cnt s.otp d _ _).trans (strapped_mode d), (freshDev_cnt s.otp d _ _).trans ((strapped_pins d).trans (cnt_setCnt ..)),
      (freshDev_cnt s.otp d _ _).trans ((strapped_node d).trans (cnt_setCnt ..)), congrArg (fun c : Ctl => { c with sysrstLow := s.dev.ctl.sysrstLow }) (freshDev_ctl s.otp d)⟩
  · refine ⟨_, rfl, ?_⟩
    rw [sysrstAssert_of_long hns, porstLow_of_awake ha]
    exact warmOf_warmReset ha 1 mask true

theorem fusedMask_cutFuses (s : State) (mask : BitVec 64) : fusedMask (cutFuses s mask) = fusedMask s.otp := by
  have h := otpLe_cutFuses s mask
  rw [fusedMask, fusedMask, ← h.grade, ← h.fusedOff]

theorem resetMarksFusedArrays : Claim.ResetMarksFusedArrays := by
  intro s t mask h
  obtain rfl : porstFall s mask = t := Host.Outcome.next.inj h
  refine ⟨fun n hn a ha => ?_, (freshDev_cnt _ _ _ _).trans (strapped_node _)⟩
  rw [← fusedMask_cutFuses s mask]
  exact freshDev_cause (cutFuses s mask) _ hn ha

theorem overlappingResetsResolve : Claim.OverlappingResetsResolve := by
  intro s ns mask
  refine ⟨fun hns => congrArg Host.Outcome.next ?_, fun hns hp => congrArg Host.Outcome.next ?_, fun ht hp => ?_⟩
  · refine if_neg ?_
    rw [decide_eq_false (by omega), decide_eq_false (by omega)]
    exact Bool.false_ne_true
  · rw [sysrstAssert_of_long hns, if_pos hp]
  · have hheld : s.dev.ctl.held = true := by rw [Ctl.held, ht, Bool.or_true]
    refine ⟨congrArg Host.Outcome.next ?_, congrArg Host.Outcome.next (warmReset_of_held hheld 2 mask false),
      congrArg Host.Outcome.next (warmReset_of_held hheld 3 mask false)⟩
    unfold sysrstAssert
    extract_lets resets
    rw [hp, warmReset_of_held hheld]
    exact ite_self s

theorem tapInstruction_of_low {d : Dev} (h : d.ctl.porstLow = true) (i : TapOp) : tapInstruction d i = d := if_pos h

theorem tapInstruction_public {d : Dev} (h : ¬d.ctl.porstLow = true) {i : TapOp} (hi : ∀ k, i ≠ .debug k) :
    tapInstruction d i = { d with ctl := { d.ctl with tap := i } } := by
  refine (if_neg h).trans ?_
  cases i with
  | debug k => exact absurd rfl (hi k)
  | bypass | idcode | sample | extest => rfl

theorem tapInstruction_debug {d : Dev} (h : ¬d.ctl.porstLow = true) (k : Fin 4) :
    tapInstruction d (.debug k) =
      { d with ctl := { d.ctl with tap := if (cnt d 0x6030 4).testBit k.val ∧ d.ctl.testMode = false then .debug k else .bypass } } := by
  refine (if_neg h).trans ?_
  simp only [Bool.and_eq_true, Bool.not_eq_true']

theorem tapSelectsPublicInstructions : Claim.TapSelectsPublicInstructions := by
  intro s
  have hopen (hp : s.dev.ctl.porstLow = false) : ¬s.dev.ctl.porstLow = true := by rw [hp]; exact Bool.false_ne_true
  have hx (i : TapOp) : exec (.tapInstruction i) s = .next (onDev s fun d => tapInstruction d i) := rfl
  refine ⟨rfl, fun hp i hi => ?_, fun hp k => ?_, fun hp i => ?_⟩
  · rw [hx, onDev, onDev, tapInstruction_public (hopen hp) hi]
  · rw [hx, onDev, onDev, tapInstruction_debug (hopen hp)]
  · rw [hx, onDev, tapInstruction_of_low hp]

/-- Settles O10: a reset leaves the strapped device with the arrays that the fuses set, whatever stood before it; each kind of reset adds what it
    keeps. -/
theorem resetsReturnTheDevice : Obligations.ResetsReturnTheDevice :=
  ⟨resetsReturnTheDevice_each, resetMarksFusedArrays, overlappingResetsResolve, tapSelectsPublicInstructions⟩

end Sys2Proof.Proofs


/-! ## O57: register writes -/

namespace Sys2Proof.Proofs
open Sys2Proof.Machine

/-! ### The CP's other registers -/

/-- EVT_CTRL with its reserved bits 0 (Table 8.6). -/
def evtCtrlBits (v : W64) : W64 := BitVec.ofNat 64 (fld v 24 40 * 2 ^ 24 + fld v 16 5 * 2 ^ 16 + fld v 0 1)

theorem fld_lt {n : Nat} (r : BitVec n) (lo w : Nat) : fld r lo w < 2 ^ w := Nat.mod_lt _ (Nat.two_pow_pos w)

theorem evtCtrlBits_toNat (v : W64) : (evtCtrlBits v).toNat = fld v 24 40 * 2 ^ 24 + fld v 16 5 * 2 ^ 16 + fld v 0 1 := by
  have hb := fld_lt v 24 40
  have hs := fld_lt v 16 5
  have he := fld_lt v 0 1
  rw [evtCtrlBits, BitVec.toNat_ofNat, Nat.mod_eq_of_lt]
  omega

theorem evtCtrlBits_base (v : W64) : fld (evtCtrlBits v) 24 40 = fld v 24 40 := by
  have hb := fld_lt v 24 40
  have hs := fld_lt v 16 5
  have he := fld_lt v 0 1
  rw [fld, evtCtrlBits_toNat, Nat.shiftRight_eq_div_pow]
  omega

theorem evtCtrlBits_size (v : W64) : fld (evtCtrlBits v) 16 5 = fld v 16 5 := by
  have hs := fld_lt v 16 5
  have he := fld_lt v 0 1
  rw [fld, evtCtrlBits_toNat, Nat.shiftRight_eq_div_pow]
  omega

theorem evtCtrlBits_enable (v : W64) : bit (evtCtrlBits v) 0 = bit v 0 := by
  have he := fld_lt v 0 1
  have h : fld (evtCtrlBits v) 0 1 = fld v 0 1 := by
    rw [fld, evtCtrlBits_toNat, Nat.shiftRight_eq_div_pow]
    omega
  rw [bit, bit, h]

theorem ctxBaseWrite_of_disabled {d : Dev} (h : (d.cp.wcs.any fun e => e.2.state != 0#4) = false) (v : W64) :
    ctxBaseWrite d v = { d with cp := { d.cp with ctxBase := BitVec.ofNat 40 (fld v 20 20 * 2 ^ 20) } } := by
  obtain ⟨base, hbase⟩ : ∃ base, BitVec.ofNat 40 (fld v 20 20 * 2 ^ 20) = base := ⟨_, rfl⟩
  rw [ctxBaseWrite, hbase, h]
  rfl

theorem evtCtrlWrite_of_disabled {d : Dev} (h : bit d.cp.evtCtrl 0 = false) (v : W64) :
    evtCtrlWrite d v = updCp d fun c =>
      if bit v 0 then { c with evtCtrl := evtCtrlBits v, evtTail := 1#24, evtHead := 1#24 } else { c with evtCtrl := evtCtrlBits v } := by
  have hb := evtCtrlBits_enable v
  unfold evtCtrlBits at *
  simp only [evtCtrlWrite, h, hb, Bool.false_and, Bool.false_eq_true, if_false, Bool.not_false, Bool.true_and]

theorem evtCtrlWrite_of_moved {d : Dev} (h : bit d.cp.evtCtrl 0 = true) {v : W64}
    (hm : fld d.cp.evtCtrl 24 40 ≠ fld v 24 40 ∨ fld d.cp.evtCtrl 16 5 ≠ fld v 16 5) : evtCtrlWrite d v = d := by
  have hb := evtCtrlBits_base v
  have hs := evtCtrlBits_size v
  unfold evtCtrlBits at *
  refine if_pos ?_
  rw [hb, hs, h, Bool.true_and, Bool.or_eq_true, bne_iff_ne, bne_iff_ne]
  exact hm

theorem evtCtrlWrite_of_kept {d : Dev} (h : bit d.cp.evtCtrl 0 = true) {v : W64}
    (hb : fld d.cp.evtCtrl 24 40 = fld v 24 40) (hs : fld d.cp.evtCtrl 16 5 = fld v 16 5) :
    evtCtrlWrite d v = updCp d fun c => { c with evtCtrl := evtCtrlBits v } := by
  have hb' := evtCtrlBits_base v
  have hs' := evtCtrlBits_size v
  unfold evtCtrlBits at *
  simp only [evtCtrlWrite, hb, hs, hb', hs', bne_self_eq_false, Bool.or_self, Bool.and_false, h, Bool.not_true, Bool.false_and, Bool.false_eq_true,
    if_false]

/-- A value that holds the fields of another as EVT_CTRL does. -/
theorem exists_evtCtrlBits (v : W64) :
    ∃ b : W64, evtCtrlBits v = b ∧ fld b 24 40 = fld v 24 40 ∧ fld b 16 5 = fld v 16 5 ∧ bit b 0 = bit v 0 :=
  ⟨_, rfl, evtCtrlBits_base v, evtCtrlBits_size v, evtCtrlBits_enable v⟩

theorem cpRun_of_idle {d : Dev} (h : d.cp.cmds = []) (k : Nat) : cpRun k d = d := by
  cases k with
  | zero => rfl
  | succ k => simp only [cpRun, h]

theorem releaseSettle_of_settled {d : Dev} {w : Nat} (h : (wcOf d w).releasePending = false) : releaseSettle d w = d := by
  rw [releaseSettle, h]
  simp only [Bool.false_and, Bool.false_eq_true, if_false]

theorem complHeadWrite_of_cached {d : Dev} {w : Nat} (v : W64) (hc : (wcOf d w).cached = true) (hq : d.cp.cmds = [])
    (hr : (wcOf d w).releasePending = false) :
    complHeadWrite d w v =
      if (BitVec.ofNat 32 v.toNat - (wcOf d w).complHead).toNat ≤ ((wcOf d w).complTail - (wcOf d w).complHead).toNat then
        updWc (touchWc d w) w fun c => { c with complHead := BitVec.ofNat 32 v.toNat, dirty := true }
      else postEventWc (touchWc d w) 0x0821 1 srcCp w (BitVec.ofNat 32 v.toNat).toNat := by
  have hset : releaseSettle (updWc (touchWc d w) w fun c => { c with complHead := BitVec.ofNat 32 v.toNat, dirty := true }) w =
      updWc (touchWc d w) w fun c => { c with complHead := BitVec.ofNat 32 v.toNat, dirty := true } :=
    releaseSettle_of_settled (by rw [wcOf_updWc, wcOf_touchWc]; exact hr)
  have hrun : cpRun 64 (updWc (touchWc d w) w fun c => { c with complHead := BitVec.ofNat 32 v.toNat, dirty := true }) =
      updWc (touchWc d w) w fun c => { c with complHead := BitVec.ofNat 32 v.toNat, dirty := true } :=
    cpRun_of_idle (d := updWc (touchWc d w) w fun c => { c with complHead := BitVec.ofNat 32 v.toNat, dirty := true }) hq 64
  rw [complHeadWrite, ensureCached_of_cached hc]
  simp only [wcOf_touchWc, hset, hrun]

theorem cpRegisterWrites : Claim.CpRegisterWrites := by
  intro s ha
  have hx (c : Instr) (f : Dev → Dev) (hc : exec c s = nextDev s f) : exec c s = .next (onDev s f) := hc.trans (nextDev_awake ha)
  refine ⟨fun v h => ?_, fun v h => ?_, fun v h => ?_, fun v h hm => ?_, fun v h hb hs => ?_, fun w v hc hq hr => ?_⟩
  · rw [hx (.ctxBaseWrite v) (fun d => ctxBaseWrite d v) rfl, onDev, ctxBaseWrite_of_disabled h, onDev]
  · rw [hx (.ctxBaseWrite v) (fun d => ctxBaseWrite d v) rfl, onDev, ctxBaseWrite, if_pos h]
  · refine ⟨_, hx (.evtCtrlWrite v) (fun d => evtCtrlWrite d v) rfl, ?_⟩
    obtain ⟨b, hv', hbase, hsize, hen⟩ := exists_evtCtrlBits v
    rw [onDev, evtCtrlWrite_of_disabled h, hv']
    cases hv : bit v 0
    · exact ⟨hbase, hsize, hen.trans hv, fun hf => absurd hf Bool.false_ne_true, rfl⟩
    · exact ⟨hbase, hsize, hen.trans hv, fun _ => ⟨rfl, rfl⟩, rfl⟩
  · rw [hx (.evtCtrlWrite v) (fun d => evtCtrlWrite d v) rfl, onDev, evtCtrlWrite_of_moved h hm]
  · refine ⟨_, hx (.evtCtrlWrite v) (fun d => evtCtrlWrite d v) rfl, ?_⟩
    obtain ⟨b, hv', hbase, hsize, hen⟩ := exists_evtCtrlBits v
    rw [onDev, evtCtrlWrite_of_kept h hb hs, hv']
    exact ⟨hbase, hsize, hen, rfl, rfl⟩
  · have hw := hx (.completionHeadWrite w v) (fun d => complHeadWrite d w.toNat v) rfl
    have hd := complHeadWrite_of_cached v hc hq hr
    refine ⟨fun hin => ?_, fun hout => ?_⟩
    · rw [hw, onDev, hd, if_pos hin, onDev]
    · rw [hw, onDev, hd, if_neg hout, onDev]

/-! ### Writes of the application cluster -/

/-- An access of 2^k bytes is a whole one of 8 B exactly for the largest size. -/
theorem whole_iff (k : Fin 4) (a : Nat) : (2 ^ k.val = 8 ∧ a % 8 = 0) ↔ (k = 3 ∧ a % 8 = 0) := by
  have h : ∀ k : Fin 4, 2 ^ k.val = 8 ↔ k = 3 := by decide
  rw [h k]

theorem sget_foldl_withPos_outside {α : Type} [DecidableEq α] {dflt : Nat → α} (base : Nat) (l : List α) (t : Sparse α) {x : Nat}
    (hx : x < base ∨ base + l.length ≤ x) : sget dflt ((withPos l).foldl (fun r e => sset dflt r (base + e.1) e.2) t) x = sget dflt t x := by
  refine foldl_keeps (fun r => sget dflt r x) _ (fun r e he => sget_sset_ne _ _ _ ?_) t
  have hlt : e.1 < l.length := (List.getElem?_eq_some_iff.mp (mem_withPos.mp he)).1
  omega

theorem apcCoreWrite_stores (d : Dev) (n a : Nat) : (apcCoreWrite d n a).mem = d.mem ∧ (apcCoreWrite d n a).cores = d.cores := by
  unfold apcCoreWrite
  split
  · exact ⟨rfl, rfl⟩
  · have h := discardGranule_sameStores d n false a (Config.hartWriter a)
    exact ⟨h.mem, h.cores⟩

/-- The registers of a range without a table after a write of some bytes (log 48). -/
def keptBytes (d : Dev) (base : Nat) (bs : List Byte) : Dev :=
  { d with regs := (withPos bs).foldl (fun l x => sset (fun _ => 0#8) l (base + x.1) x.2) d.regs }

theorem keptBytes_spec (d : Dev) (base n : Nat) (v : Nat) :
    (∀ i < n, sget (fun _ => 0#8) (keptBytes d base (leBytes n v)).regs (base + i) = (leBytes n v).getD i 0#8)
      ∧ ∀ x, x < base ∨ base + n ≤ x → sget (fun _ => 0#8) (keptBytes d base (leBytes n v)).regs x = sget (fun _ => 0#8) d.regs x := by
  refine ⟨fun i hi => ?_, fun x hx => sget_foldl_withPos_outside base _ _ (by rw [length_leBytes]; exact hx)⟩
  have hi' : i < (leBytes n v).length := by rwa [length_leBytes]
  rw [List.getD_eq_getElem _ _ hi']
  exact sget_foldl_withPos base (leBytes n v) d.regs i _ (List.getElem?_eq_getElem hi')

section
variable {d : Dev} {a n : Nat} {v : W64}

theorem registerEffect_of_done {e : Dev} (h : registerWrite d a n v = .done e) : registerEffect a n v d = e := by rw [registerEffect, h]

theorem registerEffect_of_refused (h : registerWrite d a n v = .refused) : registerEffect a n v d = addressError d (Config.hartSource a).toNat a := by
  rw [registerEffect, h]
  rfl

theorem registerWrite_periph {j o : Nat} (h : areaOf d a = .periph j o) : registerWrite d a n v = periphWrite d j o n v := by
  simp only [registerWrite, h]

/-- The four slots whose registers take whole accesses only, and what such an access does (Table 1.6). -/
theorem periphWrite_whole {j : Nat} (hj : j ∈ [0x00, 0x01, 0x1D, 0x1E]) (o : Nat) :
    periphWrite d j o n v =
      if n = 8 ∧ o % 8 = 0 then
        .done (if j = 0x00 then cpRegWrite d o v else if j = 0x01 then dmcRegWrite d o v else if j = 0x1D then gpioRegWrite d o v else tuRegWrite d o v)
      else .refused := by
  simp only [List.mem_cons, List.not_mem_nil, or_false] at hj
  rcases hj with rfl | rfl | rfl | rfl <;> rfl

theorem periphWrite_blank {j : Nat} (hj : j ∈ [0x02, 0x03, 0x04, 0x05, 0x08, 0x09, 0x16, 0x17, 0x1C]) (o : Nat) :
    periphWrite d j o n v = .done (keptBytes d (j * 0x100000 + o) (leBytes n v.toNat)) := by
  simp only [List.mem_cons, List.not_mem_nil, or_false] at hj
  rcases hj with rfl | rfl | rfl | rfl | rfl | rfl | rfl | rfl | rfl <;> rfl

end

theorem registerWritesAct_each : Claim.RegisterWritesAct := by
  intro s a k v ha src whole
  have hx : exec (.registerWrite a k v) s = .next { s with dev := registerEffect a.toNat (2 ^ k.val) v s.dev } :=
    (exec_registerWrite a k v s).trans (nextDev_awake ha)
  have hdone {e : Dev} (h : registerWrite s.dev a.toNat (2 ^ k.val) v = .done e) : exec (.registerWrite a k v) s = .next { s with dev := e } := by
    rw [hx, registerEffect_of_done h]
  have hrefused (h : registerWrite s.dev a.toNat (2 ^ k.val) v = .refused) :
      exec (.registerWrite a k v) s = .next { s with dev := addressError s.dev src a.toNat } := by
    rw [hx, registerEffect_of_refused h]
  have hwhole := whole_iff k a.toNat
  have hslot {j o : Nat} (hj : j ∈ [0x00, 0x01, 0x1D, 0x1E]) (h : areaOf s.dev a.toNat = .periph j o) :=
    (registerWrite_periph (n := 2 ^ k.val) (v := v) h).trans (periphWrite_whole hj o)
  refine ⟨fun h => ?_, fun r h => ⟨decide (2 ^ k.val = 8 ∧ a.toNat % 8 = 0), hdone ?_, ?_⟩, fun h => hrefused ?_, fun c o h => ?_,
    fun o h => ⟨fun hw => hdone ?_, fun hw => hrefused ?_⟩, fun j o h => ⟨fun ho => hdone ?_, fun ho => hrefused ?_⟩, fun o h => hdone ?_,
    fun j o h hj hw => hrefused ?_, fun o h hk ho => hdone ?_, fun o h hk ho => hdone ?_, fun o h hk ho => hdone ?_, fun o h hk ho => hdone ?_,
    fun j o h hj => ?_⟩
  · rcases h with h | ⟨b, h⟩ <;> exact hdone (by simp only [registerWrite, h]; rfl)
  · simp only [registerWrite, h]
  · rw [decide_eq_true_iff]
    exact hwhole
  · rcases h with h | ⟨c, o, h⟩ | ⟨c, o, h⟩ <;> simp only [registerWrite, h]
  · have hs := apcCoreWrite_stores s.dev c a.toNat
    rcases h with h | h <;> exact ⟨_, hdone (e := apcCoreWrite s.dev c a.toNat) (by simp only [registerWrite, h]), hs.1, hs.2⟩
  · simp only [registerWrite, h, if_pos (hwhole.mpr hw)]
  · simp only [registerWrite, h, if_neg fun h' => hw (hwhole.mp h')]
  · simp only [registerWrite, h, if_pos ho]
  · simp only [registerWrite, h, if_neg ho]
  · simp only [registerWrite, h]
  · rw [hslot hj h, if_neg fun h' => hw ((whole_iff k o).mp h')]
  · rw [hslot (by decide) h, if_pos ((whole_iff k o).mpr ⟨hk, ho⟩)]
    rfl
  · rw [hslot (by decide) h, if_pos ((whole_iff k o).mpr ⟨hk, ho⟩)]
    rfl
  · subst ho
    rw [hslot (by decide) h, if_pos ((whole_iff k 0).mpr ⟨hk, rfl⟩)]
    rfl
  · rw [hslot (by decide) h, if_pos ((whole_iff k o).mpr ⟨hk, ho⟩)]
    rfl
  · obtain ⟨hin, hout⟩ := keptBytes_spec s.dev (j * 0x100000 + o) (2 ^ k.val) v.toNat
    exact ⟨_, hdone ((registerWrite_periph h).trans (periphWrite_blank hj o)), hin, hout, rfl, rfl, rfl⟩

/-- Settles O57: the CP's registers by their fields, then the ranges of the map, each with the effect of its own block. -/
theorem registerWritesAct : Obligations.RegisterWritesAct := ⟨cpRegisterWrites, registerWritesAct_each⟩

end Sys2Proof.Proofs


/-! ## The context cache, the order of dispatch and the receipt of an epoch (O26) -/

namespace Sys2Proof.Proofs
open Sys2Proof.Machine

/-! ### What changes of the CP beside one work context -/

/-- Of the work contexts only w changes, and no command leaves or joins the queue. -/
structure OnlyWc (w : Nat) (d e : Dev) : Prop where
  others : ∀ v, v ≠ w → wcOf e v = wcOf d v
  cmds : e.cp.cmds = d.cp.cmds

section
variable {w : Nat} {d e f : Dev}

theorem OnlyWc.refl (d : Dev) : OnlyWc w d d := ⟨fun _ _ => rfl, rfl⟩

theorem OnlyWc.trans (h : OnlyWc w d e) (k : OnlyWc w e f) : OnlyWc w d f :=
  ⟨fun v hv => (k.others v hv).trans (h.others v hv), k.cmds.trans h.cmds⟩

theorem Leaves.cmds {K : Nat → Prop} (h : Leaves K d e) : e.cp.cmds = d.cp.cmds := by
  obtain ⟨p, l, s, hcp⟩ := h.cp
  rw [hcp]

theorem OnlyWc.of_leaves {K : Nat → Prop} (h : Leaves K d e) : OnlyWc w d e := ⟨fun v _ => h.wcOf v, h.cmds⟩

theorem OnlyWc.updWc (d : Dev) (g : Wc → Wc) : OnlyWc w d (updWc d w g) := ⟨fun _ hv => wcOf_updWc_ne d g hv, rfl⟩

end

theorem touchWc_onlyWc (d : Dev) (w : Nat) : OnlyWc w d (touchWc d w) :=
  .trans (e := updCp d fun c => { c with useClock := d.cp.useClock + 1 }) ⟨fun _ _ => rfl, rfl⟩ (.updWc _ _)

/-! ### The context cache -/

/-- A fill's end: the entry is cached, and neither another work context nor the count of fills has moved. -/
structure Filled (w : Nat) (d e : Dev) : Prop extends OnlyWc w d e where
  cached : (wcOf e w).cached = true
  fills : cnt e 0x2602 4 = cnt d 0x2602 4

theorem filled_faultWc (d : Dev) (w cause : Nat) : Filled w d (faultWc d w cause) := by
  have hp : Leaves (fun _ => False) (updWc d w fun c => { c with cached := true, state := 3#4, dirty := true }) (faultWc d w cause) :=
    leaves_postEventWc ..
  exact { toOnlyWc := .trans (.updWc d _) (.of_leaves hp), cached := by rw [hp.wcOf, wcOf_updWc], fills := hp.cnt id }

theorem filled_loadEntry (d : Dev) (w v : Nat) : Filled w d (loadEntry d w v) := by
  unfold loadEntry
  extract_lets e
  have hwcs : (((List.range 8).foldl (fun d i => updRing d (8 * w + i) fun r => { r with head := BitVec.ofNat 32 (v / 2 ^ (1024 + 32 * i)) }) e).cp.wcs) =
      e.cp.wcs := foldl_keeps (fun e : Dev => e.cp.wcs) _ (by exact fun _ _ _ => rfl) e
  have hwc (u : Nat) := congrArg (fun l => sget (fun _ => ({} : Wc)) l u) hwcs
  exact {
    others := fun u hu => (hwc u).trans (wcOf_updWc_ne d _ hu)
    cmds := foldl_keeps (fun e : Dev => e.cp.cmds) _ (by exact fun _ _ _ => rfl) e
    cached := (congrArg Wc.cached (hwc w)).trans (congrArg Wc.cached (wcOf_updWc d w _))
    fills := foldl_keeps (fun e : Dev => cnt e 0x2602 4) _ (by exact fun _ _ _ => rfl) e }

theorem Filled.trans {w : Nat} {d e f : Dev} (h : OnlyWc w d e) (hc : cnt e 0x2602 4 = cnt d 0x2602 4) (k : Filled w e f) : Filled w d f :=
  { toOnlyWc := h.trans k.toOnlyWc, cached := k.cached, fills := k.fills.trans hc }

theorem fillEntry_eq (d : Dev) (w : Nat) :
    fillEntry d w =
      let r := memRead d (some agCp) srcCp (entryAddr d w) 256
      let f := bump r.1 0x2602 4 4 1
      if r.2.2 = true then faultWc f w 1
      else
        let x := loadEntry f w (leNat r.2.1)
        if (wcOf x w).state ≠ 0#4 && (entryFault (wcOf x w)).isSome then faultWc x w 2 else x := rfl

/-- The entry as read: counted, then loaded or faulted (R269, R271). -/
theorem fillEntry_filled (d : Dev) (w : Nat) :
    Filled w (bump (memRead d (some agCp) srcCp (entryAddr d w) 256).1 0x2602 4 4 1) (fillEntry d w) := by
  rw [fillEntry_eq]
  extract_lets r f x
  have hloaded : Filled w f x := filled_loadEntry f w (leNat r.2.1)
  refine if h : r.2.2 = true then ?_ else ?_
  · rw [if_pos h]
    exact filled_faultWc f w 1
  rw [if_neg h]
  split
  · exact .trans hloaded.toOnlyWc hloaded.fills (filled_faultWc x w 2)
  · exact hloaded

theorem cnt_fills_memRead (d : Dev) (g : Option Nat) (s a n : Nat) : cnt (memRead d g s a n).1 0x2602 4 = cnt d 0x2602 4 :=
  (leaves_memRead d g s a n).cnt (by unfold AccessKey odKey; omega)

theorem fillEntry_onlyWc (d : Dev) (w : Nat) : OnlyWc w d (fillEntry d w) :=
  .trans (.of_leaves (leaves_memRead d (some agCp) srcCp (entryAddr d w) 256)) (.trans (e := bump (memRead d (some agCp) srcCp (entryAddr d w) 256).1 0x2602 4 4 1) ⟨fun _ _ => rfl, rfl⟩ (fillEntry_filled d w).toOnlyWc)

theorem fillEntry_fills (d : Dev) (w : Nat) : cnt (fillEntry d w) 0x2602 4 = (cnt d 0x2602 4 + 1) % 2 ^ 32 := by
  rw [(fillEntry_filled d w).fills, cnt_bump, cnt_fills_memRead]
  rfl

/-- The device before the entry loses its mark: read, merged and written back (R264). -/
theorem writeThrough_leaves (d : Dev) (w : Nat) : ∃ e, Leaves AccessKey d e ∧ writeThrough d w = updWc e w fun c => { c with dirty := false } :=
  ⟨_, (leaves_memRead ..).trans (leaves_memWrite ..), rfl⟩

theorem makeRoom_of_room {d : Dev} (h : cachedCount d < 3072) : makeRoom d = (d, true) := if_pos h

theorem makeRoom_of_evictable {d : Dev} (h : 3072 ≤ cachedCount d) {v : Nat} (hv : evictChoice d = some v) :
    makeRoom d = (updWc (writeThrough d v) v fun c => { c with cached := false }, true) := by
  rw [makeRoom, if_neg (Nat.not_lt.mpr h), hv]

theorem makeRoom_of_stuck {d : Dev} (h : 3072 ≤ cachedCount d) (hv : evictChoice d = none) : makeRoom d = (bump d 0x2602 5 4 1, false) := by
  rw [makeRoom, if_neg (Nat.not_lt.mpr h), hv]

theorem ensureCached_of_uncached {d : Dev} {w : Nat} (h : (wcOf d w).cached = false) :
    ensureCached d w = if (makeRoom d).2 = true then (touchWc (fillEntry (makeRoom d).1 w) w, true) else ((makeRoom d).1, false) :=
  if_neg (by rw [h]; exact Bool.false_ne_true)

theorem touchWc_cached (d : Dev) (w : Nat) : (wcOf (touchWc d w) w).cached = (wcOf d w).cached := by rw [wcOf_touchWc]

theorem contextCacheRuns : Claim.ContextCacheRuns := by
  intro s w ha hq
  have hx (c : Instr) (f : Dev → Dev) (hc : exec c s = nextDev s f) : exec c s = .next (onDev s f) := hc.trans (nextDev_awake ha)
  have hfill : exec (.contextFill w) s = .next (onDev s fun d => contextFill d w.toNat) := hx _ _ rfl
  have hrun : (ensureCached s.dev w.toNat).1.cp.cmds = [] → contextFill s.dev w.toNat = (ensureCached s.dev w.toNat).1 := fun h => cpRun_of_idle h 64
  refine ⟨fun hc hroom => ?_, fun hc hfull hev => ?_, fun hc hfull hev => ?_, fun hc => ?_, fun hd => ?_, fun hd => ?_⟩
  · have he : ensureCached s.dev w.toNat = (touchWc (fillEntry s.dev w.toNat) w.toNat, true) := by
      rw [ensureCached_of_uncached hc, makeRoom_of_room hroom, if_pos rfl]
    have honly : OnlyWc w.toNat s.dev (touchWc (fillEntry s.dev w.toNat) w.toNat) := (fillEntry_onlyWc s.dev w.toNat).trans (touchWc_onlyWc _ _)
    rw [he] at hrun
    refine ⟨_, hfill, rfl, rfl, ?_⟩
    rw [onDev, hrun (honly.cmds.trans hq)]
    exact ⟨(touchWc_cached _ _).trans (fillEntry_filled s.dev w.toNat).cached, honly.others, fillEntry_fills s.dev w.toNat⟩
  · obtain ⟨v, hv⟩ := Option.isSome_iff_exists.mp hev
    obtain ⟨e, hl, hwt⟩ := writeThrough_leaves s.dev v
    obtain ⟨x, hx'⟩ : ∃ x, makeRoom s.dev = (x, true) ∧ x.cp.cmds = [] := by
      rw [makeRoom_of_evictable hfull hv, hwt]
      exact ⟨_, rfl, hl.cmds.trans hq⟩
    have he : ensureCached s.dev w.toNat = (touchWc (fillEntry x w.toNat) w.toNat, true) := by
      rw [ensureCached_of_uncached hc, hx'.1, if_pos rfl]
    have honly : OnlyWc w.toNat x (touchWc (fillEntry x w.toNat) w.toNat) := (fillEntry_onlyWc x w.toNat).trans (touchWc_onlyWc _ _)
    rw [he] at hrun
    refine ⟨_, hfill, ?_⟩
    rw [onDev, hrun (honly.cmds.trans hx'.2)]
    exact (touchWc_cached _ _).trans (fillEntry_filled x w.toNat).cached
  · have he : ensureCached s.dev w.toNat = (bump s.dev 0x2602 5 4 1, false) := by
      rw [ensureCached_of_uncached hc, makeRoom_of_stuck hfull hev, if_neg Bool.false_ne_true]
    rw [he] at hrun
    rw [hfill, onDev, hrun hq, onDev]
  · rw [ensureCached_of_cached hc] at hrun
    rw [hfill, onDev, hrun hq, onDev]
  · obtain ⟨e, hl, hwt⟩ := writeThrough_leaves s.dev w.toNat
    refine ⟨_, hx (.contextWriteThrough w) (fun d => contextWriteThrough d w.toNat) rfl, rfl, rfl, ?_⟩
    rw [onDev, contextWriteThrough, if_pos hd, hwt]
    exact ⟨by rw [wcOf_updWc, hl.wcOf], fun v hv => (wcOf_updWc_ne e _ hv).trans (hl.wcOf v)⟩
  · rw [hx (.contextWriteThrough w) (fun d => contextWriteThrough d w.toNat) rfl, onDev, contextWriteThrough, if_neg (by rw [hd]; exact Bool.false_ne_true)]

/-! ### The order of dispatch -/

/-- Place of ring r in the round-robin of its class: its distance from the ring served last (R279). -/
def turnOf (d : Dev) (r : Nat) : Nat := (r + 32768 - (sget (fun _ => 32767) d.cp.rr (wClass (wcOf d (r / 8))) + 1)) % 32768

theorem chosenRing_le {d : Dev} {r : Nat} (h : chosenRing d = some r) {q : Nat} (hq : q ∈ readyRings d) :
    wClass (wcOf d (r / 8)) * 32768 + turnOf d r ≤ wClass (wcOf d (q / 8)) * 32768 + turnOf d q := by
  obtain ⟨y, hy, hle⟩ := bestOf_le (fun r => wClass (wcOf d (r / 8)) * 32768 + turnOf d r) hq
  have hyr : y = r := Option.some.inj (hy.symm.trans h)
  rw [hyr] at hle
  exact hle

theorem dispatchOrder : Claim.DispatchOrder := by
  intro d r h
  have hmem : r ∈ readyRings d := bestOf_mem h
  refine ⟨hmem, (List.mem_filter.mp hmem).2, fun q hq => ?_, fun q hq _ _ hk => ?_⟩
  · have hle := chosenRing_le h hq
    have hr : turnOf d r < 32768 := Nat.mod_lt _ (by decide)
    have hq' : turnOf d q < 32768 := Nat.mod_lt _ (by decide)
    omega
  · have hle := chosenRing_le h hq
    have hq' : (q + 32768 - (sget (fun _ => 32767) d.cp.rr (wClass (wcOf d (r / 8))) + 1)) % 32768 = turnOf d q := by rw [turnOf, hk]
    have hr : (r + 32768 - (sget (fun _ => 32767) d.cp.rr (wClass (wcOf d (r / 8))) + 1)) % 32768 = turnOf d r := rfl
    rw [hq', hr]
    omega

/-! ### A stream engine and a hub receive an epoch -/

/-- Only the stream engines and the cores differ. -/
def besideStreams (d₀ e : Dev) : Dev := { e with se := d₀.se, cores := d₀.cores }

theorem eq_of_besideStreams {d e : Dev} (h : besideStreams d e = d) : e = { d with se := e.se, cores := e.cores } :=
  congrArg (fun x : Dev => { x with se := e.se, cores := e.cores }) h

theorem eq_of_besideCtrs {d e : Dev} (h : { e with ctrs := d.ctrs } = d) : e = { d with ctrs := e.ctrs } :=
  congrArg (fun x : Dev => { x with ctrs := e.ctrs }) h

/-- One channel of an engine receives the epoch of its work context (R258). -/
def epochAtChan (e w : Nat) (d : Dev) (k : Nat) : Dev :=
  let c := chan d (64 * e + k)
  if c.state ≠ 0 ∧ c.state ≠ 4 ∧ chWc c = w then setChan (c.frames.foldl (dropChanFrame w) d) (64 * e + k) { c with state := 4, frames := [], credit := [], held := 0#4 } else d

theorem seEpoch_eq (d : Dev) (e w : Nat) : seEpoch d e w = (List.range 64).foldl (epochAtChan e w) d := rfl

theorem dropChanFrame_beside (d₀ : Dev) (w : Nat) (d : Dev) (f : Frame) : besideStreams d₀ (dropChanFrame w d f) = besideStreams d₀ d := by
  unfold dropChanFrame
  cases f.send with
  | none => rfl
  | some k =>
    dsimp only
    split
    · rfl
    · cases opAt (coreOf d k.core) k.wc k.ring k.pos <;> rfl

theorem dropChanFrame_se (w : Nat) (d : Dev) (f : Frame) : (dropChanFrame w d f).se = d.se := by
  unfold dropChanFrame
  cases f.send with
  | none => rfl
  | some k =>
    dsimp only
    split
    · rfl
    · cases opAt (coreOf d k.core) k.wc k.ring k.pos <;> rfl

theorem chan_dropFrames (w : Nat) (fs : List Frame) (d : Dev) (k : Nat) : chan (fs.foldl (dropChanFrame w) d) k = chan d k :=
  foldl_keeps (fun e : Dev => chan e k) fs (fun e f _ => congrArg (fun x : Streams => sget (fun _ => ({} : Chan)) x.chans k) (dropChanFrame_se w e f)) d

theorem epochAtChan_beside (d₀ : Dev) (e w : Nat) (d : Dev) (k : Nat) : besideStreams d₀ (epochAtChan e w d k) = besideStreams d₀ d := by
  unfold epochAtChan
  extract_lets c
  split
  · exact foldl_keeps (besideStreams d₀) c.frames (fun x f _ => dropChanFrame_beside d₀ w x f) d
  · rfl

theorem epochAtChan_other (e w : Nat) (d : Dev) {j k : Nat} (h : k ≠ 64 * e + j) : chan (epochAtChan e w d j) k = chan d k := by
  unfold epochAtChan
  extract_lets c
  split
  · rw [chan_setChan_ne _ _ h, chan_dropFrames]
  · rfl

theorem epochAtChan_own (e w : Nat) (d : Dev) (j : Nat) :
    chan (epochAtChan e w d j) (64 * e + j) =
      if (chan d (64 * e + j)).state ≠ 0 ∧ (chan d (64 * e + j)).state ≠ 4 ∧ chWc (chan d (64 * e + j)) = w then
        { chan d (64 * e + j) with state := 4, frames := [], credit := [], held := 0#4 }
      else chan d (64 * e + j) := by
  unfold epochAtChan
  extract_lets c
  by_cases h : c.state ≠ 0 ∧ c.state ≠ 4 ∧ chWc c = w
  · rw [if_pos h, if_pos h, chan_setChan]
  · rw [if_neg h, if_neg h]

theorem seEpoch_beside (d : Dev) (e w : Nat) : seEpoch d e w = { d with se := (seEpoch d e w).se, cores := (seEpoch d e w).cores } := by
  have h : besideStreams d (seEpoch d e w) = d := by
    rw [seEpoch_eq]
    exact foldl_keeps (besideStreams d) _ (fun x k _ => epochAtChan_beside d e w x k) d
  exact eq_of_besideStreams h

theorem seEpoch_chan (d : Dev) (e w k : Nat) :
    chan (seEpoch d e w) k =
      if k / 64 = e ∧ (chan d k).state ≠ 0 ∧ (chan d k).state ≠ 4 ∧ chWc (chan d k) = w then
        { chan d k with state := 4, frames := [], credit := [], held := 0#4 }
      else chan d k := by
  rw [seEpoch_eq]
  by_cases hk : k / 64 = e
  · obtain ⟨x, hx, -, hfold⟩ := foldl_at (fun x : Dev => chan x k) (fun _ => ()) (f := epochAtChan e w) (b := k % 64)
      (fun x j hj => epochAtChan_other e w x (by omega)) (fun _ _ => rfl) List.nodup_range (List.mem_range.mpr (Nat.mod_lt k (by decide))) d
    have hk' : 64 * e + k % 64 = k := by omega
    have hown := epochAtChan_own e w x (k % 64)
    rw [hk'] at hown
    rw [hfold, hown, hx]
    simp only [hk, true_and]
  · rw [if_neg fun h => hk h.1]
    exact foldl_keeps (fun x : Dev => chan x k) _ (fun x j hj => epochAtChan_other e w x (by have := List.mem_range.mp hj; omega)) d

/-- One counter of a hub receives the epoch of its work context (R293). -/
def epochAtCtr (h w : Nat) (d : Dev) (k : Nat) : Dev :=
  let t := ctrOf d (64 * h + k)
  if (t.state = 1 ∨ t.state = 2) ∧ t.wc = w then setCtr d (64 * h + k) { t with state := 3 } else d

theorem hubEpoch_eq (d : Dev) (h w : Nat) : hubEpoch d h w = (List.range 64).foldl (epochAtCtr h w) d := rfl

theorem epochAtCtr_other (h w : Nat) (d : Dev) {j k : Nat} (hk : k ≠ 64 * h + j) : ctrOf (epochAtCtr h w d j) k = ctrOf d k := by
  unfold epochAtCtr
  extract_lets t
  split
  · rw [ctrOf_setCtr_ne _ _ hk]
  · rfl

theorem epochAtCtr_own (h w : Nat) (d : Dev) (j : Nat) :
    ctrOf (epochAtCtr h w d j) (64 * h + j) =
      if ((ctrOf d (64 * h + j)).state = 1 ∨ (ctrOf d (64 * h + j)).state = 2) ∧ (ctrOf d (64 * h + j)).wc = w then
        { ctrOf d (64 * h + j) with state := 3 }
      else ctrOf d (64 * h + j) := by
  unfold epochAtCtr
  extract_lets t
  by_cases hc : (t.state = 1 ∨ t.state = 2) ∧ t.wc = w
  · rw [if_pos hc, if_pos hc, ctrOf_setCtr]
  · rw [if_neg hc, if_neg hc]

theorem epochAtCtr_beside (d₀ : Dev) (h w : Nat) (d : Dev) (k : Nat) : { epochAtCtr h w d k with ctrs := d₀.ctrs } = { d with ctrs := d₀.ctrs } := by
  rcases hc : decide (((ctrOf d (64 * h + k)).state = 1 ∨ (ctrOf d (64 * h + k)).state = 2) ∧ (ctrOf d (64 * h + k)).wc = w) with _ | _
  · rw [show epochAtCtr h w d k = d from if_neg (of_decide_eq_false hc)]
  · rw [show epochAtCtr h w d k = setCtr d (64 * h + k) { ctrOf d (64 * h + k) with state := 3 } from if_pos (of_decide_eq_true hc)]
    rfl

theorem hubEpoch_beside (d : Dev) (h w : Nat) : hubEpoch d h w = { d with ctrs := (hubEpoch d h w).ctrs } := by
  have hb : { hubEpoch d h w with ctrs := d.ctrs } = d := by
    rw [hubEpoch_eq]
    exact foldl_keeps (fun x : Dev => { x with ctrs := d.ctrs }) _ (fun x k _ => epochAtCtr_beside d h w x k) d
  exact eq_of_besideCtrs hb

theorem hubEpoch_ctr (d : Dev) (h w k : Nat) :
    ctrOf (hubEpoch d h w) k =
      if k / 64 = h ∧ ((ctrOf d k).state = 1 ∨ (ctrOf d k).state = 2) ∧ (ctrOf d k).wc = w then { ctrOf d k with state := 3 } else ctrOf d k := by
  rw [hubEpoch_eq]
  by_cases hk : k / 64 = h
  · obtain ⟨x, hx, -, hfold⟩ := foldl_at (fun x : Dev => ctrOf x k) (fun _ => ()) (f := epochAtCtr h w) (b := k % 64)
      (fun x j hj => epochAtCtr_other h w x (by omega)) (fun _ _ => rfl) List.nodup_range (List.mem_range.mpr (Nat.mod_lt k (by decide))) d
    have hk' : 64 * h + k % 64 = k := by omega
    have hown := epochAtCtr_own h w x (k % 64)
    rw [hk'] at hown
    rw [hfold, hown, hx]
    simp only [hk, true_and]
  · rw [if_neg fun hc => hk hc.1]
    exact foldl_keeps (fun x : Dev => ctrOf x k) _ (fun x j hj => epochAtCtr_other h w x (by have := List.mem_range.mp hj; omega)) d

/-! ### Cancellation -/

theorem epochReceive_of_running {d : Dev} {w : Nat} (h : (wcOf d w).state ≠ 2#4) (node : Nat) : epochReceive d node w = d := if_pos h

theorem epochReceive_of_cancelling {d : Dev} {w : Nat} (h : (wcOf d w).state = 2#4) (node : Nat) :
    epochReceive d node w =
      if node < 16 then coreEpoch d node w
      else if node = 16 then mpeEpoch d w
      else if node < 25 then seEpoch d (node - 17) w
      else hubEpoch d (node - 25) w := if_neg fun hn => hn h

theorem commandDone_cmds (d : Dev) (w op kind status detail : Nat) : (commandDone d w op kind status detail).cp.cmds = d.cp.cmds := by
  unfold commandDone writeCompletion
  extract_lets c a e f
  exact (leaves_memWrite d (some agCp) srcCp a _ false).cmds

theorem cancelComplete_of_done {d : Dev} {w : Nat} {x : Cancel} (hs : (wcOf d w).state = 2#4) (hx : (wcOf d w).cancel = some x)
    (hi : (wcOf d w).inflight = 0) (hc : countsClear d w = true) (he : x.extra = 0) (hf : 0 < freeSlots (wcOf d w)) (hq : d.cp.cmds = []) :
    cancelComplete d w =
      updWc (commandDone d w 3 2 0 (min x.skipped (2 ^ 32 - 1))) w fun c => { c with state := 1#4, cancel := none, dirty := true } := by
  simp only [cancelComplete, hx]
  generalize min x.skipped (2 ^ 32 - 1) = detail
  rw [if_pos ⟨hs, hi, hc, he ▸ hf⟩, he]
  exact cpRun_of_idle (d := updWc (commandDone d w 3 2 0 detail) w fun c => { c with state := 1#4, cancel := none, dirty := true })
    ((commandDone_cmds d w 3 2 0 detail).trans hq) 64

theorem cancelComplete_of_waiting {d : Dev} {w : Nat}
    (h : (wcOf d w).cancel = none ∨ (wcOf d w).state ≠ 2#4 ∨ (wcOf d w).inflight ≠ 0 ∨ countsClear d w = false) : cancelComplete d w = d := by
  unfold cancelComplete
  extract_lets c
  cases hx : c.cancel with
  | none => rfl
  | some x =>
    refine if_neg fun ⟨hs, hi, hc, _⟩ => ?_
    rcases h with h | h | h | h
    · exact Option.some_ne_none x (hx.symm.trans h)
    · exact h hs
    · exact h hi
    · exact Bool.false_ne_true (h.symm.trans hc)

theorem cancellationRuns : Claim.CancellationRuns := by
  intro s w ha
  have hx (node : Fin 29) : exec (.epochReceive node w) s = .next (onDev s fun d =>
      if node.val = 16 then neuralCheck (mpeNote (epochReceive d node w.toNat)) else epochReceive d node w.toNat) := nextDev_awake ha
  have hcancel : exec (.cancelComplete w) s = .next (onDev s fun d => cancelComplete d w.toNat) := nextDev_awake ha
  refine ⟨fun node hs hn => ?_, fun node hs hn => ?_, fun node hs hn => ?_, fun node hs hn => ?_, fun node hs hlo hhi => ⟨_, hx node, rfl, rfl, ?_⟩,
    fun node hs hlo => ⟨_, hx node, rfl, rfl, ?_⟩, fun x hs hc hi hk hq he hf => ?_, fun h => ?_⟩
  · rw [hx, onDev, if_neg hn, epochReceive_of_running hs]
  · rw [hx, onDev, if_pos hn, epochReceive_of_running hs, onDev]
  · rw [hx, onDev, if_neg (by omega), epochReceive_of_cancelling hs, if_pos hn, onDev]
  · rw [hx, onDev, if_pos hn, epochReceive_of_cancelling hs, if_neg (by omega), if_pos hn, onDev]
  · rw [onDev, if_neg (by omega), epochReceive_of_cancelling hs, if_neg (by omega), if_neg (by omega), if_pos hhi]
    have hb := seEpoch_beside s.dev (node.val - 17) w.toNat
    have hk := seEpoch_chan s.dev (node.val - 17) w.toNat
    generalize seEpoch s.dev (node.val - 17) w.toNat = e at hb hk ⊢
    exact ⟨hb, fun k _ => hk k⟩
  · rw [onDev, if_neg (by omega), epochReceive_of_cancelling hs, if_neg (by omega), if_neg (by omega), if_neg (by omega)]
    have hb := hubEpoch_beside s.dev (node.val - 25) w.toNat
    have hk := hubEpoch_ctr s.dev (node.val - 25) w.toNat
    generalize hubEpoch s.dev (node.val - 25) w.toNat = e at hb hk ⊢
    exact ⟨hb, fun k _ => hk k⟩
  · rw [hcancel, onDev, cancelComplete_of_done hs hc hi hk he hf hq, onDev]
  · rw [hcancel, onDev, cancelComplete_of_waiting h]

end Sys2Proof.Proofs


/-! ## O26: fetch, dispatch and the event ring -/

namespace Sys2Proof.Proofs
open Sys2Proof.Machine

/-! ### Records are fetched -/

/-- A step of the fetch from ring i of work context w: other rings stay, this one keeps its tail and what waits in it, and the entry stays cached. -/
structure Fetches (w i : Nat) (d e : Dev) : Prop where
  rings : ∀ r, r ≠ 8 * w + i → ringOf e r = ringOf d r
  tail : (ringOf e (8 * w + i)).tail = (ringOf d (8 * w + i)).tail
  ready : ∃ more, (ringOf e (8 * w + i)).ready = (ringOf d (8 * w + i)).ready ++ more
  cached : (wcOf e w).cached = (wcOf d w).cached

section
variable {w i : Nat} {d e f : Dev}

theorem Fetches.of_rings (hr : ∀ r, ringOf e r = ringOf d r) (hc : (wcOf e w).cached = (wcOf d w).cached) : Fetches w i d e :=
  ⟨fun r _ => hr r, by rw [hr], ⟨[], by rw [hr, List.append_nil]⟩, hc⟩

theorem Fetches.refl (d : Dev) : Fetches w i d d := .of_rings (fun _ => rfl) rfl

theorem Fetches.trans (h : Fetches w i d e) (k : Fetches w i e f) : Fetches w i d f := by
  obtain ⟨a, ha⟩ := h.ready
  obtain ⟨b, hb⟩ := k.ready
  exact ⟨fun r hr => (k.rings r hr).trans (h.rings r hr), k.tail.trans h.tail, ⟨a ++ b, by rw [hb, ha, List.append_assoc]⟩, k.cached.trans h.cached⟩

theorem Fetches.of_leaves {K : Nat → Prop} (h : Leaves K d e) : Fetches w i d e := .of_rings h.ringOf (congrArg Wc.cached (h.wcOf w))

theorem Fetches.updWc (g : Wc → Wc) (hg : (g (Machine.wcOf d w)).cached = (Machine.wcOf d w).cached) : Fetches w i d (Machine.updWc d w g) :=
  .of_rings (fun _ => rfl) (by rw [wcOf_updWc, hg])

theorem Fetches.updRing (g : Ring → Ring) (ht : (g (Machine.ringOf d (8 * w + i))).tail = (Machine.ringOf d (8 * w + i)).tail) {more : List (List (Line × Bool))}
    (hr : (g (Machine.ringOf d (8 * w + i))).ready = (Machine.ringOf d (8 * w + i)).ready ++ more) : Fetches w i d (Machine.updRing d (8 * w + i) g) :=
  ⟨fun _ hr => ringOf_updRing_ne d g hr, by rw [ringOf_updRing, ht], ⟨more, by rw [ringOf_updRing, hr]⟩, rfl⟩

end

theorem fetches_recordDone {d : Dev} {w : Nat} (h : (wcOf d w).cached = true) (i : Nat) (word : Line) (epoch ring : Nat) (pos : W32) (status detail flags : Nat) :
    Fetches w i d (recordDone d w word epoch ring pos status detail flags) := by
  have hwritten (tag opcode kind : Nat) : Fetches w i d (writeCompletion d w tag opcode epoch kind ring status detail flags pos.toNat) := by
    unfold writeCompletion
    extract_lets c a e f
    have he : Leaves AccessKey d e := leaves_memWrite ..
    have hf : Fetches w i e f := Fetches.updWc _ rfl
    exact ((Fetches.of_leaves he).trans hf).trans (.of_rings (fun _ => rfl) rfl)
  unfold recordDone
  rw [show fillForCompletion d w = d from if_pos h]
  extract_lets d' seq written e
  have he : Fetches w i d e := by
    show Fetches w i d (if written then _ else d)
    split
    · exact hwritten _ _ _
    · exact .refl d
  split
  · exact he.trans (.of_leaves (leaves_postEventWc (K := fun _ => True) ..))
  · exact he

theorem settleRefused_of_none {d : Dev} {w i : Nat} (h : (ringOf d (8 * w + i)).refused = none) : settleRefused d w i = d := by
  unfold settleRefused
  extract_lets r
  have hr : r.refused = none := h
  rw [hr]
  cases r.ready <;> rfl

theorem fetches_settleRefused {d : Dev} {w : Nat} (i : Nat) (h : (wcOf d w).cached = true) : Fetches w i d (settleRefused d w i) := by
  unfold settleRefused
  extract_lets r
  cases hr : r.ready with
  | cons l ls => exact .refl d
  | nil =>
    cases hf : r.refused with
    | none => exact .refl d
    | some x =>
      obtain ⟨n, code, info, word⟩ := x
      dsimp -zeta only
      extract_lets e e'
      have he : Fetches w i d e := .trans (e := bump d 0x2602 2 4 1) (.of_leaves (leaves_bump (K := fun _ => True) d _ _ _ _ trivial)) (Fetches.updWc _ rfl)
      refine (he.trans (fetches_recordDone (he.cached.trans h) i ..)).trans (Fetches.updRing _ rfl (more := []) ?_)
      exact (List.append_nil _).symm

theorem leaves_readRecord (d : Dev) (w i : Nat) (pos : W32) : Leaves AccessKey d (readRecord d w i pos).1 := leaves_memRead ..

theorem leaves_readRecords (w i k : Nat) (d : Dev) (pos : W32) : Leaves AccessKey d (readRecords w i k d pos).1 := by
  induction k generalizing d pos with
  | zero => exact .refl d
  | succ k ih => exact (leaves_readRecord d w i pos).trans (ih _ _)

theorem leaves_touchDescs (d : Dev) (c : Wc) (ws : List Line) : Leaves AccessKey d (touchDescs d c ws) :=
  leaves_foldl _ (fun e _ _ => ite_leaves (ite_leaves (.refl e) (leaves_memRead ..)) (.refl e)) d

theorem fetches_fetchUnits (w i k budget : Nat) {d : Dev} (h : (wcOf d w).cached = true) : Fetches w i d (fetchUnits w i k budget d) := by
  induction k generalizing budget d with
  | zero => exact .refl d
  | succ k ih =>
    unfold fetchUnits
    extract_lets c r pos avail
    split
    · exact .refl d
    have hread : Fetches w i d (readRecord d w i pos).1 := .of_leaves (leaves_readRecord ..)
    rcases hr : readRecord d w i pos with ⟨e, hd, p⟩
    rw [hr] at hread
    dsimp -zeta only
    extract_lets n
    split
    · exact hread
    rename_i ls f g u f₁ f₂ _
    have hrest : Fetches w i e (readRecords w i n e (pos + 1)).1 := .of_leaves (leaves_readRecords ..)
    have hg : Fetches w i d g :=
      ((hread.trans hrest).trans (Fetches.updWc (d := (readRecords w i n e (pos + 1)).1) _ rfl)).trans
        (.of_leaves (leaves_touchDescs f (wcOf f w) (ls.map (·.1))))
    split
    · rename_i code x _
      have hx : Fetches w i g (updRing g (8 * w + i) fun y => { y with refused := some (n + 1, code, x, hd) }) :=
        Fetches.updRing _ rfl (more := []) (List.append_nil _).symm
      exact hg.trans (hx.trans (fetches_settleRefused i ((hx.cached.trans hg.cached).trans h)))
    · have hx : Fetches w i g (updRing (bump g 0x22A0 1 4 (reducedCount u)) (8 * w + i) fun y => { y with ready := y.ready ++ [ls], pre := y.pre - (n + 1) }) :=
        .trans (e := bump g 0x22A0 1 4 (reducedCount u)) (.of_leaves (leaves_bump (K := fun _ => True) g _ _ _ _ trivial)) (Fetches.updRing _ rfl (more := [ls]) rfl)
      exact hg.trans (hx.trans (ih _ ((hx.cached.trans hg.cached).trans h)))

theorem recordFetch_of_cached {d : Dev} {w : Nat} (h : (wcOf d w).cached = true) (i : Nat) :
    recordFetch d w i =
      if (wcOf d w).state = 1#4 ∧ wRingEnable (wcOf d w) i = true ∧ bit (wcOf d w).halted i = false ∧ submitPending d w = false then
        fetchUnits w i 16 16 (touchWc d w)
      else touchWc d w := by
  have hsub : submitPending (touchWc d w) w = submitPending d w := rfl
  have hen : wRingEnable (wcOf (touchWc d w) w) i = wRingEnable (wcOf d w) i := by rw [wcOf_touchWc]; rfl
  rw [recordFetch, ensureCached_of_cached h]
  dsimp only
  rw [hsub, hen, wcOf_touchWc]
  simp only [Bool.true_and, Bool.and_eq_true, decide_eq_true_eq, Bool.not_eq_true', and_assoc]

/-! ### Units are dispatched -/

/-- A step of a dispatch: no ring moves, and work context w has k records more in flight. -/
structure Sends (w k : Nat) (d e : Dev) : Prop where
  rings : ∀ r, ringOf e r = ringOf d r
  inflight : (wcOf e w).inflight = (wcOf d w).inflight + k

section
variable {w j k : Nat} {d e f : Dev}

theorem Sends.refl (d : Dev) : Sends w 0 d d := ⟨fun _ => rfl, rfl⟩

theorem Sends.trans (h : Sends w j d e) (g : Sends w k e f) : Sends w (j + k) d f :=
  ⟨fun r => (g.rings r).trans (h.rings r), by rw [g.inflight, h.inflight, Nat.add_assoc]⟩

theorem Sends.after (h : Sends w k d e) (hcp : f.cp = e.cp) : Sends w k d f :=
  ⟨fun r => (congrArg (fun c : Cp => sget (fun _ => ({} : Ring)) c.rings r) hcp).trans (h.rings r),
    (congrArg (fun c : Cp => (sget (fun _ => ({} : Wc)) c.wcs w).inflight) hcp).trans h.inflight⟩

theorem Sends.of_leaves {K : Nat → Prop} (h : Leaves K d e) : Sends w 0 d e := ⟨h.ringOf, congrArg Wc.inflight (h.wcOf w)⟩

theorem Sends.updWc (d : Dev) (v : Nat) (g : Wc → Wc) (hg : ∀ c, (g c).inflight = c.inflight) : Sends w 0 d (Machine.updWc d v g) := by
  refine ⟨fun _ => rfl, ?_⟩
  by_cases h : w = v
  · rw [h, wcOf_updWc, hg, Nat.add_zero]
  · rw [wcOf_updWc_ne d g h, Nat.add_zero]

theorem Sends.foldl {α : Type} {g : Dev → α → Dev} (hg : ∀ d x, Sends w k d (g d x)) (l : List α) (d : Dev) : Sends w (k * l.length) d (l.foldl g d) := by
  induction l generalizing d with
  | nil => exact .refl d
  | cons x xs ih =>
    rw [List.length_cons, Nat.mul_succ, Nat.add_comm]
    exact (hg d x).trans (ih _)

end

theorem leaves_dsPut (d : Dev) (n off : Nat) (bs : List Byte) (p : Bool) : Leaves (fun _ => True) d (dsPut d n off bs p) := by
  unfold dsPut
  extract_lets a full e old
  have he : Leaves (fun _ => True) d e := ite_leaves (.refl d) (leaves_coreMemRead ..)
  refine he.trans ?_
  refine .trans ?_ (leaves_updMem ..)
  unfold wordWritten scrubCancel
  exact (leaves_updMem e _).trans ((leaves_updMem _ _).trans (ite_leaves (leaves_updCore ..) (.refl _)))

theorem leaves_dsStore (d : Dev) (n off : Nat) (bs : List (Byte × Bool)) : Leaves (fun _ => True) d (dsStore d n off bs) :=
  leaves_foldl _ (fun e _ _ => leaves_dsPut e ..) d

theorem leaves_copyDescs (w n : Nat) (outs : List Nat) (patch : Option Nat) (is slots : List Nat) (d : Dev) :
    Leaves (fun _ => True) d (copyDescs w n outs patch is slots d).1 := by
  induction is generalizing slots d with
  | nil => exact .refl d
  | cons i is ih =>
    cases slots with
    | nil => exact .refl d
    | cons slot slots =>
      have hread := (leaves_memReadMarked d (some agCp) srcCp (wDescTable (wcOf d w) + 64 * i) 64).mono fun _ _ => trivial
      exact (hread.trans (leaves_dsStore ..)).trans (ih _ _)

theorem leaves_copyLists (n : Nat) (xs : List (Nat × Nat × Line)) (slots : List Nat) (d : Dev) : Leaves (fun _ => True) d (copyLists n xs slots d).1 := by
  induction xs generalizing slots d with
  | nil => exact .refl d
  | cons x xs ih =>
    unfold copyLists
    extract_lets t
    split
    · exact ih slots d
    cases slots with
    | nil => exact ih [] d
    | cons slot more =>
      have hread := (leaves_memReadMarked d (some agCp) srcCp t.aux2 (2 * min 64 t.outlierCount)).mono fun _ _ => trivial
      exact (hread.trans (leaves_dsStore ..)).trans (ih _ _)

theorem sends_makeResident (w : Nat) (d : Dev) (n v : Nat) : Sends w 0 d (makeResident d n v) := by
  unfold makeResident
  extract_lets stamp e
  have he : Sends w 0 d e := (Sends.refl d).after rfl
  split
  · exact he.after rfl
  rename_i e₁ set e₂ e₃ _
  have h₁ : Sends w 0 e e₁ := by
    show Sends w 0 e (if _ then e else _)
    split
    · exact .refl e
    split
    · rename_i r _
      exact Sends.trans (j := 0) (k := 0) (e := updCore e n fun c => { c with resident := c.resident.filter (· ≠ r) })
        ((Sends.refl e).after rfl) (Sends.updWc _ r.1 (fun c => { c with resident := c.resident &&& ~~~(BitVec.ofNat 16 (2 ^ n)), dirty := true }) fun _ => rfl)
    · exact .refl e
  have h₃ : Sends w 0 e₁ e₃ := Sends.trans (j := 0) (k := 0) (e := e₂) ((Sends.refl e₁).after rfl) (Sends.updWc _ _ _ fun _ => rfl)
  have hread := (leaves_memReadMarked e₃ (some agCp) srcCp (wLenBlock (wcOf e₃ v)) 256).mono (K' := fun _ => True) fun _ _ => trivial
  exact ((he.trans h₁).trans h₃).trans (.of_leaves (hread.trans (leaves_dsStore ..)))

theorem sends_sendCopy (w v i : Nat) (d : Dev) (x : Copy) : Sends w 0 d (sendCopy v i d x) := by
  unfold sendCopy
  extract_lets n e slot f outs
  have hf : Sends w 0 d f := (sends_makeResident w d n v).trans (.of_leaves (leaves_dsStore e ..))
  have hds := leaves_copyDescs v n outs x.patch ((namedIdx x.word).filter (· ≠ 0xFFF)) (freeOf 512 (poolUsed (coreOf f n))) f
  rcases hcd : copyDescs v n outs x.patch ((namedIdx x.word).filter (· ≠ 0xFFF)) (freeOf 512 (poolUsed (coreOf f n))) f with ⟨g, ds⟩
  rw [hcd] at hds
  dsimp -zeta only
  have hls := leaves_copyLists n ds (freeOf 64 (listsUsed (coreOf g n))) g
  rcases hcl : copyLists n ds (freeOf 64 (listsUsed (coreOf g n))) g with ⟨h, ls⟩
  rw [hcl] at hls
  exact (hf.trans (.of_leaves (hds.trans hls))).after rfl

/-- What a descriptor read adds to the copy that goes to the MPE. -/
def mpeDesc (w : Nat) (s : Dev × List (Nat × Nat × Line) × Bool) (k : Nat) : Dev × List (Nat × Nat × Line) × Bool :=
  let (d, bs) := memReadMarked s.1 (some agCp) srcCp (wDescTable (wcOf s.1 w) + 64 * k) 64
  (d, s.2.1 ++ [(k, 0, BitVec.ofNat 512 (leNat (bs.map (·.1))))], s.2.2 || bs.any (·.2))

theorem leaves_mpeDescs (w : Nat) (ix : List Nat) (s : Dev × List (Nat × Nat × Line) × Bool) : Leaves AccessKey s.1 (ix.foldl (mpeDesc w) s).1 := by
  induction ix generalizing s with
  | nil => exact .refl _
  | cons k ks ih => exact (leaves_memReadMarked s.1 (some agCp) srcCp (wDescTable (wcOf s.1 w) + 64 * k) 64).trans (ih (mpeDesc w s k))

theorem sends_sendMpe (w v i : Nat) (d : Dev) (pos : W32) (word : Line) (poison : Bool) : Sends w 0 d (sendMpe v i d pos word poison) :=
  (Sends.of_leaves (leaves_mpeDescs v ((namedIdx word).filter (· ≠ 0xFFF)) (d, [], false))).after rfl

theorem leaves_armCtr (d : Dev) (w k total : Nat) : Leaves (fun _ => True) d (armCtr d w k total) := by
  unfold armCtr
  extract_lets t e
  have he : Leaves (fun _ => True) d e := leaves_foldl _ (fun x _ _ => leaves_updMem x _) d
  exact he.trans (.of_same rfl rfl rfl)

theorem sends_registerShared (w v i : Nat) (d : Dev) (pos : W32) (word : Line) (cps : List Copy) : Sends w 0 d (registerShared v i d pos word cps) := by
  unfold registerShared
  extract_lets k
  split
  · exact .refl d
  · exact ⟨fun _ => rfl, rfl⟩

theorem sends_dispatchRecord (w i : Nat) (ls : List (Line × Bool)) (cps : List Copy) (d : Dev) (x : Nat × Line × Bool) :
    Sends w 1 d (dispatchRecord w i ls cps d x) := by
  unfold dispatchRecord
  extract_lets here head pos e here' f g h
  have he : Sends w 0 d e := by
    cases hk : (here.filterMap fun c => c.ctr.map (·.1)).head? with
    | none => exact (Sends.refl d).after (by simp only [e, hk])
    | some k => exact (Sends.of_leaves (leaves_armCtr d w k (armTotal d w i ls x.1))).after (by simp only [e, hk])
  have hf : Sends w 0 e f := sends_registerShared ..
  have hg : Sends w 0 f g := .of_leaves (.trans (leaves_bump (K := fun _ => True) _ _ _ _ _ trivial) (leaves_bump _ _ _ _ _ trivial))
  have hh : Sends w 1 g h := ⟨fun _ => rfl, by rw [wcOf_updWc]⟩
  have hlast := Sends.foldl (w := w) (k := 0) (g := fun d c => if c.core = 16 then sendMpe w i d pos c.word c.poison else sendCopy w i d c)
    (fun d c => by
      split
      · exact sends_sendMpe ..
      · exact sends_sendCopy ..) here' h
  rw [Nat.zero_mul] at hlast
  exact (((he.trans hf).trans hg).trans hh).trans hlast

theorem batchEnd_bounds (cps : List Copy) (k p : Nat) (used : List Nat) : p ≤ batchEnd cps k p used ∧ batchEnd cps k p used ≤ p + k := by
  induction k generalizing p used with
  | zero => exact ⟨Nat.le_refl p, Nat.le_refl p⟩
  | succ k ih =>
    unfold batchEnd
    split
    · split
      · omega
      · have := ih (p + 1)
        grind
    · have := ih (p + 1) used
      omega

/-- As many records leave the front unit as the batch counts. -/
theorem length_batch {d : Dev} {r : Nat} {ls : List (Line × Bool)} {cps : List Copy} {e : Nat} (h : nextCopies d r ls = (cps, e)) :
    (((withPos ls).drop (ringOf d r).part).take (e - (ringOf d r).part)).length = e - (ringOf d r).part := by
  have hb := batchEnd_bounds (unitCopies (wcOf d (r / 8)) d (r % 8) 0#32 ls) (ls.length - (ringOf d r).part) (ringOf d r).part []
  have he : e = batchEnd (unitCopies (wcOf d (r / 8)) d (r % 8) 0#32 ls) (ls.length - (ringOf d r).part) (ringOf d r).part [] :=
    (congrArg Prod.snd h).symm
  rw [List.length_take, List.length_drop, withPos, List.length_zip, List.length_range]
  omega

/-- The records of the front unit that the batch sends have gone out. -/
def batchSent (d : Dev) (r : Nat) (ls : List (Line × Bool)) (cps : List Copy) (e : Nat) : Dev :=
  (((withPos ls).drop (ringOf d r).part).take (e - (ringOf d r).part)).foldl (dispatchRecord (r / 8) (r % 8) ls cps) d

/-- The ring after its front unit, or the batch's part of it, has gone out: e is the position where the batch ends. -/
def ringServed (rest : List (List (Line × Bool))) (whole : Bool) (p e now : Nat) (y : Ring) : Ring :=
  { y with head := y.head + BitVec.ofNat 32 (e - p), ready := if whole then rest else y.ready, part := if whole then 0 else e, since := now, starved := false }

/-- The CP notes what it served: the ring, the turn of its class, and a dirty entry. -/
def noteServed (d : Dev) (r : Nat) (g : Ring → Ring) : Dev :=
  let d := updRing d r g
  let d := updCp d fun c => { c with rr := sset (fun _ => 32767) c.rr (wClass (wcOf d (r / 8))) r }
  updWc d (r / 8) fun c => { c with dirty := true }

theorem ringOf_noteServed (d : Dev) (r : Nat) (g : Ring → Ring) (q : Nat) : ringOf (noteServed d r g) q = ringOf (updRing d r g) q := rfl

theorem inflight_noteServed (d : Dev) (r : Nat) (g : Ring → Ring) : (wcOf (noteServed d r g) (r / 8)).inflight = (wcOf d (r / 8)).inflight := by
  unfold noteServed
  extract_lets e f
  rw [wcOf_updWc]
  rfl

theorem dispatchRing_of_ready {d : Dev} {r : Nat} {ls : List (Line × Bool)} {rest : List (List (Line × Bool))} {cps : List Copy} {e : Nat}
    (hr : (ringOf d r).ready = ls :: rest) (hn : nextCopies d r ls = (cps, e)) :
    dispatchRing d r =
      settleRefused (noteServed (batchSent d r ls cps e) r
        (ringServed rest (decide (ls.length ≤ e)) (ringOf d r).part e (batchSent d r ls cps e).clk.ns)) (r / 8) (r % 8) := by
  unfold dispatchRing
  simp -zeta only [hr, hn]
  rfl

theorem dispatchRing_spec {d : Dev} {r : Nat} {ls : List (Line × Bool)} {rest : List (List (Line × Bool))} {cps : List Copy} {e : Nat}
    (hr : (ringOf d r).ready = ls :: rest) (hf : (ringOf d r).refused = none) (hn : nextCopies d r ls = (cps, e)) :
    (∃ now, ringOf (dispatchRing d r) r = ringServed rest (decide (ls.length ≤ e)) (ringOf d r).part e now (ringOf d r))
      ∧ (∀ q, q ≠ r → ringOf (dispatchRing d r) q = ringOf d q)
      ∧ (wcOf (dispatchRing d r) (r / 8)).inflight = (wcOf d (r / 8)).inflight + (e - (ringOf d r).part) := by
  have hsent := Sends.foldl (sends_dispatchRecord (r / 8) (r % 8) ls cps) (((withPos ls).drop (ringOf d r).part).take (e - (ringOf d r).part)) d
  rw [length_batch hn, Nat.one_mul] at hsent
  have hdisp := dispatchRing_of_ready hr hn
  have hx : Sends (r / 8) (e - (ringOf d r).part) d (batchSent d r ls cps e) := hsent
  generalize batchSent d r ls cps e = x at hdisp hx
  have hidx : 8 * (r / 8) + r % 8 = r := Nat.div_add_mod r 8
  have hown (g : Ring → Ring) : ringOf (noteServed x r g) r = g (ringOf d r) := by rw [ringOf_noteServed, ringOf_updRing, hx.rings]
  rw [settleRefused_of_none (by rw [hidx, hown]; exact hf)] at hdisp
  rw [hdisp]
  refine ⟨⟨_, hown _⟩, fun q hq => ?_, (inflight_noteServed x r _).trans hx.inflight⟩
  rw [ringOf_noteServed, ringOf_updRing_ne x _ hq, hx.rings]

/-! ### Starved rings and the event ring -/

theorem ringStarved_of_waiting {d : Dev} {r : Nat} (hk : 2 ≤ wClass (wcOf d (r / 8))) (hw : (ringOf d r).tail ≠ (ringOf d r).head)
    (hs : (ringOf d r).starved = false) (hon : setting d 0x2600 2 = 1) (ht : setting d 0x2600 1 * 1000 < d.clk.ns - (ringOf d r).since) :
    ringStarved d r = postEventWc (updRing d r fun y => { y with starved := true }) 0x0823 1 srcCp (r / 8) r := if_pos ⟨hk, hw, hs, hon, ht⟩

theorem ringStarved_of_quiet {d : Dev} {r : Nat} (h : wClass (wcOf d (r / 8)) < 2 ∨ (ringOf d r).starved = true) : ringStarved d r = d := by
  refine if_neg fun ⟨hk, _, hs, _⟩ => ?_
  rcases h with h | h
  · omega
  · exact Bool.false_ne_true (hs.symm.trans h)

/-- The event ring is enabled and has a free record (R289). -/
def RingOpen (d : Dev) : Prop := bit d.cp.evtCtrl 0 = true ∧ (d.cp.evtTail - d.cp.evtHead).toNat < 2 ^ fld d.cp.evtCtrl 16 5

theorem eventRingWrite_of_open {d : Dev} (h : RingOpen d) :
    eventRingWrite d =
      if d.cp.lostSince ≠ 0 then ringWrite (updCp d fun c => { c with lostSince := 0 }) ⟨0x0822, 1, none, srcCp, d.cp.lostSince⟩
      else match d.cp.port with
        | r :: rest => ringWrite (updCp d fun c => { c with port := rest }) r
        | [] => d := by
  refine if_pos ?_
  rw [Bool.and_eq_true, decide_eq_true_iff]
  exact h

theorem eventRingWrite_of_closed {d : Dev} (h : ¬RingOpen d) : eventRingWrite d = d := by
  refine if_neg ?_
  rw [Bool.and_eq_true, decide_eq_true_iff]
  exact h

theorem cpEngineRuns_each : Claim.CpEngineRuns := by
  intro s ha
  have hx (c : Instr) (f : Dev → Dev) (hc : exec c s = nextDev s f) : exec c s = .next (onDev s f) := hc.trans (nextDev_awake ha)
  have hfetch (w : BitVec 12) (i : Fin 8) := hx (.recordFetch w i) (fun d => recordFetch d w.toNat i) rfl
  have hdisp := hx .dispatch dispatch rfl
  have hstarve (r : BitVec 15) := hx (.ringStarved r) (fun d => ringStarved d r.toNat) rfl
  have hevent := hx .eventRingWrite eventRingWrite rfl
  refine ⟨fun w i hc hs he hh hp => ?_, fun w i hc hn => ?_, fun r ls rest cps e hch hr hf hn => ⟨_, hdisp, rfl, rfl, ?_⟩, fun hch => ?_,
    fun r hk hw hs hon ht => ?_, fun r h => ?_, fun hon hroom => ⟨fun hl => ?_, fun r rest hl hp => ?_, fun hl hp => ?_⟩, fun h => ?_⟩
  · have hd : recordFetch s.dev w.toNat i = fetchUnits w.toNat i 16 16 (touchWc s.dev w.toNat) := by
      rw [recordFetch_of_cached hc, if_pos ⟨hs, he, hh, hp⟩]
    have hstep : Fetches w.toNat i.val s.dev (fetchUnits w.toNat i 16 16 (touchWc s.dev w.toNat)) :=
      .trans (e := touchWc s.dev w.toNat) (.of_rings (fun _ => rfl) (touchWc_cached _ _))
        (fetches_fetchUnits _ _ _ _ ((touchWc_cached _ _).trans hc))
    obtain ⟨more, hmore⟩ := hstep.ready
    refine ⟨by rw [hfetch, onDev, hd, onDev], _, more, hfetch w i, ?_⟩
    rw [onDev, hd]
    exact ⟨hstep.rings, hstep.tail, hmore⟩
  · rw [hfetch, onDev, recordFetch_of_cached hc, if_neg, onDev]
    rintro ⟨hs, he, hh, -⟩
    rcases hn with h | h | h
    · exact h hs
    · exact Bool.false_ne_true (h.symm.trans he)
    · exact Bool.false_ne_true (hh.symm.trans h)
  · obtain ⟨⟨now, hserved⟩, hothers, hfl⟩ := dispatchRing_spec hr hf hn
    rw [onDev, show dispatch s.dev = dispatchRing s.dev r by rw [dispatch, hch]]
    dsimp only
    rw [hserved]
    refine ⟨rfl, rfl, ?_, ?_, hothers, hfl⟩
    · simp only [ringServed, hr, decide_eq_true_eq]
    · simp only [ringServed, decide_eq_true_eq]
  · rw [hdisp, onDev, show dispatch s.dev = s.dev by rw [dispatch, hch]]
  · rw [hstarve, onDev, ringStarved_of_waiting hk hw hs hon ht, onDev]
  · rw [hstarve, onDev, ringStarved_of_quiet h]
  · rw [hevent, onDev, eventRingWrite_of_open ⟨hon, hroom⟩, if_pos hl]
    rfl
  · rw [hevent, onDev, eventRingWrite_of_open ⟨hon, hroom⟩, if_neg (not_not_intro hl), hp]
    rfl
  · rw [hevent, onDev, eventRingWrite_of_open ⟨hon, hroom⟩, if_neg (not_not_intro hl), hp]
  · rw [hevent, onDev, eventRingWrite_of_closed]
    rintro ⟨hon, hroom⟩
    rcases h with h | h
    · exact Bool.false_ne_true (h.symm.trans hon)
    · omega

/-- Settles O26: the context cache by its fills and write-backs, the engine by what a fetch, a dispatch and an event write move, the order by the
    chosen ring's least rank, and cancellation by the part of each node. -/
theorem cpEngineRuns : Obligations.CpEngineRuns := ⟨contextCacheRuns, cpEngineRuns_each, dispatchOrder, cancellationRuns⟩

end Sys2Proof.Proofs
